-- ==== Sys2Proof/Word.lean ====
section
/-! DEFINITION. The word types of the K9 model (spec/00_scope.md, Notation and R4). -/
namespace Sys2Proof

/-- One byte of a register, queue entry, package or memory structure (R4: little-endian). -/
abbrev Byte := BitVec 8
/-- A 16-bit word. -/
abbrev W16 := BitVec 16
/-- A 32-bit word: the unit of the check code (R408) and of most registers. -/
abbrev W32 := BitVec 32
/-- A 64-bit word: handles (R69), addresses, identifiers. -/
abbrev W64 := BitVec 64

end Sys2Proof
end

