-- ==== Sys2Proof/Config.lean ====
section
/-! DEFINITION. What one K9 fixes and what the manual leaves open, as constants without a value:
nothing in Lean can evaluate them, so a proof about them holds for every value they could take. -/
namespace Sys2Proof

/-- The free values, in the order in which the machine draws them (the counter `State.fresh`):
slot numbers, generations after a cold reset (R72), nonces, placements chosen by Stage Manager and
every other value the manual leaves open. DESIGN CHOICE [11]. -/
opaque Config.freeNat : Nat → Nat

/-- Byte n of the device serial number in OTP (Table 17.9). DESIGN CHOICE [8]. -/
opaque Config.serialByte : Nat → Byte

/-- The device base MAC address in one-time-programmable memory (R123), 48 bits of it. -/
opaque Config.macBase : Nat

/-- The factory value of a user calibration parameter, sQ15.16, in one-time-programmable memory (R496): a free value. -/
opaque Config.factory : Nat → Int

/-- Byte n of the firmware key digest in OTP (R523). DESIGN CHOICE [8]. -/
opaque Config.fwDigestByte : Nat → Byte

/-- Records that the boot log holds (R499 gives no size). DESIGN CHOICE [11]. -/
opaque Config.bootLogSize : Nat

/-- Byte n of a boot log record, from its time, kind, reason and detail (R499 gives no layout). DESIGN CHOICE [11]. -/
opaque Config.bootRecordByte : List Nat → Nat → Byte

/-- The reason code of a warm reset by its cause (Table 15.13): 0 command, 1 watchdog, 2 lockstep, 3 management
SRAM, 4 end of Understudy mode. DESIGN CHOICE [6]. -/
opaque Config.warmCode : Nat → Nat

/-- The units and formats that compiled tile code names: its encoding is no user interface. A unit (0 matrix, 1
vector) with the numbers of its operand formats. A free value. DESIGN CHOICE [239]. -/
opaque Config.tileFormats : List Byte → List (Nat × Nat × Nat)

/-- The place of a block in the fetch order of a layer, by the bytes of the prefetch schedule (Table 7.4 gives no
layout), the layer and the block. A free value. DESIGN CHOICE [238]. -/
opaque Config.fetchKey : List Byte → Nat → Nat → Nat

/-- The binary point that compiled GSU code gives a quantity, and whether it fuses an FP64 product with its sum, by
what stands for the program and the place in it (R328: no user interface). A free value. DESIGN CHOICE [247]. -/
opaque Config.binaryPoint : Nat → Nat → Nat

/-- The place that a compiled ego-motion schedule gives a measurement or a window pose, by what stands for its program
and a name of the measurement or pose (R309, R328: no user interface). A free value. DESIGN CHOICE [263]. -/
opaque Config.egoPlace : Nat → List Nat → Nat

/-- The newest Plimbe build that the running Stage Manager accepts (Table 7.2). DESIGN CHOICE [17]. -/
opaque Config.plimbeNewest : Nat

/-- Byte n of the SHA3-512 digest of a message: a published standard, left uninterpreted. -/
opaque Config.sha3Byte : List Byte → Nat → Byte

/-- ML-DSA-87 verification (public key, message, signature), left uninterpreted. DESIGN CHOICE [12]. -/
opaque Config.mldsaVerify : List Byte → List Byte → List Byte → Bool

/-- Byte n of an ML-DSA-87 signature by the key pair of a public key over a message, left
uninterpreted. -/
opaque Config.mldsaSignByte : List Byte → List Byte → Nat → Byte

/-- Real-arithmetic results whose precision the manual leaves open (R287, R324): word n of the
result of a named computation on operand words. DESIGN CHOICE [13]. -/
opaque Config.realWord : Nat → List Nat → Nat → Nat

/-- Whether an encoder whose A leads its B counts up (R135 gives no direction). DESIGN CHOICE [14]. -/
opaque Config.encAleadsUp : Bool

/-- What a vision unit takes for a pixel outside its image, by column and row: no rule says. A free value. -/
opaque Config.outside : Int → Int → Nat

/-- What the padding of an image row holds (R189 gives its length only). A free value. -/
opaque Config.padByte : Nat → Nat → Byte

/-- The time word, in 2^-16 ns, that stands for an instant before zero seconds: Table 4.9 has no sign, and no
rule says what such a word holds. A free value. -/
opaque Config.timeBelowZero : Int → Nat

/-- Bytes of a cluster's free stage memory, or of the free stacked tier, that lie outside the largest
free extent, as a function of the charges placed there: placement is no user interface (R405). DESIGN CHOICE [15]. -/
opaque Config.fragmented : List Nat → Nat

/-- Word n of what a map image stands for that another device wrote: the image after its header is no
user interface (R385). DESIGN CHOICE [100]. -/
opaque Config.imageWord : List Byte → Nat → Nat

/-- The 64-byte SHA3-512 digest of a message. DESIGN CHOICE [12]. -/
def Config.sha3 (m : List Byte) : List Byte := (List.range 64).map (Config.sha3Byte m)

/-- The 4,627-byte ML-DSA-87 signature. DESIGN CHOICE [12]. -/
def Config.mldsaSign (pub m : List Byte) : List Byte :=
  (List.range 4627).map (Config.mldsaSignByte pub m)

end Sys2Proof
end

