-- ==== Sys2Proof/Syntax.lean ====
section
/-! DEFINITION. The commands of the block: one constructor of `Instr` for each row of
spec/opcode_table.json, in the table's order, with the operand types they carry. An operand is what
comes from outside the K9 (the host's accesses and memory, pins, links, sensors), or what compiled
tile code, which the manual calls no user interface (R1), has produced. An operand `ns` is the length
of a pulse in nanoseconds (R20); an operand with a default is the usual case where a sender leaves it
out: a pulse that passes its filter, no error met. -/
namespace Sys2Proof

/-- Where a request came from: a queue pair of a function (R29) or the callboard (R59). -/
inductive Src where
  | queue (fn qid : Nat)
  | callboard
deriving DecidableEq, Repr

/-- Names one fetched request: its source and its `CID` (Table 2.7). -/
structure ReqRef where
  src : Src
  cid : Nat
deriving DecidableEq, Repr

/-- How a read of host memory failed (R49): an error completion, poisoned data, or the PCIe
completion timeout. -/
inductive HostFail where
  | error | poison | timeout
deriving DecidableEq, Repr

/-- A read of host memory: the bytes that arrived in order before the first failing read, and the
failure, if any. -/
structure HostRead where
  bytes : List Byte
  fail : Option HostFail
deriving DecidableEq, Repr

/-- An uncorrectable error of management SRAM that Stage Manager meets while it serves a command (Table 12.2): the
pair, the address, the syndrome, and whether its own code lies there, not its data. -/
structure SramBad where
  index : Nat
  addr : Nat
  syndrome : Nat
  code : Bool
deriving DecidableEq, Repr

/-- What the host gives while one command is served: its descriptor list (R46), its payload (R49),
for TIME_READ the host PTM time in ns (0 for none), and for a release, whose entry names only the
object, the slot of the session that releases (R76; none: the owning session); and an error of management SRAM that
the serving meets. -/
structure Io where
  list : HostRead
  payload : HostRead
  ptm : Nat
  session : Option Nat := none
  sram : Option SramBad := none
deriving DecidableEq, Repr

/-- An access through the BAR4 window (R35): a read of a number of bytes, or a write. -/
inductive Bar4Access where
  | read (len : Nat)
  | write (bytes : List Byte)
deriving DecidableEq, Repr

/-- What is cleared or set by MSIX_UNMASK (R58). -/
inductive Unmask where
  | vector (n : Nat)
  | functionMask
  | enable
deriving DecidableEq, Repr

/-- The answer to the read of one SQ entry (R41, R49): its 64 bytes, or a failure. -/
inductive Fetched where
  | entry (bytes : List Byte)
  | failed (f : HostFail)
deriving DecidableEq, Repr

/-- The header's ECC outcome (Table 4.2). -/
inductive Ecc where
  | clean | corrected | lost
deriving DecidableEq, Repr

/-- A CSI-2 packet after the PHY (R120): its header ECC, its data type, its pixels (one line, as
pixel codes in order) and whether the payload CRC holds. -/
structure CsiPacket where
  ecc : Ecc
  dt : Nat
  pixels : List Nat
  crcOk : Bool
deriving DecidableEq, Repr

/-- A GVSP packet (R127). The standard gives its encoding; these are the fields the K9 uses. -/
inductive Gvsp where
  | leader (payloadType block pixelFormat timestamp : Nat)
  | payload (payloadType block offset : Nat) (bytes : List Byte)
  | trailer (payloadType block : Nat) (complete : Bool)
deriving DecidableEq, Repr

/-- A received PTP message (R144): an Announce with its sender, whether IEEE 1588's selection takes that
sender as the master, and its interval in ns; a Sync exchange with the offset it measured in ns, the rate
the PI servo (whose gains the manual does not give) asks for, and its interval in ns; a delay request. -/
inductive PtpMsg where
  | announce (master : W64) (best : Bool) (interval : Nat)
  | sync (offset rate : Int) (interval : Nat)
  | delayReq
  | pdelayReq
  | other
deriving DecidableEq, Repr

/-- Requests that the ports answer themselves (R124). -/
inductive NetAsk where
  | arp (ip : Nat)
  | icmpEcho (ip : Nat) (bytes : List Byte)
  | neighborSolicitation (linkLocal : Bool)
  | icmp6Echo (linkLocal : Bool) (bytes : List Byte)
deriving DecidableEq, Repr

/-- The part of a received Ethernet frame that R125 classifies. -/
inductive EthBody where
  | udp (dst : Nat) (bytes : List Byte) (gvsp : Option Gvsp)
  | ptp (transport profile domain : Nat) (m : PtpMsg)
  | ask (q : NetAsk)
  | other
deriving DecidableEq, Repr

/-- A received Ethernet frame (R123): its length, its VLAN tags and its body. -/
structure EthFrame where
  len : Nat
  vlans : Nat
  body : EthBody
deriving DecidableEq, Repr

/-- A PTP message that the K9 sends at an interval for its clock role (R144). -/
inductive PtpOut where
  | sync | announce | delayReq | pdelayReq
deriving DecidableEq, Repr

/-- A banded unit of a vision group (R185). -/
inductive VisionUnit where
  | warp (n : Nat)
  | pyramid (n : Nat)
  | feature (n : Nat)
deriving DecidableEq, Repr

/-- Rounding modes (R278). -/
inductive Rnd where
  | nearest
  | zero
  | down
  | up
deriving DecidableEq, Repr

/-- The number formats of a tile (Tables 8.1 and 8.2); a fixed-32 format has its binary point F. -/
inductive NumFmt where
  | fp32 | fp16 | bf16 | e4m3 | e5m2 | mxfp6 | mxfp4 | int8 | int4
  | fixed32 (point : Nat)
deriving DecidableEq, Repr

/-- Operands of a unit in one format: element codes in order and, of an MX format, the scale code of each block of
32 (R273). -/
structure TileVec where
  fmt : NumFmt
  scales : List Nat
  codes : List Nat
deriving DecidableEq, Repr

/-- A conversion of results (R278, R279): its format, its rounding mode and whether overflow gives infinity; for an
MX format the length of the reduction dimension (R273), and whether it is the scales that are stored. -/
structure Conv where
  fmt : NumFmt
  mode : Rnd
  infinite : Bool
  row : Nat
  scales : Bool
deriving DecidableEq, Repr

/-- The FP32 operations of the vector unit (R285). -/
inductive VecOp where
  | add | sub | mul | fma | div | sqrt | less | lessEq
  | exp | log | rsqrt | sigmoid | tanh | erf
deriving DecidableEq, Repr

/-- What a task writes: bytes it moved, or results of the matrix unit (a dot product for each output element; the
scale is that of an integer layer, R281) or of the vector unit. -/
inductive TileData where
  | moved (bytes : List Byte)
  | matrix (outs : List (TileVec × TileVec)) (scale : Nat) (conv : Conv)
  | vector (op : VecOp) (args : List (List Nat)) (conv : Conv)
  | reduce (xs : List Nat) (conv : Conv)
  | softmax (xs : List Nat) (conv : Conv)
  | mulAdd (fa fb fc : Nat) (args : List (Nat × Nat × Nat))
  | convert (v : TileVec) (conv : Conv)
deriving DecidableEq, Repr

/-- One write of a tile task (R232): the port of its package, and what it writes at an offset. -/
structure TileWrite where
  port : Nat
  off : Nat
  data : TileData
deriving DecidableEq, Repr

/-- How a task ended (R233 to R236, R255): an error status of its own (0 for none), the address and syndrome of an
uncorrectable error of tile memory that it met, the counts it found at its ports, and its writes. -/
structure TaskOut where
  error : Nat
  tileBad : Option (Nat × Nat)
  counts : List (Nat × Nat)
  writes : List TileWrite
deriving DecidableEq, Repr

/-- Where a check-code error lies (Table 12.6, bytes 18 to 27). -/
structure MemPlace where
  unit : Nat
  index : Nat
  addr : Nat
deriving DecidableEq, Repr

/-- How a solve ends on its GSUs: its outer iterations are complete (R336), it met an uncorrectable error in the
problem's values, in a block's starting value or in schedule memory (R352), or its program accessed memory outside its
claims, on a GSU (R332). -/
inductive SolveEnd where
  | complete
  | valuesBad (p : MemPlace) (syndrome : Nat)
  | startBad (block : Nat) (p : MemPlace) (syndrome : Nat)
  | scheduleBad (p : MemPlace) (syndrome : Nat)
  | outside (gsu : Nat)
deriving DecidableEq, Repr

/-- The content that a bad word belongs to (Table 12.2), as the scrub names it. -/
inductive BadContent where
  | allocWord (slot word : Nat) (second : Bool)
  | tensorBlock (pkg block : Nat)
  | tileImage (pkg : Nat)
  | problemSchedule (slot : Nat)
  | problemValues (slot : Nat)
  | problemStart (slot block : Nat)
  | managementCode
  | managementData
  | queueBase (fn qid : Nat)
  | quotaCounter (fn tier : Nat)
  | calibration (slot : Nat)
  | mapAnchor (slot : Nat)
  | gridVoxel (slot voxel : Nat)
  | mapCell (slot cell : Nat)
  | indexPage (slot table bucket : Nat)
  | objectWord (ty slot : Nat)
  | limitPair (n : Nat)
  | failedStart
  | journal (seq : Nat)
  | other
deriving DecidableEq, Repr

/-- What one read of the patrol scrub finds (R408, R411, R412). -/
inductive ScrubFind where
  | clean
  | corrected (p : MemPlace) (word syndrome : Nat)
  | uncorrectable (p : MemPlace) (c : BadContent) (syndrome : Nat)
deriving DecidableEq, Repr

/-- The messages of Table 13.3, and an agreement on the present set (R438). -/
inductive Handshake where
  | ensembleId (id : W64)
  | keyExchange (identity : List Byte) (sigOk : Bool) (lifecycle : Nat) (secret : List Byte)
  | present (mask : Nat)
deriving DecidableEq, Repr

/-- How a Trellis frame's tag checks (R434 to R436): under the present keys, under the old ones after a rekey, or not. -/
inductive FrameTag where
  | present | old | bad
deriving DecidableEq, Repr

/-- What a good Trellis frame carries (R438, R439, R447, R449, R454): `relay` tells that the sender's link to another
member is down and that its traffic goes through this one. -/
inductive TrellisMsg where
  | data
  | relay (member : Nat)
  | presentSet (mask : Nat)
  | shardWrite (map shard : Nat) (seqNo : Nat)
  | shardAck (map shard : Nat) (seqNo : Nat)
  | queryAnswer (batch query member : Nat) (results : List (Nat × Nat)) (probes scanned excluded stale : Nat)
deriving DecidableEq, Repr

/-- The straps of Table 18.9 and whether the crystal runs (R570). -/
structure Straps where
  bootSrc : Nat
  sbAddr : Nat
  sbMode : Nat
  ensId : Nat
  ethSpeed : Nat
  ethFec : Nat
  crystal : Bool
deriving DecidableEq, Repr

/-- A sideband write (R553, R554): SMBus block write with its PEC judgement and byte count, or an
I3C private write. -/
structure SbWrite where
  index : Nat
  bytes : List Byte
  pecBad : Bool
deriving DecidableEq, Repr

/-- The commands of the K9, one for each row of spec/opcode_table.json. -/
inductive Instr where
  /-- ADM_IDENTIFY (R93): Returns the 512-byte identity record of Table 3.10. -/
  | admIdentify (r : ReqRef) (io : Io)
  /-- ADM_SESSION_OPEN (R92): Opens a session, optionally as the single administrator, and returns its slot and generation. -/
  | admSessionOpen (r : ReqRef) (io : Io)
  /-- ADM_SESSION_CLOSE (R79): Closes a session in mode 0 (release all) or mode 1 (orphan held objects and their dependencies). -/
  | admSessionClose (r : ReqRef) (io : Io)
  /-- ADM_SESSION_ADOPT (R80): Takes ownership of an orphan and every orphan it depends on. -/
  | admSessionAdopt (r : ReqRef) (io : Io)
  /-- ADM_QUEUE_CREATE (R94): Creates a queue pair other than pair 0 with the attributes of Table 2.6. -/
  | admQueueCreate (r : ReqRef) (io : Io)
  /-- ADM_QUEUE_DELETE (R95): Deletes a queue pair and ends its requests with ST_E_ABORTED and no completions. -/
  | admQueueDelete (r : ReqRef) (io : Io)
  /-- ADM_QUEUE_MODIFY (R95): Changes the attributes of a created pair, including pair 0 through QZ_CTRL. -/
  | admQueueModify (r : ReqRef) (io : Io)
  /-- ADM_QUEUE_QUERY (R95): Reports LIVE, FAULT, FAULT_CAUSE and the fetch position of a pair. -/
  | admQueueQuery (r : ReqRef) (io : Io)
  /-- ADM_QUEUE_GRANT (R96): Moves uncreated queue pairs from one function to another. -/
  | admQueueGrant (r : ReqRef) (io : Io)
  /-- ADM_HANDLE_QUERY (R78): Reports the dependants of a handle and whether it is live, closing or an orphan. -/
  | admHandleQuery (r : ReqRef) (io : Io)
  /-- ADM_LIMITS_READ (R99): Writes one limits record per limit of Table 3.15. -/
  | admLimitsRead (r : ReqRef) (io : Io)
  /-- ADM_ABORT (R97): Ends a named command with ST_E_ABORTED if it has been fetched and has not yet posted its completion. -/
  | admAbort (r : ReqRef) (io : Io)
  /-- ADM_RESET_WARM (R98): Stops fetching, posts its own completion and starts a warm reset within 1 ms. -/
  | admResetWarm (r : ReqRef) (io : Io)
  /-- ADM_RESET_DOMAIN (R493): Aborts work in a domain, re-initialises and restores the domain and returns it. -/
  | admResetDomain (r : ReqRef) (io : Io)
  /-- ADM_EVENT_WAIT (R100): Waits for event records of the session's event queue until its deadline. -/
  | admEventWait (r : ReqRef) (io : Io)
  /-- STREAM_OPEN (R112): Opens a stream or low-rate channel, fixing port settings and claiming a frame ring. -/
  | streamOpen (r : ReqRef) (io : Io)
  /-- STREAM_CLOSE (R229): Closes a stream and frees its held buffers unless a started sheet depends on it. -/
  | streamClose (r : ReqRef) (io : Io)
  /-- STREAM_START (R148): Starts a stream; its first unit sets the alignment reference. -/
  | streamStart (r : ReqRef) (io : Io)
  /-- STREAM_STOP (R154): Lets the frame in progress complete and clears the stream's reference. -/
  | streamStop (r : ReqRef) (io : Io)
  /-- STREAM_QUERY (R583): Writes the 64-byte stream query record. -/
  | streamQuery (r : ReqRef) (io : Io)
  /-- STREAM_SET_WINDOW (R155): Replaces PERIOD_NS and optionally re-bases the stream at the next unit. -/
  | streamSetWindow (r : ReqRef) (io : Io)
  /-- STREAM_FRAME_RELEASE (R137): Frees a held frame buffer of the ring. -/
  | streamFrameRelease (r : ReqRef) (io : Io)
  /-- FILT_OPEN (R158): Opens a filter channel on one SPI word, fixing chip-select settings on first use. -/
  | filtOpen (r : ReqRef) (io : Io)
  /-- FILT_CLOSE (R182): Closes a filter channel and releases its chip-select settings if it was the last. -/
  | filtClose (r : ReqRef) (io : Io)
  /-- FILT_LOAD_BANK (R171): Loads coefficients into the inactive bank. -/
  | filtLoadBank (r : ReqRef) (io : Io)
  /-- FILT_SWAP (R172): Makes the inactive bank active from a swap point. -/
  | filtSwap (r : ReqRef) (io : Io)
  /-- FILT_CROSSFADE (R173): Fades from the active bank to the inactive bank over f outputs. -/
  | filtCrossfade (r : ReqRef) (io : Io)
  /-- FILT_SET_PHASE (R176): Changes the phase delay at the next input boundary. -/
  | filtSetPhase (r : ReqRef) (io : Io)
  /-- FILT_DC_FREEZE (R177): Freezes, sets or resumes the DC estimate. -/
  | filtDcFreeze (r : ReqRef) (io : Io)
  /-- FILT_DELAY_QUERY (R183): Reports the delay record of Table 5.5 for both banks. -/
  | filtDelayQuery (r : ReqRef) (io : Io)
  /-- CUE_LOAD (R210): Checks and loads a cue sheet image and charges its resources. -/
  | cueLoad (r : ReqRef) (io : Io)
  /-- CUE_UNLOAD (R229): Unloads a cue sheet that is not started. -/
  | cueUnload (r : ReqRef) (io : Io)
  /-- CUE_START (R227): Binds streams to a sheet, zeroes its flags and starts it on a vision group. -/
  | cueStart (r : ReqRef) (io : Io)
  /-- CUE_STOP (R228): Stops opening sets and drains or abandons the sets in flight. -/
  | cueStop (r : ReqRef) (io : Io)
  /-- CUE_QUERY (R214): Writes the cue sheet query record of Table 6.17. -/
  | cueQuery (r : ReqRef) (io : Io)
  /-- CUE_FLAG_READ (R220): Returns a range of the sheet's cue flag words. -/
  | cueFlagRead (r : ReqRef) (io : Io)
  /-- PKG_LOAD (R246): Checks a Baskozar package, places it and claims its resources. -/
  | pkgLoad (r : ReqRef) (io : Io)
  /-- PKG_UNLOAD (R247): Unloads a package that has no instances, ending any refetch pass. -/
  | pkgUnload (r : ReqRef) (io : Io)
  /-- INST_CREATE (R256): Checks the port bindings and binds one of the package's reserved instance contexts. -/
  | instCreate (r : ReqRef) (io : Io)
  /-- INST_DESTROY (R268): Destroys an instance, aborting queued runs and ending the running one by the deadline. -/
  | instDestroy (r : ReqRef) (io : Io)
  /-- INFER_RUN (R259): Queues a run on an instance for a set s. -/
  | inferRun (r : ReqRef) (io : Io)
  /-- INST_QUERY (R259): Writes the instance query record of Table 7.11. -/
  | instQuery (r : ReqRef) (io : Io)
  /-- PKG_QUERY (R267): Reports placement, the predicted run time and per-layer late-weight records. -/
  | pkgQuery (r : ReqRef) (io : Io)
  /-- GRID_CREATE (R298): Creates a fusion grid with its sensors and claims its planes, scratch area and ego-motion problem. -/
  | gridCreate (r : ReqRef) (io : Io)
  /-- GRID_DESTROY (R319): Destroys a grid and discards its open epochs. -/
  | gridDestroy (r : ReqRef) (io : Io)
  /-- CAL_CREATE (R295): Creates an immutable calibration set, optionally replacing an earlier one. -/
  | calCreate (r : ReqRef) (io : Io)
  /-- CAL_DESTROY (R296): Releases a calibration set that nothing depends on. -/
  | calDestroy (r : ReqRef) (io : Io)
  /-- GRID_READ (R307): Reads whole bricks of one plane, optionally holding off the next close. -/
  | gridRead (r : ReqRef) (io : Io)
  /-- GRID_CLEAR (R317): Zeroes both planes in a brick box between epochs. -/
  | gridClear (r : ReqRef) (io : Io)
  /-- GRID_VOTE_SET (R316): Sets the vote settings between epochs and clears the suspicion of named sensors. -/
  | gridVoteSet (r : ReqRef) (io : Io)
  /-- GRID_POSE_SUBMIT (R318): Submits a host pose of a moving sensor as a measurement. -/
  | gridPoseSubmit (r : ReqRef) (io : Io)
  /-- GRID_STATUS (R314): Writes the grid status record with per-sensor poses and contradiction pairs. -/
  | gridStatus (r : ReqRef) (io : Io)
  /-- SOLV_LOAD (R329): Checks a solver schedule, places it on GSUs and claims its memory. -/
  | solvLoad (r : ReqRef) (io : Io)
  /-- SOLV_UNLOAD (R362): Unloads a problem, aborting its queued runs and the running one by the deadline. -/
  | solvUnload (r : ReqRef) (io : Io)
  /-- SOLV_DELTA (R334): Checks a delta batch whole and commits or rejects it. -/
  | solvDelta (r : ReqRef) (io : Io)
  /-- SOLV_RUN (R347): Queues a solve with a chosen warm-start source and deadline. -/
  | solvRun (r : ReqRef) (io : Io)
  /-- SOLV_RESULT (R361): Returns block values or marginal covariances of the delivered or resident solution. -/
  | solvResult (r : ReqRef) (io : Io)
  /-- SOLV_QUERY (R351): Writes the solver query record with the predicted solve time. -/
  | solvQuery (r : ReqRef) (io : Io)
  /-- MAP_CREATE (R363): Creates a map and claims its slot table and heap. -/
  | mapCreate (r : ReqRef) (io : Io)
  /-- MAP_DESTROY (R384): Destroys a map and rolls back any repotting in progress. -/
  | mapDestroy (r : ReqRef) (io : Io)
  /-- MAP_INSERT (R375): Validates a record batch whole and then applies it in order. -/
  | mapInsert (r : ReqRef) (io : Io)
  /-- MAP_DELETE (R377): Tombstones live objects and frees their cells and edge blocks. -/
  | mapDelete (r : ReqRef) (io : Io)
  /-- MAP_READ (R402): Returns object cells, optionally in the workspace frame. -/
  | mapRead (r : ReqRef) (io : Io)
  /-- MAP_TRAVERSE (R376): Walks the map breadth-first from start identifiers. -/
  | mapTraverse (r : ReqRef) (io : Io)
  /-- MAP_DEADHEAD_SET (R379): Sets the deadheading rate and whether index entries are included. -/
  | mapDeadheadSet (r : ReqRef) (io : Io)
  /-- MAP_REPOT (R380): Starts a journalled compaction or move of one shard. -/
  | mapRepot (r : ReqRef) (io : Io)
  /-- MAP_CHECKPOINT (R385): Writes a snapshot image of the map into a stacked allocation. -/
  | mapCheckpoint (r : ReqRef) (io : Io)
  /-- MAP_RESTORE (R386): Creates a map from a checkpoint image. -/
  | mapRestore (r : ReqRef) (io : Io)
  /-- IDX_CREATE (R389): Creates a descriptor index over a map and claims its pages and directory. -/
  | idxCreate (r : ReqRef) (io : Io)
  /-- IDX_DESTROY (R403): Destroys an index that has no running query batch. -/
  | idxDestroy (r : ReqRef) (io : Io)
  /-- IDX_INSERT (R390): Places items into every table of the index. -/
  | idxInsert (r : ReqRef) (io : Io)
  /-- IDX_DELETE (R391): Frees the entries that hold an item's identifier in the item's buckets. -/
  | idxDelete (r : ReqRef) (io : Io)
  /-- IDX_REBUILD (R401): Starts a journalled rebuild of the index in fresh pages. -/
  | idxRebuild (r : ReqRef) (io : Io)
  /-- SRCH_BATCH (R392): Admits a batch of nearest-neighbour queries on an index. -/
  | srchBatch (r : ReqRef) (io : Io)
  /-- IDX_QUERY (R389): Returns index statistics. -/
  | idxQuery (r : ReqRef) (io : Io)
  /-- MEM_ALLOC (R107): Allocates memory in a tier after the quota and capacity checks. -/
  | memAlloc (r : ReqRef) (io : Io)
  /-- MEM_FREE (R111): Frees an allocation that is unmapped and has no dependants. -/
  | memFree (r : ReqRef) (io : Io)
  /-- MEM_COPY (R108): Copies between host memory and an allocation. -/
  | memCopy (r : ReqRef) (io : Io)
  /-- MEM_SEAL (R580): Seals a COMPRESS allocation into stored blocks. -/
  | memSeal (r : ReqRef) (io : Io)
  /-- MEM_MAP_BAR4 (R109): Maps a stacked allocation into the BAR4 window. -/
  | memMapBar4 (r : ReqRef) (io : Io)
  /-- MEM_UNMAP_BAR4 (R109): Removes an allocation's BAR4 mapping. -/
  | memUnmapBar4 (r : ReqRef) (io : Io)
  /-- MEM_QUOTA_SET (R103): Sets a function's quota in a tier and rebuilds its counter. -/
  | memQuotaSet (r : ReqRef) (io : Io)
  /-- MEM_QUOTA_QUERY (R110): Reports the quota, use, peak use and refusal count of a function's tier. -/
  | memQuotaQuery (r : ReqRef) (io : Io)
  /-- MEM_STATS (R414): Reports per-tier capacity, allocation and quarantine figures. -/
  | memStats (r : ReqRef) (io : Io)
  /-- ENS_FORM (R437): Creates the ensemble object with this device as the only present member. -/
  | ensForm (r : ReqRef) (io : Io)
  /-- ENS_JOIN (R437): Joins an ensemble and completes when links to every present member are up. -/
  | ensJoin (r : ReqRef) (io : Io)
  /-- ENS_LEAVE (R456): Moves this member's shards away, takes its links down and releases the ensemble object. -/
  | ensLeave (r : ReqRef) (io : Io)
  /-- ENS_REMOVE (R457): Declares a named member lost at once. -/
  | ensRemove (r : ReqRef) (io : Io)
  /-- ENS_RESHARD (R458): Moves the changed shards of a map one at a time to new primaries and understudies. -/
  | ensReshard (r : ReqRef) (io : Io)
  /-- ENS_STATUS (R449): Writes the ensemble status record. -/
  | ensStatus (r : ReqRef) (io : Io)
  /-- PWR_CAP_SET (R459): Writes the power cap and throttle limit safety pairs. -/
  | pwrCapSet (r : ReqRef) (io : Io)
  /-- PWR_LEVEL_SET (R491): Sets the FASTEST and SLOWEST performance levels. -/
  | pwrLevelSet (r : ReqRef) (io : Io)
  /-- PWR_STATE_ENTER (R476): Checks the refusal conditions and starts entry into S1 to S4. -/
  | pwrStateEnter (r : ReqRef) (io : Io)
  /-- PWR_DOMAIN_PARK (R467): Sets the parking mode of a switched power domain. -/
  | pwrDomainPark (r : ReqRef) (io : Io)
  /-- PWR_PAD_RELEASE (R473): Releases held pads of the named domains. -/
  | pwrPadRelease (r : ReqRef) (io : Io)
  /-- PWR_STATUS (R461): Writes the power status record. -/
  | pwrStatus (r : ReqRef) (io : Io)
  /-- PWR_COUNTERS (R490): Writes the ghost-light power counters. -/
  | pwrCounters (r : ReqRef) (io : Io)
  /-- TIME_READ (R139): Returns the time word, optionally with the host PTM time. -/
  | timeRead (r : ReqRef) (io : Io)
  /-- TIME_SET (R141): Steps the time base to a given time. -/
  | timeSet (r : ReqRef) (io : Io)
  /-- TIME_ADJUST (R141): Sets the rate of the time base, or slews or steps it. -/
  | timeAdjust (r : ReqRef) (io : Io)
  /-- TIME_PTP_CONFIG (R156): Configures or stops the IEEE 1588 role and servo. -/
  | timePtpConfig (r : ReqRef) (io : Io)
  /-- TIME_ALARM_SET (R157): Sets or cancels one of the eight time-base alarms. -/
  | timeAlarmSet (r : ReqRef) (io : Io)
  /-- TIME_STATUS (R146): Reports the servo state, offset, rate, holdover time and step count. -/
  | timeStatus (r : ReqRef) (io : Io)
  /-- SEC_QUOTE (R526): Returns a signed quote of the measurement registers, or extends M8 to M15. -/
  | secQuote (r : ReqRef) (io : Io)
  /-- SEC_LIFECYCLE (R518): Reads the life-cycle state or makes a transition of Table 16.2. -/
  | secLifecycle (r : ReqRef) (io : Io)
  /-- SEC_UNLOCK_CHALLENGE (R529): Issues an unlock challenge, replacing any outstanding challenge. -/
  | secUnlockChallenge (r : ReqRef) (io : Io)
  /-- SEC_UNLOCK (R530): Opens the debug port against a token, or closes it. -/
  | secUnlock (r : ReqRef) (io : Io)
  /-- SEC_ALARM_POLICY (R534): Sets the tamper alarm action of each sensor within the allowed bounds. -/
  | secAlarmPolicy (r : ReqRef) (io : Io)
  /-- SEC_IDENTITY_READ (R522): Returns the identity record with the public key. -/
  | secIdentityRead (r : ReqRef) (io : Io)
  /-- DIAG_LOG_READ (R428): Returns records of the fault log or boot log, newest first. -/
  | diagLogRead (r : ReqRef) (io : Io)
  /-- DIAG_COUNTERS (R427): Returns, and may clear, a set of diagnostic counters. -/
  | diagCounters (r : ReqRef) (io : Io)
  /-- DIAG_SELFTEST_RECORD (R515): Reads the self-test records, or parks a domain and tests it, unfencing it on request. -/
  | diagSelftestRecord (r : ReqRef) (io : Io)
  /-- RECAST_IMAGE_LOAD (R508): Loads and checks a Stage Manager image into the shadow bank, or writes a user calibration set. -/
  | recastImageLoad (r : ReqRef) (io : Io)
  /-- RECAST_COMMIT (R509): Journals BEGIN and waits for the handover point to the shadow image. -/
  | recastCommit (r : ReqRef) (io : Io)
  /-- RECAST_FALLBACK (R511): Returns to the fallback image by a handover. -/
  | recastFallback (r : ReqRef) (io : Io)
  /-- DIAG_JOURNAL_READ (R507): Returns the latest journal record of each open or replayed operation. -/
  | diagJournalRead (r : ReqRef) (io : Io)
  /-- REGISTER_WRITE (R21): A host write to a BAR0 register that has no row of its own, range-checked and refused and counted when invalid. -/
  | registerWrite (fn off size : Nat) (v : Nat)
  /-- QZ_BASE_WRITE (R37): A write to a value or complement half of QZ_SQ_BASE or QZ_CQ_BASE, held pending or committed. -/
  | qzBaseWrite (fn off size : Nat) (v : Nat)
  /-- QZ_ENABLE (R38): A write of ENABLE 1 to QZ_CTRL puts pair 0 in service if its conditions hold. -/
  | qzEnable (fn : Nat) (v : W32)
  /-- QZ_DISABLE (R40): A write of ENABLE 0 to QZ_CTRL ends pair 0's requests and clears LIVE. -/
  | qzDisable (fn : Nat) (v : W32)
  /-- QZ_CTRL_UPDATE (R39): A write keeping ENABLE at 1 changes VECTOR or INT_EN of pair 0 at once. -/
  | qzCtrlUpdate (fn : Nat) (v : W32)
  /-- SQ_TAIL_DOORBELL (R52): A write of a new SQ tail index, checked and accepted or refused and counted. -/
  | sqTailDoorbell (fn off size : Nat) (v : W64)
  /-- CQ_HEAD_DOORBELL (R51): A write of a new CQ head index that frees completion slots. -/
  | cqHeadDoorbell (fn off size : Nat) (v : W64)
  /-- QZ_DB_REFUSED_READ (R52): A read of QZ_DB_REFUSED returns and clears the refused doorbell count. -/
  | qzDbRefusedRead (fn : Nat)
  /-- BAR4_MISS_READ (R35): A read of BAR4_MISS returns and clears the unmapped BAR4 access count. -/
  | bar4MissRead
  /-- BAR4_ACCESS (R35): A host read or write through the BAR4 window onto a mapped stacked allocation. -/
  | bar4Access (off : Nat) (acc : Bar4Access)
  /-- CB_RING (R59): A write to CB_RING that starts a callboard request if SEQ matches and the callboard is idle. -/
  | cbRing (v : W32)
  /-- CB_ACK (R59): A write to CB_ACK that returns a done callboard to idle. -/
  | cbAck (v : W32)
  /-- CB_REFUSED_READ (R59): A read of CB_REFUSED returns and clears the callboard refusal count. -/
  | cbRefusedRead
  /-- CB_HW_TIMEOUT (R62): The callboard hardware ends a request 1 s past its limit with ST_E_TIMEOUT. -/
  | cbHwTimeout
  /-- TB_WORD0_READ (R545): A read including offset 0x0003_0000 latches the whole time word and raises TB_LATCH_SEQ. -/
  | tbWord0Read (size : Nat)
  /-- GL_WAKE_CLEAR (R542): A W1C write to GL_WAKE clears pending wake bits in S0. -/
  | glWakeClear (v : W32)
  /-- SLK_NEG_SEEN_CLEAR (R549): A W1C write to SLK_STATUS clears NEG_SEEN. -/
  | slkNegSeenClear (n : Nat) (v : W32)
  /-- SLK_MIN_READ (R549): A read of SLK_MIN returns the lowest slack and restarts the minimum. -/
  | slkMinRead (n : Nat)
  /-- FENCE_COUNTER_READ (R550): A read of FENCE_RD or FENCE_WR returns and clears the domain fence count. -/
  | fenceCounterRead (dom : Nat) (wr : Bool)
  /-- MSIX_UNMASK (R58): An unmask of a vector, clearing of the Function Mask or setting of MSI-X Enable sends one pending message. -/
  | msixUnmask (fn : Nat) (u : Unmask)
  /-- BUS_MASTER_ENABLE (R577): Setting Bus Master Enable resumes fetching and posts held completions and interrupts in order. -/
  | busMasterEnable (fn : Nat)
  /-- VF_ENABLE_SET (R29): Setting VF Enable gives each virtual function its pair 0 from the physical function's highest pairs. -/
  | vfEnableSet (n : Nat)
  /-- VF_ENABLE_CLEAR (R29): Clearing VF Enable resets every virtual function and returns its pairs. -/
  | vfEnableClear
  /-- FUNCTION_LEVEL_RESET (R31): A function-level reset ends the function's requests, deletes its pairs and closes its sessions in mode 1. -/
  | functionLevelReset (fn : Nat)
  /-- LINK_DOWN (R28): A PCIe link-down not caused by PERST_N in S0 or S1 acts as a function-level reset of every function. -/
  | linkDown
  /-- SQ_FETCH (R53): The K9 fetches and checks an SQ entry once its CQ has room and arbitration selects the queue. -/
  | sqFetch (got : Fetched)
  /-- COAL_TIMER (R57): COAL_TIME elapses after the first unsignalled completion and the CQ signals its vector. -/
  | coalTimer (fn qid : Nat)
  /-- COMMAND_DEADLINE (R88): A command's deadline falls while it is unfinished and it ends as R15 states. -/
  | commandDeadline (r : ReqRef)
  /-- RELEASE_DEADLINE (R78): A release's deadline falls and the commands still running on the closing object end with ST_E_ABORTED. -/
  | releaseDeadline (r : ReqRef)
  /-- ORPHAN_HOLD_EXPIRY (R80): An orphan's HOLD_S passes and it is released once its dependants allow. -/
  | orphanHoldExpiry (ty slot : Nat)
  /-- CSI_FRAME_START (R119): A CSI-2 frame start packet is stamped and claims a ring buffer. -/
  | csiFrameStart (port vc frameNo : Nat)
  /-- CSI_PACKET (R120): A CSI-2 long or short packet is received, checked and stored or dropped. -/
  | csiPacket (port vc : Nat) (p : CsiPacket)
  /-- CSI_FRAME_END (R120): A frame end closes the frame with its status and flags. -/
  | csiFrameEnd (port vc : Nat)
  /-- ETH_FRAME_RECEIVED (R125): A received Ethernet frame is stamped and classified to a stream, channel, protocol or drop. -/
  | ethFrameReceived (port : Nat) (f : EthFrame)
  /-- PTP_MASTER_TIMEOUT (R145): Missing Announce or Sync messages put a locked or locking servo into holdover. -/
  | ptpMasterTimeout
  /-- TIME_ALARM_FIRE (R157): A time-base alarm falls, raising event 0x0C05 and waking the device if armed. -/
  | timeAlarmFire (n : Nat)
  /-- SPI_CNV_STROBE (R132): The K9 drives a SPIn_CNV strobe at its programmed rate and starts a transaction. -/
  | spiCnvStrobe (ctrl cs : Nat)
  /-- SPI_DRDY_EDGE (R132): A falling SPIn_DRDY edge is stamped and starts or queues a transaction. -/
  | spiDrdyEdge (ctrl cs : Nat) (ns : Nat := 20)
  /-- SPI_TRANSACTION_DONE (R133): A SPI transaction completes and each word enters its filter channel as an input sample. -/
  | spiTransactionDone (ctrl : Nat) (words : List Nat)
  /-- SPI_DRDY_GAP (R134): No DRDY strobe for two declared periods records a gap and raises event 0x0104. -/
  | spiDrdyGap (ctrl cs : Nat)
  /-- FILT_HELD_INPUT (R178): Each further declared period of a gap inserts a held copy of the last input. -/
  | filtHeldInput (ctrl cs : Nat)
  /-- ENC_EDGE (R135): An A or B edge updates the quadrature count or counts an illegal transition. -/
  | encEdge (n : Nat) (a b : Bool) (ns : Nat := 20)
  /-- ENC_INDEX (R135): A rising index edge latches the encoder count. -/
  | encIndex (n : Nat) (ns : Nat := 20)
  /-- ENC_SAMPLE (R135): Every PERIOD_NS the encoder count is sampled into its low-rate channel. -/
  | encSample (n : Nat)
  /-- CUE_SLOT_MISSING (R213): A slot with no matching frame by t_n + MATCH_NS is missing from the set. -/
  | cueSlotMissing (sheet set slot : Nat)
  /-- CUE_SET_DEADLINE (R217): At t_n + SET_DEADLINE_US every unfinished node of the set is abandoned. -/
  | cueSetDeadline (sheet set : Nat)
  /-- VISION_BAND_DONE (R185): A banded unit finishes a band and the cue engine gives it the next work. -/
  | visionBandDone (group : Nat) (u : VisionUnit)
  /-- VISION_NODE_DONE (R221): A node completes its output slot and the cue engine writes its flag. -/
  | visionNodeDone (sheet set node : Nat) (media : Bool)
  /-- CUE_EXTERNAL_WAIT_MET (R223): An external buffer's DONE_SEQ reaches n and the waiting node runs. -/
  | cueExternalWaitMet (sheet set node : Nat)
  /-- TILE_FLAG_WRITE (R222): A tile task writes a cue flag, dropped and counted where not allowed. -/
  | tileFlagWrite (sheet flag at' : Nat) (bytes : List Byte) (tile : Nat := 0) (writes : List TileWrite := [])
  /-- TASK_COMPLETE (R234): A task completes on its tile, which takes its next task. -/
  | taskComplete (tile : Nat) (o : TaskOut)
  /-- TASK_WATCHDOG (R236): A task outlasts TASK_LIMIT_US and its run ends with ST_E_TIMEOUT. -/
  | taskWatchdog (tile : Nat)
  /-- TILE_STEAL (R238): A tile with an empty queue steals a task within its cluster or through the steal port. -/
  | tileSteal (tile : Nat)
  /-- WEIGHT_LANDED (R251): A prefetched layer's blocks land in tile memory and stalled tasks proceed. -/
  | weightLanded (inst layer : Nat) (run : Nat := 0)
  /-- LATE_WEIGHT_EXPIRY (R252): A weight stall outlasts LATE_WEIGHT_US and the run ends with ST_E_LATE_WEIGHT. -/
  | lateWeightExpiry (inst : Nat)
  /-- WEIGHT_TIMEOUT (R253): WEIGHT_TIMEOUT_US passes from a quarantine and the waiting run ends with ST_E_MEDIA. -/
  | weightTimeout (inst : Nat)
  /-- FLAG_WAIT_MET (R263): A WAIT_PORT flag reaches set s and the layer reads its slot or ends. -/
  | flagWaitMet (inst : Nat)
  /-- FLAG_WAIT_EXPIRY (R262): A flag or slot wait outlasts FLAG_WAIT_US and the run ends with ST_E_TIMEOUT. -/
  | flagWaitExpiry (inst : Nat)
  /-- SCATTER_BATCH (R300): A scatter batch joins or opens an epoch, or is dropped. -/
  | scatterBatch (grid : Nat) (bytes : List Byte) (tile : Nat := 0)
  /-- EPOCH_LIMIT (R301): At t_u + EPOCH_US an epoch stops accepting batches and expected sensors without END are absent. -/
  | epochLimit (grid : Nat)
  /-- EPOCH_CLOSE (R306): Lifting completes and the epoch decides and updates each touched voxel and closes. -/
  | epochClose (grid : Nat)
  /-- SOLVE_START (R350): A solve starts when it is the chosen solve on every one of its GSUs. -/
  | solveStart (prob : Nat)
  /-- SOLVE_COMPLETE (R336): A solve completes its outer iterations and its solution becomes resident and delivered. -/
  | solveComplete (prob : Nat) (e : SolveEnd)
  /-- SOLVE_DEADLINE (R355): A run unfinished at its deadline is discarded and the shifted previous solution is delivered with ST_STALE. -/
  | solveDeadline (prob : Nat)
  /-- QUERY_START (R397): A query or map command takes a free search context on an engine. -/
  | queryStart (engine : Nat)
  /-- QUERY_COMPLETE (R395): A query finishes its probes, checks its kept identifiers and is delivered. -/
  | queryComplete (batch query : Nat) (bad : Option (Nat × Nat) := none)
  /-- SRCH_BATCH_DEADLINE (R399): At a batch's deadline every undelivered query ends with ST_E_TIMEOUT. -/
  | srchBatchDeadline (batch : Nat)
  /-- DEADHEAD_PASS (R379): The background pass removes dead edge halves and index entries at DEADHEAD_RATE. -/
  | deadheadPass (map : Nat)
  /-- REPOT_COPY_DONE (R380): The repotting copy completes and the shard's new writes are held for the drain. -/
  | repotCopyDone (map : Nat)
  /-- REPOT_COMMIT (R381): COMMIT becomes durable, the shard is served from its new storage and the old storage is released. -/
  | repotCommit (map : Nat)
  /-- REPOT_PAUSE_EXPIRY (R381): Held writes reach PAUSE_US before COMMIT and the repotting returns to the copy step. -/
  | repotPauseExpiry (map : Nat)
  /-- IDX_REBUILD_DONE (R401): An index rebuild commits and ends. -/
  | idxRebuildDone (idx : Nat)
  /-- SCRUB_READ (R412): The patrol scrub reads and checks the next words of memory. -/
  | scrubRead (f : ScrubFind)
  /-- GRANULE_RETIRE_DONE (R413): The granule copy completes, its address is redirected and held writes proceed. -/
  | granuleRetireDone (granule : Nat)
  /-- REFETCH_PASS_END (R424): A refetch pass ends, restoring quarantined blocks when the digest matches. -/
  | refetchPassEnd (pkg : Nat) (got : HostRead)
  /-- REFETCH_RETRY (R425): 10 ms after a failed host read another refetch pass starts, at most twice. -/
  | refetchRetry (pkg : Nat)
  /-- ALLOC_MOVE (R407): Stage Manager moves an unpinned allocation between tiers while it is not in use. -/
  | allocMove (slot : Nat)
  /-- TRELLIS_LINK_TRAINED (R432): A Trellis port finishes training and checks its peer's member number. -/
  | trellisLinkTrained (port peer : Nat)
  /-- TRELLIS_HANDSHAKE_MESSAGE (R434): A key-exchange or signature message of link bring-up is received and checked. -/
  | trellisHandshakeMessage (port : Nat) (m : Handshake)
  /-- TRELLIS_REFUSAL_RETRY (R432): A refused port retries bring-up every second. -/
  | trellisRefusalRetry (port : Nat)
  /-- TRELLIS_REKEY (R435): After REKEY_S or 2^40 frames a link repeats its key exchange. -/
  | trellisRekey (port : Nat)
  /-- TRELLIS_FRAME_RECEIVED (R436): A Trellis frame is received and its tag checked, being dropped and retransmitted on failure. -/
  | trellisFrameReceived (port : Nat) (tag : FrameTag) (m : TrellisMsg)
  /-- TRELLIS_LINK_LOST (R439): A direct link goes down and traffic is relayed through another member. -/
  | trellisLinkLost (port : Nat)
  /-- MEMBER_LOSS (R438): A member unreachable for LOSS_US is declared lost if quorum holds. -/
  | memberLoss (member : Nat)
  /-- ENS_TIME_SYNC (R444): A 1 ms sync exchange with the time reference disciplines a member's time base. -/
  | ensTimeSync (offset : Int)
  /-- REPLICA_COMMIT (R449): A new understudy replica of a shard commits and event 0x0A04 is raised. -/
  | replicaCommit (map shard : Nat)
  /-- LEVEL_CHOICE_TICK (R461): Every 10 ms Stage Manager chooses the performance level under the cap and throttle limit. -/
  | levelChoiceTick (powerMw : Nat) (tj : Int)
  /-- POWER_BACKSTOP_TICK (R463): Each millisecond the hardware backstop checks power and temperature and forces slower levels. -/
  | powerBackstopTick (powerMw : Nat) (tj : Int)
  /-- THERMAL_TRIP (R464): The junction reaches 115 °C and P7 at one eighth pace is forced and THERMTRIP_N driven. -/
  | thermalTrip (tj : Int)
  /-- DOMAIN_IDLE_PARK (R467): A domain idle for IDLE_MS is parked and its self-test begins. -/
  | domainIdlePark (dom : Nat)
  /-- SELFTEST_SLICE_DONE (R512): A self-test slice completes and the test continues, passes or fences the domain. -/
  | selftestSliceDone (dom : Nat) (bad : Nat)
  /-- DOMAIN_RETURN_DONE (R470): A parked domain finishes its return delay and admitted work that needs it proceeds. -/
  | domainReturnDone (dom : Nat)
  /-- PME_TURN_OFF (R479): The host's PME_Turn_Off is acknowledged, the link enters L2 and entry completes. -/
  | pmeTurnOff
  /-- ENTRY_LINK_TIMEOUT (R480): The L2 handshake is absent by LINK_WAIT_MS and the entry is aborted. -/
  | entryLinkTimeout
  /-- DOMAIN_GATE_TIMEOUT (R480): A domain does not acknowledge its gating within 1 ms and the entry is aborted. -/
  | domainGateTimeout (dom : Nat)
  /-- WAKE_N_EDGE (R485): A falling edge on WAKE_N not driven by the K9 wakes or is latched. -/
  | wakeNEdge (ns : Nat := 2000)
  /-- GPIO_WAKE_EDGE (R485): The selected edge on a GPIO_WAKE pin wakes or is latched. -/
  | gpioWakeEdge (n : Nat) (rising : Bool) (ns : Nat := 2000)
  /-- RETURN_COMPLETE (R484): The return order of Table 14.8 completes and READY rises. -/
  | returnComplete
  /-- BROWN_OUT (R488): A ghost-light draw above 30 mA in low-power mode switches the regulator to full mode. -/
  | brownOut
  /-- POWER_LOSS (R489): Loss of VAUX in S3 or of any supply in S1 or S2 makes the next start a power-on reset. -/
  | powerLoss (vaux : Bool)
  /-- VAUX_RISE (R562): VAUX reaching 3.0 V starts the ghost-light power-on reset and raises MAIN_PWR_EN. -/
  | vauxRise (straps : Straps)
  /-- MAIN_PG_RISE (R564): MAIN_PG rising releases power-on reset or ends step 1 of a return. -/
  | mainPgRise (ns : Nat := 20000)
  /-- MAIN_PG_FALL (R565): MAIN_PG falling while MAIN_PWR_EN is high is a power loss. -/
  | mainPgFall (ns : Nat := 20000)
  /-- MAIN_PG_TIMEOUT (R572): MAIN_PG not high 1 s after MAIN_PWR_EN rose drops MAIN_PWR_EN for 100 ms and retries. -/
  | mainPgTimeout
  /-- MAIN_PG_RETURN_TIMEOUT (R564): MAIN_PG not high 100 ms after MAIN_PWR_EN rose in a return is a power loss. -/
  | mainPgReturnTimeout
  /-- RESET_N_ASSERT (R573): An accepted low on RESET_N starts a cold reset overriding anything in progress. -/
  | resetNAssert (ns : Nat := 2000)
  /-- RESET_N_RELEASE (R573): Release of the later reset pin starts the cold start of Table 15.2. -/
  | resetNRelease (straps : Straps) (ns : Nat := 2000)
  /-- PERST_N_ASSERT (R573): An accepted low on PERST_N starts a cold reset in S0 and S1, or resets the PCIe domain alone in S2 and S3. -/
  | perstNAssert (ns : Nat := 2000)
  /-- PERST_N_RELEASE (R574): Release of PERST_N in S2 or S3 is wake source 1. -/
  | perstNRelease (straps : Straps) (ns : Nat := 2000)
  /-- CLK_REF_LOSS (R570): CLK_REF absent for 10 µs holds the K9 in cold reset. -/
  | clkRefLoss
  /-- CLK_REF_RETURN (R570): 1 ms after CLK_REF returns the cold reset is released. -/
  | clkRefReturn (straps : Straps)
  /-- PCIE_REFCLK_LOSS (R570): An absent PCIE_REFCLK in S0 or S1 takes the link down. -/
  | pcieRefclkLoss
  /-- PHY_REFCLK_LOSS (R570): An absent ETH_REFCLK or TRL_REFCLK takes down the ports it serves. -/
  | phyRefclkLoss (trellis : Bool)
  /-- COLD_START_READY (R495): The cold start completes, Stage Manager serves and READY rises. -/
  | coldStartReady (failed : List (Nat × Nat))
  /-- BOOT_WATCHDOG (R499): READY not risen 2 s after image acceptance is a failed start. -/
  | bootWatchdog
  /-- FSC_CLEAR (R498): READY staying risen for 10 s clears the failed-start counter. -/
  | fscClear
  /-- SM_WATCHDOG (R492): The Stage Manager watchdog expires and a warm reset starts. -/
  | smWatchdog
  /-- LOCKSTEP_MISMATCH (R492): A lockstep mismatch of MP0 or MP1 starts a warm reset. -/
  | lockstepMismatch (mp : Nat)
  /-- WARM_RESET_COMPLETE (R494): The warm reset finishes its steps and READY rises. -/
  | warmResetComplete
  /-- RECAST_HANDOVER (R509): The handover point comes and the new image takes over. -/
  | recastHandover
  /-- PROBATION_END (R510): PROBATION_S passes, END is journalled and the image may be persisted. -/
  | probationEnd
  /-- TAMPER_ALARM (R531): A tamper sensor condition outlasts its filter and the policy action is taken. -/
  | tamperAlarm (sensor : Nat) (detail : Nat)
  /-- THROTTLE_RELEASE (R533): A log-and-throttle condition absent for 1 s releases the forced P7. -/
  | throttleRelease
  /-- CHALLENGE_EXPIRY (R529): An outstanding unlock challenge expires after 300 s. -/
  | challengeExpiry
  /-- DEBUG_PORT_EXPIRY (R530): A token-opened debug port closes at DURATION_S. -/
  | debugPortExpiry
  /-- SLACK_MEASURE (R548): Every 100 µs each slack monitor measures slack and updates SLACK_NEG. -/
  | slackMeasure (n : Nat) (num : Int) (den : Nat)
  /-- SB_REGISTER_WRITE (R553): A sideband block write or private write of a register, refused and counted where not allowed. -/
  | sbRegisterWrite (w : SbWrite)
  /-- SB_SET_INDEX (R554): An I3C private write of one byte sets the register index. -/
  | sbSetIndex (idx : Nat)
  /-- SB_DYNAMIC_ADDRESS (R554): The target takes a dynamic address by SETDASA or ENTDAA. -/
  | sbDynamicAddress (addr : Nat)
  /-- SB_WAKE_TRANSACTION (R555): A transaction to the wake address is acknowledged and wakes the device in S1 to S3. -/
  | sbWakeTransaction (read : Bool)
  /-- SB_SCL_TIMEOUT (R558): SCL held low for 25 ms abandons the transaction and counts a timeout. -/
  | sbSclTimeout
  /-- SB_REFUSED_READ (R556): A read of SB_REFUSED returns and clears the refusal count. -/
  | sbRefusedRead
  /-- SB_MIRROR_TICK (R557): Every 10 ms mirrored sideband fields are copied from the management domain. -/
  | sbMirrorTick
  /-- SLEEP_ENTRY_GATED (R475): The domains of a sleep entry acknowledge their gating, so S1 is reached, or the S2, S3 or S4 entry posts its completion. -/
  | sleepEntryGated
  /-- PCIE_LINK_TRAINED (R482): The PCIe link finishes training and reaches L0, which also releases a WAKE_N that the K9 is driving. -/
  | pcieLinkTrained (gen width : Nat)
  /-- WAKE_N_DRIVE_EXPIRY (R482): One second after the K9 began driving WAKE_N low without the link reaching L0, it releases WAKE_N. -/
  | wakeNDriveExpiry
  /-- PHY_REFCLK_RETURN (R570): A returning ETH_REFCLK or TRL_REFCLK brings back the ports it serves without a command. -/
  | phyRefclkReturn (trellis : Bool)
  /-- START_ATTEMPT_FAILURE (R499): A start attempt fails on an image, training, fatal-error or reserve-digest reason, is recorded, and the next attempt or Understudy mode begins. -/
  | startAttemptFailure (reason : Nat)
  /-- MAP_COMMAND_DONE (R375): A map write, read or traversal running in a search context finishes on the engine and posts its completion. -/
  | mapCommandDone (r : ReqRef) (bad : Option (Nat × Nat) := none)
  /-- SLEW_ABSORBED (R141): A slew finishes absorbing its offset, and the time base returns to its set rate. -/
  | slewAbsorbed
  /-- PTP_TRANSMIT_INTERVAL (R144): A PTP message interval elapses on a port, and the K9 sends Sync, Announce, Delay_Req or Pdelay messages for its clock role. -/
  | ptpTransmitInterval (port : Nat) (m : PtpOut)
deriving DecidableEq, Repr

end Sys2Proof
end

