-- ==== Sys2Proof/Machine/State.lean ====
section
/-! DEFINITION. The state of the K9 as plain data, and the state after reset. Each field's comment
gives its width or shape, the rule that names it and its value at reset; INVENTORY.md repeats them.
Instants marked "mono" count on the step-free count of the time base (R143) in 2^-16 ns; instants
marked "tb" are stepped time (R139) in the same unit. Bracketed numbers name notes/assumptions. -/
namespace Sys2Proof.Machine

/-- Sparse bytes in one canonical form: addresses strictly rising, no zero byte listed. An unlisted
address reads as zero [2]. -/
abbrev Mem := List Host.Cell

/-- A value and its complement half (R419), with the mark that a half reads uncorrectable (R421). -/
structure Comp where
  v : W64
  c : W64
  ue : Bool
deriving DecidableEq, Repr

/-- A stamp (R139): stepped time in 2^-16 ns and the source tag of Table 4.10. -/
structure Stamp where
  t : Nat
  tag : Nat
deriving DecidableEq, Repr

/-- An event record (Table 3.11). -/
structure Event where
  at' : Stamp
  ev : Nat
  detail : Nat
  handle : W64
deriving DecidableEq, Repr

/-- What the K9 gives to the outside. -/
inductive Output where
  | dma (fn addr : Nat) (bytes : List Byte)
  | fetch (fn addr : Nat)
  | completion (fn qid addr cid sqHead status r0 r1 : Nat) (phase rbuf : Bool)
  | msix (fn vector : Nat) (addr data : Nat)
  | read (v : Nat)
  | bar4 (bytes : List Byte)
  | poisonedTlp
  | pin (name : String) (high : Bool)
  | vid (code : Nat)
  | eth (port : Nat) (what : String) (bytes : List Byte)
  | pmeToAck
  | trellis (port : Nat) (what : String)
  | spiStart (ctrl cs : Nat)
  | sideband (v : Nat)
deriving DecidableEq, Repr

/-! ### Host link, queues, callboard (02) -/

/-- One MSI-X table entry that differs from its value at reset (R551). -/
structure MsixEntry where
  vector : Nat
  addr : Nat
  data : Nat
  masked : Bool
  pending : Bool
deriving DecidableEq, Repr

/-- A base pair of queue zero (R37, R578). -/
structure RwpPair where
  pair : Comp          -- value and complement halves, 64 bits each; 02 R37; 0 and all ones
  committed : Bool     -- committed by R37; 02 R578; false
deriving DecidableEq, Repr

/-- What of R37 stands between two writes. -/
structure RwpHold where
  value : Option (Bool × W64)         -- pending value half (true: CQ base); 02 R37; none
  low : Option (Bool × Bool × W32)    -- low word waiting for its high word (CQ?, complement half?); 02 R37; none
deriving DecidableEq, Repr

/-- One PCIe function (R25, R29). -/
structure Fn where
  enabled : Bool       -- function presented (virtual: VF Enable); 02 R29; physical true, virtual false
  busMaster : Bool     -- Bus Master Enable; 02 R577; false
  msixEn : Bool        -- MSI-X Enable; 02 R577; false
  msixMask : Bool      -- MSI-X Function Mask; 02 R58; false
  grant : Nat          -- QZ_GRANT [16:0]; 02 R29; physical 65,536, virtual 0
  sq : RwpPair         -- QZ_SQ_BASE and its complement; 02 R37; 0, all ones
  cq : RwpPair         -- QZ_CQ_BASE and its complement; 02 R37; 0, all ones
  hold : RwpHold       -- pending half and low word; 02 R37; none
  sqDepthM1 : Nat      -- QZ_DEPTH [15:0]; 02 R38; 0x003F
  cqDepthM1 : Nat      -- QZ_DEPTH [31:16]; 02 R38; 0x003F
  enable : Bool        -- QZ_CTRL ENABLE; 02 R38; false
  intEn : Bool         -- QZ_CTRL INT_EN; 02 R39; false
  vector : Nat         -- QZ_CTRL VECTOR, 11 bits; 02 R38; 0
  dbRefused : Nat      -- QZ_DB_REFUSED, 32 bits saturating; 02 R52; 0
  dbQueue : Nat        -- QZ_DB_LAST QUEUE, 16 bits; 02 R52; 0
  dbReason : Nat       -- QZ_DB_LAST REASON, 4 bits; 02 R52; 0
  msix : List MsixEntry -- MSI-X table and pending bits, entries that are not all zero and masked; 17 R551; empty (every entry zero, masked)
  held : List Output   -- completions and messages held while Bus Master Enable is clear; 02 R577; empty
deriving DecidableEq, Repr

/-- One created queue pair (R29, Table 2.6). -/
structure QPair where
  fn : Nat             -- function; 02 R29
  qid : Nat            -- function-local number; 02 R29
  fault : Nat          -- FAULT_CAUSE, 0 for none; 02 R41
  sqBase : Comp        -- SQ base pair, 64 bits; 02 R41
  cqBase : Comp        -- CQ base pair, 64 bits; 02 R41
  sqDepth : Nat        -- 2 to 65,536; 02 R43
  cqDepth : Nat        -- 2 to 65,536; 02 R43
  vector : Nat         -- 02 R43
  intEn : Bool         -- 02 R57
  coalCount : Nat      -- 8 bits; 02 R57
  coalTime : Nat       -- µs, 12 bits; 02 R57
  errImm : Bool        -- 02 R57
  arbClass : Nat       -- 2 bits; 02 R54
  arbWeight : Nat      -- 1 to 16; 02 R54
  sqTail : Nat         -- last accepted SQ tail index; 02 R51
  sqHead : Nat         -- fetch position; 02 R50
  cqHead : Nat         -- last accepted CQ head index; 02 R51
  cqTail : Nat         -- next CQ slot to post; 02 R50
  phase : Bool         -- phase of the pass; 02 R50
  owed : Bool          -- a trigger of this pair waits as its vector's pending bit; 02 R57, R58
  heldCpl : Nat        -- completions held by R577, each occupying its slot; 02 R577
  coalN : Nat          -- completions since the last message; 02 R57
  coalAt : Option Nat  -- mono instant of the first completion since the last message; 02 R57
  credit : Nat         -- fetch slots left of the pair's weight in the present round; 02 R54
deriving DecidableEq, Repr

/-- How far a fetched request has come (R84). -/
inductive ReqPhase where
  | fetched | running
deriving DecidableEq, Repr

/-- One open request: fetched from an SQ or taken from the callboard, no completion posted yet. -/
structure Req where
  src : Src            -- 02 R46
  cid : Nat            -- 16 bits; Table 2.7
  opcode : Nat         -- 16 bits; Table 2.7
  pref : Bool          -- Table 2.7
  fence : Bool         -- 02 R55
  plist : Bool         -- Table 2.7
  cbdata : Bool        -- 02 R61
  solicit : Bool       -- 02 R57
  handle : W64         -- Table 2.7
  payAddr : Nat        -- Table 2.7
  payLen : Nat         -- Table 2.7
  param : List Byte    -- 40 or 24 bytes; 03 "The command envelope"
  order : Nat          -- fetch order; 02 R55
  at' : Nat            -- mono instant of the fetch; 02 R48
  atTb : Nat           -- tb instant of the fetch; 02 R48
  dl : Option Nat      -- mono instant of the deadline; 03 R88
  phase : ReqPhase     -- 03 R84
deriving DecidableEq, Repr

/-- The link and its functions. -/
structure Link where
  up : Bool            -- PCIe link in L0; 02 R26; false
  gen : Nat            -- trained rate, Gen1 to Gen5; 02 R26; 0
  width : Nat          -- trained width; 02 R26; 0
  inL2 : Bool          -- link in L2 by R479; 14 R479; false
  fns : List Fn        -- functions 0 to 31; 02 R25; see Fn
  pairs : List QPair   -- created pairs; 02 R29; empty
  reqs : List Req      -- open requests in fetch order; 03 R84; empty
  fetchStopped : Bool  -- fetching stopped by ADM_RESET_WARM, an entry, a reset, a handover or a halt; 03 R98; true until READY
  nextOrder : Nat      -- count of requests fetched; 02 R55; 0
  highRun : Nat        -- high-class slots since the last normal slot, 0 to 4; 02 R54; 0
  lastUrgent : Option (Nat × Nat) -- last urgent pair served; 02 R54; none
  lastHigh : Option (Nat × Nat)   -- last high pair served; 02 R54; none
  lastNormal : Option (Nat × Nat) -- last normal pair served; 02 R54; none
  bar4Miss : Nat       -- BAR4_MISS, 32 bits saturating; 02 R35; 0
  bar4Size : Nat       -- BAR4 size in bytes, 256 MiB to 64 GiB; 02 Table 2.2; 256 MiB
  regRefused : List (Nat × Nat) -- refused register writes per BAR0 region of Table 2.3; 17 R538; empty (all 0)
  ethDown : List Nat   -- Ethernet ports counted down by R570; 18 R570; empty
  ethDownCount : List (Nat × Nat) -- down counts per port (Trellis ports from 16); 18 R570; empty
  dbTotal : Nat        -- refused doorbells of the device, DIAG_COUNTERS set 1; 15 Table 15.11; 0
deriving DecidableEq, Repr

/-- The callboard (Table 2.11). -/
structure Callboard where
  state : Nat          -- CB_STATE STATE, 2 bits; 02 R59; 0
  server : Nat         -- CB_STATE SERVER, 2 bits; 02 R63; 0
  serverNext : Option Nat -- server that takes over when STATE leaves busy; 02 R63; none
  nextSeq : Nat        -- CB_STATE NEXT_SEQ, 16 bits; 02 R59; 0
  intEn : Bool         -- CB_CTRL INT_EN; Table 2.11; false
  refused : Nat        -- CB_REFUSED, 32 bits saturating; 02 R59; 0
  reason : Nat         -- CB_REASON, 4 bits; 02 R59; 0
  request : Mem        -- CB_REQUEST, 64 bytes; Table 2.11; zero
  response : List Byte -- CB_RESPONSE, 16 bytes; 02 R61; zero
  data : Mem           -- CB_DATA, 3,072 bytes; 02 R61; zero
  ringSeq : Nat        -- SEQ of the ring being served; Table 2.11; 0
  limit : Option Nat   -- mono instant of the server's limit; 02 R62; none
  failCount : Nat      -- FAIL_CB_COUNT, 32 bits; 17 R544; 0
  failTime : Nat       -- FAIL_CB_TIME (tb); 17 R544; 0
  failOpcode : Nat     -- FAIL_CB_OPCODE, 16 bits; 17 R544; 0
  refTotal : Nat       -- callboard refusals, DIAG_COUNTERS set 1; 15 Table 15.11; 0
deriving DecidableEq, Repr

/-! ### Objects and sessions (03) -/

/-- Life of an object (R78, R80). -/
inductive ObjState where
  | live
  | closing (req : Option ReqRef)
  | orphan
deriving DecidableEq, Repr

/-- One object (Table 3.3). -/
structure Obj where
  ty : Nat             -- TYPE, 8 bits; 03 R69
  slot : Nat           -- SLOT, 32 bits; 03 R69
  gen : Nat            -- GEN, 16 bits; 03 R69
  fn : Nat             -- FUNC; 03 R69
  sess : Option Nat    -- owning session's slot, none for an orphan; 03 R75
  st : ObjState        -- 03 R78
  deps : List (Nat × Nat) -- objects (type, slot) it depends on; 03 R77
  order : Nat          -- creation order; 03 R79
  shared : Bool        -- SHARED allocation; 03 R79
  chOn : Nat           -- bytes charged to the on-chip quota; 03 R102
  chSt : Nat           -- bytes charged to the stacked quota; 03 R102
  holdS : Nat          -- HOLD_S of the closed session; 03 R80
  holdAt : Option Nat  -- mono instant at which the hold passes; 03 R80
deriving DecidableEq, Repr

/-- One session (R92, R100). -/
structure Session where
  slot : Nat           -- 03 Table 3.3
  tag : Nat            -- CLIENT_TAG, 64 bits; 03 Table 3.9
  holdS : Nat          -- HOLD_S; 03 R79
  admin : Bool         -- administrator; 03 R92
  events : List Event  -- event queue, at most 1,024; 03 R100
  lost : Nat           -- events lost since the last wait; 03 R100
  close : Option (ReqRef × Nat × Nat) -- ADM_SESSION_CLOSE that runs, the objects it orphaned, and the query batches it releases; 03 R79, R403
deriving DecidableEq, Repr

/-- Objects, sessions and queues of events. -/
structure Objects where
  objs : List Obj      -- live, closing and orphaned objects in creation order; 03 R69; empty
  gens : List ((Nat × Nat) × Nat) -- generation of each slot that has been released or drawn; 03 R72; empty
  sessions : List Session -- open sessions; 03 R92; empty
  nextOrder : Nat      -- count of objects created; 03 R79; 0
  devEvents : List Event -- device queue of R504, at most 1,024; 15 R504; empty
  devLost : Nat        -- events lost at the full device queue; 15 R504; 0
  ageMarks : List ((Nat × Nat × Nat) × (Nat × List Nat)) -- last raise and instants (mono) of the last second's occurrences of each once-per-second event (event, type, handle or value); 04 R137; empty
deriving DecidableEq, Repr

/-! ### Memory (03, 12) -/

/-- One allocation (R102). -/
structure Alloc where
  slot : Nat
  size : Nat           -- bytes; 03 Table 3.13
  onchip : Bool        -- tier it lies in now; 03 R101
  flags : Nat          -- FLAGS [5:0]; 03 Table 3.12
  align : Nat          -- ALIGN_LOG2; 03 Table 3.13
  cluster : Nat        -- cluster of an on-chip allocation; 03 R107
  mapped : Option Nat  -- BAR4 window offset in 4 KiB units; 03 R109
  sealed : Option Nat  -- stored 4 KiB blocks after MEM_SEAL; 03 R102
  mem : Mem            -- contents (of the value half with CRITICAL); 12 R404
  poison : List Nat    -- poisoned word numbers, rising; 12 R409
  badPair : List Nat   -- CRITICAL word numbers whose pair is unusable, rising; 12 R421
deriving DecidableEq, Repr

/-- A quota of a function in a tier (R103, R105, R110). -/
structure Quota where
  fn : Nat
  tier : Nat           -- 0 on-chip, 1 stacked; 03 Table 3.13
  quota : Nat          -- bytes; 03 R103; whole tier for function 0, else 0
  used : Comp          -- counter as a complement pair; 03 R105; 0
  peak : Nat           -- peak use; 03 R110; 0
  refused : Nat        -- refusal count; 03 R110; 0
deriving DecidableEq, Repr

/-- A fault record (Table 12.6). -/
structure FaultRec where
  at' : Nat
  kind : Nat
  unit : Nat
  index : Nat
  addr : Nat
  syndrome : Nat
  action : Nat
  handle : W64
  ended : Nat
  poolLeft : Nat
  repl : Nat
deriving DecidableEq, Repr

/-- Corrected errors remembered for a granule (R413, R427): word, mono instants. -/
structure GranuleLog where
  granule : Nat
  words : List (Nat × Nat) -- word and mono instant of its last correction; 12 R413
  hourAt : Nat         -- mono instant of the last "first in the hour" record; 12 R427
deriving DecidableEq, Repr

/-- Memory system. -/
structure MemSys where
  allocs : List Alloc  -- allocations; 03 R102; empty
  quotas : List Quota  -- per function and tier; 03 R103; see Quota
  pool : Nat           -- granules left in the retirement pool; 12 R406; 16,384
  stackedCap : Nat     -- capacity of the stacked tier in bytes; 12 R405; 215,607,357,440
  quarStacked : Nat    -- quarantined stacked bytes; 12 Table 12.7; 0
  redirects : List (Nat × Nat) -- retired granules and their pool granules; 12 R413; empty
  retiring : List Nat  -- granules being copied, writes held; 12 R413; empty
  history : List GranuleLog -- corrected errors per granule; 12 R413; empty
  faults : List FaultRec -- fault log, newest first, at most 16,384; 12 R428; empty
  faultsLost : Nat     -- overwritten fault records; 12 R428; 0
  corrected : List ((Nat × Nat) × Nat) -- corrected errors per (unit, index); 12 R427; empty
  failUe : Option FaultRec -- FAIL_UE; 17 R543; none (zero)
  failUeSeq : Nat      -- FAIL_UE_SEQ; 17 R543; 0
  failCm : Option FaultRec -- FAIL_CM; 17 R543; none (zero)
  failCmSeq : Nat      -- FAIL_CM_SEQ; 17 R543; 0
  scrubPaused : Bool   -- scrub paused in S2 and S3; 12 R412; false
deriving DecidableEq, Repr

/-! ### Sensor ports and the time base (04) -/

/-- A time-base alarm that is set (R157). -/
structure Alarm where
  n : Nat
  t : Nat              -- tb instant; 04 R157
  wake : Bool          -- 04 R157
  sess : Nat           -- slot of the session that last set it; 04 R157
  gen : Nat            -- that session's generation; 04 R157
deriving DecidableEq, Repr

/-- The PTP configuration (Table 4.15). -/
structure PtpCfg where
  role : Nat
  profile : Nat
  ports : Nat
  transport : Nat
  domain : Nat
  delay : Nat
  prio1 : Nat
  prio2 : Nat
  stepNs : Nat
  ips : List Nat
  lockNs : Nat
  annTimeout : Nat
deriving DecidableEq, Repr

/-- The time base and its servo. -/
structure TimeBase where
  now : Nat            -- stepped time, 2^-16 ns (seconds, ns and fraction of Table 4.9); 04 R139; 0
  mono : Nat           -- step-free count, 2^-16 ns; 04 R143; 0
  frac : Int           -- part of a 2^-16 ns not yet counted, in 10^-6 of it; 04 R141 [1]; 0
  rate : Int           -- set rate, 2^-16 ppm, signed; 04 R141; 0
  sleepErr : Int       -- rate error of the 32.768 kHz oscillator in S3, 2^-16 ppm, signed; 14 R483; 0
  slew : Int           -- offset still to absorb, in 10^-6 of 2^-16 ns; 04 R141 [1]; 0
  steps : Nat          -- steps since cold reset; 04 R142; 0
  latch : Nat          -- latched time word TB_WORD0 to TB_WORD3, 128 bits; 17 R545; 0
  latchSeq : Nat       -- TB_LATCH_SEQ, 32 bits; 17 R545; 0
  ptp : PtpCfg         -- TIME_PTP_CONFIG settings; 04 Table 4.15; role 0
  servo : Nat          -- 0 free-run, 1 locking, 2 locked, 3 holdover; 04 R145; 0
  offset : Int         -- last offset from the master, ns; 04 R145; 0
  good : Nat           -- consecutive Sync intervals within LOCK_NS; 04 R145; 0
  master : W64         -- master clock identity; 04 Table 4.15; 0
  holdAt : Option Nat  -- mono instant at which holdover began; 04 R146; none
  slavePort : Option Nat -- Ethernet port on which a master is selected; 04 R144, R145; none
  annAt : Nat          -- mono instant of the master's last Announce; 04 R145; 0
  annIv : Nat          -- announce interval, ns; 04 R145; 0
  syncAt : Nat         -- mono instant of the last Sync; 04 R145; 0
  syncIv : Nat         -- Sync interval, ns; 04 R145; 0
  ensLocked : Bool     -- first ensemble lock reached; 13 R445; false
  alarms : List Alarm  -- alarms that are set; 04 R157; empty
deriving DecidableEq, Repr

/-- Where a stream's reference stands (R148). -/
structure StreamRef where
  o : Int              -- d_0 - s_0 in 2^-16 ns; 04 R148
  s0 : Int             -- sensor time of the unit that set it, 2^-16 ns; 04 R148
  k0 : Nat             -- frame number of that unit; 04 R148
deriving DecidableEq, Repr

/-- Frame descriptor (Table 4.7) with the frame's rows of pixel codes. -/
structure Frame where
  stamp : Stamp
  sensor : Int         -- sensor time, 2^-16 ns; Table 4.7
  number : Nat         -- frame number, 32 bits; Table 4.7
  desync : Bool        -- ST_E_DESYNC; 04 R149
  incomplete : Bool
  ecc : Bool
  crc : Bool
  length : Bool
  stepped : Bool
  lines : Nat          -- lines received; Table 4.7
  lead : Nat           -- lines received without a gap from the top; 06 R196
  e : Int              -- divergence, ns; Table 4.7
  gvspFormat : Nat
  desc : List Byte     -- the 64 descriptor bytes, written at frame end; Table 4.7
  rows : List (List Nat) -- pixel codes row by row; 04 R121
  got : List (Nat × Nat) -- byte ranges received (GVSP and SSF); 04 R127
deriving DecidableEq, Repr

/-- A ring buffer (R137). -/
inductive Buf where
  | free
  | claimed (f : Frame)
  | held (f : Frame)
deriving DecidableEq, Repr

/-- One open stream (R112). -/
structure Stream where
  slot : Nat
  kind : Nat           -- 0 CSI-2, 1 GVSP, 2 SSF image; 04 Table 4.13
  port : Nat
  vc : Nat
  format : Nat
  width : Nat
  height : Nat
  period : Nat         -- PERIOD_NS
  phy : Nat
  laneRate : Nat
  udp : Nat
  source : Nat
  tickHz : Nat
  cal : Option Nat     -- calibration set slot; 09 R297
  calNext : Option Nat -- replacement set taken at the next unit; 09 R297
  dt : Nat
  started : Bool       -- 04 R153
  stopping : Bool      -- stopped while a frame is in progress; 04 R154
  ref : Option StreamRef -- 04 R148
  rebase : Bool        -- re-base at the next unit; 04 R155
  newPeriod : Option Nat -- PERIOD_NS from the next unit on; 04 R155
  desync : Bool        -- 04 R149
  good : Nat           -- consecutive good units; 04 R150
  stepped : Bool       -- next descriptor sets TIME_STEPPED; 04 R142
  frameExt : Nat       -- last extended frame number; Table 4.1
  ring : List Buf      -- 04 R136
  delivered : Nat      -- 04 R583
  dropped : Nat        -- 04 R583
  incomplete : Nat     -- 04 R583
  desynced : Nat       -- 04 R583
  lastE : Int          -- ns; 04 R583
  unmatched : Nat      -- frames released unmatched; 06 R212
  relEnd : List Nat    -- buffers whose frame in progress is released at its end; 06 R218
deriving DecidableEq, Repr

/-- What a sample record of a low-rate channel says (Table 4.8). -/
structure LrRec where
  stamp : Stamp
  value : Int
  desync : Bool
  flags : Nat
  latched : Int
deriving DecidableEq, Repr

/-- One open low-rate channel (R113). -/
structure LowRate where
  ch : Nat
  sess : Nat           -- owning session's slot; 04 R114
  kind : Nat           -- 3 SSF, 4 encoder; 04 Table 4.13
  port : Nat           -- Ethernet port or encoder input
  udp : Nat
  source : Nat
  index : Nat          -- SSF channel index
  period : Nat
  started : Bool
  ref : Option StreamRef
  rebase : Bool
  newPeriod : Option Nat
  desync : Bool
  good : Nat
  window : Nat         -- window of the last block, ns; 04 R149
  lastE : Int
  ring : List (List Byte) -- 32-byte records, newest first, at most 4,096; 04 R138
  written : Nat
  overwritten : Nat
  desynced : Nat
  gap : Bool           -- gap before the next sample; Table 4.8
  lastSeq : Option Nat -- SEQUENCE of the last block; Table 4.4
  sampledAt : Option Nat -- mono instant of an encoder input's last sample; 04 R135
deriving DecidableEq, Repr

/-- Settings of a CSI-2 port in force (R117). -/
structure CsiPort where
  port : Nat
  cphy : Bool
  scramble : Bool
  rate : Nat
deriving DecidableEq, Repr

/-- One encoder input (R135). -/
structure Enc where
  n : Nat
  a : Bool             -- filtered level of A; 04 R135; false [3]
  b : Bool             -- filtered level of B; 04 R135; false [3]
  count : Int          -- signed 32 bits; 04 R135; 0
  latched : Int        -- count at the last index; 04 R135; 0
  indexSeen : Bool     -- since the last sample; Table 4.8; false
  illegalSeen : Bool   -- since the last sample; Table 4.8; false
  illegal : Nat        -- illegal transitions counted; 04 R135; 0
deriving DecidableEq, Repr

/-- Sensor ports. -/
structure Sensors where
  streams : List Stream -- open streams; 04 R112; empty
  lows : List LowRate  -- open low-rate channels; 04 R113; empty
  csi : List CsiPort   -- settings fixed by open streams; 04 R117; empty
  encs : List Enc      -- encoder inputs 0 to 15; 04 R135; see Enc
  counts : List ((Nat × Nat) × Nat) -- drop and error counters per (reason, port); 04 R120; empty (all 0)
deriving DecidableEq, Repr

/-! ### Sensor filter chain (05) -/

/-- A coefficient bank (R171, R180). -/
structure Bank where
  taps : List Int      -- sQ0.17 codes, 18 bits; 05 R162
  cls : Nat            -- symmetry class; 05 R180
  g : Int              -- G in 2^-16 input samples; 05 R180
deriving DecidableEq, Repr

/-- A swap or fade that waits for its point (R172, R173). -/
structure PendSwap where
  req : ReqRef
  at' : Nat            -- tb instant, 0 for the next input; 05 R172
  fade : Nat           -- FADE_LEN, 0 for a swap; 05 R173
deriving DecidableEq, Repr

/-- What an output record says (Table 5.2). -/
structure FiltRec where
  t : Int              -- time word in 2^-16 ns; 05 R168
  tag : Nat
  value : Int
  degraded : Bool
  flags : Nat
  j : Nat
  a : Nat
deriving DecidableEq, Repr

/-- One input of the delay line: the value d, and whether it is a held copy (R178). -/
structure Tap where
  d : Int
  heldIn : Bool
deriving DecidableEq, Repr

/-- One open filter channel (R158). -/
structure Chan where
  slot : Nat           -- channel number; 05 R159
  ctrl : Nat
  cs : Nat
  word : Nat
  period : Nat
  decim : Nat
  phase : Nat          -- P, 12 bits; 05 R162
  newPhase : Option Nat -- P from the next input on; 05 R176
  dcShift : Nat
  ringLog2 : Nat
  cal : W64
  m : Int              -- DC estimate, sQ23.24, 48 bits; 05 R163
  frozen : Bool        -- 05 R177
  newFreeze : List (Nat × Int) -- FILT_DC_FREEZE modes for the next input, in their order; 05 R177
  first : Nat          -- number of the first strobe after the open; 05 R161
  hist : List Tap      -- delay line, newest first, at most 4,479; 05 R176
  n : Nat              -- inputs since n = 0; 05 R166
  j : Nat              -- emissions since the open; 05 R166
  bankA : Option Bank  -- 05 R161
  bankB : Option Bank  -- 05 R161
  active : Nat         -- 0 A, 1 B; 05 R161
  swapped : Bool       -- a swap has happened; 05 R174
  pend : Option PendSwap -- 05 R174
  fade : Option (Nat × Nat) -- running fade: next index i, length f; 05 R173
  step : Bool          -- next output carries SETTING_STEP; Table 5.2
  lastX : Int          -- last input x; 05 R178
  lastStamp : Stamp    -- stamp of the last real input; 05 R178
  heldRun : Nat        -- held inputs since it; 05 R179
  stalled : Bool       -- 05 R179
  offStall : Bool      -- stalled by its domain going off; 14 R474
  ring : List (List Byte) -- 32-byte records, newest first, at most 2^RING_LOG2; 05 R169
  written : Nat        -- outputs written; 05 Table 5.4
  overwritten : Nat    -- 05 R169
deriving DecidableEq, Repr

/-- The settings of a chip select and its strobes (R131, R134). -/
structure ChipSel where
  ctrl : Nat
  cs : Nat
  mode : Nat           -- MODE byte: SPI mode, width, strobe; 05 Table 5.4
  words : Nat
  sclk : Nat           -- units of 100 kHz
  period : Nat
  queue : List (Stamp × Nat) -- strobes queued behind another transaction, and their numbers; 04 R134
  lastStrobe : Option Nat -- mono instant of the last strobe; 04 R134
  gap : Bool           -- a gap is recorded; 04 R134
deriving DecidableEq, Repr

/-- The filter chain and its SPI controllers. -/
structure Filters where
  chans : List Chan    -- open channels; 05 R158; empty
  sels : List ChipSel  -- chip selects in use; 04 R131; empty
  busy : List (Nat × Nat × Stamp × Nat) -- running transaction per controller: controller, chip select, strobe and its number; 04 R134; empty
  strobes : Nat        -- strobes numbered since reset; 05 R161; 0
deriving DecidableEq, Repr

/-! ### Vision engines and cue sheets (06) -/

/-- Stream slot record (R210). -/
structure SlotRec where
  width : Nat
  height : Nat
  format : Nat
deriving DecidableEq, Repr

/-- Node record (Table 6.10) with its parameter block. -/
structure NodeRec where
  unit : Nat
  streaming : Bool
  inA : Nat
  inB : Nat
  inC : Nat
  out0 : Nat
  out1 : Nat
  poff : Nat
  plen : Nat
deriving DecidableEq, Repr

/-- Buffer record (Table 6.11). -/
structure BufRec where
  kind : Nat
  place : Nat
  cluster : Nat
  slots : Nat
  format : Nat
  release : Bool
  flag : Nat
  width : Nat
  height : Nat
  capacity : Nat
  sslot : Nat
  levels : Nat
deriving DecidableEq, Repr

/-- A parsed cue sheet image (R210). -/
structure SheetImg where
  flags : Nat
  trigger : Nat
  maxSets : Nat
  deadlineUs : Nat
  matchNs : Nat
  slots : List SlotRec
  nodes : List NodeRec
  bufs : List BufRec
  params : List Byte
  len : Nat
deriving DecidableEq, Repr

/-- A cue flag (Table 6.14). -/
structure CueFlag where
  done : Nat
  status : Nat
  slot : Nat
  writer : Nat
  released : Nat
deriving DecidableEq, Repr

/-- One slot of a sheet's buffer: the set that wrote it, its status, and its contents. -/
structure BufSlot where
  set : Nat            -- 0 before the first; 06 R219
  writing : Bool       -- a node is writing it; 06 R219
  status : Nat
  bytes : List Byte    -- planes with their row pitch, record arrays; 06 R189, R192
deriving DecidableEq, Repr

/-- A slot's frame in a set (R212, R213). -/
inductive SetFrame where
  | waiting
  | matched (buf : Nat)
  | missing
  | released
deriving DecidableEq, Repr

/-- A buffer of a started sheet. -/
structure BufRun where
  slots : List BufSlot -- 06 R219
  next : Nat           -- slot written next; 06 R219
  stats : List (Nat × Nat) -- status of the last sets, newest first, at most 8; 06 R215
deriving DecidableEq, Repr

/-- Where a node of a set stands: waiting, its external waits met (R223), running with its bands done
(R185), or completed. -/
inductive NodeSt where
  | idle
  | met
  | running (band : Nat)
  | done (status : Nat)
deriving DecidableEq, Repr

/-- A frame set in flight (R212). -/
structure FrameSet where
  n : Nat              -- set number; 06 R220
  tn : Stamp           -- t_n; 06 R212
  tnMono : Nat         -- t_n on mono; 04 R143
  frames : List SetFrame -- per stream slot
  nodes : List NodeSt  -- per node
  ext : List (Nat × Nat × Nat × Nat) -- external inputs as their waits met them: node, buffer, slot, status; 06 R223
  prevOk : Bool        -- a previous set exists for PREV inputs; 06 R216
deriving DecidableEq, Repr

/-- One loaded cue sheet. -/
structure Sheet where
  slot : Nat
  img : SheetImg
  started : Bool       -- 06 R227
  stopping : Option ReqRef -- CUE_STOP mode 0 that drains; 06 R228
  group : Nat          -- 0xFF when not started; Table 6.17
  streams : List Nat   -- bound stream slots; 06 R227
  flags : List CueFlag -- 06 R220
  bufs : List BufRun   -- 06 R219
  sets : List FrameSet -- sets in flight, oldest first; 06 R214
  lastSet : Nat        -- last set opened; Table 6.17
  lastDone : Nat       -- last set with every flag written; Table 6.17
  skippedSets : Nat
  missingSets : Nat
  abandoned : Nat
  lastLat : Nat        -- µs
  maxLat : Nat         -- µs
  unmatched : Nat
  prevOk : Bool        -- the set before the next one was whole; 06 R216
  skips : List Nat     -- tb instants of skipped trigger frames; 06 R214
  t0s : List (Nat × Nat × Nat) -- opening words (set, tb, mono) of the sets since the start, newest first; 07 R261
deriving DecidableEq, Repr

/-- A vision unit at work (R185, R187): group, kind (Table 6.10 `UNIT`), number, and its node. -/
structure VUnit where
  group : Nat
  kind : Nat
  no : Nat
  sheet : Nat
  set : Nat
  node : Nat
deriving DecidableEq, Repr

/-! ### Tile array (07) -/

/-- Resource statement (Table 7.5), defaults applied. -/
structure ResStmt where
  tileBytes : Nat
  clusters : Nat
  tilesMin : Nat
  stageBytes : Nat
  gsuBytes : Nat
  stackedShared : Nat
  stackedPerInst : Nat
  lookahead : Nat
  instances : Nat
  pkgFlags : Nat
  lateWeightUs : Nat
  weightTimeoutUs : Nat
  flagWaitUs : Nat
  taskLimitUs : Nat
  runDeadlineUs : Nat
deriving DecidableEq, Repr

/-- Layer record (Table 7.6). -/
structure LayerRec where
  firstBlock : Nat
  blocks : Nat
  tasks : Nat
  waitPort : Nat
  signalPort : Nat
  cls : Nat
  remoteOk : Bool
  statedUs : Nat       -- units of 0.01 µs
deriving DecidableEq, Repr

/-- Port record (Table 7.8). -/
structure PortRec where
  kind : Nat
  dir : Nat
  format : Nat
  minBytes : Nat
  dynMax : Nat
deriving DecidableEq, Repr

/-- A stored tensor block (Table 12.3) and its quarantine (R423). -/
structure TBlock where
  off : Nat            -- byte offset of the stored block in the image; 12 R415
  mode : Nat
  units : Nat
  codeLen : Nat
  crc : Nat
  quarAt : Option Nat  -- mono instant of its quarantine; 12 R423
  dead : Bool          -- quarantined for the life of the package; 12 R425
  good : Bool          -- its stored bytes decode; 12 R417
deriving DecidableEq, Repr

/-- A refetch pass (R424, R425). -/
structure Refetch where
  failures : Nat       -- failed host reads so far; 12 R425
  retryAt : Option Nat -- mono instant of the next pass; 12 R425
  blocks : List Nat    -- blocks quarantined before the pass began
deriving DecidableEq, Repr

/-- One loaded package (R246). -/
structure Pkg where
  slot : Nat
  designLevel : Nat
  digest : List Byte
  len : Nat
  rs : ResStmt
  ports : List PortRec
  layers : List LayerRec
  blocks : List TBlock
  sheets : List SheetImg -- carried cue sheets; 07 Table 7.4
  scheds : List (Nat × List Byte) -- carried schedules by section index; 10 R359
  schedHeld : List Nat -- section indexes whose GSU claim a problem holds; 10 R359
  gsus : List (Nat × Nat) -- schedule memory claimed: section, GSU; 07 R250
  place : List Nat     -- placed clusters; 07 R249
  below : List Nat     -- placed clusters below TILES_MIN; 07 R244
  prefetch : List Byte -- the prefetch schedule; 07 R251
  late : List (Nat × Nat × Nat) -- layer, late-weight events, longest stall µs; 07 R252
  refetched : Nat      -- blocks refetched; Table 7.12
  refetch : Option Refetch
deriving DecidableEq, Repr

/-- Where a run stands: queued; waiting for its WAIT_PORT flag or its output slot since a mono
instant (R262, R264); or with tasks of its layer not completed, some of them not yet released to the
dispatcher of a cluster (R234, R237). -/
inductive RunSt where
  | queued
  | waitFlag (since : Nat)
  | waitSlot (since : Nat)
  | tasks (left unreleased cluster : Nat)
deriving DecidableEq, Repr

/-- One run (R259). -/
structure Run where
  req : ReqRef
  dl : Option Nat      -- mono deadline, none when it counts from t_s; 07 R261
  dlUs : Nat           -- DEADLINE_US that counts from t_s; 07 R261
  admitted : Nat          -- tb instant of admission; 09 R299
  set : Nat            -- s, 0 for none; 07 R260
  layer : Nat
  st : RunSt
  startAt : Option Nat -- mono instant of its first task
  serial : Nat         -- the run's number; 07 R236
  landed : List Nat    -- layers whose blocks have landed; 07 R251
  issued : List (Nat × Nat) -- layers whose fetch is issued, with the order of issue; 07 R251
  lateOff : Bool       -- an awaited block was quarantined: no late-weight limit; 07 R253
  stallAt : Option Nat -- mono instant of the layer's first stall; 07 R252
  desyncs : List Nat   -- input ports met with ST_E_DESYNC; 07 R263
  clamped : List Nat   -- ports clamped; 07 R255
  status : Nat         -- qualified success so far; 07 R263
  signalled : List Nat -- output ports signalled; 07 R265
deriving DecidableEq, Repr

/-- One instance (R256). -/
structure Inst where
  slot : Nat
  pkg : Nat
  binds : List (Nat × Nat × Nat) -- type, slot and buffer index per port; 07 Table 7.9
  runs : List Run      -- the running one first, then queued ones; 07 R259
  doneRuns : Nat
  errRuns : Nat
  lateRuns : Nat
  lastUs : Nat
  maxUs : Nat
  lastSet : Nat
  aborted : Nat        -- queued runs aborted by its INST_DESTROY; 07 R268
  mem : Mem            -- the instance's stacked memory; 07 Table 7.5
deriving DecidableEq, Repr

/-- A task (R234). -/
structure Task where
  inst : Nat
  gen : Nat            -- generation of the instance; 07 R234
  run : Nat            -- number of its run; 07 R236
  limitUs : Nat        -- TASK_LIMIT_US; 07 R236
  layer : Nat
  no : Nat
  order : Nat          -- order of arrival at the dispatcher; 07 R235
  remote : Bool        -- REMOTE_OK; 07 R238
  cluster : Nat        -- dispatcher that placed it; 07 R241
deriving DecidableEq, Repr

/-- A tile with work (R235). -/
structure Tile where
  id : Nat             -- cluster × 16 + tile
  queue : List Task    -- at most 64; 07 R237
  running : Option (Task × Nat) -- task and mono instant of its start; 07 R236
deriving DecidableEq, Repr

/-- The tile array. -/
structure Tiles where
  pkgs : List Pkg      -- loaded packages; 07 R246; empty
  insts : List Inst    -- instances; 07 R256; empty
  tiles : List Tile    -- tiles with a queue entry or a running task; 07 R235; empty
  pools : List (Nat × List Task) -- tasks held per dispatcher; 07 R237; empty
  nextOrder : Nat      -- tasks that reached a dispatcher; 07 R235; 0
  nextRun : Nat        -- runs admitted; 07 R236; 0
  nextIssue : Nat      -- layer fetches issued; 07 R251; 0
  badImgs : List (Nat × Nat) -- tile images to restore: tile, package; 07 R233; empty
  droppedFlags : Nat   -- tile flag writes dropped; 06 R222; 0
deriving DecidableEq, Repr

/-! ### Fusion (09) -/

/-- One voxel an epoch has touched (Table 9.1 and its features). -/
structure Voxel where
  i : Nat              -- brick × 512 + voxel in brick; 09 R292
  w : Nat              -- W, FP16 code
  label : Nat
  conflict : Bool
  voters : Nat
  epoch : Nat
  feat : List Nat      -- FP16 codes, CHANNELS of them
deriving DecidableEq, Repr

/-- A received batch waiting for the lift (Table 9.4). -/
structure Batch9 where
  ftime : Nat
  sensor : Nat
  records : List (List Byte)
  inst : Nat           -- instance whose run emitted it; 09 R299
  run : Nat            -- number of that run; 09 R299
  lifted : Option (List W64 × Bool) -- lifted before the close: its lift pose, and whether it was extrapolated; 09 R299, R308
deriving DecidableEq, Repr

/-- An epoch (R300). -/
structure Epoch where
  no : Nat
  tu : Nat             -- opening EPOCH_TIME (tb); 09 R300
  openAt : Nat         -- mono instant of EPOCH_TIME; 09 R301
  accepting : Bool     -- 09 R301
  ends : List Nat      -- sensors whose END arrived
  desync : List Nat    -- sensors excluded as desynchronised; 09 R302
  errored : Bool       -- an error SOURCE_STATUS; 09 R302
  absent : List Nat    -- 09 R301
  excluded : List Nat  -- sensors that take no part in votes and features; 09 R302
  cals : List (Option Nat) -- calibration set of each sensor since the epoch opened; 09 R316
  batches : List Batch9
deriving DecidableEq, Repr

/-- One sensor of a grid (Table 9.3) and its votes (R312). -/
structure GSensor where
  stream : Nat
  sheet : Option Nat
  flow : Nat
  feat : Nat
  expect' : Bool
  moving : Bool
  sigma : Nat          -- PIXEL_SIGMA, FP32 code
  suspect : Bool
  since : Nat          -- epochs closed while suspect; 09 R313
  win : List (Nat × Nat) -- (J, O) newest first, at most VOTE_WINDOW; 09 R312
  calNext : Option Nat -- replaced set taken at the next epoch open; 09 R297
  calSlot : Option Nat -- calibration set in use
  rejects : Nat        -- gate rejections; 09 R310
  pose : List (BitVec 64) -- refined pose, 3 + 4 FP64 words; 09 R309
  sigma6 : List Nat    -- its σ, six FP32 codes; 09 Table 9.9
  poseAt : Nat         -- its time (tb); 09 Table 9.9
  poseSt : Nat         -- status of its solve; 09 Table 9.9
  lift : List (BitVec 64) -- lift pose at the last t_u, 3 + 4 FP64 words; 09 R308
  liftSt : Nat         -- its status; 09 R308
  rebuilt : Bool       -- its next lift pose is the first after a warm reset; 09 R311
  lastJ : Nat
  lastO : Nat
  pending : List (Nat × List Byte) -- host poses pending: time, record; 09 R318
  hosts : Nat          -- host poses counted; 09 R310
deriving DecidableEq, Repr

/-- Vote settings (R316). -/
structure Votes where
  share : Nat
  window : Nat
  contra : Nat
  suspect : Nat
  conflictMin : Nat
deriving DecidableEq, Repr

/-- A change that waits for the time between epochs (R316). -/
inductive GridPend where
  | votes (req : ReqRef) (param : List Byte)
  | clear (req : ReqRef) (b0 b1 : Nat × Nat × Nat)
deriving DecidableEq, Repr

/-- One measurement of the estimator window (Table 9.5): its epoch's t_u, its factor kind (Table 10.3), its sensor, its
number among those, and the words of its factor. -/
structure EgoMeas where
  tu : Nat
  kind : Nat
  sensor : Nat
  no : Nat
  words : List W64
deriving DecidableEq, Repr

/-- One grid (R291). -/
structure Grid where
  slot : Nat
  dims : Nat × Nat × Nat
  channels : Nat
  edgeUm : Nat
  freeSpan : Nat
  window : Nat
  origin : Nat × Nat × Nat -- FP32 codes
  touchMax : Nat
  epochUs : Nat
  matchNs : Nat
  egoUs : Nat
  wMax : Nat           -- FP16 code
  decay : Nat
  hostScale : Nat
  gate : Nat           -- FP32 code
  egoPkg : Option Nat
  sensors : List GSensor
  votes : Votes
  voxels : List Voxel  -- touched voxels by rising index; 09 R294; empty
  poison : List Nat    -- voxels that hold a poisoned word; 12 R409; empty
  nextEpoch : Nat      -- number of the next epoch; 09 R294; 1
  epochs : List Epoch  -- open epochs by t_u, at most two; 09 R300
  closed : Option (Nat × Nat × Nat) -- last closed epoch: number, t_u, status; Table 9.9
  closedTus : List Nat -- t_u of closed epochs, newest first; 09 R300
  lastAbsent : Nat
  lastDesync : Nat
  lastDropped : Nat    -- records dropped by R305 in the last epoch
  dropLift : Nat       -- records dropped by R303 since creation
  dropBatch : Nat      -- batches dropped by R300 since creation
  pairs : List (Nat × Nat × Nat) -- contradicting pairs of the last epoch: a, b, count; 09 R314
  pend : List GridPend -- 09 R316
  poseTimes : List Nat -- tb times of the window poses, newest first; 09 R318
  meas : List EgoMeas  -- measurements of the estimator window; 09 R309
deriving DecidableEq, Repr

/-- One calibration set (R296). -/
structure Cal where
  slot : Nat
  bytes : List Byte    -- 1,024 bytes, Table 9.2
  bad : Bool           -- complement mismatch; 09 R296
deriving DecidableEq, Repr

/-- Fusion. -/
structure Fusion where
  grids : List Grid    -- 09 R298; empty
  cals : List Cal      -- 09 R295; empty
deriving DecidableEq, Repr

/-! ### Graph solver units (10) -/

/-- Block record (Table 10.5). -/
structure BlockRec where
  kind : Nat
  dim : Nat
  fixed : Bool
  marginal : Bool
  motion : Nat
  f : Nat
  vel : Nat
  bound : W64
deriving DecidableEq, Repr

/-- Factor record (Table 10.6). -/
structure FactorRec where
  kind : Nat
  arity : Nat
  resDim : Nat
  blocks : List Nat
deriving DecidableEq, Repr

/-- A parsed solver schedule (R328). -/
structure Sched where
  cls : Nat
  arith : Nat
  gsuCount : Nat
  gsuMask : Nat
  outer : Nat
  method : Nat
  inner : Nat
  designLevel : Nat
  floor : Nat
  finger : W64
  statedUs : Nat
  gsuBytes : Nat
  valueBytes : Nat
  lambda0 : W64
  deadlineUs : Nat
  blocks : List BlockRec
  factors : List FactorRec
  order : List Nat
  len : Nat
deriving DecidableEq, Repr

/-- A factor's present values (R335). -/
structure FactorVal where
  set' : Bool
  enabled : Bool
  words : List W64
  x0 : List (List W64) -- values of its blocks when SET_FACTOR committed; Table 10.3
deriving DecidableEq, Repr

/-- A solution with its T_REF (R358). -/
structure Solution where
  values : List (List W64)
  cov : List (List W64)
  tRef : Nat
  cost : W64
  satBlocks : List Nat -- blocks that saturated; 10 R361
  pivBlocks : List Nat -- blocks with a floored pivot; 10 R361
  status : Nat         -- status of the run that formed it; 10 R361
deriving DecidableEq, Repr

/-- A run of a problem (R349). -/
structure SolveRun where
  req : ReqRef
  dl : Nat             -- mono deadline; 10 R354
  warm : Nat
  source : Option Nat
  tRef : Nat
  at' : Nat            -- mono instant of admission
  start : Option Nat   -- mono instant of its start
  flags : Nat          -- COLD_START and warm-start flags of this run; 10 R347
  base : List (List W64) -- values its solve started from; 10 R335
  vals : List FactorVal -- factor values its solve reads: the batches committed before its start; 10 R335
  sats : List Nat      -- blocks that saturated when a source's values were converted; 10 R342, R347
deriving DecidableEq, Repr

/-- One resident problem (R322). -/
structure Problem where
  slot : Nat
  sch : Sched
  gsus : List Nat
  prog : Nat           -- stands for the compiled program, no user interface; 10 R328; the model's own
  pkg : Option (Nat × Nat) -- package and section whose claim it holds; 10 R359
  start : List (List W64) -- starting values; 10 R335
  startBad : List Nat  -- blocks whose starting value is uncorrectable; 10 R352
  factors : List FactorVal
  resident : Option Solution -- 10 R358
  previous : Option Solution -- the completed solve before it; 10 R356
  valuesBad : Bool     -- value storage uncorrectable; 10 R352
  schedBad : Bool      -- schedule memory waits to be restored; 10 R352
  init : List (Nat × List W64) -- blocks whose resident value INIT_BLOCK rewrote; 10 Table 10.7
  delivered : Option (Solution × Nat) -- delivered solution and its run's status; 10 R358
  runs : List SolveRun -- running first; 10 R349
  doneRuns : Nat
  staleRuns : Nat
  degraded : Nat
  lastUs : Nat
  maxUs : Nat
deriving DecidableEq, Repr

/-! ### Map store and place search (11) -/

/-- An edge half (Table 11.4). -/
structure Edge where
  target : W64
  kind : Nat
  reverse : Bool
  weight : Nat
  x : Nat
  y : Nat
deriving DecidableEq, Repr

/-- A live object cell (Table 11.3). -/
structure MCell where
  kind : Nat
  shard : Nat
  body : List Byte     -- bytes 16 on of the cell
  blocks : List (List Edge) -- edge blocks of at most 15 halves; 11 "Edges"
  obs : Nat            -- observations (K9); Table 11.3
deriving DecidableEq, Repr

/-- A slot of the slot table that has been used (R369). -/
structure MSlot where
  n : Nat
  gen : Nat
  cell : Option MCell
  retired : Bool
  tomb : Nat           -- order of its last tombstone, 0 when never; 11 R369
deriving DecidableEq, Repr

/-- A repotting (R380). -/
structure Repot where
  req : Option ReqRef  -- none once replayed
  shard : Nat
  mode : Nat
  target : Nat
  pauseUs : Nat
  step : Nat           -- 2 COPY, 3 DRAIN, 5 RELEASE; 11 Table 11.6
  drainAt : Nat        -- mono instant of the drain
  attempts : Nat       -- failed attempts at step 3; 11 R381
  flight : List Nat    -- writes in flight when step 3 began, by order; 11 R381
  op : Nat             -- journal operation number; 15 Table 15.6
  bytes : Nat          -- storage to copy
deriving DecidableEq, Repr

/-- A shard of an ensemble map (R446, R447). -/
structure EShard where
  primary : Option Nat
  understudy : Option Nat
  seqNo : Nat          -- last sequence number issued; 13 R447
  acked : Nat          -- last one applied at both copies; 13 R447
  lost : Bool          -- 13 R450
deriving DecidableEq, Repr

/-- One map (R363). -/
structure MapO where
  slot : Nat
  desc : List Byte     -- Table 11.12
  slotsMax : Nat
  heap : Nat
  shards : Nat × Nat × Nat
  anchor : List W64    -- 7 FP64 words; 11 R364
  anchorBad : Bool     -- 11 R364
  slots : List MSlot   -- used slots by number; 11 R369
  tombs : Nat          -- tombstones so far
  retired : Nat        -- retired slots; 11 R369
  rate : Nat           -- DEADHEAD_RATE; 11 R379
  indexes : Bool       -- INDEXES; 11 R379
  pos : Nat × Nat      -- where the deadheading pass stands: shard and slot, or 64 + index and bucket; 11 R379
  dhAt : Nat           -- mono instant up to which the pass has used its rate; 11 R379
  removed : Nat        -- dead halves removed; Table 11.14
  repot : Option Repot
  broken : Bool        -- journal left it unusable; 15 R506
  poison : List Nat    -- slots whose cell or edge blocks hold a poisoned word; 12 R409
  homeAt : Nat         -- member it is homed on, this one for a map with a handle here; 13 R446
  ens : List EShard    -- empty for a local map; 13 R446
  resharding : Option (ReqRef × List (Nat × Nat) × Nat × Nat) -- ENS_RESHARD: plan, next shard, committed; 13 R458
deriving DecidableEq, Repr

/-- An index entry (Table 11.9). -/
structure IEntry where
  code : List Byte
  attr : W64
  id : W64             -- 0 marks a free entry
deriving DecidableEq, Repr

/-- A bucket's chain: pages in order, entries in place (R390). -/
structure Bucket where
  table : Nat
  n : Nat
  pages : List (List IEntry)
deriving DecidableEq, Repr

/-- An index rebuild (R401). -/
structure Rebuild where
  req : Option ReqRef
  sels : List (List Nat)
  op : Nat
  committed : Bool
deriving DecidableEq, Repr

/-- One index (R387). -/
structure IdxO where
  slot : Nat
  map : Nat
  tables : Nat
  kind : Nat
  keyBits : Nat
  pages : Nat          -- PAGES
  sels : List (List Nat)
  dist : List Byte     -- distance table of kind 1
  buckets : List Bucket
  removed : Nat        -- entries removed by deadheading
  queries : Nat        -- queries run
  stale : Nat          -- stale results removed
  rebuild : Option Rebuild
  broken : Bool        -- 15 R506
  poison : List (Nat × Nat) -- buckets (table, number) that hold a poisoned word; 12 R409
deriving DecidableEq, Repr

/-- A query of a batch (Table 11.10) and its outcome. -/
structure Query where
  code : List Byte
  probes : Nat
  limit : Nat
  widen : Bool
  any : Bool
  maxDist : Nat
  terms : List (Nat × W64 × W64)
  engine : Option Nat  -- context it holds; 11 R397
  done : Bool
  status : Nat
  found : List (Nat × W64) -- kept: distance, identifier
  made : Nat
  stale : Nat
  scanned : Nat
  excluded : Nat
  widened : Bool
  answers : List Nat   -- members that answered; 13 R454
deriving DecidableEq, Repr

/-- A query batch object (R403). -/
structure BatchO where
  slot : Nat
  req : ReqRef
  idx : Nat
  k : Nat
  dl : Nat             -- mono
  order : Nat
  at' : Nat
  queries : List Query
deriving DecidableEq, Repr

/-- A map or index command waiting for, or running in, a context (R397). -/
structure CtxCmd where
  req : ReqRef
  map : Nat
  write : Bool
  dl : Nat
  order : Nat
  engine : Option Nat
  pay : List Byte      -- payload as validated
  acks : List (Nat × Nat × Nat) -- copies still to apply it: shard, member, sequence number; 13 R447
  result : Option (Nat × Nat) -- RESULT0 and RESULT1 of an applied command that waits for them
  data : List Byte     -- its result buffer
deriving DecidableEq, Repr

/-- What the bytes of a checkpoint image that this device wrote stand for: the image after its header
is no user interface (R385), so the model keeps it beside the bytes. -/
structure Ckpt where
  image : List Byte
  slots : List MSlot
  tombs : Nat
  retired : Nat
deriving DecidableEq, Repr

/-- Maps and search. -/
structure MapSys where
  maps : List MapO     -- 11 R363; empty
  idxs : List IdxO     -- 11 R387; empty
  batches : List BatchO -- 11 R403; empty
  ctx : List CtxCmd    -- map commands in contexts or waiting; 11 R397; empty
  nextOrder : Nat      -- admissions; 11 R397; 0
  ckpts : List Ckpt    -- images written; the model's own field; 11 R385; empty
deriving DecidableEq, Repr

/-! ### Ensembles (13) -/

/-- One Trellis port (R429, Table 13.5). -/
structure TPort where
  state : Nat          -- 0 down, 1 training, 2 authenticating, 3 up, 4 refused, 5 relayed; Table 13.5; 0
  step : Nat           -- step of Table 13.3 reached; 13 R434; 0
  reason : Nat         -- last refusal or takedown reason; Table 13.3; 0
  peer : Nat           -- peer member; Table 13.5; 0
  offset : Int         -- ns; Table 13.5; 0
  frames : Nat         -- frames sent; Table 13.5; 0
  tagFails : Nat       -- tag failures; Table 13.5; 0
  recent : List Nat    -- mono instants of the tag failures of the last second; 13 R436; empty
  rekeys : Nat         -- Table 13.5; 0
  refusals : Nat       -- 13 R432; 0
  keyed : Nat          -- mono instant of the last key exchange; 13 R435; 0
  keyFrames : Nat      -- frames under the present keys; 13 R435; 0
  keys : List Byte     -- link keys, 64 bytes, empty when none; 13 R434; empty
  downAt : Nat         -- mono instant at which it last went down; 13 R438; 0
  oldUntil : Option Nat -- mono instant until which the old keys are accepted; 13 R435; none
deriving DecidableEq, Repr

/-- The ensemble object (R437). -/
structure Ens where
  desc : List Byte     -- 640 bytes, Table 13.2
  id : W64             -- ensemble identifier
  state : Nat          -- 0 joining, 1 joined, 2 no quorum, 3 leaving; Table 13.5
  present : Nat        -- present mask; 13 R438
  agreed : Nat         -- last agreed present mask; 13 R438
  lost : Nat           -- lost mask since the last agreement; Table 13.5
  timeRef : Nat        -- 13 R443
  stepped : Bool       -- the step of the first lock was made; 13 R445
  join : Option ReqRef -- ENS_JOIN that waits; 13 R437
  leave : Option (ReqRef × Nat) -- ENS_LEAVE and its journal operation; 13 R456
  broken : Bool        -- the records of its ENS_LEAVE are unusable; 15 R506; false
  slot : Nat
deriving DecidableEq, Repr

/-- Trellis and ensemble. -/
structure EnsSys where
  ports : List TPort   -- T-ports 0 to 6; 13 R429; see TPort
  ens : Option Ens     -- 13 R437; none
  replicas : List (Nat × Nat × Nat × Nat) -- replicas being built: map, shard, new member, journal operation; 13 R449; empty
  held : List (Nat × Nat × Nat) -- stacked bytes that other members' shards and replicas take here: map key, shard, bytes; 13 R452; empty
deriving DecidableEq, Repr

/-! ### Power (14) -/

/-- A self-test in progress (R512). -/
structure Test where
  slice : Nat          -- slices done
  bad : Nat            -- units found bad so far
  abandon : Bool       -- work waits; stop after this slice; 15 R513
  req : Option ReqRef  -- DIAG_SELFTEST_RECORD that asked for it; 15 R515
deriving DecidableEq, Repr

/-- One switched power domain (Table 14.2). -/
structure Dom where
  on : Bool            -- powered; 14 R467; true
  returning : Bool     -- in its return delay; 14 R470; false
  backAt : Nat         -- mono instant at which its return delay ends; 14 R470; 0
  mode : Nat           -- parking mode 0 to 3; 14 R467; 0
  hold : Bool          -- HOLD of the park; 14 R473; false
  idleMs : Nat         -- IDLE_MS; 14 R467; 100
  idleAt : Nat         -- mono instant since which it is idle; 14 R467; 0
  pads : Bool          -- pads held; 14 R472; false
  test : Nat           -- 0 untested, 1 passed, 2 fenced, 3 in progress; 15 Table 15.10; 0
  run : Option Test    -- 15 R512; none
  slices : Nat         -- slices run in the last test; 15 Table 15.10; 0
  fenced : Nat         -- fenced units, one bit each; 15 Table 15.10; 0
  tests : Nat          -- tests completed; 15 Table 15.10; 0
  failed : Nat         -- tests failed; 15 Table 15.10; 0
  abandoned : Nat      -- tests abandoned; 15 R513; 0
  endAt : Nat          -- tb instant of the last test's end; 15 Table 15.10; 0
  wakeUp : Bool        -- powered at sleep entry; 14 R484; false
  fenceRd : Nat        -- FENCE_RD, 32 bits saturating; 17 R550; 0
  fenceWr : Nat        -- FENCE_WR, 32 bits saturating; 17 R550; 0
deriving DecidableEq, Repr

/-- A refusal or abort kept in PWR_COUNTERS (Table 14.11). -/
structure PwrLog where
  at' : Nat
  kind : Nat
  target : Nat
  refuser : Nat
  step : Nat
deriving DecidableEq, Repr

/-- An entry into or a stay in a sleep state (Table 14.6). -/
structure Sleep where
  target : Nat         -- STATE asked for
  step : Nat           -- last entry step reached
  req : Option ReqRef  -- PWR_STATE_ENTER until its completion is posted
  linkWaitMs : Nat
  at' : Nat            -- mono instant at which the step was reached
deriving DecidableEq, Repr

/-- A slack monitor (Table 17.7). -/
structure Slack where
  slack : Int          -- SLACK, sQ3.12, 16 bits; 17 R548; 0
  neg : Bool           -- SLACK_NEG; 17 R548; false
  seen : Bool          -- NEG_SEEN; 17 R549; false
  min : Int            -- SLK_MIN, sQ3.12; 17 R549; 0
  restart : Bool       -- the next measurement restarts SLK_MIN; 17 R549; true
  at' : Nat            -- mono instant of the last measurement; 17 R548; 0
deriving DecidableEq, Repr

/-- Power, sleep and their registers. -/
structure Power where
  level : Nat          -- present performance level 0 to 7; 14 R461; 0 [4]
  fastest : Nat        -- 14 R461; 0
  slowest : Nat        -- 14 R461; 7
  belowFloor : Bool    -- BELOW_FLOOR; 14 R461; false
  cap : Comp           -- LIM_POWER_CAP pair; 14 R459; 600
  tj : Comp            -- LIM_TJ_THROTTLE pair; 14 R460; 100
  capDefault : Bool    -- LIM_STATUS CAP_DEFAULT; 17 R541; false
  tjDefault : Bool     -- LIM_STATUS TJ_DEFAULT; 17 R541; false
  polDefault : Bool    -- LIM_STATUS POLICY_DEFAULT; 17 R541; false
  backstop : Bool      -- power backstop holds the level; 14 R463; false
  thermal : Bool       -- thermal backstop acts; 14 R464; false
  trip : Bool          -- thermal trip; 14 R464; false
  throttle : List Nat  -- sensors whose log-and-throttle forces P7; 16 R533; empty
  eighths : Nat        -- eighths of the P7 pace removed, 0 to 7; 14 R463; 0
  overMs : Nat         -- consecutive ms above 1.10 × cap; 14 R463; 0
  underMs : Nat        -- ms under the cap while the backstop holds; 14 R463; 0
  power : Nat          -- device power over the last 100 ms, mW; 14 R461; 0
  temp : Int           -- hottest junction, 0.1 °C; 14 Table 14.10; 0 [5]
  choiceAt : Nat       -- mono instant of the last level choice; 14 R461; 0
  stopAt : Nat         -- mono instant of the backstop's last millisecond; 14 R463; 0
  doms : List Dom      -- domains 0 to 95; 14 R465; see Dom
  state : Nat          -- sleep state 0 to 4; 14 Table 14.3; 0
  sleep : Option Sleep -- entry in progress or state reached; 14 Table 14.6; none
  returning : Option (Nat × Nat × Nat) -- return in progress: state left, source, flags; 14 Table 14.8; none
  retAt : Nat          -- mono instant at which the return order ends; 14 R484; 0
  pending : Nat        -- GL_WAKE PENDING, 8 bits; 17 R542; 0
  armed : Nat          -- GL_WAKE ARMED, 8 bits; 17 Table 17.2; 0
  gpioEdge : Nat       -- GPIO_EDGE [3:0]; 14 Table 14.9; 0
  latch : Nat          -- wakes latched during an entry, 9 bits; 14 R485; 0
  wakeDrive : Option Nat -- mono instant at which WAKE_N driving began; 14 R482; none
  regLow : Bool        -- REG_LOW; 14 R487; false
  brownouts : Nat      -- GL_BROWNOUT, 32 bits saturating; 17 Table 17.2; 0
  brownNow : Nat       -- brown-outs during the present state; 14 Table 14.13; 0
  entries : List Nat   -- entries into S1 to S4; 14 Table 14.11; 0 each
  returns : List Nat   -- returns from S1 to S3; 14 Table 14.11; 0 each
  replayed : Nat       -- 14 R485; 0
  resampled : Nat      -- 14 R485; 0
  refused : Nat        -- entries refused; 14 R476; 0
  aborted : Nat        -- entries aborted; 14 R480; 0
  parksRefused : Nat   -- 14 R468; 0
  actPower : Nat       -- power backstop actions; 14 Table 14.11; 0
  actThermal : Nat     -- thermal backstop actions; 14 Table 14.11; 0
  actTrip : Nat        -- thermal trips; 14 Table 14.11; 0
  wakes : List Nat     -- wakes by source code 0 to 8; 14 Table 14.11; 0 each
  log : List PwrLog    -- last 16 refusals and aborts, newest first; 14 Table 14.11; empty
  slack : List Slack   -- monitors 0 to 26; 17 R547; see Slack
  faultLogClosed : Bool -- closed by STATE 4; 14 R475; false
deriving DecidableEq, Repr

/-! ### Start, reset, journal, recasting (15) -/

/-- Where the start and reset sequencer stands (Tables 15.2, 15.5, 18.10). -/
inductive Phase where
  | off                -- VAUX absent, or S4 reached
  | waitRails          -- VAUX present, MAIN_PG awaited (Table 18.10 steps 2 and 3)
  | held               -- cold or power-on reset held by a pin or by CLK_REF
  | starting           -- Table 15.2 steps 2 to 8
  | running            -- Stage Manager serves
  | warm               -- warm reset of Table 15.5
  | understudy         -- Understudy mode (R501)
deriving DecidableEq, Repr

/-- A journal record (Table 15.6). -/
structure JRec where
  seqNo : Nat
  op : Nat             -- OPERATION 1 to 5
  step : Nat           -- STEP 1 to 4
  src : ReqRef
  opcode : Nat
  number : Nat         -- operation number
  handle : W64
  progress : Nat
  detail : Nat
  at' : Nat
  bad : Nat            -- copies that fail R420, 0 to 2; 15 R506
  outcome : Option Nat -- outcome given by a replay; 15 R507
deriving DecidableEq, Repr

/-- A boot log record (R499, R532): tb time, reset type or 0x80 + sensor, reason or action, detail. -/
structure BootRec where
  at' : Nat
  kind : Nat
  reason : Nat
  detail : Nat
deriving DecidableEq, Repr

/-- A Stage Manager image: its bytes (Table 16.4). -/
structure Image where
  bytes : List Byte
  fromHost : Bool      -- held for one start, R502
  persist : Bool       -- loaded with PERSIST; 15 R510
deriving DecidableEq, Repr

/-- A recasting that waits for its handover point or runs its probation (R509, R510). -/
structure Recast where
  req : Option ReqRef
  fallback : Bool      -- RECAST_FALLBACK
  probationS : Nat
  windowUs : Nat
  op : Nat
  took : Option Nat    -- mono instant of the takeover
  prior : Option (Nat × Nat × Nat) -- recasting in probation that a fallback returns from: operation, takeover, PROBATION_S
deriving DecidableEq, Repr

/-- Start, reset and continuity. -/
structure Boot where
  phase : Phase        -- 15 Table 15.2; held
  vaux : Bool          -- VAUX_OK; 17 Table 17.2; true
  mainPg : Bool        -- MAIN_PG; 18 R562; true
  mainEn : Bool        -- MAIN_PWR_EN; 18 R563; true
  mainEnAt : Nat       -- mono instant of its last change; 18 R572; 0
  resetLow : Bool      -- RESET_N held low; 18 R573; true
  perstLow : Bool      -- PERST_N held low; 18 R573; true
  clkLost : Bool       -- CLK_REF absent; 18 R570; false
  cause : Nat          -- reset type in force: 0 power-on, 1 cold, 2 warm; 17 Table 17.4; 0
  warmCause : Nat      -- reason code of the warm reset; 15 Table 15.13 [6]; 0
  straps : Straps      -- straps as latched; 18 R571; 0
  releaseAt : Nat      -- mono instant of the release or of the warm reset; 17 Table 17.4; 0
  imageAt : Option Nat -- mono instant at which an image was accepted; 15 R499; none
  readyAt : Option Nat -- mono instant at which READY rose, none while it is 0; 15 R498; none
  dataBad : Bool       -- Stage Manager's data met an uncorrectable error, a warm reset is due; 12 R411; false
  fsc : Comp           -- failed-start counter pair; 15 R498; 0
  fscBad : Bool        -- LIM_STATUS FSC_MISMATCH; 17 Table 17.2; false
  lastReason : Nat     -- BOOT_STATUS LAST_REASON; 17 Table 17.4; 0
  usReason : Nat       -- BOOT_STATUS UNDERSTUDY_REASON; 17 Table 17.4; 0xFF
  bank : Nat           -- BOOT_STATUS BANK; 17 Table 17.4; 0
  ucal : List Byte     -- user calibration set applied at the last start, empty for none; 15 R497; empty
  ucalApplied : Bool   -- BOOT_STATUS UCAL_APPLIED; 17 Table 17.4; false
  lastReset : Nat      -- BOOT_STATUS LAST_RESET; 17 Table 17.4; 0
  readyMs : Nat        -- BOOT_READY_MS; 17 Table 17.4; 0
  qspiBoot : Option Image -- QSPI boot bank; 15 "Cold start" [7]; none
  qspiFallback : Option Image -- QSPI fallback bank; 15 R510 [7]; none
  qspiUcal : Option (List Byte × Bool) -- user calibration set and whether its pair fails R420; 15 R497 [7]; none
  active : Option Image -- active bank of the reserve; 15 R508; none
  shadow : Option Image -- shadow bank of the reserve; 15 R508; none
  shadowLoaded : Bool  -- shadow holds a newly loaded image, not the fallback; 15 R508; false
  sramImage : Option Image -- image held in management SRAM for one start; 15 R502; none
  keptStacked : Bool   -- stacked memory has kept its contents since READY; 15 R501; false
  bootLog : List BootRec -- newest first; 15 R499; empty
  bootLost : Nat       -- overwritten boot records; 15 Table 15.9; 0
  journal : List JRec  -- newest first, at most 65,536; 15 R505; empty
  nextSeq : Nat        -- journal sequence number; 15 Table 15.6; 0
  nextOp : Nat         -- operation number; 15 Table 15.6; 0
  recast : Option Recast -- 15 R509; none
  cntResets : List Nat -- resets by type of Table 15.1, the power-on reset that cleared them counted; 15 Table 15.11; 1, 0, 0, 0, 0
  cntFailed : List Nat -- failed starts by reason 0 to 12; 15 Table 15.11; 0 each
  cntFences : Nat      -- 15 Table 15.11; 0
  cntRecasts : Nat     -- 15 Table 15.11; 0
  cntFallbacks : Nat   -- 15 Table 15.11; 0
  cntForward : Nat     -- journal roll-forwards; 15 Table 15.11; 0
  cntBack : Nat        -- journal roll-backs; 15 Table 15.11; 0
deriving DecidableEq, Repr

/-! ### Security (16) -/

/-- An unlock challenge (R529). -/
structure Challenge where
  bytes : List Byte    -- Table 16.8
  scope : Nat
  at' : Nat            -- mono instant of issue
deriving DecidableEq, Repr

/-- The security block. -/
structure Security where
  base : Nat           -- base life-cycle state in OTP (0 to 3, 5); 16 R517; 1 [8]
  service : Comp       -- service flag pair; 16 R517; clear
  floor : Nat          -- rollback floor, 0 to 63; 16 R524; 0 [8]
  erased : Bool        -- keys-erased flag in OTP; 16 R535; false [8]
  identity : Bool      -- identity key pair burnt; 16 R521; false [8]
  pubKey : List Byte   -- ML-DSA-87 public key; 16 R521; empty [8]
  authority : List Byte -- unlock authority digest in OTP; 16 R528; empty [8]
  fwDigest : List Byte -- firmware key digest in OTP; 16 R523; free value [8]
  macBase : Nat        -- device base MAC address in OTP, 48 bits; 04 R123; free value [8]
  serial : List Byte   -- device serial number, 16 bytes in OTP; 17 Table 17.9; free value [8]
  policy : Comp        -- SEC_ALARM_POLICY pair, 15 bits; 16 R534; defaults of the state
  m : List (BitVec 512) -- measurement registers M0 to M15; 16 R525; 0
  glM : Option (List (BitVec 512 × BitVec 512)) -- their copy as complement pairs in the ghost-light domain in S3; 16 R525; none
  challenge : Option Challenge -- 16 R529; none
  port : Bool          -- debug access port open by token or state; 16 R530; open in MANUFACTURE
  portUntil : Option Nat -- mono instant at which a token-opened port closes; 16 R530; none
  halted : Bool        -- 16 R533; false
  alarms : Nat         -- alarms since power-on reset; 16 Table 16.7; 0
  lastSensor : Nat     -- SB_ALARMS; 17 Table 17.9; 0
  lastAction : Nat     -- SB_ALARMS; 17 Table 17.9; 0
  latched : List (Nat × Nat) -- alarms latched in S3: sensor, detail; 16 R532; empty
  condAt : List (Nat × Nat) -- log-and-throttle conditions: sensor, mono instant last present; 16 R533; empty
deriving DecidableEq, Repr

/-! ### Sideband (17) -/

/-- The sideband target (Table 17.9). -/
structure Sideband where
  scratch0 : W32       -- SB_SCRATCH0; 17 Table 17.9; 0
  scratch1 : W32       -- SB_SCRATCH1; 17 Table 17.9; 0
  refused : Nat        -- SB_REFUSED [15:0]; 17 R553; 0
  reason : Nat         -- SB_REFUSED [19:16]; 17 R553; 0
  index : Nat          -- I3C register index; 17 R554; 0 [9]
  dynAddr : Option Nat -- I3C dynamic address; 17 R554; none
  temp : Nat           -- SB_TEMP, 16 bits; 17 R557; 0x8000
  power : Nat          -- SB_POWER [15:0]; 17 R557; 0xFFFF
  level : Nat          -- SB_POWER [18:16]; 17 R557; 0
  mirrorAt : Nat       -- mono instant of the last mirror copy; 17 R557; 0
deriving DecidableEq, Repr

/-- The whole K9. -/
structure State where
  pending : List Instr -- commands waiting, first in first out; the block's queue; empty
  out : List Output    -- what the K9 has given, newest last; the model's own record [10]; empty
  fresh : Nat          -- free values drawn so far; the model's own counter [11]; DESIGN CHOICE 0
  link : Link
  cb : Callboard
  time : TimeBase
  obj : Objects
  mem : MemSys
  sens : Sensors
  filt : Filters
  sheets : List Sheet  -- loaded cue sheets; 06 R210; empty
  vis : List VUnit     -- vision units at work; 06 R185; empty
  tile : Tiles
  fus : Fusion
  probs : List Problem -- resident solver problems; 10 R322; empty
  map : MapSys
  ens : EnsSys
  pwr : Power
  boot : Boot
  sec : Security
  sb : Sideband
deriving DecidableEq, Repr

/-- Why a step could stop with a fault. No rule of this spec stops the machine (R18: an error ends
the request that met it and no other); nothing raises this. Safe. -/
inductive Fault where
  /-- Raised by nothing: the block never stops (R18). -/
  | never
deriving DecidableEq, Repr

/-- Why a step could be refused. -/
inductive Refusal where
  /-- Raised by a dispatch arm whose command has no meaning yet. Safe: no next state is claimed. -/
  | notModelled (mnemonic : String)
deriving DecidableEq, Repr

/-- What a step answers. -/
abbrev Result := Host.Outcome State Fault Refusal

/-- A good pair holding `n` (R419). -/
def Comp.of (n : Nat) : Comp := { v := BitVec.ofNat 64 n, c := ~~~ BitVec.ofNat 64 n, ue := false }

/-! ### The state after reset -/

/-- A base pair at its reset value: value 0, complement all ones, not committed (Table 2.5, R578). -/
def RwpPair.reset : RwpPair := { pair := Comp.of 0, committed := false }

/-- A function's queue-zero registers and MSI-X state at reset (Table 2.5, R551). -/
def Fn.reset (enabled : Bool) (grant : Nat) : Fn :=
  { enabled, busMaster := false, msixEn := false, msixMask := false, grant
    sq := RwpPair.reset, cq := RwpPair.reset, hold := { value := none, low := none }
    sqDepthM1 := 0x3F, cqDepthM1 := 0x3F, enable := false, intEn := false, vector := 0
    dbRefused := 0, dbQueue := 0, dbReason := 0, msix := [], held := [] }

/-- The functions after a cold reset: the physical function with all 65,536 pairs, 31 virtual
functions absent (R29). -/
def resetFns : List Fn := Fn.reset true 65536 :: List.replicate 31 (Fn.reset false 0)

/-- The link after a cold reset. -/
def Link.reset : Link :=
  { up := false, gen := 0, width := 0, inL2 := false, fns := resetFns, pairs := [], reqs := []
    fetchStopped := true, nextOrder := 0, highRun := 0, lastUrgent := none, lastHigh := none
    lastNormal := none, bar4Miss := 0, bar4Size := 0x10000000, regRefused := [], ethDown := []
    ethDownCount := [], dbTotal := 0 }

/-- The callboard at its reset values (Table 2.11). -/
def Callboard.reset : Callboard :=
  { state := 0, server := 0, serverNext := none, nextSeq := 0, intEn := false, refused := 0, reason := 0, request := []
    response := List.replicate 16 0, data := [], ringSeq := 0, limit := none, failCount := 0
    failTime := 0, failOpcode := 0, refTotal := 0 }

/-- No PTP role (Table 4.15, role 0: the servo is stopped). -/
def PtpCfg.off : PtpCfg :=
  { role := 0, profile := 0, ports := 0, transport := 0, domain := 0, delay := 0, prio1 := 0
    prio2 := 0, stepNs := 0, ips := [0, 0, 0, 0], lockNs := 0, annTimeout := 0 }

/-- The time base after a cold reset: zero and free-running (R140, Table 17.6). -/
def TimeBase.reset : TimeBase :=
  { now := 0, mono := 0, frac := 0, rate := 0, sleepErr := 0, slew := 0, steps := 0, latch := 0, latchSeq := 0
    ptp := PtpCfg.off, servo := 0, offset := 0, good := 0, master := 0, holdAt := none
    slavePort := none, annAt := 0, annIv := 0, syncAt := 0, syncIv := 0
    ensLocked := false, alarms := [] }

/-- No objects, no sessions, no events. -/
def Objects.reset : Objects :=
  { objs := [], gens := [], sessions := [], nextOrder := 0, devEvents := [], devLost := 0
    ageMarks := [] }

/-- Capacity of the on-chip tier, bytes (R404). -/
def onchipCap : Nat := 67108864
/-- Capacity of the stacked tier after a cold reset, bytes (R405). -/
def stackedCap0 : Nat := 215607357440

/-- The quotas after a cold reset (R103): the physical function holds both tiers whole. -/
def resetQuotas : List Quota :=
  (List.range 64).map fun i =>
    { fn := i / 2, tier := i % 2
      quota := if i = 0 then onchipCap else if i = 1 then stackedCap0 else 0
      used := Comp.of 0, peak := 0, refused := 0 }

/-- The memory system after a power-on reset (R404 to R406, R428, Table 17.5). -/
def MemSys.reset : MemSys :=
  { allocs := [], quotas := resetQuotas, pool := 16384, stackedCap := stackedCap0, quarStacked := 0
    redirects := [], retiring := [], history := [], faults := [], faultsLost := 0, corrected := []
    failUe := none, failUeSeq := 0, failCm := none, failCmSeq := 0, scrubPaused := false }

/-- The sensor ports: nothing open, sixteen encoder inputs at zero (R135). -/
def Sensors.reset : Sensors :=
  { streams := [], lows := [], csi := []
    encs := (List.range 16).map fun n =>
      { n, a := false, b := false, count := 0, latched := 0, indexSeen := false
        illegalSeen := false, illegal := 0 }
    counts := [] }

/-- A Trellis port that is down. -/
def TPort.reset : TPort :=
  { state := 0, step := 0, reason := 0, peer := 0, offset := 0, frames := 0, tagFails := 0
    recent := [], rekeys := 0, refusals := 0, keyed := 0, keyFrames := 0, keys := []
    downAt := 0, oldUntil := none }

/-- A switched domain after a cold reset: powered, untested (R465, R512). -/
def Dom.reset : Dom :=
  { on := true, returning := false, backAt := 0, mode := 0, hold := false, idleMs := 100, idleAt := 0
    pads := false, test := 0, run := none, slices := 0, fenced := 0, tests := 0, failed := 0
    abandoned := 0, endAt := 0, wakeUp := false, fenceRd := 0, fenceWr := 0 }

/-- Power after a power-on reset (Tables 14.11, 17.2, 17.3, 17.7). -/
def Power.reset : Power :=
  { level := 0, fastest := 0, slowest := 7, belowFloor := false, cap := Comp.of 600
    tj := Comp.of 100, capDefault := false, tjDefault := false, polDefault := false
    backstop := false, thermal := false, trip := false, throttle := [], eighths := 0, overMs := 0
    underMs := 0, power := 0, temp := 0, choiceAt := 0, stopAt := 0, doms := List.replicate 96 Dom.reset, state := 0
    sleep := none, returning := none, retAt := 0, pending := 0, armed := 0, gpioEdge := 0, latch := 0
    wakeDrive := none, regLow := false, brownouts := 0, brownNow := 0
    entries := List.replicate 5 0, returns := List.replicate 4 0, replayed := 0, resampled := 0
    refused := 0, aborted := 0, parksRefused := 0, actPower := 0, actThermal := 0, actTrip := 0
    wakes := List.replicate 9 0, log := []
    slack := List.replicate 27 { slack := 0, neg := false, seen := false, min := 0, restart := true, at' := 0 }
    faultLogClosed := false }

/-- No strap pulled (Table 18.9). -/
def Straps.none : Straps :=
  { bootSrc := 0, sbAddr := 0, sbMode := 0, ensId := 0, ethSpeed := 0, ethFec := 0
    crystal := true }

/-- The start sequencer right after a power-on reset whose supplies are good and whose reset pins
are still held low (Table 18.10). -/
def Boot.reset : Boot :=
  { phase := .held, vaux := true, mainPg := true, mainEn := true, mainEnAt := 0, resetLow := true
    perstLow := true, clkLost := false, cause := 0, warmCause := 0, straps := Straps.none
    releaseAt := 0, imageAt := none, readyAt := none, dataBad := false, fsc := Comp.of 0, fscBad := false
    lastReason := 0, usReason := 0xFF, bank := 0, ucal := [], ucalApplied := false, lastReset := 0
    readyMs := 0, qspiBoot := none, qspiFallback := none, qspiUcal := none, active := none
    shadow := none, shadowLoaded := false, sramImage := none, keptStacked := false, bootLog := []
    bootLost := 0, journal := [], nextSeq := 0, nextOp := 0, recast := none
    cntResets := [1, 0, 0, 0, 0], cntFailed := List.replicate 13 0, cntFences := 0
    cntRecasts := 0, cntFallbacks := 0, cntForward := 0, cntBack := 0 }

/-- The security block after a power-on reset, in the life-cycle state MANUFACTURE [8]. -/
def Security.reset : Security :=
  { base := 1, service := Comp.of 0, floor := 0, erased := false, identity := false, pubKey := []
    authority := [], fwDigest := (List.range 64).map Config.fwDigestByte
    macBase := Config.macBase % 2 ^ 48, serial := (List.range 16).map Config.serialByte, policy := Comp.of 0
    m := List.replicate 16 0, glM := none, challenge := none, port := true
    portUntil := none, halted := false, alarms := 0, lastSensor := 0, lastAction := 0
    latched := [], condAt := [] }

/-- The sideband target at its reset values (Table 17.9). -/
def Sideband.reset : Sideband :=
  { scratch0 := 0, scratch1 := 0, refused := 0, reason := 0, index := 0, dynAddr := none
    temp := 0x8000, power := 0xFFFF, level := 0, mirrorAt := 0 }

/-- The K9 right after its power-on reset: supplies good, `RESET_N` and `PERST_N` still held low,
every register at its reset value, no command waiting. RESET_N_RELEASE starts the cold start of
Table 15.2. -/
def State.reset : State :=
  { pending := [], out := [], fresh := 0, link := Link.reset, cb := Callboard.reset
    time := TimeBase.reset, obj := Objects.reset, mem := MemSys.reset, sens := Sensors.reset
    filt := { chans := [], sels := [], busy := [], strobes := 0 }, sheets := [], vis := []
    tile := { pkgs := [], insts := [], tiles := [], pools := [], nextOrder := 0, nextRun := 0, nextIssue := 0, badImgs := [], droppedFlags := 0 }
    fus := { grids := [], cals := [] }, probs := []
    map := { maps := [], idxs := [], batches := [], ctx := [], nextOrder := 0, ckpts := [] }
    ens := { ports := List.replicate 7 TPort.reset, ens := none, replicas := [], held := [] }
    pwr := Power.reset, boot := Boot.reset, sec := Security.reset, sb := Sideband.reset }

end Sys2Proof.Machine
end

