-- ==== Sys2Proof/Machine/Bytes.lean ====
section
/-! DEFINITION. Bytes, bit fields, two's complement, sparse memories and the small list tools that
every family uses (R4: little-endian). -/
namespace Sys2Proof.Machine

/-- The low `n` bytes of `v`, least significant first (R4). -/
def leBytes : Nat → Nat → List Byte
  | 0, _ => []
  | n + 1, v => BitVec.ofNat 8 v :: leBytes n (v / 256)

/-- The number that bytes spell, least significant first (R4). -/
def unle : List Byte → Nat
  | [] => 0
  | b :: bs => b.toNat + 256 * unle bs

/-- The `len`-byte field at `off`; bytes past the end read as zero. -/
def fld (bs : List Byte) (off len : Nat) : Nat := unle ((bs.drop off).take len)

/-- The `len` bytes at `off`, filled up with zeros. -/
def slice (bs : List Byte) (off len : Nat) : List Byte :=
  let x := (bs.drop off).take len
  x ++ List.replicate (len - x.length) 0

/-- Bits [hi:lo] of a number. -/
def bitsOf (v hi lo : Nat) : Nat := v / 2 ^ lo % 2 ^ (hi + 1 - lo)

/-- `w` bits read as two's complement. -/
def signedOf (w v : Nat) : Int :=
  let u := v % 2 ^ w
  if u < 2 ^ (w - 1) then (u : Int) else (u : Int) - (2 ^ w : Nat)

/-- The `w`-bit two's complement code of an integer. -/
def codeOf (w : Nat) (i : Int) : Nat := (i % (2 ^ w : Nat)).toNat

/-- Saturates to a signed `w`-bit range. -/
def satSigned (w : Nat) (i : Int) : Int :=
  let top : Int := (2 ^ (w - 1) : Nat)
  if i < -top then -top else if i > top - 1 then top - 1 else i

/-- Fills bytes up with zeros to `n`. -/
def padTo (n : Nat) (bs : List Byte) : List Byte := bs ++ List.replicate (n - bs.length) 0

/-- `n` zero bytes. -/
def zeros (n : Nat) : List Byte := List.replicate n 0

/-- The quotient rounded up. -/
def ceilDiv (a b : Nat) : Nat := (a + b - 1) / b

/-- `a` rounded up to a multiple of `b`. -/
def roundUp (a b : Nat) : Nat := ceilDiv a b * b

/-- Adds with saturation at 0xFFFF_FFFF, as the 32-bit counters do. -/
def sat32 (a b : Nat) : Nat := min (a + b) 0xFFFFFFFF

/-- Saturates a count to 16 bits. -/
def sat16 (a : Nat) : Nat := min a 0xFFFF

/-- Changes the elements that satisfy `p`. -/
def updIf (p : α → Bool) (f : α → α) (l : List α) : List α := l.map fun a => if p a then f a else a

/-- Replaces element `i`. -/
def setAt (l : List α) (i : Nat) (a : α) : List α := l.set i a

/-- Changes element `i`. -/
def updAt (l : List α) (i : Nat) (f : α → α) : List α := l.modify i f

/-- Element `i` of a list of numbers, zero past its end. -/
def natAt (l : List Nat) (i : Nat) : Nat := l[i]?.getD 0

/-- The value kept under a key, zero when none is. -/
def assocGet [BEq κ] (l : List (κ × Nat)) (k : κ) : Nat := (l.lookup k).getD 0

/-- Sets the value kept under a key. -/
def assocSet [BEq κ] (l : List (κ × Nat)) (k : κ) (v : Nat) : List (κ × Nat) :=
  (k, v) :: l.filter fun p => !(p.1 == k)

/-- Adds one to the count kept under a key. -/
def bump [BEq κ] (l : List (κ × Nat)) (k : κ) : List (κ × Nat) := assocSet l k (assocGet l k + 1)

/-- The first number from 0 on that is not in the list. -/
def firstFree (used : List Nat) : Nat :=
  ((List.range (used.length + 1)).find? fun n => !used.contains n).getD used.length

/-- The bytes as records of `n` bytes each. -/
def records (n : Nat) (bs : List Byte) : List (List Byte) :=
  (List.range (bs.length / n)).map fun i => slice bs (i * n) n

/-! ### Sparse memories -/

/-- One byte of a memory (an unlisted byte is zero, [2]). -/
def memGet : Mem → Nat → Byte
  | [], _ => 0
  | (k, v) :: m, a => if a = k then v else memGet m a

/-- Writes one byte, keeping the canonical form. -/
def memSet : Mem → Nat → Byte → Mem
  | [], a, b => if b = 0 then [] else [(a, b)]
  | (k, v) :: m, a, b =>
    if a < k then (if b = 0 then (k, v) :: m else (a, b) :: (k, v) :: m)
    else if a = k then (if b = 0 then m else (a, b) :: m)
    else (k, v) :: memSet m a b

/-- Writes bytes at rising addresses. -/
def memWrite : Mem → Nat → List Byte → Mem
  | m, _, [] => m
  | m, a, b :: bs => memWrite (memSet m a b) (a + 1) bs

/-- Reads `n` bytes. -/
def memRead (m : Mem) (a n : Nat) : List Byte := (List.range n).map fun i => memGet m (a + i)

/-- All keys lie above a bound and rise strictly, and no zero is listed. -/
def memFrom : Nat → Mem → Bool
  | _, [] => true
  | lo, (k, v) :: m => decide (lo ≤ k) && decide (v ≠ 0) && memFrom (k + 1) m

/-- The canonical form: addresses strictly rising, no zero byte listed. -/
def Mem.wf (m : Mem) : Bool := memFrom 0 m

/-! ### Complement pairs -/

/-- Whether the halves of a pair are readable and agree (R420). -/
def Comp.ok (p : Comp) : Bool := !p.ue && (p.c == ~~~p.v)

/-- The number a pair's value half holds. -/
def Comp.n (p : Comp) : Nat := p.v.toNat

/-! ### CRC-32C -/

/-- One bit of the reflected CRC-32C (polynomial 0x1EDC6F41, reflected 0x82F63B78). -/
def crc32cBit (c : Nat) : Nat := if c % 2 = 1 then (c / 2) ^^^ 0x82F63B78 else c / 2

/-- One byte of the reflected CRC-32C. -/
def crc32cByte (c : Nat) (b : Byte) : Nat :=
  let c0 := c ^^^ b.toNat
  crc32cBit (crc32cBit (crc32cBit (crc32cBit (crc32cBit (crc32cBit (crc32cBit (crc32cBit c0)))))))

/-- The CRC-32C of bytes. -/
def crc32c (bs : List Byte) : Nat := bs.foldl crc32cByte 0xFFFFFFFF ^^^ 0xFFFFFFFF

end Sys2Proof.Machine
end

