-- ==== Sys2Proof/Machine/Formats.lean ====
section
/-! DEFINITION. The number formats and arithmetic of spec/08_number_formats.md (R269 to R286): values
are exact rationals, rounded once where the rules round. -/
namespace Sys2Proof.Machine

/-- What a format does with its top exponent (Table 8.1). -/
inductive FpKind where
  | ieee      -- all ones: infinity and NaN
  | nanOnly   -- only the two all-ones codes, NaN
  | finite    -- neither
deriving DecidableEq, Repr

/-- A floating-point format (Table 8.1). -/
structure FpFmt where
  expBits : Nat
  frac : Nat
  bias : Nat
  kind : FpKind
  nan : Nat
deriving DecidableEq, Repr

def fp64 : FpFmt := { expBits := 11, frac := 52, bias := 1023, kind := .ieee, nan := 0x7FF8000000000000 }
def fp32 : FpFmt := { expBits := 8, frac := 23, bias := 127, kind := .ieee, nan := 0x7FC00000 }
def fp16 : FpFmt := { expBits := 5, frac := 10, bias := 15, kind := .ieee, nan := 0x7E00 }
def bf16 : FpFmt := { expBits := 8, frac := 7, bias := 127, kind := .ieee, nan := 0x7FC0 }
def e4m3 : FpFmt := { expBits := 4, frac := 3, bias := 7, kind := .nanOnly, nan := 0x7F }
def e5m2 : FpFmt := { expBits := 5, frac := 2, bias := 15, kind := .ieee, nan := 0x7E }
def e3m2 : FpFmt := { expBits := 3, frac := 2, bias := 3, kind := .finite, nan := 0 }
def e2m1 : FpFmt := { expBits := 2, frac := 1, bias := 1, kind := .finite, nan := 0 }

/-- A value: NaN, an infinity, or the exact rational ± num / den. -/
inductive Fp where
  | nan
  | inf (neg : Bool)
  | fin (neg : Bool) (num den : Nat)
deriving DecidableEq, Repr

/-- The width of a format in bits. -/
def FpFmt.width (f : FpFmt) : Nat := 1 + f.expBits + f.frac

/-- The magnitude code of the largest finite value (Table 8.1). -/
def FpFmt.maxCode (f : FpFmt) : Nat :=
  match f.kind with
  | .ieee => (2 ^ f.expBits - 1) * 2 ^ f.frac - 1
  | .nanOnly => 2 ^ (f.expBits + f.frac) - 2
  | .finite => 2 ^ (f.expBits + f.frac) - 1

/-- The value a code stands for (R269, R270). -/
def fpDecode (f : FpFmt) (code : Nat) : Fp :=
  let neg := code / 2 ^ (f.expBits + f.frac) % 2 == 1
  let e := code / 2 ^ f.frac % 2 ^ f.expBits
  let m := code % 2 ^ f.frac
  let top := 2 ^ f.expBits - 1
  if f.kind = .ieee ∧ e = top then (if m = 0 then .inf neg else .nan)
  else if f.kind = .nanOnly ∧ e = top ∧ m = 2 ^ f.frac - 1 then .nan
  else
    let (m, e) := if e = 0 then (m, 1) else (m + 2 ^ f.frac, e)
    if f.bias + f.frac ≤ e then .fin neg (m * 2 ^ (e - f.bias - f.frac)) 1
    else .fin neg m (2 ^ (f.bias + f.frac - e))

/-- floor(log2 (num / den)) of a positive rational. -/
def ratLog2 (num den : Nat) : Int :=
  let a : Int := (Nat.log2 num : Int) - (Nat.log2 den : Int)
  let ge := if 0 ≤ a then decide (den * 2 ^ a.toNat ≤ num) else decide (den ≤ num * 2 ^ (-a).toNat)
  if ge then a else a - 1

/-- The quotient a / b rounded to an integer (R278). -/
def roundDiv (mode : Rnd) (neg : Bool) (a b : Nat) : Nat :=
  let q := a / b
  let r := a % b
  let up := match mode with
    | .nearest => decide (b < 2 * r) || (decide (2 * r = b) && q % 2 == 1)
    | .zero => false
    | .down => neg && decide (0 < r)
    | .up => !neg && decide (0 < r)
  if up then q + 1 else q

/-- The magnitude code nearest to num / den in a format without an upper bound on its exponent. -/
def fpRoundMag (f : FpFmt) (mode : Rnd) (neg : Bool) (num den : Nat) : Nat :=
  if num = 0 then 0 else
  let emin : Int := 1 - (f.bias : Int)
  let e := max (ratLog2 num den) emin
  let q : Int := e - (f.frac : Int)
  let n := if 0 ≤ q then roundDiv mode neg num (den * 2 ^ q.toNat)
    else roundDiv mode neg (num * 2 ^ (-q).toNat) den
  -- the codes rise with the values, so a carry in n moves into the exponent field by itself
  if n < 2 ^ f.frac then n else ((e + (f.bias : Int)).toNat * 2 ^ f.frac) + (n - 2 ^ f.frac)

/-- The code of a value in a format: rounded by R278, saturated by R279 or overflowing to infinity
where the format has one and `toInf` says so, NaN by R271 and R280. -/
def fpEncode (f : FpFmt) (mode : Rnd) (toInf : Bool) (v : Fp) : Nat :=
  let sign (neg : Bool) (c : Nat) : Nat := if neg then c + 2 ^ (f.expBits + f.frac) else c
  let big (neg : Bool) : Nat :=
    sign neg (if f.kind = .ieee ∧ toInf then f.maxCode + 1 else f.maxCode)
  match v with
  | .nan => f.nan
  | .inf neg => sign neg (if f.kind = .ieee then f.maxCode + 1 else f.maxCode)
  | .fin neg num den =>
    let c := fpRoundMag f mode neg num den
    if f.maxCode < c then big neg else sign neg c

/-- A value rounded to nearest even, overflowing to infinity, as IEEE 754 arithmetic does (R285). -/
def fpIeee (f : FpFmt) (v : Fp) : Nat := fpEncode f .nearest true v

/-- The exact negative. -/
def fpNeg : Fp → Fp
  | .nan => .nan
  | .inf n => .inf !n
  | .fin n a b => .fin (!n) a b

/-- The exact sum (R277, R285, R286); invalid operations give NaN. -/
def fpAdd : Fp → Fp → Fp
  | .nan, _ => .nan
  | _, .nan => .nan
  | .inf a, .inf b => if a = b then .inf a else .nan
  | .inf a, _ => .inf a
  | _, .inf b => .inf b
  | .fin s a b, .fin t c d =>
    let x := a * d
    let y := c * b
    if s = t then .fin s (x + y) (b * d)
    else if y < x then .fin s (x - y) (b * d)
    else if x < y then .fin t (y - x) (b * d)
    else .fin false 0 1

/-- The exact product. -/
def fpMul : Fp → Fp → Fp
  | .nan, _ => .nan
  | _, .nan => .nan
  | .inf a, .inf b => .inf (a != b)
  | .inf a, .fin t c _ => if c = 0 then .nan else .inf (a != t)
  | .fin s a _, .inf b => if a = 0 then .nan else .inf (s != b)
  | .fin s a b, .fin t c d => .fin (s != t) (a * c) (b * d)

/-- The exact quotient. -/
def fpDiv : Fp → Fp → Fp
  | .nan, _ => .nan
  | _, .nan => .nan
  | .inf _, .inf _ => .nan
  | .inf a, .fin t _ _ => .inf (a != t)
  | .fin s _ _, .inf b => .fin (s != b) 0 1
  | .fin s a b, .fin t c d =>
    if c = 0 then (if a = 0 then .nan else .inf (s != t)) else .fin (s != t) (a * d) (b * c)

/-- x < y of two values; false with a NaN. -/
def fpLt : Fp → Fp → Bool
  | .nan, _ => false
  | _, .nan => false
  | .inf a, .inf b => a && !b
  | .inf a, _ => a
  | _, .inf b => !b
  | .fin s a b, .fin t c d =>
    let x := a * d
    let y := c * b
    match s, t with
    | false, false => decide (x < y)
    | true, true => decide (y < x)
    | true, false => decide (0 < x) || decide (0 < y)
    | false, true => false

/-- x ≤ y of two values; false with a NaN. -/
def fpLe (x y : Fp) : Bool := x != .nan && y != .nan && !fpLt y x

/-- A finite value. -/
def fpFinite : Fp → Bool
  | .fin _ _ _ => true
  | _ => false

/-- A finite value above zero. -/
def fpPos : Fp → Bool
  | .fin s a _ => !s && decide (0 < a)
  | _ => false

/-- A value above zero, infinity among them. -/
def fpAbove : Fp → Bool
  | .inf s => !s
  | .fin s a _ => !s && decide (0 < a)
  | .nan => false

/-- A value that is not negative, infinity among them. -/
def fpNotNeg : Fp → Bool
  | .inf s => !s
  | .fin s a _ => !s || a == 0
  | .nan => false

/-- A finite value that is not negative. -/
def fpNonneg : Fp → Bool
  | .fin s a _ => !s || a == 0
  | _ => false

/-- A natural number as a value. -/
def fpNat (n : Nat) : Fp := .fin false n 1

/-- An integer as a value. -/
def fpInt (i : Int) : Fp := .fin (decide (i < 0)) i.natAbs 1

/-- The sum of two codes of a format, rounded once (R285, R286). -/
def flAdd (f : FpFmt) (a b : Nat) : Nat := fpIeee f (fpAdd (fpDecode f a) (fpDecode f b))
/-- The negative of a code. -/
def flNeg (f : FpFmt) (a : Nat) : Nat := fpIeee f (fpNeg (fpDecode f a))
/-- The difference of codes. -/
def flSub (f : FpFmt) (a b : Nat) : Nat := fpIeee f (fpAdd (fpDecode f a) (fpNeg (fpDecode f b)))
/-- The product of codes. -/
def flMul (f : FpFmt) (a b : Nat) : Nat := fpIeee f (fpMul (fpDecode f a) (fpDecode f b))
/-- The fused multiply-add of codes: one rounding. -/
def flFma (f : FpFmt) (a b c : Nat) : Nat :=
  fpIeee f (fpAdd (fpMul (fpDecode f a) (fpDecode f b)) (fpDecode f c))
/-- The quotient of codes. -/
def flDiv (f : FpFmt) (a b : Nat) : Nat := fpIeee f (fpDiv (fpDecode f a) (fpDecode f b))
/-- The code of an integer. -/
def flInt (f : FpFmt) (i : Int) : Nat := fpIeee f (fpInt i)
/-- Comparisons of codes; false with a NaN. -/
def flLt (f : FpFmt) (a b : Nat) : Bool := fpLt (fpDecode f a) (fpDecode f b)
def flLe (f : FpFmt) (a b : Nat) : Bool := fpLe (fpDecode f a) (fpDecode f b)

/-- FP64 arithmetic on codes (R286). -/
def f64Add (a b : Nat) : Nat := flAdd fp64 a b
/-- FP64 difference of codes (R286). -/
def f64Sub (a b : Nat) : Nat := flSub fp64 a b
/-- FP64 product of codes (R286). -/
def f64Mul (a b : Nat) : Nat := flMul fp64 a b
/-- FP64 fused multiply-add of codes (R286). -/
def f64Fma (a b c : Nat) : Nat := flFma fp64 a b c
/-- FP64 quotient of codes (R286). -/
def f64Div (a b : Nat) : Nat := flDiv fp64 a b
/-- FP32 sum of codes (R285). -/
def f32Add (a b : Nat) : Nat := flAdd fp32 a b
/-- FP32 difference of codes (R285). -/
def f32Sub (a b : Nat) : Nat := flSub fp32 a b
/-- FP32 product of codes (R285). DEDUCED [75]. -/
def f32Mul (a b : Nat) : Nat := flMul fp32 a b
/-- FP32 fused multiply-add of codes (R285). DEDUCED [75]. -/
def f32Fma (a b c : Nat) : Nat := flFma fp32 a b c
/-- FP32 quotient of codes (R285). -/
def f32Div (a b : Nat) : Nat := flDiv fp32 a b

/-- The integer square root, found bit by bit from 2^n down. -/
def isqrtAux (x : Nat) : Nat → Nat → Nat
  | 0, r => r
  | n + 1, r => if (r + 2 ^ n) * (r + 2 ^ n) ≤ x then isqrtAux x n (r + 2 ^ n) else isqrtAux x n r

/-- floor(sqrt x). -/
def isqrt (x : Nat) : Nat := isqrtAux x (Nat.log2 x / 2 + 1) 0

/-- The square root in a format, correctly rounded (R285, R286): the root to 2^-(frac + bias) with
one bit below every quantum, and a sticky part where it is not exact. -/
def fpSqrt (f : FpFmt) (v : Fp) : Nat :=
  match v with
  | .nan => f.nan
  | .inf neg => if neg then f.nan else fpIeee f (.inf false)
  | .fin neg a b =>
    if a = 0 then (if neg then 2 ^ (f.expBits + f.frac) else 0)
    else if neg then f.nan
    else
      let k := f.frac + f.bias + 8
      let x := a * b * 2 ^ (2 * k)
      let r := isqrt x
      let sticky := if r * r = x then 0 else 1
      fpIeee f (.fin false (2 * r + sticky) (2 * b * 2 ^ k))

/-- Square roots of codes (R285, R286). -/
def flSqrt (f : FpFmt) (a : Nat) : Nat := fpSqrt f (fpDecode f a)

/-! ### Sums and linear systems -/

/-- A sum whose order and grouping are free: work stealing and arrival decide them (R287, R288), so each
addition takes two of the terms left, chosen by free values from `k` on. -/
def freeSum (add : Nat → Nat → Nat) : Nat → Nat → List Nat → Nat
  | 0, _, xs => xs.headD 0
  | _ + 1, _, [] => 0
  | _ + 1, _, [a] => a
  | n + 1, k, xs =>
    let i := Config.freeNat k % xs.length
    let ys := xs.eraseIdx i
    let j := Config.freeNat (k + 1) % ys.length
    freeSum add n (k + 2) (add (xs[i]?.getD 0) (ys[j]?.getD 0) :: ys.eraseIdx j)

/-- A sum of codes of a format, in a free order and grouping. -/
def flSum (f : FpFmt) (k : Nat) (xs : List Nat) : Nat := freeSum (flAdd f) xs.length k xs

/-- The dot product of codes, added from the left. -/
def flDot (f : FpFmt) (xs ys : List Nat) : Nat :=
  (xs.zip ys).foldl (fun a (x, y) => flAdd f a (flMul f x y)) 0

/-- LDL^T without exchange on the rows of a symmetric system, each with its right side at its end: the
solution and the pivots met, in order. `fix` replaces a pivot before it is used. -/
def ldlSolve (f : FpFmt) (fix : Nat → Nat) : Nat → List (List Nat) → List Nat × List Nat
  | 0, _ => ([], [])
  | _ + 1, [] => ([], [])
  | n + 1, row :: rows =>
    let p := row.headD 0
    let d := fix p
    let rest := row.drop 1
    let below := rows.map fun r =>
      let l := flDiv f (r.headD 0) d
      (r.drop 1).zip rest |>.map fun (x, y) => flSub f x (flMul f l y)
    let (xs, ps) := ldlSolve f fix n below
    let b := rest.getLastD 0
    (flDiv f (flSub f b (flDot f rest.dropLast xs)) d :: xs, p :: ps)

/-! ### Fixed point (R282, R283) -/

/-- A product of fixed-point integers, shifted to the result's binary point and saturated to `w` bits. -/
def fixMul (w fa fb f : Nat) (a b : Int) : Int :=
  let p := a * b
  let n : Int := if fa + fb ≤ f then (p.natAbs : Int) * (2 ^ (f - (fa + fb)) : Nat)
    else roundDiv .nearest (decide (p < 0)) p.natAbs (2 ^ (fa + fb - f))
  satSigned w (if p < 0 then -n else n)

/-- A sum of fixed-point integers of equal binary point, saturated to `w` bits. -/
def fixAdd (w : Nat) (a b : Int) : Int := satSigned w (a + b)

/-- A conversion to fixed point: × 2^F, rounded, saturated; NaN gives zero (R279, R280, R283). -/
def fixOf (w f : Nat) (mode : Rnd) (v : Fp) : Int :=
  match v with
  | .nan => 0
  | .inf neg => if neg then -((2 ^ (w - 1) : Nat) : Int) else ((2 ^ (w - 1) : Nat) : Int) - 1
  | .fin neg a b =>
    let n : Int := roundDiv mode neg (a * 2 ^ f) b
    satSigned w (if neg then -n else n)

/-- A fixed-point integer as a value (R269, Table 8.2). -/
def fixVal (f : Nat) (n : Int) : Fp := .fin (decide (n < 0)) n.natAbs (2 ^ f)

/-! ### Microscaling blocks (R273 to R275) -/

/-- The largest finite magnitude of a block. -/
def mxLargest : List Fp → Nat × Nat
  | [] => (0, 1)
  | .fin _ a b :: vs => let (c, d) := mxLargest vs; if c * b < a * d then (a, b) else (c, d)
  | _ :: vs => mxLargest vs

/-- The scale code of a block (R275); `emax` is 4 for E3M2 and 2 for E2M1. -/
def mxScale (emax : Nat) (vs : List Fp) : Nat :=
  if vs.contains .nan then 0xFF else
  let (a, b) := mxLargest vs
  if a = 0 then 0x7F else
  (max (-127) (min 127 (ratLog2 a b - (emax : Int))) + 127).toNat

/-- The element codes of a block under its scale, rounded in the mode of the conversion (R275, R278). -/
def mxElems (f : FpFmt) (mode : Rnd) (scale : Nat) (vs : List Fp) : List Nat :=
  vs.map fun v => match v with
    | .fin neg a b =>
      fpEncode f mode false (if 127 ≤ scale then .fin neg a (b * 2 ^ (scale - 127))
        else .fin neg (a * 2 ^ (127 - scale)) b)
    | v => fpEncode f mode false v

/-- The value of an element of a block (R273, R274). -/
def mxValue (f : FpFmt) (scale code : Nat) : Fp :=
  if scale = 0xFF then .nan else
  match fpDecode f code with
  | .fin neg a b => if 127 ≤ scale then .fin neg (a * 2 ^ (scale - 127)) b
      else .fin neg a (b * 2 ^ (127 - scale))
  | v => v

/-- Packs 4-bit codes two to a byte (R272). -/
def pack4 : List Nat → List Byte
  | a :: b :: cs => BitVec.ofNat 8 (a % 16 + b % 16 * 16) :: pack4 cs
  | [a] => [BitVec.ofNat 8 (a % 16)]
  | [] => []

/-- Packs 6-bit codes four to three bytes (R272). -/
def pack6 : List Nat → List Byte
  | a :: b :: c :: d :: cs =>
    leBytes 3 (a % 64 + b % 64 * 2 ^ 6 + c % 64 * 2 ^ 12 + d % 64 * 2 ^ 18) ++ pack6 cs
  | [a, b, c] => leBytes 3 (a % 64 + b % 64 * 2 ^ 6 + c % 64 * 2 ^ 12)
  | [a, b] => leBytes 2 (a % 64 + b % 64 * 2 ^ 6)
  | [a] => leBytes 1 (a % 64)
  | [] => []

/-- A list cut into pieces of `n`, the last one filled up; at most `fuel` of them. -/
def pieces (n : Nat) (fill : α) : Nat → List α → List (List α)
  | 0, _ => []
  | _ + 1, [] => []
  | fuel + 1, xs => (xs.take n ++ List.replicate (n - xs.length) fill) :: pieces n fill fuel (xs.drop n)

/-- The blocks of a tensor whose values lie in rows along its reduction dimension: 32 elements each, the last of a
row completed with zeros (R273). -/
def mxBlocks (row : Nat) (vs : List Fp) : List (List Fp) :=
  let zero : Fp := .fin false 0 1
  (pieces (max row 1) zero vs.length vs).flatMap fun r => pieces 32 zero r.length r

/-- A conversion of a tensor into an MX format: the scale codes, one of each block in block order, and the element
codes (R273, R275). -/
def mxTensor (f : FpFmt) (emax : Nat) (mode : Rnd) (row : Nat) (vs : List Fp) : List Nat × List Nat :=
  let bs := (mxBlocks row vs).map fun b => (mxScale emax b, b)
  (bs.map (·.1), bs.flatMap fun (c, b) => mxElems f mode c b)

/-- INT32 accumulation modulo 2^32 (R281). -/
def int32Sum (ps : List Int) : Int := signedOf 32 (codeOf 32 ps.sum)

/-! ### Checks on stored values -/

/-- An FP32 field of a record. -/
def f32At (bs : List Byte) (off : Nat) : Fp := fpDecode fp32 (fld bs off 4)

/-- An FP64 field of a record. -/
def f64At (bs : List Byte) (off : Nat) : Fp := fpDecode fp64 (fld bs off 8)

/-- An FP16 field of a record. -/
def f16At (bs : List Byte) (off : Nat) : Fp := fpDecode fp16 (fld bs off 2)

/-- The exact sum of squares of values. -/
def sumSquares (vs : List Fp) : Fp := vs.foldl (fun a v => fpAdd a (fpMul v v)) (.fin false 0 1)

/-- |‖v‖ − 1| ≤ num/den, decided on squares: (1 − t)² ≤ ‖v‖² ≤ (1 + t)². -/
def unitNorm (vs : List Fp) (num den : Nat) : Bool :=
  let s := sumSquares vs
  fpFinite s && fpLe (.fin false ((den - num) ^ 2) (den ^ 2)) s && fpLe s (.fin false ((den + num) ^ 2) (den ^ 2))

end Sys2Proof.Machine
end

