-- ==== Sys2Proof/Machine/Numeric.lean ====
section
/-! DEFINITION. The matrix unit and the vector unit of a tile (R271 to R285, R288 to R290, Table 8.3): what their
operations make of codes. -/
namespace Sys2Proof.Machine

/-! ### Operands (R272 to R274) -/

/-- The floating-point format of a number format. -/
def fmtFp : NumFmt → Option FpFmt
  | .fp32 => some fp32
  | .fp16 => some fp16
  | .bf16 => some bf16
  | .e4m3 => some e4m3
  | .e5m2 => some e5m2
  | .mxfp6 => some e3m2
  | .mxfp4 => some e2m1
  | _ => none

/-- A microscaling format. -/
def fmtMx (f : NumFmt) : Bool := f == .mxfp6 || f == .mxfp4

/-- An integer format of the matrix unit. -/
def fmtIsInt (f : NumFmt) : Bool := f == .int8 || f == .int4

/-- The integer that a code of an integer or fixed-point format stands for. -/
def fmtInt (f : NumFmt) (code : Nat) : Int :=
  match f with
  | .int8 => signedOf 8 code
  | .int4 => signedOf 4 code
  | .fixed32 _ => signedOf 32 code
  | _ => 0

/-- The value of element `i` of a vector (R269, R273, R274). -/
def vecValue (v : TileVec) (i : Nat) : Fp :=
  let c := natAt v.codes i
  match fmtFp v.fmt with
  | some f => if fmtMx v.fmt then mxValue f (natAt v.scales (i / 32)) c else fpDecode f c
  | none => match v.fmt with
    | .fixed32 p => fixVal p (fmtInt v.fmt c)
    | f => fpInt (fmtInt f c)

/-- The values of a vector. -/
def vecValues (v : TileVec) : List Fp := (List.range v.codes.length).map (vecValue v)

/-! ### The matrix unit (R276, R277, R281) -/

/-- Pairings that the matrix unit runs (Table 8.3). -/
def matrixRuns (a b : NumFmt) : Bool :=
  match a, b with
  | .int8, .int8 => true
  | .int8, .int4 => true
  | .int4, .int8 => true
  | .int4, .int4 => true
  | .e4m3, .e4m3 => true
  | .e4m3, .e5m2 => true
  | .e5m2, .e4m3 => true
  | .e5m2, .e5m2 => true
  | .mxfp4, .mxfp4 => true
  | .mxfp6, .mxfp6 => true
  | .mxfp6, .mxfp4 => true
  | .mxfp4, .mxfp6 => true
  | .fp16, .fp16 => true
  | .bf16, .bf16 => true
  | _, _ => false

/-- The formats that a tile program may name, by number. -/
def tileFmts : List NumFmt := [.fp32, .fp16, .bf16, .e4m3, .e5m2, .mxfp6, .mxfp4, .int8, .int4, .fixed32 0]

/-- A unit of a tile, 0 the matrix unit and 1 the vector unit, runs a pair of formats (Table 8.3, R276). -/
def unitRuns (unit a b : Nat) : Bool :=
  match tileFmts[a]?, tileFmts[b]? with
  | some x, some y => match unit with
    | 0 => matrixRuns x y
    | 1 => x == y && (x == .fp32 || x == .fixed32 0)
    | _ => false
  | _, _ => false

/-- The exact sum of values. -/
def fpSum (xs : List Fp) : Fp := xs.foldl fpAdd (.fin false 0 1)

/-- The exact products of two vectors. -/
def products (a b : TileVec) : List Fp := ((vecValues a).zip (vecValues b)).map fun (x, y) => fpMul x y

/-- What the accumulator takes from two vectors (R277): their exact products, or for each MX block pair the exact sum
of its products under both scales, rounded once to FP32. -/
def matrixTerms (a b : TileVec) : List Fp :=
  let ps := products a b
  if fmtMx a.fmt then (pieces 32 (Fp.fin false 0 1) ps.length ps).map fun x => fpDecode fp32 (fpIeee fp32 (fpSum x)) else ps

/-- FP32 partial sums of terms, each addition rounded (R277, R278); where one task's partial sum ends and the next
begins is a free choice. -/
def partials : Nat → Nat → List Fp → List Nat
  | _, acc, [] => [acc]
  | k, acc, x :: xs =>
    let a := fpIeee fp32 (fpAdd (fpDecode fp32 acc) x)
    if Config.freeNat k % 2 = 1 then a :: partials (k + 1) 0 xs else partials (k + 1) a xs

/-- Terms in the order in which they meet, which work stealing decides (R287): a free order. -/
def freeOrder (k : Nat) (xs : List α) : List α :=
  let at' (acc : List α) (x : α × Nat) : List α := acc.insertIdx (Config.freeNat (k + x.2) % (acc.length + 1)) x.1
  xs.zipIdx.foldl at' []

/-- An accumulation of terms in FP32, in a free order and grouping (R277, R288, R289). It takes free values from `k`
to `k + 4 × n`. -/
def accumulate (k : Nat) (xs : List Fp) : Nat :=
  flSum fp32 (k + 2 * xs.length) (partials (k + xs.length) 0 (freeOrder k xs))

/-- The INT32 accumulator of integer products (R281). -/
def intDot (a b : TileVec) : Int :=
  int32Sum ((a.codes.zip b.codes).map fun (x, y) => fmtInt a.fmt x * fmtInt b.fmt y)

/-- One output element of the matrix unit as an FP32 code: integer results go through an FP32 multiplication by the
layer's scale (R281). DEDUCED [243]. -/
def matrixOut (k scale : Nat) (a b : TileVec) : Nat :=
  if fmtIsInt a.fmt then flMul fp32 (flInt fp32 (intDot a b)) scale else accumulate k (matrixTerms a b)

/-! ### Elementary functions (R285): fixed point of 400 fraction bits -/

def oneFix : Int := 2 ^ 400

/-- The product of two fixed-point numbers. -/
def mulFix (x y : Int) : Int := x * y / oneFix

/-- A rational in fixed point. -/
def ratFix (neg : Bool) (a b : Nat) : Int := let n : Int := a * 2 ^ 400 / b; if neg then -n else n

/-- A power series from term `t` on, each term made from the one before. -/
def seriesFix (next : Nat → Int → Int) (out : Nat → Int → Int) : Nat → Nat → Int → Int
  | 0, _, _ => 0
  | n + 1, i, t => out i t + seriesFix next out n (i + 1) (next i t)

/-- Σ (±1)^i y^(2i+1) / (2i+1): the inverse tangent with `alt`, else the inverse hyperbolic tangent. -/
def atanFix (alt : Bool) (y : Int) : Int :=
  let y2 := mulFix y y
  seriesFix (fun _ t => if alt then -mulFix t y2 else mulFix t y2) (fun i t => t / (2 * i + 1 : Nat)) 270 0 y

/-- ln 2. -/
def ln2Fix : Int := 2 * atanFix false (oneFix / 3)

/-- π. -/
def piFix : Int := 16 * atanFix true (oneFix / 5) - 4 * atanFix true (oneFix / 239)

/-- e^x of a fixed-point number, as a fixed-point number. -/
def expFix (x : Int) : Int :=
  let n := x / ln2Fix
  let r := x - n * ln2Fix
  let e := seriesFix (fun i t => mulFix t r / (i + 1 : Nat)) (fun _ t => t) 120 0 oneFix
  if 0 ≤ n then e * 2 ^ n.toNat else e / 2 ^ (-n).toNat

/-- ln (a / b) of a positive rational. -/
def lnFix (a b : Nat) : Int :=
  let e := ratLog2 a b
  let m := if 0 ≤ e then ratFix false a (b * 2 ^ e.toNat) else ratFix false (a * 2 ^ (-e).toNat) b
  e * ln2Fix + 2 * atanFix false ((m - oneFix) * oneFix / (m + oneFix))

/-- The error function of a number of magnitude at most 8. -/
def erfFix (x : Int) : Int :=
  let x2 := mulFix x x
  let s := seriesFix (fun i t => -mulFix t x2 / (i + 1 : Nat)) (fun i t => t / (2 * i + 1 : Nat)) 400 0 x
  2 * s * oneFix / (isqrt (piFix.toNat * 2 ^ 400) : Int)

/-- The exact value of an elementary function where a bound is stated, to within 2^-300 of it. -/
def elementary (op : VecOp) (neg : Bool) (a b : Nat) : Option Fp :=
  let x := ratFix neg a b
  let big := decide (200 * oneFix < x) || decide (x < -(200 * oneFix))
  let fix (y : Int) : Option Fp := some (.fin (decide (y < 0)) y.natAbs (2 ^ 400))
  match op with
  | .exp => if big then none else fix (expFix x)
  | .log => if neg || a == 0 then none else fix (lnFix a b)
  | .rsqrt => if neg || a == 0 then none else some (.fin false (isqrt (b * 2 ^ 800 / a)) (2 ^ 400))
  | .sigmoid =>
    if big then (if neg then none else some (.fin false 1 1)) else fix (oneFix * oneFix / (oneFix + expFix (-x)))
  | .tanh =>
    if big then some (.fin neg 1 1) else
    let e := expFix (2 * x)
    fix ((e - oneFix) * oneFix / (e + oneFix))
  | .erf => if decide (8 * oneFix < x) || decide (x < -(8 * oneFix)) then some (.fin neg 1 1) else fix (erfFix x)
  | _ => none

/-- A magnitude that a normal FP32 number can have. -/
def normal32 (v : Fp) : Bool :=
  match v with
  | .fin _ a b => fpLe (.fin false 1 (2 ^ 126)) (.fin false a b) && fpLe (.fin false a b) (fpDecode fp32 fp32.maxCode)
  | _ => false

/-- The codes of a format within 2 units in the last place of a value. DESIGN CHOICE [244]. -/
def near2 (f : FpFmt) (v : Fp) : List Nat :=
  match v with
  | .fin neg a b =>
    let m := fpEncode f .nearest true (.fin false a b)
    let e : Int := match fpDecode f m with
      | .fin _ c d => ratLog2 c d + 1 - f.frac
      | _ => ratLog2 a b + 1 - f.frac
    let two : Fp := if 0 ≤ e then .fin false (2 ^ e.toNat) 1 else .fin false 1 (2 ^ (-e).toNat)
    let ok (c : Nat) : Bool :=
      let d := fpAdd (fpDecode f c) (.fin true a b)
      fpLe d two && fpLe (fpNeg two) d
    let cs := ((List.range 7).map fun i => m + i - 3).filter ok
    if neg then cs.map (· + 2 ^ (f.expBits + f.frac)) else cs
  | _ => []

/-- An elementary function of an FP32 code (R285): within 2 units in the last place of the exact value where that is
a finite normal number, and a free value where it is not. DESIGN CHOICE [244]. -/
def elemCode (op : VecOp) (k x : Nat) : Nat :=
  let free := Config.freeNat k
  let exact := match fpDecode fp32 x with
    | .fin neg a b => (elementary op neg a b).filter normal32
    | _ => none
  match exact with
  | some v => let cs := near2 fp32 v; natAt cs (free % cs.length)
  | none => if fpDecode fp32 x = .nan then fp32.nan else free % 2 ^ 32

/-- One lane of a vector operation on FP32 codes; a comparison answers 1 or 0 (R285). -/
def vecLane (op : VecOp) (k : Nat) (xs : List Nat) : Nat :=
  let x := natAt xs 0
  let y := natAt xs 1
  match op with
  | .add => flAdd fp32 x y
  | .sub => flSub fp32 x y
  | .mul => flMul fp32 x y
  | .fma => flFma fp32 x y (natAt xs 2)
  | .div => flDiv fp32 x y
  | .sqrt => flSqrt fp32 x
  | .less => flInt fp32 (if flLt fp32 x y then 1 else 0)
  | .lessEq => flInt fp32 (if flLe fp32 x y then 1 else 0)
  | o => elemCode o k x

/-- The largest of FP32 codes. -/
def vecMax (xs : List Nat) : Nat := xs.foldl (fun a x => if flLt fp32 a x then x else a) (xs.headD 0)

/-- Softmax, built from the operations above: the exponentials of the differences from the largest element over
their sum (R285). PRESUMED [245]. -/
def softmax (k : Nat) (xs : List Nat) : List Nat :=
  let m := vecMax xs
  let es := xs.zipIdx.map fun (x, i) => elemCode .exp (k + i) (flSub fp32 x m)
  let s := flSum fp32 (k + xs.length) es
  es.map fun e => flDiv fp32 e s

/-! ### Conversions and stored bytes (R272, R275, R278 to R280, R283) -/

/-- Element codes of values in a format. -/
def convCodes (c : Conv) (vs : List Fp) : List Nat :=
  match c.fmt with
  | .mxfp6 => let (s, e) := mxTensor e3m2 4 c.mode c.row vs; if c.scales then s else e
  | .mxfp4 => let (s, e) := mxTensor e2m1 2 c.mode c.row vs; if c.scales then s else e
  | .int8 => vs.map fun v => codeOf 8 (fixOf 8 0 c.mode v)
  | .int4 => vs.map fun v => codeOf 4 (fixOf 4 0 c.mode v)
  | .fixed32 p => vs.map fun v => codeOf 32 (fixOf 32 p c.mode v)
  | .fp32 => vs.map (fpEncode fp32 c.mode c.infinite)
  | .fp16 => vs.map (fpEncode fp16 c.mode c.infinite)
  | .bf16 => vs.map (fpEncode bf16 c.mode c.infinite)
  | .e4m3 => vs.map (fpEncode e4m3 c.mode false)
  | .e5m2 => vs.map (fpEncode e5m2 c.mode c.infinite)

/-- The bytes in which codes of a format are stored. -/
def storedCodes (f : NumFmt) (cs : List Nat) : List Byte :=
  match f with
  | .int4 => pack4 cs
  | .mxfp4 => pack4 cs
  | .mxfp6 => pack6 cs
  | .int8 => cs.flatMap (leBytes 1)
  | .e4m3 => cs.flatMap (leBytes 1)
  | .e5m2 => cs.flatMap (leBytes 1)
  | .fp16 => cs.flatMap (leBytes 2)
  | .bf16 => cs.flatMap (leBytes 2)
  | .fp32 => cs.flatMap (leBytes 4)
  | .fixed32 _ => cs.flatMap (leBytes 4)

/-- Values converted and laid out as they are stored; a scale array is one byte a block (R273).
 DESIGN CHOICE [246]. -/
def convBytes (c : Conv) (vs : List Fp) : List Byte :=
  let cs := convCodes c vs
  if fmtMx c.fmt && c.scales then cs.flatMap (leBytes 1) else storedCodes c.fmt cs

/-- FP32 results converted. -/
def conv32 (c : Conv) (codes : List Nat) : List Byte := convBytes c (codes.map (fpDecode fp32))

/-! ### What a task writes -/

/-- Free values that the results of a write take. -/
def dataDraws : TileData → Nat
  | .matrix outs _ _ => (outs.map fun (a, _) => 4 * a.codes.length).sum
  | .vector _ args _ => args.length
  | .reduce xs _ => 2 * xs.length
  | .softmax xs _ => 3 * xs.length
  | _ => 0

/-- The outputs of the matrix unit, each with free values of its own. -/
def matrixOuts (scale : Nat) : Nat → List (TileVec × TileVec) → List Nat
  | _, [] => []
  | k, (a, b) :: xs => matrixOut k scale a b :: matrixOuts scale (k + 4 * a.codes.length) xs

/-- The bytes of a task's write, with free values from `k` on. A pairing that the matrix unit does not run writes
nothing (R276). -/
def dataBytes (d : TileData) (k : Nat) : List Byte :=
  match d with
  | .moved bs => bs
  | .matrix outs scale c =>
    if outs.all fun (a, b) => matrixRuns a.fmt b.fmt then conv32 c (matrixOuts scale k outs) else []
  | .vector op args c => conv32 c (args.zipIdx.map fun (xs, i) => vecLane op (k + i) xs)
  | .reduce xs c => conv32 c [flSum fp32 k xs]
  | .softmax xs c => conv32 c (softmax k xs)
  | .mulAdd fa fb fc args =>
    (args.map fun (x, y, z) => codeOf 32 (fixAdd 32 (fixMul 32 fa fb fc (signedOf 32 x) (signedOf 32 y)) (signedOf 32 z))).flatMap
      (leBytes 4)
  | .convert v c => convBytes c (vecValues v)

end Sys2Proof.Machine
end

