-- ==== Sys2Proof/Machine/Ops.lean ====
section
/-! DEFINITION. The named operations over the state that every family shares: time, free values,
functions and interrupts, completions, objects and handles, events, quotas, fault records. -/
namespace Sys2Proof.Machine

/-! ### Status codes (Table 3.6) -/

def stOk : Nat := 0x0000
def stPartial : Nat := 0x0001
def stStale : Nat := 0x0002
def stDegraded : Nat := 0x0003
def stFit : Nat := 0x8001
def stLimit : Nat := 0x8002
def stRange : Nat := 0x8003
def stTimeout : Nat := 0x8004
def stMedia : Nat := 0x8005
def stDomainOff : Nat := 0x8006
def stLateWeight : Nat := 0x8007
def stIntegrity : Nat := 0x8008
def stAuth : Nat := 0x8009
def stState : Nat := 0x800A
def stQuota : Nat := 0x800B
def stAborted : Nat := 0x800C
def stDesync : Nat := 0x800D
def stStructure : Nat := 0x800E

/-- Bit 15 marks an error that ended the request (R91). -/
def isErr (st : Nat) : Bool := decide (0x8000 ≤ st)

/-- The qualified success that takes precedence (R19): DEGRADED, then STALE, then PARTIAL. Their
codes rise in that order. -/
def worseOk (a b : Nat) : Nat := max a b

/-! ### Time (R139 to R143) -/

/-- One microsecond, in 2^-16 ns. -/
def usT : Nat := 65536000
/-- One millisecond, in 2^-16 ns. -/
def msT : Nat := 65536000000
/-- One second, in 2^-16 ns. -/
def secT : Nat := 65536000000000

/-- The mono instant `us` microseconds from now (R143). -/
def after (us : Nat) (s : State) : Nat := s.time.mono + us * usT

/-- Whether a mono instant has come. -/
def due (t : Nat) (s : State) : Bool := decide (t ≤ s.time.mono)

/-- Whether `w` has gone by since an instant that may be absent. -/
def past (o : Option Nat) (w : Nat) (s : State) : Bool :=
  match o with
  | some t => decide (t + w ≤ s.time.mono)
  | none => false

/-- Whether a deadline that may be absent has come. -/
def dueOpt (t : Option Nat) (s : State) : Bool := t.elim false fun x => due x s

/-- A stamp of this instant with a source tag (R139, Table 4.10). DESIGN CHOICE [21]. -/
def stampNow (tag : Nat) (s : State) : Stamp := { t := s.time.now, tag }

/-- The 16 bytes of a time word (Table 4.9). -/
def timeWord (st : Stamp) : List Byte :=
  leBytes 2 st.tag ++ leBytes 2 (st.t % 65536) ++ leBytes 4 (st.t / 65536 % 1000000000)
    ++ leBytes 8 (st.t / 65536 / 1000000000)

/-- The same mono instant for a stepped-time instant (R143: converted when its reference is taken). -/
def monoOf (tb : Nat) (s : State) : Nat := s.time.mono + tb - s.time.now

/-- A length of mono time in whole microseconds. -/
def usOf (t : Nat) : Nat := t / usT

/-- What a slew absorbs in one nanosecond: 500 ppm, in 10^-6 of 2^-16 ns (R141). DESIGN CHOICE [1]. -/
def slewQuantum : Int := 32768000

/-- The time base counts: not in S4, nor while a power-on or cold reset is held (R140). DEDUCED [221]. -/
def timeRuns (s : State) : Bool :=
  !(s.boot.phase == .off || s.boot.phase == .waitRails || s.boot.phase == .held)

/-- One nanosecond of the time base at its set rate, with the slew in progress (R141, R143): the
step-free count and the stepped word advance alike. 65,536 units of 2^-16 ns, times 1 + rate ppm;
a slew adds or takes 500 ppm until it is absorbed. Where the time base stands still (R140) only the
step-free count goes on, for the waits of the supplies and pins. DEDUCED. [1]
 DESIGN CHOICE [1]. DESIGN CHOICE [284]. -/
def tick (s : State) : State :=
  let t := s.time
  -- in 10^-6 of a unit: 65,536 × (10^6 + rate / 2^16 ppm)
  let base : Int := 65536000000 + t.rate + t.sleepErr
  let part : Int := max (-slewQuantum) (min slewQuantum t.slew)
  let total := t.frac + base + part
  let n := (total / 1000000).toNat
  { s with time := { t with now := t.now + (if timeRuns s then n else 0), mono := t.mono + n, frac := total % 1000000, slew := t.slew - part } }

/-! ### Free values -/

/-- Draws one free value. [11] -/
def draw (s : State) : Nat × State := (Config.freeNat s.fresh, { s with fresh := s.fresh + 1 })

/-- Draws `n` free bytes. [11] -/
def drawBytes (n : Nat) (s : State) : List Byte × State :=
  ((List.range n).map fun i => BitVec.ofNat 8 (Config.freeNat (s.fresh + i)),
    { s with fresh := s.fresh + n })

/-! ### Glitch filters (R20, R575) -/

/-- A pulse of `ns` on a pin whose filter ignores what is shorter than `lo` ns and takes what lasts `hi` ns: between
the two a free value says whether it is ignored or taken whole. [11] DESIGN CHOICE [209]. -/
def pinPulse (lo hi ns : Nat) (f : State → Result) (s : State) : Result :=
  if ns < lo then .next s
  else if hi ≤ ns then f s
  else
    let (x, s) := draw s
    if x % 2 = 0 then .next s else f s

/-! ### Functions, interrupts and pairs (02) -/

/-- Function `i`. -/
def getFn (i : Nat) (s : State) : Fn := s.link.fns[i]?.getD (Fn.reset false 0)

/-- Changes function `i`. -/
def updFn (i : Nat) (f : Fn → Fn) (s : State) : State :=
  { s with link.fns := s.link.fns.modify i f }

/-- Appends to what the K9 has given. DESIGN CHOICE [10]. -/
def emit (o : Output) (s : State) : State := { s with out := s.out ++ [o] }

/-- Number of MSI-X vectors of a function (Table 17.8). -/
def vectors (fn : Nat) : Nat := if fn = 0 then 2048 else 64

/-- The entry of a vector: zero and masked until the host writes it. -/
def msixGet (f : Fn) (v : Nat) : MsixEntry :=
  (f.msix.find? fun e => e.vector == v).getD
    { vector := v, addr := 0, data := 0, masked := true, pending := false }

/-- Stores a vector's entry; entries at their reset value are not listed. -/
def msixPut (f : Fn) (e : MsixEntry) : Fn :=
  let rest := f.msix.filter fun x => !(x.vector == e.vector)
  { f with msix := if e.addr = 0 ∧ e.data = 0 ∧ e.masked ∧ !e.pending then rest else e :: rest }

/-- A trigger of a vector (R58, R577): a message, a pending bit, or a held message. -/
def trigger (fn v : Nat) (s : State) : State :=
  let f := getFn fn s
  let e := msixGet f v
  if !f.msixEn || f.msixMask || e.masked then
    updFn fn (fun f => msixPut f { e with pending := true }) s
  else if !f.busMaster then
    updFn fn (fun f => { f with held := f.held ++ [.msix fn v e.addr e.data] }) s
  else emit (.msix fn v e.addr e.data) s

/-- Whether a pair is pair `q` of function `fn`. -/
def isPair (fn q : Nat) (p : QPair) : Bool := p.fn == fn && p.qid == q

/-- A created pair. -/
def getPair (fn q : Nat) (s : State) : Option QPair := s.link.pairs.find? (isPair fn q)

/-- Changes a pair. -/
def updPair (fn q : Nat) (f : QPair → QPair) (s : State) : State :=
  { s with link.pairs := updIf (isPair fn q) f s.link.pairs }

/-- Whether a trigger of a vector only sets its pending bit (R58). -/
def vectorQuiet (fn v : Nat) (s : State) : Bool :=
  let f := getFn fn s
  !f.msixEn || f.msixMask || (msixGet f v).masked

/-- What a message does to the coalescing of its pair: the count is reset and the timer stops (R57). -/
def uncoalesce (p : QPair) : QPair := { p with coalN := 0, coalAt := none, owed := false }

/-- A pair's trigger (R57, R58): its message, or its vector's pending bit while the vector is quiet. The count and the
timer are reset by the message alone. -/
def signal (fn q : Nat) (vector : Nat) (s : State) : State :=
  trigger fn vector (updPair fn q (if vectorQuiet fn vector s then fun p => { p with owed := true } else uncoalesce) s)

/-- The interrupt decision after a posted completion (R57). A pair whose `INT_EN` is 0 is polled: its completions are
not counted and start no timer. DESIGN CHOICE [205]. -/
def coalesce (fn q : Nat) (solicit err : Bool) (s : State) : State :=
  match getPair fn q s with
  | none => s
  | some p =>
    if !p.intEn then s else
    let n := p.coalN + 1
    let s := updPair fn q (fun p => { p with coalN := n, coalAt := some (p.coalAt.getD s.time.mono) }) s
    if (p.coalCount ≠ 0 && decide (p.coalCount ≤ n)) || solicit || (err && p.errImm) then signal fn q p.vector s else s

/-! ### Objects and handles (R69 to R80) -/

/-- The handle of an object (Table 3.2). -/
def mkHandle (o : Obj) : W64 :=
  BitVec.ofNat 64 (o.ty * 2 ^ 56 + o.fn * 2 ^ 51 + o.gen * 2 ^ 32 + o.slot)

/-- Whether an object has this type and slot. -/
def isObj (ty slot : Nat) (o : Obj) : Bool := o.ty == ty && o.slot == slot

/-- The object in a slot. -/
def getObj (ty slot : Nat) (s : State) : Option Obj := s.obj.objs.find? (isObj ty slot)

/-- Changes an object. -/
def updObj (ty slot : Nat) (f : Obj → Obj) (s : State) : State :=
  { s with obj.objs := updIf (isObj ty slot) f s.obj.objs }

/-- The handle of the object in a slot, 0 when there is none. -/
def handleOf (ty slot : Nat) (s : State) : W64 := (getObj ty slot s).elim 0 mkHandle

/-- Why a request ends at validation: status and the two results, and what the refusal itself leaves
behind (a count, a fault record). -/
structure Fail where
  st : Nat
  r0 : Nat
  r1 : Nat
  fx : State → State := id

/-- A validation error with no results. -/
def err (st : Nat) : Fail := { st, r0 := 0, r1 := 0 }

/-- The scale of a shortfall (R89). -/
def fitScale (x : Nat) : Nat :=
  if x < 2 ^ 32 then 0 else if ceilDiv x 1024 < 2 ^ 32 then 1
  else if ceilDiv x (1024 ^ 2) < 2 ^ 32 then 2 else 3

/-- A shortfall report (R89). -/
def fitFail (code short : Nat) : Fail :=
  let n := fitScale short
  { st := stFit, r0 := ceilDiv short (1024 ^ n), r1 := n * 4096 + code }

/-- A check that must hold. -/
def need (b : Bool) (f : Fail) : Except Fail Unit := if b then .ok () else .error f

/-- The check of a handle (R70, R73, R78): its type is accepted, its function is the submitter, its
slot is live in that generation. `closing` admits a closing object (ADM_HANDLE_QUERY). -/
def lookupHandle (tys : List Nat) (fn : Nat) (closing : Bool) (h : Nat) (s : State) :
    Except Fail Obj :=
  let ty := h / 2 ^ 56
  if h = 0 || !tys.contains ty || bitsOf h 50 48 ≠ 0 then .error (err stRange)
  else if bitsOf h 55 51 ≠ fn then .error (err stAuth)
  else match getObj ty (h % 2 ^ 32) s with
    | none => .error (err stState)
    | some o =>
      if o.gen ≠ bitsOf h 47 32 then .error (err stState)
      else match o.st with
        | .closing _ => if closing then .ok o else .error (err stState)
        | _ => .ok o

/-- Every object type of Table 3.3. -/
def allTypes : List Nat := [1, 2, 3, 4, 5, 6, 7, 8, 9, 10, 11, 12, 13, 14]

/-- The device limit of an object type (Table 3.3). -/
def typeLimit (ty : Nat) : Nat :=
  natAt [0, 1024, 128, 128, 64, 1024, 4096, 8, 256, 16, 64, 16384, 1, 65536, 1024] ty

/-- How many objects of a type exist. -/
def countType (ty : Nat) (s : State) : Nat := (s.obj.objs.filter fun o => o.ty == ty).length

/-- R74: one more object of the type fits its device limit. -/
def limitCheck (ty : Nat) (s : State) : Except Fail Unit :=
  need (decide (countType ty s < typeLimit ty)) (err stLimit)

/-- The objects that depend directly on an object (R77). -/
def dependants (ty slot : Nat) (s : State) : List Obj :=
  s.obj.objs.filter fun o => o.deps.contains (ty, slot)

/-- Picks a slot of a type: a free value where it is unused, else the first unused number. [11] -/
def pickSlot (ty bound : Nat) (s : State) : Nat × State :=
  let used := (s.obj.objs.filter fun o => o.ty == ty).map (·.slot)
  let (x, s) := draw s
  let c := x % bound
  (if used.contains c then firstFree used else c, s)

/-- The generation a slot has: kept from its last use, else drawn after the cold reset (R72). -/
def pickGen (ty slot : Nat) (s : State) : Nat × State :=
  match s.obj.gens.lookup (ty, slot) with
  | some g => (g, s)
  | none =>
    let (x, s) := draw s
    let g := x % 0xFFFF + 1
    (g, { s with obj.gens := assocSet s.obj.gens (ty, slot) g })

/-- The generation after a release (R72). -/
def nextGen (g : Nat) : Nat := if g ≥ 0xFFFF then 1 else g + 1

/-- Adds an object in a chosen slot; answers its generation. -/
def addObj (ty slot fn : Nat) (sess : Option Nat) (deps : List (Nat × Nat)) (shared : Bool)
    (chOn chSt : Nat) (s : State) : Nat × State :=
  let (g, s) := pickGen ty slot s
  let o : Obj := { ty, slot, gen := g, fn, sess, st := .live, deps, order := s.obj.nextOrder, shared
                   chOn, chSt, holdS := 0, holdAt := none }
  (g, { s with obj := { s.obj with objs := s.obj.objs ++ [o], nextOrder := s.obj.nextOrder + 1 } })

/-- Creates an object in a slot of the K9's choice (R71); answers slot and generation. -/
def newObj (ty bound fn : Nat) (sess : Option Nat) (deps : List (Nat × Nat)) (shared : Bool)
    (chOn chSt : Nat) (s : State) : Nat × Nat × State :=
  let (slot, s) := pickSlot ty bound s
  let (g, s) := addObj ty slot fn sess deps shared chOn chSt s
  (slot, g, s)

/-- The administrator's session, if one is open (R92). -/
def adminSession (s : State) : Option Session := s.obj.sessions.find? (·.admin)

/-- An open session. -/
def getSession (slot : Nat) (s : State) : Option Session :=
  s.obj.sessions.find? fun x => x.slot == slot

/-! ### Events (R100, R504) -/

/-- Adds an event record to a queue of at most 1,024. -/
def pushEvent (e : Event) (x : Session) : Session :=
  if x.events.length < 1024 then { x with events := x.events ++ [e] } else { x with lost := x.lost + 1 }

/-- Queues an event to a session, or to the device queue when it names none. -/
def queueEvent (dest : Option Nat) (e : Event) (s : State) : State :=
  match dest with
  | some n => { s with obj.sessions := updIf (fun x => x.slot == n) (pushEvent e) s.obj.sessions }
  | none =>
    if s.obj.devEvents.length < 1024 then { s with obj.devEvents := s.obj.devEvents ++ [e] }
    else { s with obj.devLost := s.obj.devLost + 1 }

/-- Who receives the events of an object (R100): its session; the administrator for an orphan and
for no object. -/
def eventTo (src : Option (Nat × Nat)) (s : State) : Option Nat :=
  let adm := (adminSession s).map (·.slot)
  match src.bind fun (t, n) => getObj t n s with
  | none => adm
  | some o => match o.sess with
    | some x => some x
    | none => adm

/-- Raises an event of a source object, or of none (Table 3.11). DESIGN CHOICE [21]. -/
def raise (ev detail : Nat) (src : Option (Nat × Nat)) (s : State) : State :=
  let h := src.elim 0 fun (t, n) => handleOf t n s
  queueEvent (eventTo src s) { at' := stampNow 0 s, ev, detail, handle := h } s

/-- The time word of an instant in 2^-16 ns; Table 4.9 has none before zero seconds, so that one is free.
DESIGN CHOICE. DESIGN CHOICE [222]. -/
def timeAt (t : Int) : Nat := if t < 0 then Config.timeBelowZero t else t.toNat

/-- The instant of a record that begins with its time word, in 2^-16 ns (Table 4.9). -/
def recTime (b : List Byte) : Nat := (fld b 8 8 * 1000000000 + fld b 4 4) * 65536 + fld b 2 2

/-- Raises an event to a session that owns the source without an object of its own (low-rate
channels, alarms). DESIGN CHOICE [21]. DESIGN CHOICE [215]. -/
def raiseTo (sess : Nat) (ev detail tag : Nat) (s : State) : State :=
  queueEvent (some sess) { at' := stampNow tag s, ev, detail, handle := handleOf 1 sess s } s

/-- The bytes of an event record (Table 3.11). -/
def eventBytes (e : Event) : List Byte :=
  timeWord e.at' ++ leBytes 2 e.ev ++ leBytes 6 e.detail ++ leBytes 8 e.handle.toNat

/-- The mark of an event that is raised at most once per second per object: the instant of its last
raise, and the instants of its occurrences in the second before the last of them. -/
def ageMark (k : Nat × Nat × Nat) (s : State) : Option (Nat × List Nat) := s.obj.ageMarks.lookup k

/-- `n` occurrences of an event that is raised at most once per second per object (R137); `detail` is
made from the number of occurrences in the last second, these included. -/
def raiseOnceN (n ev : Nat) (src : Nat × Nat) (detail : Nat → Nat) (s : State) : State :=
  if n = 0 then s else
  let k := (ev, src.1, if src.1 = 0 then src.2 else (handleOf src.1 src.2 s).toNat)
  let now := s.time.mono
  let old := ageMark k s
  let inSec := List.replicate n now ++ (old.elim [] (·.2)).filter fun t => decide (now < t + secT)
  let keep (t : Nat) : State :=
    { s with obj.ageMarks := (k, (t, inSec)) :: s.obj.ageMarks.filter fun p => !(p.1 == k) }
  if old.any fun p => decide (now < p.1 + secT) then keep (old.elim now (·.1))
  else raise ev (detail inSec.length) (if src.1 = 0 then none else some src) (keep now)

/-- One such occurrence. -/
def raiseOnce (ev : Nat) (src : Nat × Nat) (detail : Nat → Nat) (s : State) : State :=
  raiseOnceN 1 ev src detail s

/-! ### Fault records (R427, R428) -/

/-- Writes a fault record to the log and, for kinds 2 and 7, to the failure records (R428, R543). -/
def addFault (f : FaultRec) (s : State) : State :=
  if s.pwr.faultLogClosed then s else
  let full := decide (16384 ≤ s.mem.faults.length)
  let s := { s with mem := { s.mem with
    faults := f :: s.mem.faults.take 16383
    faultsLost := s.mem.faultsLost + (if full then 1 else 0) } }
  if f.kind = 2 then { s with mem := { s.mem with failUe := some f, failUeSeq := (s.mem.failUeSeq + 2) % 2 ^ 32 } }
  else if f.kind = 7 then { s with mem := { s.mem with failCm := some f, failCmSeq := (s.mem.failCmSeq + 2) % 2 ^ 32 } }
  else s

/-- A fault record of this instant. -/
def mkFault (kind unit index addr syndrome action : Nat) (h : W64) (ended repl : Nat) (s : State) :
    FaultRec :=
  { at' := s.time.now, kind, unit, index, addr, syndrome, action, handle := h, ended
    poolLeft := s.mem.pool, repl }

/-- The 64 bytes of a fault record (Table 12.6). -/
def faultBytes (f : FaultRec) : List Byte :=
  timeWord { t := f.at', tag := 0 } ++ leBytes 2 f.kind ++ leBytes 1 f.unit ++ leBytes 1 f.index
    ++ leBytes 8 f.addr ++ leBytes 1 f.syndrome ++ [0] ++ leBytes 2 f.action
    ++ leBytes 8 f.handle.toNat ++ leBytes 4 f.ended ++ leBytes 4 f.poolLeft ++ leBytes 8 f.repl
    ++ zeros 8

/-- A complement mismatch (R421): a fault record of kind 7 and event 0x0905, once per second per
object. `src` (0, n) stands for a value that belongs to no object. -/
def mismatch (unit index addr : Nat) (src : Nat × Nat) (ended : Nat) (s : State) : State :=
  let h := handleOf src.1 src.2 s
  let s := addFault (mkFault 7 unit index addr 0 8 h ended 0 s) s
  raiseOnce 0x0905 src (fun _ => unit + index * 256 + addr % 2 ^ 32 * 65536) s

/-! ### Completions (R41, R50, R56, R57) -/

/-- A base pointer whose halves mismatch (R41, R421): the pair stops fetching with cause 4. -/
def baseFault (p : QPair) (s : State) : State :=
  mismatch 5 0 (p.fn * 65536 + p.qid) (0, 0x10000 + p.fn * 65536 + p.qid) 0 (updPair p.fn p.qid (fun p => { p with fault := 4 }) s)

/-- The host address of SQ entry `i` (R45): 64 bytes each from the base. -/
def sqEntryAddr (p : QPair) (i : Nat) : Nat := p.sqBase.n + 64 * i

/-- The host address of CQ entry `i` (R45): 16 bytes each from the base. -/
def cqEntryAddr (p : QPair) (i : Nat) : Nat := p.cqBase.n + 16 * i

/-- Posts a completion entry on a CQ (R50, R56, R57); held while Bus Master Enable is clear (R577). -/
def postCq (fn q cid st r0 r1 : Nat) (rbuf solicit : Bool) (s : State) : State :=
  match getPair fn q s with
  | none => s
  | some p =>
    let o := Output.completion fn q (cqEntryAddr p p.cqTail) cid p.sqHead st (r0 % 2 ^ 32) (r1 % 2 ^ 16) p.phase rbuf
    let next := (p.cqTail + 1) % p.cqDepth
    let ph := if next = 0 then !p.phase else p.phase
    let bm := (getFn fn s).busMaster
    let s := if p.cqBase.ok || p.fault != 0 then s else baseFault p s
    let s := updPair fn q (fun p => { p with
      cqTail := next, phase := ph, heldCpl := if bm then p.heldCpl else p.heldCpl + 1 }) s
    let s := if bm then emit o s else updFn fn (fun f => { f with held := f.held ++ [o] }) s
    coalesce fn q solicit (isErr st) s

/-- Writes a callboard response (R61, Table 2.12 steps 4 and 5). -/
def cbRespond (cid st r0 r1 : Nat) (rbuf : Bool) (s : State) : State :=
  let entry := leBytes 2 cid ++ leBytes 2 0 ++ leBytes 2 0 ++ leBytes 2 st ++ leBytes 4 r0
    ++ leBytes 2 r1 ++ [0, BitVec.ofNat 8 (s.cb.ringSeq % 2 + (if rbuf then 2 else 0))]
  let s := { s with cb := { s.cb with
    response := entry, state := 2, limit := none, server := s.cb.serverNext.getD s.cb.server, serverNext := none } }
  if s.cb.intEn then trigger 0 0 s else s

/-- Another server takes the callboard over (R63): at once while `STATE` is idle or done, else when it leaves busy. -/
def setServer (n : Nat) (s : State) : State :=
  { s with cb := if s.cb.state = 1 then { s.cb with serverNext := some n } else { s.cb with server := n } }

/-- The function a request runs for; the callboard is the physical function's. -/
def srcFn : Src → Nat
  | .queue fn _ => fn
  | .callboard => 0

/-- The reference of a request. -/
def reqRef (q : Req) : ReqRef := { src := q.src, cid := q.cid }

/-- The open request a reference names: the oldest one. -/
def findReq (r : ReqRef) (s : State) : Option Req := s.link.reqs.find? fun q => reqRef q == r

/-- Takes a request off the open list. -/
def dropReq (order : Nat) (s : State) : State :=
  { s with link.reqs := s.link.reqs.filter fun q => !(q.order == order) }

/-- Where a request's results go and what they hold (R85, R87): `RES_ADDR`. -/
def resAddr (q : Req) : Nat := fld q.param 0 8

/-- Writes bytes into `CB_DATA` from its byte 0 (R61). -/
def cbWrite (bs : List Byte) (s : State) : State :=
  { s with cb.data := memWrite s.cb.data 0 (bs.take 3072) }

/-- Writes to host memory (R56), when there is anything to write. DESIGN CHOICE [10]. -/
def dma (fn addr : Nat) (bs : List Byte) (s : State) : State :=
  if bs.isEmpty then s else emit (.dma fn addr bs) s

/-- Ends a request with its completion: results, entry, interrupt, in that order (R56). Results
that would need a host write while Bus Master Enable is clear end it with `ST_E_STATE` (R577). DESIGN CHOICE [10]. -/
def post (q : Req) (st r0 r1 : Nat) (data : Option (List Byte)) (s : State) : State :=
  let fn := srcFn q.src
  let s := dropReq q.order s
  let viaCb := (q.src == .callboard) && resAddr q == 0
  let blocked := data.isSome && !viaCb && !(getFn fn s).busMaster
  let st := if blocked then stState else st
  let r0 := if blocked then 0 else r0
  let r1 := if blocked then 0 else r1
  let s := match data with
    | none => s
    | some d => if blocked then s else if viaCb then cbWrite d s else dma fn (resAddr q) d s
  let rbuf := data.isSome && !blocked
  match q.src with
  | .queue f i => postCq f i q.cid st r0 r1 rbuf q.solicit s
  | .callboard => cbRespond q.cid st r0 r1 rbuf s

/-- Ends the request a reference names, if it is open. -/
def postRef (r : ReqRef) (st r0 r1 : Nat) (data : Option (List Byte)) (s : State) : State :=
  match findReq r s with
  | none => s
  | some q => post q st r0 r1 data s

/-! ### Quotas (R102 to R105) -/

/-- Whether a quota is that of a function and tier. -/
def isQuota (fn tier : Nat) (q : Quota) : Bool := q.fn == fn && q.tier == tier

/-- The quota of a function in a tier (0 on-chip, 1 stacked). -/
def getQuota (fn tier : Nat) (s : State) : Quota :=
  (s.mem.quotas.find? (isQuota fn tier)).getD
    { fn, tier, quota := 0, used := Comp.of 0, peak := 0, refused := 0 }

/-- Changes a quota. -/
def updQuota (fn tier : Nat) (f : Quota → Quota) (s : State) : State :=
  { s with mem.quotas := updIf (isQuota fn tier) f s.mem.quotas }

/-- Charges bytes to a quota. -/
def charge (fn tier n : Nat) (s : State) : State :=
  updQuota fn tier (fun q =>
    if q.used.ok then { q with used := Comp.of (q.used.n + n), peak := max q.peak (q.used.n + n) }
    else q) s

/-- Gives bytes back to a quota. -/
def refund (fn tier n : Nat) (s : State) : State :=
  updQuota fn tier (fun q => if q.used.ok then { q with used := Comp.of (q.used.n - n) } else q) s

/-- Counts a refusal of a quota (Table 3.13, MEM_QUOTA_QUERY). -/
def quotaRefused (fn tier : Nat) (s : State) : State :=
  updQuota fn tier (fun q => { q with refused := q.refused + 1 }) s

/-- How far `n` more bytes would exceed a quota. What needs nothing of the tier exceeds nothing (R104). -/
def quotaOver (fn tier n : Nat) (s : State) : Nat :=
  let q := getQuota fn tier s
  if n = 0 then 0 else q.used.n + n - q.quota

/-- Step 7 of a command that needs a tier: the counter's pair holds (R105, R421). -/
def quotaPair (fn tier n : Nat) (s : State) : Except Fail Unit :=
  need (n == 0 || (getQuota fn tier s).used.ok)
    { err stIntegrity with fx := mismatch 5 0 (fn * 16 + tier * 8) (0, fn * 2 + tier) 1 }

/-- A fit check: no shortfall. -/
def fits (code short : Nat) : Except Fail Unit := need (short == 0) (fitFail code short)

/-- A quota's fit check (R90); a refusal is counted (Table 3.13). -/
def fitsQuota (fn tier n : Nat) (s : State) : Except Fail Unit :=
  need (quotaOver fn tier n s == 0)
    { fitFail (4 + tier) (quotaOver fn tier n s) with fx := quotaRefused fn tier }

/-- Stacked bytes that other members' shards and replicas take here (R452). DEDUCED [277]. -/
def heldBytes (s : State) : Nat := (s.ens.held.map (·.2.2)).sum

/-- Bytes in use in the stacked tier by every object and by other members' shards. -/
def stackedUsed (s : State) : Nat := (s.obj.objs.map (·.chSt)).sum + heldBytes s

/-- Bytes in use in the on-chip tier by every object. -/
def onchipUsed (s : State) : Nat := (s.obj.objs.map (·.chOn)).sum

/-- Bytes left in the stacked tier. -/
def stackedFree (s : State) : Nat := s.mem.stackedCap - stackedUsed s

/-- 256-byte granules of the on-chip tier (R102). -/
def granOn (n : Nat) : Nat := roundUp n 256

/-- 4 KiB granules of the stacked tier (R102). -/
def granSt (n : Nat) : Nat := roundUp n 4096

/-- Changes the charge of an object and of its function's quota. -/
def recharge (ty slot on st : Nat) (s : State) : State :=
  match getObj ty slot s with
  | none => s
  | some o =>
    let s := charge o.fn 0 (on - o.chOn) (refund o.fn 0 (o.chOn - on) s)
    let s := charge o.fn 1 (st - o.chSt) (refund o.fn 1 (o.chSt - st) s)
    updObj ty slot (fun o => { o with chOn := on, chSt := st }) s

/-! ### Registers refused (R3, R5, R21, R538) -/

/-- Counts a refused register write of a BAR0 region (Table 2.3, by its number in that table). DEDUCED [146]. -/
def refuseReg (fn region : Nat) (s : State) : State :=
  { s with link.regRefused := bump s.link.regRefused (fn * 16 + region) }

/-! ### The state of service -/

/-- `READY`: Stage Manager serves (Table 2.5). -/
def ready (s : State) : Bool := s.boot.readyAt.isSome

/-- The life-cycle state in force (R516, R517): SERVICE while the service flag is set in DEPLOYED. -/
def lifecycle (s : State) : Nat :=
  if s.sec.base = 3 && s.sec.service.ok && s.sec.service.n == 1 then 4 else s.sec.base

/-- Extension of a measurement register (R525): M ← SHA3-512(M ∥ digest ∥ tag), the tag holding the register's
index and the low 56 bits of the time word. DESIGN CHOICE [154]. -/
def measure (i : Nat) (digest : List Byte) (s : State) : State :=
  let tag := BitVec.ofNat 8 i :: (timeWord (stampNow 0 s)).take 7
  let next (m : BitVec 512) : BitVec 512 := BitVec.ofNat 512 (unle (Config.sha3 (leBytes 64 m.toNat ++ digest ++ tag)))
  { s with sec.m := s.sec.m.modify i next }

/-- Adds to a rising list of numbers. -/
def insertRising (n : Nat) : List Nat → List Nat
  | [] => [n]
  | m :: l => if n < m then n :: m :: l else if n = m then m :: l else m :: insertRising n l

end Sys2Proof.Machine
end

