-- ==== Sys2Proof/Machine/Release.lean ====
section
/-! DEFINITION. What the release of an object takes away (R72, R77 to R80, and each family's rule). -/
namespace Sys2Proof.Machine

/-- R117: a CSI-2 port's settings are free once no open stream uses the port. -/
def freeCsi (s : State) : State :=
  { s with sens.csi := s.sens.csi.filter fun p =>
      s.sens.streams.any fun x => x.kind == 0 && x.port == p.port }

/-- R229: a stream goes with its ring. -/
def dropStream (slot : Nat) (s : State) : State :=
  freeCsi { s with sens.streams := s.sens.streams.filter fun x => !(x.slot == slot) }

/-- R182: a filter channel goes; the last one of a chip select frees its settings. -/
def dropChan (slot : Nat) (s : State) : State :=
  let chans := s.filt.chans.filter fun c => !(c.slot == slot)
  let used (ctrl cs : Nat) : Bool := chans.any fun c => c.ctrl == ctrl && c.cs == cs
  { s with filt := { s.filt with
    chans
    sels := s.filt.sels.filter fun x => used x.ctrl x.cs
    busy := s.filt.busy.filter fun (c, k, _) => used c k } }

/-- Tasks are withdrawn from every dispatcher and queue; one that a tile runs goes on to its end (R235, R236).
 DEDUCED [240]. -/
def withdrawTasks (p : Task → Bool) (s : State) : State :=
  let keep (t : Task) : Bool := !p t
  { s with tile := { s.tile with
    tiles := (s.tile.tiles.map fun t => { t with queue := t.queue.filter keep }).filter
      fun t => !t.queue.isEmpty || t.running.isSome
    pools := s.tile.pools.map fun (c, q) => (c, q.filter keep) } }

/-- R268: an instance goes with its stacked memory and the tasks not started. -/
def dropInst (slot : Nat) (s : State) : State :=
  let s := withdrawTasks (fun t => t.inst == slot) s
  { s with tile.insts := s.tile.insts.filter fun x => !(x.slot == slot) }

/-- R359, R362: a problem goes; a claim it held for a package's schedule is held by the package again. -/
def dropProblem (slot : Nat) (s : State) : State :=
  match s.probs.find? fun p => p.slot == slot with
  | none => s
  | some p =>
    let s := { s with probs := s.probs.filter fun p => !(p.slot == slot) }
    match p.pkg with
    | none => s
    | some (k, sec) =>
      let free (x : Pkg) : Pkg := { x with schedHeld := x.schedHeld.filter fun n => n != sec }
      { s with tile.pkgs := updIf (fun x => x.slot == k) free s.tile.pkgs }

/-- Takes away what an object holds, by its type (Table 3.3). -/
def dropRecord (ty slot : Nat) (s : State) : State :=
  match ty with
  | 1 => { s with
      obj.sessions := s.obj.sessions.filter fun x => !(x.slot == slot)
      sens.lows := s.sens.lows.filter fun x => !(x.sess == slot) }
  | 2 => dropStream slot s
  | 3 => dropChan slot s
  | 4 => { s with sheets := s.sheets.filter fun x => !(x.slot == slot) }
  | 5 => { s with tile.pkgs := s.tile.pkgs.filter fun x => !(x.slot == slot) }
  | 6 => dropInst slot s
  | 7 => dropProblem (2 ^ 32 + slot) { s with fus.grids := s.fus.grids.filter fun x => !(x.slot == slot) }
  | 8 => dropProblem slot s
  | 9 => { s with map.maps := s.map.maps.filter fun x => !(x.slot == slot) }
  | 10 => { s with map.idxs := s.map.idxs.filter fun x => !(x.slot == slot) }
  | 11 => { s with map.batches := s.map.batches.filter fun x => !(x.slot == slot) }
  | 12 => { s with ens.ens := none }
  | 13 => { s with mem.allocs := s.mem.allocs.filter fun x => !(x.slot == slot) }
  | 14 => { s with fus.cals := s.fus.cals.filter fun x => !(x.slot == slot) }
  | _ => s

/-- Releases an object: its record goes, its quota is given back, its slot's generation rises (R72). -/
def releaseObj (o : Obj) (s : State) : State :=
  let s := dropRecord o.ty o.slot s
  let s := refund o.fn 0 o.chOn (refund o.fn 1 o.chSt s)
  { s with obj := { s.obj with
    objs := s.obj.objs.filter fun x => !(isObj o.ty o.slot x)
    gens := assocSet s.obj.gens (o.ty, o.slot) (nextGen o.gen) } }

/-- Releases objects in the order given. -/
def releaseAll : List Obj → State → State
  | [], s => s
  | o :: os, s => releaseAll os (releaseObj o s)

/-- The objects that a release command has marked as closing (R78), youngest first (R79). -/
def closingBy (r : ReqRef) (s : State) : List Obj :=
  (s.obj.objs.filter fun o => o.st == .closing (some r)).reverse

/-- The offset in `PARAM` of a handle that a command names there beside `HANDLE`, by its opcode (the tables of its
group). -/
def paramHandle (opcode : Nat) : Option Nat :=
  [(0x0003, 0), (0x0100, 24), (0x0200, 24), (0x0402, 0), (0x0502, 0), (0x0600, 0), (0x0602, 0), (0x0603, 32), (0x0708, 0),
   (0x0709, 0), (0x0805, 16), (0x0A04, 0)].lookup opcode

/-- A request names an object: in `HANDLE`, or in `PARAM`. -/
def namesObj (x : Req) (o : Obj) : Bool :=
  mkHandle o == x.handle || (paramHandle x.opcode).any fun off => fld x.param off 8 == (mkHandle o).toNat

/-- Another admitted command that names one of a release's objects, or the batch of one of them (R78, R403). -/
def holdsRelease (q : Req) (os : List Obj) (x : Req) : Bool :=
  x.phase == .running && x.order != q.order && os.any fun o => namesObj x o

/-- A release is due when no other admitted command names one of its objects, and its query batches have ended
(R78, R403). -/
def releasable (q : Req) (os : List Obj) (s : State) : Bool :=
  !(s.link.reqs.any (holdsRelease q os)) && os.all fun o => o.ty != 11

/-- `RESULT0` of a release: the buffers still held, for a stream (Table 4.13); the outputs written,
for a filter channel (Table 5.4); the queued runs aborted, for an instance (Table 7.10); else 0. -/
def releaseResult (os : List Obj) (s : State) : Nat :=
  match os with
  | [o] =>
    if o.ty = 2 then (s.sens.streams.find? fun x => x.slot == o.slot).elim 0 fun x =>
      (x.ring.filter fun b => match b with
        | .held _ => true
        | _ => false).length
    else if o.ty = 3 then (s.filt.chans.find? fun x => x.slot == o.slot).elim 0 (·.written)
    else if o.ty = 6 then (s.tile.insts.find? fun x => x.slot == o.slot).elim 0 (·.aborted)
    else 0
  | _ => 0

/-- Completes one release that is due (R78, R79). -/
def finishRelease (q : Req) (s : State) : Option State :=
  let r := reqRef q
  let os := closingBy r s
  if q.phase ≠ .running || os.isEmpty || !releasable q os s then none else
  let sess := s.obj.sessions.find? fun x => x.close.any fun c => c.1 == r
  match sess with
  | some x =>
    let batches := x.close.elim 0 (·.2.2)
    let n := (os.filter fun o => o.ty ≠ 1).length + batches
    let orphans := x.close.elim 0 (·.2.1)
    some (post q stOk n (sat16 orphans) none (releaseAll os s))
  | none => some (post q stOk (releaseResult os s) 0 none (releaseAll os s))

/-- Event records that a wait delivers: as many as its buffer holds (R100). -/
def waitTake (q : Req) (x : Session) : List Event := x.events.take (fld q.param 8 4 / 32)

/-- Completes one event wait whose session has events (R100). -/
def finishWait (q : Req) (s : State) : Option State :=
  if q.phase ≠ .running || q.opcode ≠ 0x000E then none else
  match s.obj.sessions.find? fun x => handleOf 1 x.slot s == q.handle with
  | none => none
  | some x =>
    if x.events.isEmpty then none else
    let es := waitTake q x
    let taken (y : Session) : Session := { y with events := y.events.drop es.length, lost := 0 }
    let s' := { s with obj.sessions := updIf (fun y => y.slot == x.slot) taken s.obj.sessions }
    some (post q stOk es.length (sat16 x.lost) (some (es.flatMap eventBytes)) s')

/-- The first open request that a change of state lets complete. -/
def settleOne : List Req → State → Option State
  | [], _ => none
  | q :: qs, s =>
    match finishRelease q s with
    | some s' => some s'
    | none => match finishWait q s with
      | some s' => some s'
      | none => settleOne qs s

/-- Completes every release and event wait that is due, at most `fuel` of them. -/
def settleN : Nat → State → State
  | 0, s => s
  | n + 1, s => match settleOne s.link.reqs s with
    | none => s
    | some s' => settleN n s'

/-- A replaced calibration set is still bound by a stream or read by a grid (R297). -/
def calBound (n : Nat) (s : State) : Bool :=
  (s.sens.streams.any fun x => x.cal == some n)
    || s.fus.grids.any fun g => (g.sensors.any fun y => y.calSlot == some n) || g.epochs.any fun e => e.cals.contains (some n)

/-- R297: a replaced set is released when its last binding has moved. -/
def sweepCals (s : State) : State :=
  releaseAll (s.obj.objs.filter fun o => o.ty == 14 && o.st == .closing none && !calBound o.slot s) s

/-- Completes every release and event wait that is due (R78, R100, R297). Each completion takes one
open request away, so their number bounds the work. -/
def settle (s : State) : State :=
  let s := sweepCals s
  settleN s.link.reqs.length s

/-- The answer of a row that may raise events: every release and event wait that is due completes with it. -/
def ended (s : State) : Result := .next (settle s)

end Sys2Proof.Machine
end

