-- ==== Sys2Proof/Machine/Serve.lean ====
section
/-! DEFINITION. How one command is served: which request the row carries out (R55), validation in the
steps of Table 3.4 (R84), execution, completion. -/
namespace Sys2Proof.Machine

/-- What a command asks of the entry's `HANDLE` (its table's column). -/
inductive HandleReq where
  | zero
  | obj (types : List Nat)
  | any
  | admin
deriving DecidableEq, Repr

/-- Whether a command takes a payload. -/
inductive PayReq where
  | no
  | optional
  | required
deriving DecidableEq, Repr

/-- A command under validation: its request, what the host gives, the object its handle names, the
session it acts for, and its payload. -/
structure Ctx where
  q : Req
  io : Io
  fn : Nat
  sess : Option Nat
  obj : Option Obj
  plen : Nat
  pay : List Byte
deriving DecidableEq, Repr

/-- A command's envelope (its row in its group's table): the handle it names, the bytes of `PARAM`
it uses, its default deadline in µs, its largest result, its payload, further handles in `PARAM`
(step 4), its own authority check (step 5), field ranges (step 6) and the domains its work needs. -/
structure CmdInfo where
  opcode : Nat
  handle : HandleReq
  inline : Nat
  inlineOf : Req → Nat := fun _ => 0
  dl : Req → State → Nat
  pfOnly : Bool := false
  res : Req → State → Option Nat := fun _ _ => none
  pay : PayReq := .no
  hands : Ctx → State → Except Fail Unit := fun _ _ => .ok ()
  auth : Ctx → State → Bool := fun _ _ => true
  range : Ctx → State → Bool := fun _ _ => true
  doms : Ctx → State → List Nat := fun _ _ => []

/-- How a command ends its row: with a completion, or running on. -/
inductive Done where
  | reply (st r0 r1 : Nat) (data : Option (List Byte))
  | wait
deriving DecidableEq, Repr

/-- A parameter field of `PARAM` (R84). -/
def prm (c : Ctx) (off len : Nat) : Nat := fld c.q.param off len

/-- The object the handle names, as a slot; 0 when none. -/
def objSlot (c : Ctx) : Nat := c.obj.elim 0 (·.slot)

/-! ### Starting (R55) -/

/-- A request may start: no earlier open request of its SQ is fenced, and a fenced one waits for
every earlier one (R55). -/
def mayStart (q : Req) (s : State) : Bool :=
  q.phase == .fetched && !(s.link.reqs.any fun x =>
    x.src == q.src && decide (x.order < q.order) && q.src != .callboard && (q.fence || x.fence))

/-- The fetched request that a command row carries out. -/
def startable (opcode : Nat) (r : ReqRef) (s : State) : Option Req :=
  s.link.reqs.find? fun q => reqRef q == r && q.opcode == opcode && mayStart q s

/-! ### Validation (Table 3.4) -/

/-- The inline space of an entry (R47): 40 bytes, or 24 with `PREF` or `CBDATA`. -/
def inlineRoom (q : Req) : Nat := if q.pref || q.cbdata then 24 else 40

/-- Step 3, inline space (R47), judged at the fetch: only an entry without `PREF` ends on it. -/
def inlineCheck (need' : Nat) (q : Req) : Except Fail Unit :=
  need (q.pref || decide (need' ≤ inlineRoom q)) (fitFail 0x001 (need' - inlineRoom q))

/-- Two checks of one step: the numerically lowest code is reported (R19). -/
def both (a : Except Fail α) (b : Except Fail β) : Except Fail α :=
  match a, b with
  | .error x, .error y => .error (if y.st < x.st then y else x)
  | .error x, .ok _ => .error x
  | .ok _, .error y => .error y
  | .ok x, .ok _ => .ok x

/-- The bytes of `PARAM` that a command uses (R47). -/
def paramBytes (ci : CmdInfo) (q : Req) : Nat := max ci.inline (ci.inlineOf q)

/-- The result space a request gives (R86, R87). -/
def resRoom (q : Req) : Nat :=
  if q.src = .callboard ∧ resAddr q = 0 then 3072 else fld q.param 8 4

/-- The result buffer holds the largest result (R86). -/
def resCheck (largest : Nat) (q : Req) : Except Fail Unit :=
  need (decide (largest ≤ resRoom q)) (fitFail 0x00C (largest - resRoom q))

/-- Step 4: the handle, and the object and session it names (R65, R70, R73). DEDUCED [18]. -/
def handleCheck (h : HandleReq) (q : Req) (s : State) : Except Fail (Option Obj) :=
  if q.src = .callboard then
    if q.handle = 0 then .ok none else .error (err stRange)
  else
    let look (tys : List Nat) (cl : Bool) : Except Fail (Option Obj) :=
      (lookupHandle tys (srcFn q.src) cl q.handle.toNat s).map some
    match h with
    | .zero => if q.handle = 0 then .ok none else .error (err stRange)
    | .obj tys => look tys false
    | .any => look allTypes true
    | .admin => look [1] false

/-- The session a command acts for: the session its handle names, the owner of the object its
handle names, or, on the callboard, the administrator's (R65, R75). DEDUCED [19]. -/
def actingSession (q : Req) (o : Option Obj) (s : State) : Option Nat :=
  if q.src = .callboard then (adminSession s).map (·.slot)
  else o.bind fun o => if o.ty = 1 then some o.slot else o.sess

/-- Step 5: the administrator's handle (R93); the callboard has its authority (R65). DEDUCED [18]. -/
def adminCheck (h : HandleReq) (q : Req) (o : Option Obj) (s : State) : Except Fail Unit :=
  if h = .admin ∧ q.src ≠ .callboard then
    need (o.any fun o => (getSession o.slot s).any (·.admin)) (err stAuth)
  else .ok ()

/-- The entries of a descriptor list (Table 2.7): address and length. -/
def listEntries (n : Nat) (bs : List Byte) : List (Nat × Nat × Nat) :=
  (List.range n).map fun i => (fld bs (16 * i) 8, fld bs (16 * i + 8) 4, fld bs (16 * i + 12) 4)

/-- The payload's length in bytes: `PAYLOAD_LEN`, or the sum of the list's segments. -/
def payLen (q : Req) (io : Io) : Nat :=
  if q.plist then ((listEntries q.payLen io.list.bytes).map fun e => e.2.1).sum else q.payLen

/-- The status of a failed host read (R49). -/
def readFail (f : HostFail) : Nat := if f = .timeout then stTimeout else stMedia

/-- Step 7: the payload (R49, R61, R577). -/
def readPayload (q : Req) (io : Io) (s : State) : Except Fail (List Byte) :=
  if q.cbdata then .ok (memRead s.cb.data 0 q.payLen)
  else if !(getFn (srcFn q.src) s).busMaster then .error (err stState)
  else
    let entries := listEntries q.payLen io.list.bytes
    if q.plist ∧ io.list.fail.isSome then .error (err (readFail (io.list.fail.getD .error)))
    else if q.plist && entries.any fun e => e.2.1 == 0 || e.2.2 != 0 then .error (err stRange)
    else match io.payload.fail with
      | some f => .error (err (readFail f))
      | none => .ok (io.payload.bytes.take (payLen q io))

/-- The callboard commands whose `PARAM` begins with `RES_ADDR` (Table 2.13). -/
def hasResAddr (opcode : Nat) : Bool := [0x0000, 0x0D00, 0x0E00].contains opcode

/-- R577: a callboard request with `PREF`, or with a `RES_ADDR` that is not 0, needs a memory request. -/
def cbBus (q : Req) (s : State) : Except Fail Unit :=
  need (!(q.src == .callboard && (q.pref || (hasResAddr q.opcode && resAddr q != 0)) && !(getFn 0 s).busMaster)) (err stState)

/-- The commands that release the object their handle names. -/
def releaseOps : List Nat :=
  [0x0101, 0x0201, 0x0301, 0x0401, 0x0403, 0x0501, 0x0503, 0x0601, 0x0701, 0x0801, 0x0901]

/-- R76: only the owning session releases an object. DEDUCED [19]. -/
def ownerReleases (c : Ctx) : Bool :=
  !releaseOps.contains c.q.opcode || c.io.session.all fun n => c.obj.all fun o => o.sess == some n

/-- What an error of management SRAM met in serving leaves (Table 12.2): a bad page of code is restored from the reserve;
bad data is followed by a warm reset, and no more is fetched. DESIGN CHOICE [272]. -/
def sramMet (b : SramBad) (s : State) : State :=
  let s := addFault (mkFault 2 5 b.index b.addr b.syndrome (if b.code then 6 else 2) 0 1 0 s) s
  if b.code then s else { s with boot := { s.boot with dataBad := true }, link := { s.link with fetchStopped := true } }

/-- The command being served meets no error of management SRAM (Table 12.2). DESIGN CHOICE [272]. -/
def sramCheck (io : Io) : Except Fail Unit :=
  match io.sram with
  | none => .ok ()
  | some b => .error { err stMedia with fx := sramMet b }

/-- Validation steps 3 to 7 (R84): result buffer, handles, authority, ranges, payload. Steps 1 and 2 and the inline
space were judged at the fetch; steps 8 and 9 are the command's own. DEDUCED [18]. DEDUCED [20]. -/
def validate (ci : CmdInfo) (q : Req) (io : Io) (s : State) : Except Fail Ctx := do
  sramCheck io
  match ci.res q s with
  | some n => resCheck n q
  | none => pure ()
  let h := handleCheck ci.handle q s
  let o := h.toOption.getD none
  let fn := srcFn q.src
  let c : Ctx := { q, io, fn, sess := actingSession q o s, obj := o, plen := payLen q io, pay := [] }
  let _ ← both h (ci.hands c s)
  adminCheck ci.handle q o s
  need (!ci.pfOnly || fn == 0) (err stAuth)
  need (ci.auth c s && ownerReleases c) (err stAuth)
  need (ci.pay != .required || q.pref || q.cbdata) (err stRange)
  need (ci.range c s) (err stRange)
  cbBus q s
  if ci.pay = .no || !(q.pref || q.cbdata) then pure { c with plen := 0 }
  else do
    let bs ← readPayload q io s
    pure { c with pay := bs }

/-! ### Domains that the work needs (R470) -/

/-- A switched domain (Table 14.2). -/
def getDom (d : Nat) (s : State) : Dom := s.pwr.doms[d]?.getD Dom.reset

/-- Changes a domain. -/
def updDom (d : Nat) (f : Dom → Dom) (s : State) : State :=
  { s with pwr.doms := s.pwr.doms.modify d f }

/-- A domain that answers: on, and not in its return delay. -/
def domOn (d : Nat) (s : State) : Bool := (getDom d s).on && !(getDom d s).returning

/-- A domain that work may not have: kept parked by mode 3, or fenced whole (R470). -/
def domBarred (d : Nat) (s : State) : Bool :=
  !domOn d s && ((getDom d s).mode == 3 || (getDom d s).test == 2)

/-- Return delays in S0, in µs (Table 14.2). -/
def returnDelay (d : Nat) : Nat :=
  if d < 64 then 120 else if d < 80 then 20 else if d < 88 then 50 else if d < 90 then 90 else 50

/-- Stage Manager starts the return of parked domains that work needs, a stage memory before its
quadrants (R469, R470). -/
def startReturn (ds : List Nat) (s : State) : State :=
  let want := ds ++ (ds.filter fun d => decide (d < 64)).map fun d => 64 + d / 4
  let go (x : Dom) (d : Nat) : Dom := if x.returning then x else { x with returning := true, backAt := s.time.mono + returnDelay d * usT }
  want.foldl (fun s d => if domOn d s then s else updDom d (go · d) s) s

/-! ### Serving -/

/-- Marks a request as admitted and running (R84). -/
def markRunning (q : Req) (s : State) : State :=
  { s with link.reqs := updIf (fun x => x.order == q.order) (fun x => { x with phase := .running }) s.link.reqs }

/-- Ends or keeps a request as its command says. -/
def endServe (q : Req) (d : Done) (s : State) : State :=
  match d with
  | .reply st r0 r1 data => post q st r0 r1 data s
  | .wait => markRunning q s

/-- A command's own steps 8 and 9 and its execution. -/
abbrev Body := Ctx → State → Except Fail (State × Done)

/-- A refusal of step 8's state check with another code, or of a later check (R579): the checks of step 7, with the
payload's own, come before. `ST_E_STATE` is the lowest of the state codes. -/
def atOrAfterState (f : Fail) : Bool :=
  f.st == stLimit || f.st == stQuota || (f.st == stFit && f.r1 % 4096 != 0x00C) || (decide (stState ≤ f.st) && f.st != stStructure)

/-- A validated command against the domains it needs: it runs, it is refused, or its domains are
brought back first (R470). A domain that work may not have is a refusal of step 8's state check (R579). -/
def runBody (ci : CmdInfo) (body : Body) (q : Req) (c : Ctx) (s : State) : State :=
  let ds := (ci.doms c s).filter fun d => !domOn d s
  let barred := ds.any (domBarred · s)
  match body c s with
  | .error f => if barred && atOrAfterState f then post q stState 0 0 none s else post q f.st f.r0 f.r1 none (f.fx s)
  | .ok (s', d) =>
    if barred then post q stState 0 0 none s
    else if ds.isEmpty then endServe q d s'
    else startReturn ds s

/-- A command row: the request it names, when it is fetched and may start, is validated and carried
out; otherwise nothing happens. -/
def serve (ci : CmdInfo) (body : Body) (r : ReqRef) (io : Io) (s : State) : Result :=
  .next (match startable ci.opcode r s with
    | none => s
    | some q => settle (match validate ci q io s with
      | .error f => post q f.st f.r0 f.r1 none (f.fx s)
      | .ok c => runBody ci body q c s))

/-- A completion with `ST_OK` and two results. -/
def okR (r0 r1 : Nat) : Done := .reply stOk r0 r1 none

/-- A completion with `ST_OK` and a result buffer. -/
def okD (r0 r1 : Nat) (d : List Byte) : Done := .reply stOk r0 r1 (some d)

/-- The same default deadline for every use of a command, in µs. -/
def dlMs (ms : Nat) : Req → State → Nat := fun _ _ => ms * 1000

/-- A fixed largest result (R86). -/
def resMin (n : Nat) : Req → State → Option Nat := fun _ _ => some n

/-- A release command's steps 8 and 10 (R77, R78): refused while something depends on the object,
else the object is closing until the commands that name it have ended. -/
def releaseBody (c : Ctx) (s : State) : Except Fail (State × Done) := do
  let some o := c.obj | .error (err stRange)
  let n := (dependants o.ty o.slot s).length
  need (n == 0) { st := stState, r0 := n, r1 := 0 }
  .ok (updObj o.ty o.slot (fun x => { x with st := .closing (some (reqRef c.q)) }) s, .wait)

end Sys2Proof.Machine
end

