-- ==== Sys2Proof/Machine/TimeBase.lean ====
section
/-! DEFINITION. The time base, its servo and alarms (R139 to R147, R156, R157) and the commands of
group 0x0C (Table 4.15). -/
namespace Sys2Proof.Machine

/-- `ST_E_SERVO_OWNED` (Table 4.16). -/
def stServoOwned : Nat := 0x8C01

/-! ### Steps, slews and rates -/

/-- A step of the time base (R141, R142): the counters move at once, every reference with them, and
every stream's next descriptor says so. The step-free count does not move (R143).
 DEDUCED [45]. DESIGN CHOICE [214]. -/
def stepTime (delta : Int) (s : State) : State :=
  let shift (r : StreamRef) : StreamRef := { r with o := r.o + delta }
  let s := { s with time := { s.time with now := (s.time.now + delta).toNat, steps := s.time.steps + 1 } }
  let s := { s with sens := { s.sens with
    streams := s.sens.streams.map fun x => { x with ref := x.ref.map shift, stepped := true }
    lows := s.sens.lows.map fun x => { x with ref := x.ref.map shift } } }
  raise 0x0C04 (codeOf 48 (Int.tdiv delta 65536)) none s

/-- A slew request adds to the part not yet absorbed (R141); `ns` in nanoseconds. DEDUCED [24]. -/
def addSlew (ns : Int) (s : State) : State :=
  { s with time.slew := s.time.slew + ns * 65536 * 1000000 }

/-- The rate at which the time base runs, in 2^-16 ppm: the set rate ± 500 ppm while slewing (R141). -/
def presentRate (t : TimeBase) : Int :=
  t.rate + (if t.slew = 0 then 0 else if 0 < t.slew then 32768000 else -32768000)

/-- Elapsed holdover in mono units (R146). -/
def holdoverT (s : State) : Nat := s.time.holdAt.elim 0 fun h => s.time.mono - h

/-- Holdover begins (R145, R146): no master is selected. -/
def enterHoldover (s : State) : State :=
  raise 0x0C02 0 none
    { s with time := { s.time with servo := 3, holdAt := some s.time.mono, good := 0, slavePort := none } }

/-- Holdover ends: event 0x0C03 with its length in ms (R146). -/
def leaveHoldover (servo : Nat) (s : State) : State :=
  let ms := holdoverT s / msT
  raise 0x0C03 ms none { s with time := { s.time with servo, holdAt := none, good := 0 } }

/-- This member's number (R430): the `ENS_ID` strap. -/
def ownMember (s : State) : Nat := s.boot.straps.ensId

/-- Whether another member's time base is this one's reference (R443). -/
def followsMember (s : State) : Bool :=
  s.ens.ens.any fun e => (e.state == 1 || e.state == 2) && e.timeRef != ownMember s

/-- Whether the time base is owned, so that `TIME_SET` and `TIME_ADJUST` are refused (R147, R443). -/
def servoOwned (s : State) : Bool := s.time.ptp.role != 0 || followsMember s

/-! ### PTP messages (R144 to R146) -/

/-- Whether PTP runs on a port: a role is set and names it. -/
def ptpOn (port : Nat) (s : State) : Bool :=
  s.time.ptp.role != 0 && s.time.ptp.ports.testBit port

/-- The configuration takes a message: the port, transport, profile and domain are its own (R144). -/
def ptpTakes (port transport profile domain : Nat) (s : State) : Bool :=
  let p := s.time.ptp
  ptpOn port s && transport == p.transport && profile == p.profile && domain == p.domain

/-- The master is on this port (R144). -/
def ptpSlave (port : Nat) (s : State) : Bool := ptpOn port s && s.time.slavePort == some port

/-- The clock is master on this port (R144): never for a slave-only clock; for an ordinary clock while no
master is selected, for a boundary clock on each port but the one its master is on. DESIGN CHOICE [218]. -/
def ptpMaster (port : Nat) (s : State) : Bool :=
  ptpOn port s && match s.time.ptp.role with
    | 2 => s.time.slavePort.isNone
    | 3 => s.time.slavePort != some port
    | _ => false

/-- The timestamp that a one-step message takes as it passes the MII (Table 4.11). PRESUMED [220]. -/
def ptpStamp (port : Nat) (s : State) : List Byte := timeWord (stampNow (0x2000 + port) s)

/-- An Announce (R145, R146): the one that the selection takes ends a holdover, and a change of master is
event 0x0C06. DESIGN CHOICE [218]. -/
def ptpAnnounce (port : Nat) (master : W64) (best : Bool) (interval : Nat) (s : State) : State :=
  if !best && !(ptpSlave port s && s.time.master == master) then s else
  let s := { s with time := { s.time with annAt := s.time.mono, annIv := interval } }
  if !best then s else
  let s := { s with time := { s.time with slavePort := some port, syncAt := s.time.mono } }
  let s := if s.time.servo = 3 then leaveHoldover 1 s else s
  if s.time.master = master then s else
  raise 0x0C06 (master.toNat % 2 ^ 48) none { s with time := { s.time with master, good := 0 } }

/-- A Sync exchange with the master (R141, R144, R145): beyond `STEP_NS` a step, else a slew that adds to
what is not yet absorbed; 16 offsets within `LOCK_NS` lock. DEDUCED [24]. -/
def ptpSync (offset rate : Int) (interval : Nat) (s : State) : State :=
  let cfg := s.time.ptp
  let far := cfg.stepNs ≠ 0xFFFFFFFF ∧ cfg.stepNs < offset.natAbs
  let good := if offset.natAbs ≤ cfg.lockNs then s.time.good + 1 else 0
  let rate := max (-32768000) (min 32768000 rate)
  let s := { s with time := { s.time with offset, good, rate, syncAt := s.time.mono, syncIv := interval } }
  let s := if far then stepTime (-(offset * 65536)) s else addSlew (-offset) s
  if s.time.servo = 1 ∧ 16 ≤ good then
    raise 0x0C01 (codeOf 48 offset) none { s with time.servo := 2 }
  else s

/-- A PTP message that the configuration takes (R144 to R146); a delay request is answered. DESIGN CHOICE [201]. -/
def ptpMessage (port : Nat) (m : PtpMsg) (s : State) : State :=
  match m with
  | .announce master best interval => ptpAnnounce port master best interval s
  | .sync offset rate interval =>
    if ptpSlave port s && (s.time.servo == 1 || s.time.servo == 2) then ptpSync offset rate interval s else s
  | .delayReq =>
    if ptpMaster port s && s.time.ptp.delay == 0 then emit (.eth port "Delay_Resp" (ptpStamp port s)) s else s
  | .pdelayReq =>
    if s.time.ptp.delay == 1 then emit (.eth port "Pdelay_Resp" (ptpStamp port s)) s else s
  | .other => s

/-- The timeouts of R145 have passed: no Announce for `ANNOUNCE_TIMEOUT` announce intervals, or no Sync for 3
Sync intervals. PRESUMED [219]. -/
def masterSilent (s : State) : Bool :=
  let t := s.time
  due (t.annAt + t.ptp.annTimeout * t.annIv * 65536) s || due (t.syncAt + 3 * t.syncIv * 65536) s

/-- No Announce or no Sync for the timeouts of R145. DESIGN CHOICE [29]. -/
def execPtpMasterTimeout (s : State) : Result :=
  .next (if s.time.ptp.role ≠ 0 ∧ (s.time.servo = 1 ∨ s.time.servo = 2) ∧ masterSilent s then
    settle (enterHoldover s) else s)

/-- The remaining part of a slew, at most one nanosecond's quantum, is absorbed and the time base
returns to its set rate (R141): the part of a count it leaves, or takes, is the next nanosecond's. -/
def execSlewAbsorbed (s : State) : Result :=
  .next (if s.time.slew ≠ 0 ∧ s.time.slew.natAbs ≤ slewQuantum.natAbs then
    { s with time := { s.time with frac := s.time.frac + s.time.slew, slew := 0 } }
  else s)

/-! ### Commands -/

/-- The nanoseconds field of a time word in range. -/
def nsOk (n : Nat) : Bool := decide (n < 1000000000)

def iTimeRead : CmdInfo :=
  { opcode := 0x0C00, handle := .zero, inline := 13, dl := dlMs 100, res := resMin 32
    range := fun c _ => decide (prm c 12 1 < 2) }

/-- TIME_READ: the time word, and the host's PTM time when asked (Table 4.15). -/
def bodyTimeRead : Body := fun c s =>
  let ptm := prm c 12 1 = 1
  .ok (s, okD 0 0 (timeWord (stampNow (if ptm then 2 else 1) s)
    ++ leBytes 8 (if ptm then c.io.ptm else 0) ++ zeros 8))

def execTimeRead (r : ReqRef) (io : Io) (s : State) : Result := serve iTimeRead bodyTimeRead r io s

def iTimeSet : CmdInfo :=
  { opcode := 0x0C01, handle := .admin, inline := 14, dl := dlMs 100
    range := fun c _ => nsOk (prm c 8 4) }

/-- TIME_SET: a step to the given time (R141, R147). -/
def bodyTimeSet : Body := fun c s => do
  need (!servoOwned s) (err stServoOwned)
  let t := (prm c 0 8 * 1000000000 + prm c 8 4) * 65536 + prm c 12 2
  .ok (stepTime ((t : Int) - s.time.now) s, okR 0 0)

def execTimeSet (r : ReqRef) (io : Io) (s : State) : Result := serve iTimeSet bodyTimeSet r io s

/-- RATE and OFFSET_NS of TIME_ADJUST. -/
def adjRate (c : Ctx) : Int := signedOf 32 (prm c 4 4)
def adjOffset (c : Ctx) : Int := signedOf 64 (prm c 8 8)

def iTimeAdjust : CmdInfo :=
  { opcode := 0x0C02, handle := .admin, inline := 16, dl := dlMs 100
    range := fun c s => decide (prm c 0 1 ≤ 2) && decide ((adjRate c).natAbs ≤ 32768000)
      && decide ((adjOffset c).natAbs ≤ 1000000000)
      && (prm c 0 1 != 2 || decide (0 ≤ (s.time.now : Int) + adjOffset c * 65536)) }

/-- TIME_ADJUST: rate, slew or step (R141, R147). -/
def bodyTimeAdjust : Body := fun c s => do
  need (!servoOwned s) (err stServoOwned)
  let s := match prm c 0 1 with
    | 0 => { s with time.rate := adjRate c }
    | 1 => addSlew (adjOffset c) s
    | _ => stepTime (adjOffset c * 65536) s
  .ok (s, okR 0 0)

def execTimeAdjust (r : ReqRef) (io : Io) (s : State) : Result := serve iTimeAdjust bodyTimeAdjust r io s

/-- The settings of TIME_PTP_CONFIG with its zeros resolved (Table 4.15). -/
def ptpCfg (c : Ctx) : PtpCfg :=
  { role := prm c 0 1, profile := prm c 1 1, ports := prm c 2 1, transport := prm c 3 1
    domain := prm c 4 1, delay := prm c 5 1, prio1 := prm c 6 1, prio2 := prm c 7 1
    stepNs := if prm c 8 4 = 0 then 1000000 else prm c 8 4
    ips := [prm c 12 4, prm c 16 4, prm c 20 4, prm c 24 4]
    lockNs := if prm c 28 4 = 0 then 100 else prm c 28 4
    annTimeout := if prm c 32 1 = 0 then 3 else prm c 32 1 }

/-- Ranges of TIME_PTP_CONFIG (Table 4.15, R156). -/
def ptpRange (c : Ctx) : Bool :=
  let p := ptpCfg c
  decide (p.role ≤ 3) && decide (p.profile ≤ 1) && decide (p.ports ≤ 15) && decide (p.transport ≤ 2)
    && decide (p.domain ≤ 127) && decide (p.delay ≤ 1) && decide (p.lockNs ≤ 1000000)
    && decide (2 ≤ p.annTimeout) && decide (p.annTimeout ≤ 10) && prm c 33 7 == 0
    && !(p.profile == 1 && (p.transport != 0 || p.delay == 0))

def iTimePtpConfig : CmdInfo :=
  { opcode := 0x0C03, handle := .admin, inline := 40, dl := dlMs 1000
    range := fun c _ => ptpRange c
    doms := fun c _ => if prm c 0 1 = 0 ∨ prm c 2 1 = 0 then [] else [92] }

/-- The intervals in ns that a profile starts with, Announce and Sync, before a message names its own.
 PRESUMED [219]. -/
def ptpIntervals (profile : Nat) : Nat × Nat :=
  if profile = 1 then (1000000000, 125000000) else (2000000000, 1000000000)

/-- The settings of TIME_PTP_CONFIG come into force: the timeouts of R145 count anew, and no master is
selected yet. A holdover goes on until one is (R146). -/
def setPtp (p : PtpCfg) (s : State) : State :=
  let (ann, sync) := ptpIntervals p.profile
  { s with time := { s.time with
    ptp := p, good := 0, slavePort := none, annAt := s.time.mono, syncAt := s.time.mono, annIv := ann, syncIv := sync } }

/-- TIME_PTP_CONFIG (R144, R156, R443, R473). Role 0 stops the servo and leaves the rate as it is; it ends a
holdover (R146). DESIGN CHOICE [26]. -/
def bodyTimePtpConfig : Body := fun c s => do
  let p := ptpCfg c
  need (!(p.ports != 0 && (getDom 92 s).pads)) (err stState)
  need (!(p.role != 0 && followsMember s)) (err stServoOwned)
  let s := setPtp p s
  if p.role = 0 then
    .ok (if s.time.servo = 3 then leaveHoldover 0 s else { s with time.servo := 0 }, okR 0 0)
  else
    let s := if s.time.servo = 3 then s else { s with time.servo := 1 }
    let s := if p.transport = 2 then ((List.range 4).filter p.ports.testBit).foldl
      (fun s i => emit (.eth i "MLDv2" []) s) s else s
    .ok (s, okR 0 0)

def execTimePtpConfig (r : ReqRef) (io : Io) (s : State) : Result :=
  serve iTimePtpConfig bodyTimePtpConfig r io s

def iTimeAlarmSet : CmdInfo :=
  { opcode := 0x0C04, handle := .obj [1], inline := 20, dl := dlMs 100
    range := fun c s => decide (prm c 0 1 ≤ 7) && decide (prm c 1 1 < 4)
      && ((prm c 1 1).testBit 1 || (nsOk (prm c 16 4)
        && decide (s.time.now < (prm c 8 8 * 1000000000 + prm c 16 4) * 65536))) }

/-- TIME_ALARM_SET: sets, replaces or clears an alarm (R157). -/
def bodyTimeAlarmSet : Body := fun c s =>
  let n := prm c 0 1
  let rest := s.time.alarms.filter fun a => !(a.n == n)
  if (prm c 1 1).testBit 1 then .ok ({ s with time.alarms := rest }, okR 0 0) else
  let a : Alarm := { n, t := (prm c 8 8 * 1000000000 + prm c 16 4) * 65536
                     wake := (prm c 1 1).testBit 0, sess := objSlot c, gen := c.obj.elim 0 (·.gen) }
  .ok ({ s with time.alarms := a :: rest }, okR 0 0)

def execTimeAlarmSet (r : ReqRef) (io : Io) (s : State) : Result :=
  serve iTimeAlarmSet bodyTimeAlarmSet r io s

def iTimeStatus : CmdInfo :=
  { opcode := 0x0C05, handle := .zero, inline := 12, dl := dlMs 100, res := resMin 64 }

/-- The TIME_STATUS record (Table 4.15). -/
def timeStatusBytes (s : State) : List Byte :=
  leBytes 8 s.time.servo ++ leBytes 8 (codeOf 64 s.time.offset) ++ leBytes 4 (codeOf 32 (presentRate s.time))
    ++ leBytes 8 (holdoverT s / 65536) ++ leBytes 8 s.time.master.toNat ++ leBytes 4 s.time.steps ++ zeros 24

/-- TIME_STATUS (R146). -/
def bodyTimeStatus : Body := fun _ s => .ok (s, okD 0 0 (timeStatusBytes s))

def execTimeStatus (r : ReqRef) (io : Io) (s : State) : Result := serve iTimeStatus bodyTimeStatus r io s

/-- An alarm falls (R157): it is cleared, and event 0x0C05 goes to the session that set it while that
session is open, else as one without a source object. DESIGN CHOICE [215]. -/
def alarmFall (a : Alarm) (s : State) : State :=
  let s := { s with time.alarms := s.time.alarms.filter fun x => !(x.n == a.n) }
  let open' := (getObj 1 a.sess s).any fun o => o.gen == a.gen
  let dest := if open' then some a.sess else (adminSession s).map (·.slot)
  queueEvent dest { at' := stampNow (0x6000 + a.n) s, ev := 0x0C05, detail := a.n, handle := 0 } s

/-- The messages of a PTP transmit interval that a port sends (R124, R144): as master it announces and
syncs, as slave it asks for its delay, and with peer-to-peer delay every port asks its peer. -/
def ptpSends (port : Nat) (m : PtpOut) (s : State) : Bool :=
  match m with
  | .sync => ptpMaster port s
  | .announce => ptpMaster port s
  | .delayReq => ptpSlave port s && s.time.ptp.delay == 0
  | .pdelayReq => ptpOn port s && s.time.ptp.delay == 1

/-- A port that can send: its domain on, its pads free, its clock present (R472, R570). -/
def ethLive (port : Nat) (s : State) : Bool :=
  domOn 92 s && !(getDom 92 s).pads && !s.link.ethDown.contains port && decide (port < 4)
    && decide (s.pwr.state ≤ 1)

/-- PTP_TRANSMIT_INTERVAL (R124, R144): a departing Sync carries its transmit timestamp. DESIGN CHOICE [29]. -/
def execPtpTransmitInterval (port : Nat) (m : PtpOut) (s : State) : Result :=
  .next (if ethLive port s && ptpSends port m s then
    match m with
    | .sync => emit (.eth port "Sync" (ptpStamp port s)) s
    | .announce => emit (.eth port "Announce" []) s
    | .delayReq => emit (.eth port "Delay_Req" []) s
    | .pdelayReq => emit (.eth port "Pdelay_Req" []) s
  else s)

end Sys2Proof.Machine
end

