-- ==== Sys2Proof/Machine/Streams.lean ====
section
/-! DEFINITION. Streams and low-rate channels (R112 to R138, R148 to R155, R581, R583): the commands
of group 0x01 and the encoder inputs. -/
namespace Sys2Proof.Machine

/-- Group 0x01 status codes (Table 4.14). -/
def stPortMode : Nat := 0x8101
def stPixelRate : Nat := 0x8102

/-! ### Formats and rates -/

/-- Bits per pixel on the link (Table 4.3). -/
def linkBits (format : Nat) : Nat := natAt [0, 8, 10, 12, 14, 16, 16, 24, 16] format

/-- Stored bytes per pixel (Table 4.3). -/
def pixBytes (format : Nat) : Nat := natAt [0, 1, 2, 2, 2, 2, 2, 3, 2] format

/-- The CSI-2 data type of a format; DEPTH16 takes the one that `DT` selects (Table 4.3, R581). -/
def csiType (format dt : Nat) : Nat :=
  if format = 8 then (if dt = 0 then 0x2E else dt)
  else natAt [0, 0x2A, 0x2B, 0x2C, 0x2D, 0x2E, 0x1E, 0x24] format

/-- The DT field in range (R581). -/
def dtOk (kind format dt : Nat) : Bool :=
  if kind = 0 ∧ format = 8 then dt == 0 || dt == 0x2E || (decide (0x30 ≤ dt) && decide (dt ≤ 0x37))
  else dt == 0

/-- A stream's period as the rate sums see it: one set by STREAM_SET_WINDOW counts at once (R155). -/
def ratePeriod (x : Stream) : Nat := x.newPeriod.getD x.period

/-- A sum of fractions, as numerator and denominator. -/
def ratSum : List (Nat × Nat) → Nat × Nat
  | [] => (0, 1)
  | (a, b) :: xs => let (c, d) := ratSum xs; (a * d + c * b, b * d)

/-- How far a sum of rates exceeds a limit, in units of `unit`, rounded up; 0 when it does not. -/
def excess (rates : List (Nat × Nat)) (limNum limDen unit : Nat) : Nat :=
  let (a, b) := ratSum rates
  ceilDiv (a * limDen - limNum * b) (b * limDen * unit)

/-- Width, height, period and format of a stream for the sums of R115 and R118. -/
structure RateOf where
  kind : Nat
  port : Nat
  area : Nat
  format : Nat
  period : Nat
deriving DecidableEq, Repr

/-- A stream's share of the rate sums. -/
def rateOf (x : Stream) : RateOf :=
  { kind := x.kind, port := x.port, area := x.width * x.height, format := x.format, period := ratePeriod x }

/-- The raw rate of a CSI-2 port in bits/s, as a fraction (R118). -/
def rawRate (cphy : Bool) (rate : Nat) : Nat × Nat :=
  if cphy then (rate * 1000000 * 3 * 16, 7) else (rate * 1000000 * 4, 1)

/-- R115, then R118: the pixel-rate refusal of a set of streams, if any. DESIGN CHOICE [211]. -/
def rateCheck (rs : List RateOf) (port : Option (Nat × Bool × Nat)) : Except Fail Unit := do
  let px := excess (rs.map fun r => (r.area * 1000000000, r.period)) 12000000000 1 1000
  need (px == 0) { st := stPixelRate, r0 := px, r1 := 0 }
  match port with
  | none => .ok ()
  | some (p, cphy, rate) =>
    let (n, d) := rawRate cphy rate
    let mine := rs.filter fun r => r.kind == 0 && r.port == p
    let ex := excess (mine.map fun r => (r.area * linkBits r.format * 1000000000, r.period))
      (n * 9) (d * 10) 1000000
    need (ex == 0) { st := stPixelRate, r0 := ex, r1 := 1 }

/-- Bytes of one ring buffer (R136). -/
def ringBuf (w h format : Nat) : Nat := roundUp (64 + w * h * pixBytes format) 4096

/-- The power domain of a stream's port: 90 encoder, 92 Ethernet, 93 and 94 CSI-2 (Table 14.4). -/
def portDomain (kind port : Nat) : Nat :=
  if kind = 0 then (if port < 8 then 93 else 94) else if kind = 4 then 90 else 92

/-! ### Opening (R112 to R125, R136, R581) -/

/-- The settings that STREAM_OPEN carries (Table 4.13). -/
structure OpenArgs where
  kind : Nat
  port : Nat
  vc : Nat
  format : Nat
  width : Nat
  height : Nat
  period : Nat
  ring : Nat
  phy : Nat
  laneRate : Nat
  udp : Nat
  source : Nat
  tickHz : Nat
  cal : Nat
  dt : Nat
  rsv : Nat
deriving DecidableEq, Repr

def openArgs (c : Ctx) : OpenArgs :=
  { kind := prm c 0 1, port := prm c 1 1, vc := prm c 2 1, format := prm c 3 1, width := prm c 4 2
    height := prm c 6 2, period := prm c 8 4, ring := prm c 12 1, phy := prm c 13 1
    laneRate := prm c 14 2, udp := prm c 16 2, source := prm c 18 2
    tickHz := if prm c 20 4 = 0 then 1000000000 else prm c 20 4, cal := prm c 24 8, dt := prm c 32 1
    rsv := prm c 33 7 }

/-- A value lies in a range. -/
def inR (lo x hi : Nat) : Bool := decide (lo ≤ x) && decide (x ≤ hi)

/-- Field ranges of STREAM_OPEN (Tables 4.1, 4.3, 4.13; R121, R581). -/
def openRange (a : OpenArgs) : Bool :=
  let low := decide (3 ≤ a.kind)
  decide (a.kind ≤ 4) && a.rsv == 0 && dtOk a.kind a.format a.dt && decide (a.phy < 4)
    && (if a.kind = 0 ∨ a.kind = 4 then decide (a.port ≤ 15) else decide (a.port ≤ 3))
    && (match a.kind with
        | 0 => decide (a.vc ≤ if a.phy.testBit 0 then 31 else 15)
        | 3 => decide (a.vc ≤ 63)
        | _ => a.vc == 0)
    && (if low then a.format == 0 && a.width == 0 && a.height == 0 && a.ring == 0
        else inR 1 a.format 8 && inR 1 a.width 8192 && inR 1 a.height 8192 && inR 2 a.ring 64)
    && (match a.kind with
        | 3 => a.period == 0
        | 4 => inR 62500 a.period 1000000000
        | _ => inR 1000000 a.period 1000000000)
    && (a.kind != 0 || inR 80 a.laneRate (if a.phy.testBit 0 then 6000 else 4500))
    && ((a.kind != 2 && a.kind != 3) || decide (1 ≤ a.source))

/-- R125: the classification that an open names is already in use. -/
def classUsed (a : OpenArgs) (s : State) : Bool :=
  match a.kind with
  | 0 => s.sens.streams.any fun x => x.kind == 0 && x.port == a.port && x.vc == a.vc
  | 1 => (s.sens.streams.any fun x => (x.kind == 1 || x.kind == 2) && x.port == a.port && x.udp == a.udp)
      || s.sens.lows.any fun x => x.kind == 3 && x.port == a.port && x.udp == a.udp
  | 2 => (s.sens.streams.any fun x => x.port == a.port && x.udp == a.udp
        && (x.kind == 1 || (x.kind == 2 && x.source == a.source)))
      || s.sens.lows.any fun x => x.kind == 3 && x.port == a.port && x.udp == a.udp && x.source == a.source
  | 3 => (s.sens.streams.any fun x => x.port == a.port && x.udp == a.udp
        && (x.kind == 1 || (x.kind == 2 && x.source == a.source)))
      || s.sens.lows.any fun x => x.kind == 3 && x.port == a.port && x.udp == a.udp
          && x.source == a.source && x.index == a.vc
  | _ => s.sens.lows.any fun x => x.kind == 4 && x.port == a.port

/-- R117: the port's settings are fixed and differ. -/
def portDiffers (a : OpenArgs) (s : State) : Bool :=
  a.kind == 0 && (s.sens.csi.find? fun p => p.port == a.port).any fun p =>
    p.cphy != a.phy.testBit 0 || p.scramble != a.phy.testBit 1 || p.rate != a.laneRate

def iStreamOpen : CmdInfo :=
  { opcode := 0x0100, handle := .obj [1], inline := 40, dl := dlMs 100
    hands := fun c s => if (openArgs c).cal = 0 then .ok () else
      (lookupHandle [14] c.fn false (openArgs c).cal s).map fun _ => ()
    range := fun c _ => openRange (openArgs c)
    doms := fun c _ => [portDomain (openArgs c).kind (openArgs c).port] }

/-- A new stream, stopped. -/
def newStream (slot : Nat) (a : OpenArgs) : Stream :=
  { slot, kind := a.kind, port := a.port, vc := a.vc, format := a.format, width := a.width
    height := a.height, period := a.period, phy := a.phy, laneRate := a.laneRate, udp := a.udp
    source := a.source, tickHz := a.tickHz, cal := if a.cal = 0 then none else some (a.cal % 2 ^ 32)
    calNext := none, dt := a.dt, started := false, stopping := false, ref := none, rebase := false
    newPeriod := none, desync := false, good := 0, stepped := false, frameExt := 0
    ring := List.replicate a.ring .free, delivered := 0, dropped := 0, incomplete := 0, desynced := 0
    lastE := 0, unmatched := 0, relEnd := [] }

/-- A new low-rate channel, stopped. -/
def newLow (ch sess : Nat) (a : OpenArgs) : LowRate :=
  { ch, sess, kind := a.kind, port := a.port, udp := a.udp, source := a.source, index := a.vc
    period := a.period, started := false, ref := none, rebase := false, newPeriod := none
    desync := false, good := 0, window := 0, lastE := 0, ring := [], written := 0, overwritten := 0
    desynced := 0, gap := false, lastSeq := none, sampledAt := none }

/-- STREAM_OPEN of a low-rate channel (R113, R114): a channel number, no object. -/
def openLow (a : OpenArgs) (c : Ctx) (s : State) : Except Fail (State × Done) := do
  need (decide (s.sens.lows.length < 128)) (err stLimit)
  let used := s.sens.lows.map (·.ch)
  let (x, s) := draw s
  let ch := if used.contains (x % 128) then firstFree used else x % 128
  .ok ({ s with sens.lows := s.sens.lows ++ [newLow ch (c.sess.getD 0) a] }, okR ch 0)

/-- STREAM_OPEN of a stream (R112, R115, R117, R118, R136). -/
def openStream (a : OpenArgs) (c : Ctx) (s : State) : Except Fail (State × Done) := do
  limitCheck 2 s
  let me : RateOf := { kind := a.kind, port := a.port, area := a.width * a.height, format := a.format, period := a.period }
  rateCheck (s.sens.streams.map rateOf ++ [me])
    (if a.kind = 0 then some (a.port, a.phy.testBit 0, a.laneRate) else none)
  let n := a.ring * ringBuf a.width a.height a.format
  fitsQuota c.fn 1 n s
  fits 0x009 (n - stackedFree s)
  let deps := if a.cal = 0 then [] else [(14, a.cal % 2 ^ 32)]
  let (slot, g, s) := newObj 2 (2 ^ 32) c.fn c.sess deps false 0 n s
  let s := charge c.fn 1 n s
  let csi : CsiPort := { port := a.port, cphy := a.phy.testBit 0, scramble := a.phy.testBit 1, rate := a.laneRate }
  let known := s.sens.csi.any fun p => p.port == a.port
  let s := { s with sens := { s.sens with
    streams := s.sens.streams ++ [newStream slot a]
    csi := if a.kind = 0 ∧ !known then s.sens.csi ++ [csi] else s.sens.csi } }
  .ok (s, okR slot g)

/-- STREAM_OPEN (Table 4.13). -/
def bodyStreamOpen : Body := fun c s => do
  let a := openArgs c
  if a.kind < 3 then quotaPair c.fn 1 1 s
  need (!classUsed a s) (err stState)
  need (!portDiffers a s) (err stPortMode)
  if a.kind < 3 then openStream a c s else openLow a c s

def execStreamOpen (r : ReqRef) (io : Io) (s : State) : Result := serve iStreamOpen bodyStreamOpen r io s

/-! ### Commands on streams and low-rate channels (R152 to R155, R583) -/

/-- A stream. -/
def getStream (slot : Nat) (s : State) : Option Stream := s.sens.streams.find? fun x => x.slot == slot

/-- Changes a stream. -/
def updStream (slot : Nat) (f : Stream → Stream) (s : State) : State :=
  { s with sens.streams := updIf (fun x => x.slot == slot) f s.sens.streams }

/-- R297: at a unit, a stream takes the calibration set that replaces its own. -/
def takeCal (slot : Nat) (s : State) : State :=
  match (getStream slot s).bind (·.calNext) with
  | none => s
  | some n =>
    let s := updStream slot (fun x => { x with cal := some n, calNext := none }) s
    updObj 2 slot (fun o => { o with deps := (14, n) :: o.deps.filter fun d => d.1 != 14 }) s

/-- Changes a low-rate channel. -/
def updLow (ch : Nat) (f : LowRate → LowRate) (s : State) : State :=
  { s with sens.lows := updIf (fun x => x.ch == ch) f s.sens.lows }

/-- What a group 0x01 command acts on (R152): a stream by its handle, or a low-rate channel of the
session its handle names. -/
inductive Target where
  | stream (x : Stream)
  | low (x : LowRate)
deriving DecidableEq, Repr

/-- The target of a command; a channel that the session does not hold ends it with `ST_E_STATE`. DEDUCED [22]. -/
def target (c : Ctx) (s : State) : Except Fail Target :=
  match c.obj with
  | none => .error (err stRange)
  | some o =>
    if o.ty = 2 then match getStream o.slot s with
      | some x => .ok (.stream x)
      | none => .error (err stState)
    else match s.sens.lows.find? fun x => x.ch == prm c 36 4 && x.sess == o.slot with
      | some x => .ok (.low x)
      | none => .error (err stState)

/-- Group 0x01 commands other than STREAM_OPEN take a stream, or a session for a low-rate channel. -/
def streamCmd (opcode ms inline : Nat) : CmdInfo :=
  { opcode, handle := .obj [2, 1], inline, dl := dlMs ms }

/-- The domain of the target's port. DEDUCED [22]. -/
def targetDoms (c : Ctx) (s : State) : List Nat :=
  match target c s with
  | .ok (.stream x) => [portDomain x.kind x.port]
  | .ok (.low x) => [portDomain x.kind x.port]
  | .error _ => []

/-- A started sheet that binds a stream keeps it from closing (R229). -/
def iStreamClose : CmdInfo := streamCmd 0x0101 1000 0

/-- STREAM_CLOSE: a release of a stream (R77, R78); a low-rate channel is freed at once. -/
def bodyStreamClose : Body := fun c s => do
  match ← target c s with
  | .stream _ => releaseBody c s
  | .low x => .ok ({ s with sens.lows := s.sens.lows.filter fun y => !(y.ch == x.ch) }, okR 0 0)

def execStreamClose (r : ReqRef) (io : Io) (s : State) : Result := serve iStreamClose bodyStreamClose r io s

def iStreamStart : CmdInfo := { streamCmd 0x0102 100 0 with doms := targetDoms }

/-- STREAM_START (R148, R153, R473): the next unit sets the reference, and the stream starts
synchronised (R154). -/
def bodyStreamStart : Body := fun c s => do
  match ← target c s with
  | .stream x =>
    need (!x.started && !(getDom (portDomain x.kind x.port) s).pads) (err stState)
    .ok (updStream x.slot (fun x => { x with
      started := true, stopping := false, ref := none, rebase := false, desync := false, good := 0 }) s, okR 0 0)
  | .low x =>
    need (!x.started && !(getDom (portDomain x.kind x.port) s).pads) (err stState)
    .ok (updLow x.ch (fun x => { x with
      started := true, ref := none, rebase := false, desync := false, good := 0, lastSeq := none }) s, okR 0 0)

def execStreamStart (r : ReqRef) (io : Io) (s : State) : Result := serve iStreamStart bodyStreamStart r io s

/-- Whether a ring holds a frame in progress. -/
def claimedBuf (x : Stream) : Option (Nat × Frame) :=
  (x.ring.zipIdx.findSome? fun (b, i) => match b with
    | .claimed f => some (i, f)
    | _ => none)

/-- Stops a stream: the frame in progress completes, the reference is cleared (R154). -/
def stopStream (slot : Nat) (s : State) : State :=
  updStream slot (fun x => { x with
    started := false, stopping := (claimedBuf x).isSome, ref := none, rebase := false }) s

def iStreamStop : CmdInfo := streamCmd 0x0103 100 0

/-- STREAM_STOP (R153, R154). DESIGN CHOICE [217]. -/
def bodyStreamStop : Body := fun c s => do
  match ← target c s with
  | .stream x =>
    need x.started (err stState)
    .ok (stopStream x.slot s, okR x.frameExt 0)
  | .low x =>
    need x.started (err stState)
    .ok (updLow x.ch (fun x => { x with started := false, ref := none, rebase := false }) s, okR 0 0)

def execStreamStop (r : ReqRef) (io : Io) (s : State) : Result := serve iStreamStop bodyStreamStop r io s

/-- Whether a buffer is held. -/
def Buf.isHeld : Buf → Bool
  | .held _ => true
  | _ => false

/-- A count as a saturating 64-bit field (R583). -/
def sat64 (n : Nat) : List Byte := leBytes 8 (min n (2 ^ 64 - 1))

/-- The STREAM_QUERY record (Table 4.18). -/
def queryRecord : Target → List Byte
  | .stream x =>
    leBytes 2 (if x.desync then stDesync else stOk) ++ leBytes 1 x.kind
      ++ leBytes 1 (if x.started then 1 else 0) ++ zeros 4 ++ sat64 x.delivered ++ sat64 x.dropped
      ++ sat64 x.incomplete ++ sat64 x.desynced ++ leBytes 8 (codeOf 64 x.lastE)
      ++ leBytes 4 (x.ring.filter Buf.isHeld).length ++ leBytes 4 x.ring.length ++ zeros 8
  | .low x =>
    leBytes 2 (if x.desync then stDesync else stOk) ++ leBytes 1 x.kind
      ++ leBytes 1 (if x.started then 1 else 0) ++ zeros 4 ++ sat64 x.written ++ sat64 x.overwritten
      ++ sat64 0 ++ sat64 x.desynced ++ leBytes 8 (codeOf 64 x.lastE)
      ++ leBytes 4 (min x.written 4096) ++ leBytes 4 4096 ++ zeros 8

def iStreamQuery : CmdInfo := { streamCmd 0x0104 100 12 with res := resMin 64 }

/-- STREAM_QUERY (R583). -/
def bodyStreamQuery : Body := fun c s => do
  let t ← target c s
  .ok (s, okD 0 0 (queryRecord t))

def execStreamQuery (r : ReqRef) (io : Io) (s : State) : Result := serve iStreamQuery bodyStreamQuery r io s

/-- The period field in range for what the command acts on (R155). -/
def windowRange (c : Ctx) (s : State) : Bool :=
  decide (prm c 4 1 < 2) && match target c s with
  | .ok (.stream _) => inR 1000000 (prm c 0 4) 1000000000
  | .ok (.low x) => if x.kind = 3 then prm c 0 4 == 0 else inR 62500 (prm c 0 4) 1000000000
  | .error _ => true

def iStreamSetWindow : CmdInfo := { streamCmd 0x0105 100 5 with range := windowRange }

/-- STREAM_SET_WINDOW (R155): the rate sums are judged with the new period; it acts at the next unit. -/
def bodyStreamSetWindow : Body := fun c s => do
  let p := prm c 0 4
  let re := prm c 4 1 = 1
  match ← target c s with
  | .stream x =>
    let others := (s.sens.streams.filter fun y => !(y.slot == x.slot)).map rateOf
    rateCheck (others ++ [{ rateOf x with period := p }])
      (if x.kind = 0 then some (x.port, x.phy.testBit 0, x.laneRate) else none)
    let again := re || (x.kind == 0 && p != ratePeriod x)
    .ok (updStream x.slot (fun x => { x with newPeriod := some p, rebase := x.rebase || again }) s, okR 0 0)
  | .low x =>
    .ok (updLow x.ch (fun x => { x with
      newPeriod := if x.kind = 3 then none else some p, rebase := x.rebase || re }) s, okR 0 0)

def execStreamSetWindow (r : ReqRef) (io : Io) (s : State) : Result :=
  serve iStreamSetWindow bodyStreamSetWindow r io s

/-- Frees a held buffer of a ring. -/
def freeBuf (slot buf : Nat) (s : State) : State :=
  updStream slot (fun x => { x with ring := x.ring.modify buf fun b => if b.isHeld then .free else b }) s

def iStreamFrameRelease : CmdInfo :=
  { opcode := 0x0106, handle := .obj [2], inline := 1, dl := dlMs 100
    range := fun c s => (getStream (objSlot c) s).any fun x => decide (prm c 0 1 < x.ring.length) }

/-- STREAM_FRAME_RELEASE (R137, R153); a stream bound to a started sheet is the cue engine's (R218). -/
def bodyStreamFrameRelease : Body := fun c s => do
  need (!(s.sheets.any fun sh => sh.started && sh.streams.contains (objSlot c))) (err stState)
  let held := (getStream (objSlot c) s).any fun x => (x.ring[prm c 0 1]?).any Buf.isHeld
  need held (err stState)
  .ok (freeBuf (objSlot c) (prm c 0 1) s, okR 0 0)

def execStreamFrameRelease (r : ReqRef) (io : Io) (s : State) : Result :=
  serve iStreamFrameRelease bodyStreamFrameRelease r io s

/-! ### Alignment (R148 to R150) -/

/-- Drop and error counters of the ports: each (reason, port) counts apart. -/
def countPort (reason port : Nat) (s : State) : State :=
  { s with sens.counts := bump s.sens.counts (reason, port) }

/-- The judgement of one unit: new `desync` and `good`, and the event that follows, if any. DEDUCED [46]. -/
def judge (desync : Bool) (good : Nat) (e window : Nat) : Bool × Nat × Option Nat :=
  if !desync then (if window < e then (true, 0, some 0x0101) else (false, good, none))
  else
    let g := if 2 * e ≤ window then good + 1 else 0
    if g = 30 then (false, g, some 0x0102) else (true, g, none)

/-- e in µs, signed, saturating at 48 bits (Table 4.17). -/
def eDetail (e : Int) : Nat := codeOf 48 (satSigned 48 (Int.tdiv e 65536000))

/-- e in whole nanoseconds (Table 4.7). DESIGN CHOICE [216]. -/
def eNs (e : Int) : Int := Int.tdiv e 65536

/-! ### Low-rate samples (R130, R135, R138) -/

/-- The 32 bytes of a sample record (Table 4.8). -/
def lowBytes (r : LrRec) : List Byte :=
  timeWord r.stamp ++ leBytes 4 (codeOf 32 r.value) ++ leBytes 2 (if r.desync then stDesync else stOk)
    ++ leBytes 2 r.flags ++ leBytes 4 (codeOf 32 r.latched) ++ zeros 4

/-- Adds a record to a channel's ring of 4,096. DEDUCED [27]. -/
def pushLow (rec : LrRec) (x : LowRate) : LowRate :=
  { x with
    ring := lowBytes rec :: x.ring.take 4095
    written := x.written + 1
    overwritten := x.overwritten + (if 4096 ≤ x.ring.length then 1 else 0)
    desynced := x.desynced + (if rec.desync then 1 else 0) }

/-- One SSF low-rate block on one channel (R130, R148 to R150): the block is the unit; its samples
carry sensor times mapped by the reference. DEDUCED [27]. -/
def lowBlock (x : LowRate) (port sensor periodNs samples seqNo : Nat) (vals : List Int) (s : State) : State :=
  let d : Int := s.time.now
  let sT : Int := sensor
  let newRef := x.ref.isNone || x.rebase
  let r : StreamRef := if newRef then { o := d - sT, s0 := sT, k0 := seqNo } else x.ref.getD { o := 0, s0 := 0, k0 := 0 }
  let e := d - sT - r.o
  let window := samples * periodNs
  let (ds, good, ev) := judge x.desync (if newRef then 0 else x.good) e.natAbs (window * 65536)
  let gap := x.gap || x.lastSeq.any fun q => (q + 1) % 2 ^ 32 != seqNo
  let x' : LowRate := { x with
    ref := some r, rebase := false, desync := ds, good, window, lastE := eNs e, gap := false, lastSeq := some seqNo }
  let recs := vals.zipIdx.map fun (v, i) =>
    ({ stamp := { t := timeAt (sT + r.o + ((i * periodNs * 65536 : Nat) : Int)), tag := 0x2000 + port }
       value := v, desync := ds, flags := if gap ∧ i = 0 then 4 else 0, latched := 0 } : LrRec)
  let s := updLow x.ch (fun _ => recs.foldl (fun y r => pushLow r y) x') s
  match ev with
  | some 0x0101 => raiseTo x.sess 0x0101 (eDetail e) 0 s
  | some v => raiseTo x.sess v seqNo 0 s
  | none => s

/-! ### Encoder inputs (R135) -/

/-- The encoder inputs run while the filter chain's domain is on and its pads are free (R472). -/
def encLive (s : State) : Bool := domOn 90 s && !(getDom 90 s).pads

/-- Changes an encoder input. -/
def updEnc (n : Nat) (f : Enc → Enc) (s : State) : State :=
  { s with sens.encs := updIf (fun e => e.n == n) f s.sens.encs }

/-- The quarter of a quadrature cycle that levels of A and B mark, in the order of A leading B. -/
def quarter (a b : Bool) : Nat := if a then (if b then 2 else 1) else (if b then 3 else 0)

/-- The count wraps at signed 32 bits. -/
def wrap32 (i : Int) : Int := signedOf 32 (codeOf 32 i)

/-- A change of A and B as one filter sample sees it (R135): one step of the cycle counts by one, a
transition of both is illegal. DESIGN CHOICE [14]. -/
def encMove (a b : Bool) (e : Enc) : Enc :=
  let d := (quarter a b + 4 - quarter e.a e.b) % 4
  let up : Int := if Config.encAleadsUp then 1 else -1
  match d with
  | 0 => e
  | 1 => { e with a, b, count := wrap32 (e.count + up) }
  | 3 => { e with a, b, count := wrap32 (e.count - up) }
  | _ => { e with a, b, illegal := e.illegal + 1, illegalSeen := true }

/-- ENC_EDGE (R135). -/
def execEncEdge (n : Nat) (a b : Bool) (s : State) (ns : Nat := 20) : Result :=
  pinPulse 10 20 ns (fun s =>
  .next (if encLive s then updEnc n (encMove a b) s else s)) s

/-- ENC_INDEX: the rising edge of the index latches the count (R135). -/
def execEncIndex (n : Nat) (s : State) (ns : Nat := 20) : Result :=
  pinPulse 10 20 ns (fun s =>
  .next (if encLive s then updEnc n (fun e => { e with latched := e.count, indexSeen := true }) s else s)) s

/-- One sample of an encoder input into its low-rate channel (R135, R138, R151). -/
def encSample (x : LowRate) (e : Enc) (s : State) : State :=
  let rec' : LrRec :=
    { stamp := stampNow (0x4000 + e.n) s, value := e.count, desync := false
      flags := (if e.indexSeen then 1 else 0) + (if e.illegalSeen then 2 else 0) + (if x.gap then 4 else 0)
      latched := e.latched }
  let s := updLow x.ch (fun x => pushLow rec' { x with
    period := x.newPeriod.getD x.period, newPeriod := none, rebase := false, gap := false
    sampledAt := some s.time.mono }) s
  updEnc e.n (fun e => { e with indexSeen := false, illegalSeen := false }) s

/-- `PERIOD_NS` has passed since the last sample of an encoder input's channel (R135). -/
def sampleDue (x : LowRate) (s : State) : Bool := x.sampledAt.elim true fun t => due (t + x.period * 65536) s

/-- ENC_SAMPLE: the sampling strobe of an encoder input, every `PERIOD_NS` (R135). -/
def execEncSample (n : Nat) (s : State) : Result :=
  .next (match s.sens.lows.find? fun x => x.kind == 4 && x.port == n && x.started,
      s.sens.encs.find? fun e => e.n == n with
    | some x, some e => if encLive s && sampleDue x s then encSample x e s else s
    | _, _ => s)

end Sys2Proof.Machine
end

