-- ==== Sys2Proof/Machine/Vision.lean ====
section
/-! DEFINITION. What the vision units make of their inputs (R189 to R209): warp, pyramid, feature, stereo,
flow and ICP nodes, from the images they read to the planes and records they write. Integer rules are
exact; the flow and ICP units compute in FP32, in a free order of their sums (R287). -/
namespace Sys2Proof.Machine

/-- An image of codes, row by row. -/
structure Img where
  w : Nat
  h : Nat
  px : List Nat
deriving DecidableEq, Repr

/-- The code at column `u`, row `v`. -/
def Img.at' (i : Img) (u v : Nat) : Nat := natAt i.px (v * i.w + u)

/-- The code at any column and row. A sample outside the image, where no rule says what the unit takes, is
free. DESIGN CHOICE [225]. -/
def Img.get (i : Img) (u v : Int) : Nat :=
  if 0 ≤ u ∧ u < i.w ∧ 0 ≤ v ∧ v < i.h then i.at' u.toNat v.toNat else Config.outside u v % 65536

/-- The saturation marker (R190). -/
def satMark : Nat := 0xFFFF

/-- Makes an image from a rule for each pixel. -/
def mkImg (w h : Nat) (f : Nat → Nat → Nat) : Img :=
  { w, h, px := (List.range h).flatMap fun v => (List.range w).map fun u => f u v }

/-! ### Source pixels (R190, R195) -/

/-- The U16 code of a pixel of `b` bits (R190). -/
def u16Of (b v : Nat) : Nat := if v = 2 ^ b - 1 then satMark else min (v * 2 ^ (16 - b)) 0xFFFE

/-- The luma of RGB888 (R195); a pixel with a component of 255 is saturated. -/
def lumaOf (code : Nat) : Nat :=
  let r := code % 256
  let g := code / 256 % 256
  let b := code / 65536 % 256
  if r = 255 ∨ g = 255 ∨ b = 255 then satMark
  else min ((77 * r + 150 * g + 29 * b + 128) / 256 * 256) 0xFFFE

/-- The code a vision unit takes from a stored pixel of a stream format (R190, R195). -/
def streamCode (format v : Nat) : Nat :=
  match format with
  | 1 => u16Of 8 v
  | 2 => u16Of 10 v
  | 3 => u16Of 12 v
  | 4 => u16Of 14 v
  | 5 => u16Of 16 v
  | 6 => u16Of 8 (v / 256 % 256)
  | 7 => lumaOf v
  | _ => v

/-- The plane that a stream frame presents. -/
def frameImg (format w h : Nat) (rows : List (List Nat)) : Img :=
  mkImg w h fun u v => streamCode format (((rows[v]?).bind (·[u]?)).getD 0)

/-! ### Warp (R193 to R195) -/

/-- The mean of contributing codes over a weight sum, rounded to nearest with ties to even (R193,
R194, R197); the marker contributes the marker (R190). DEDUCED [37]. -/
def weighted (cs : List (Nat × Nat)) (den : Nat) : Nat :=
  if cs.any fun (w, c) => w != 0 && c == satMark then satMark
  else min (roundDiv .nearest false ((cs.map fun (w, c) => w * c).sum) den) 0xFFFE

/-- The binned image of R194. -/
def binned (i : Img) : Img :=
  mkImg (i.w / 2) (i.h / 2) fun u v =>
    weighted [(1, i.at' (2 * u) (2 * v)), (1, i.at' (2 * u + 1) (2 * v)),
      (1, i.at' (2 * u) (2 * v + 1)), (1, i.at' (2 * u + 1) (2 * v + 1))] 4

/-- The parameters of a warp node (Table 6.13). -/
structure WarpP where
  w : Nat
  h : Nat
  bin : Nat
  grid : Nat
  fill : Nat
  mapOff : Nat
deriving DecidableEq, Repr

/-- The parameters of a block. -/
def warpP (b : List Byte) : WarpP :=
  { w := fld b 0 2, h := fld b 2 2, bin := fld b 4 1, grid := fld b 5 1, fill := fld b 6 2
    mapOff := fld b 8 4 }

/-- Map nodes in a row of the map (R193). -/
def WarpP.cols (p : WarpP) : Nat := ceilDiv p.w p.grid + 1

/-- Map entries (R193). -/
def WarpP.entries (p : WarpP) : Nat := p.cols * (ceilDiv p.h p.grid + 1)

/-- One coordinate of a map node: x (0) or y (1), in 2^-16 pixel. DEDUCED [38]. -/
def mapCoord (p : WarpP) (params : List Byte) (axis i j : Nat) : Int :=
  signedOf 32 (fld params (p.mapOff + 8 * (j * p.cols + i) + 4 * axis) 4)

/-- Rounds an integer quotient to nearest, ties to even. DEDUCED [38]. -/
def roundInt (a : Int) (b : Nat) : Int :=
  let neg := decide (a < 0)
  let q : Int := roundDiv .nearest neg a.natAbs b
  if neg then -q else q

/-- The coordinate of an output pixel on one axis (R193). -/
def warpCoord (p : WarpP) (params : List Byte) (axis u v : Nat) : Int :=
  let g := p.grid
  let i := u / g
  let j := v / g
  let a : Int := (u % g : Nat)
  let b : Int := (v % g : Nat)
  let gi : Int := g
  let m := mapCoord p params axis
  roundInt ((m i j * (gi - a) + m (i + 1) j * a) * (gi - b)
    + (m i (j + 1) * (gi - a) + m (i + 1) (j + 1) * a) * b) (g * g)

/-- The four nearest samples with their weights in 1/256 per axis (R193). -/
def nearest4 (src : Img) (x y : Nat) : List (Nat × Nat) :=
  let u := x / 65536
  let v := y / 65536
  let a := roundDiv .nearest false (x % 65536) 256
  let b := roundDiv .nearest false (y % 65536) 256
  [((256 - a) * (256 - b), src.at' u v), (a * (256 - b), src.at' (u + 1) v),
    ((256 - a) * b, src.at' u (v + 1)), (a * b, src.at' (u + 1) (v + 1))]

/-- The neighbour with the largest weight, the lower-indexed one on a tie (R195). -/
def heaviest : List (Nat × Nat) → Nat
  | [] => 0
  | c :: cs => (cs.foldl (fun best d => if best.1 < d.1 then d else best) c).2

/-- One output pixel of a warp node (R193, R195). DEDUCED [37]. -/
def warpPixel (p : WarpP) (params : List Byte) (src : Img) (depth : Bool) (u v : Nat) : Nat :=
  let x := warpCoord p params 0 u v
  let y := warpCoord p params 1 u v
  let outside (c : Int) (n : Nat) : Bool := decide (c < 0) || decide (((n : Int) - 1) * 65536 < c)
  if outside x src.w || outside y src.h then p.fill
  else if depth then heaviest (nearest4 src x.toNat y.toNat)
  else weighted (nearest4 src x.toNat y.toNat) 65536

/-- The output plane of a warp node. -/
def warpImg (p : WarpP) (params : List Byte) (src : Img) (depth : Bool) : Img :=
  let s := if p.bin = 2 then binned src else src
  mkImg p.w p.h (warpPixel p params s depth)

/-- First and last source row that the map cells of a band of 16 output rows touch (R196, R224). -/
def bandRows (p : WarpP) (params : List Byte) (srcH band : Nat) : Nat × Nat :=
  let j0 := 16 * band / p.grid
  let j1 := (min (16 * band + 15) (p.h - 1)) / p.grid + 1
  let clip (y : Int) : Nat := min (max y 0).toNat ((srcH - 1) * 65536) / 65536
  let ys := (List.range (j1 - j0 + 1)).flatMap fun dj =>
    (List.range p.cols).map fun i => clip (mapCoord p params 1 i (j0 + dj))
  (ys.foldl min (srcH - 1), ys.foldl max 0)

/-- Bands of a node with `h` output rows (R185). DEDUCED [39]. -/
def bandsOf (h : Nat) : Nat := ceilDiv h 16

/-- `SPAN`: the most source rows any band's map cells touch, plus 1 (Table 6.15). DEDUCED [39]. -/
def warpSpan (p : WarpP) (params : List Byte) (srcH : Nat) : Nat :=
  ((List.range (bandsOf p.h)).map fun b =>
    let (lo, hi) := bandRows p params srcH b
    hi - lo + 1).foldl max 0 + 1

/-- The largest unbinned source row that a band's cells touch (R196). DEDUCED [39]. -/
def bandNeeds (p : WarpP) (params : List Byte) (srcH band : Nat) : Nat :=
  let h := if p.bin = 2 then srcH / 2 else srcH
  let hi := (bandRows p params h band).2
  if p.bin = 2 then 2 * hi + 1 else hi

/-! ### Pyramid (R197) -/

/-- Size of a pyramid level (R197). -/
def levelSize (n : Nat) : Nat → Nat
  | 0 => n
  | k + 1 => ceilDiv (levelSize n k) 2

/-- The level above an image. -/
def nextLevel (i : Img) : Img :=
  let ks := [(1, 0), (4, 1), (6, 2), (4, 3), (1, 4)]
  let col (u d : Nat) : Nat := min (2 * u + d - 2) (i.w - 1)
  let row (v d : Nat) : Nat := min (2 * v + d - 2) (i.h - 1)
  mkImg (ceilDiv i.w 2) (ceilDiv i.h 2) fun u v =>
    weighted (ks.flatMap fun (wy, dy) => ks.map fun (wx, dx) => (wy * wx, i.at' (col u dx) (row v dy))) 256

/-- Levels 0 to `n` of a pyramid. -/
def pyramid (i : Img) : Nat → List Img
  | 0 => [i]
  | n + 1 => i :: pyramid (nextLevel i) n

/-! ### Angles in steps of 360/256 degrees (R201) -/

/-- cos(jπ/256) × 2^64, to the nearest integer, for j from 0 to 128. -/
def cosTable : List Nat :=
  [ 18446744073709551616, 18445355067807029948, 18441188259278644697, 18434244275630433513,
    18424524162600791837, 18412029384002988547, 18396761821504721065, 18378723774344743121,
    18357917958986607856, 18334347508709578402, 18308015973136767550, 18278927317700577564,
    18247085923045520652, 18212496584368510011, 18175164510696720811, 18135095324103129866,
    18092295058859852118, 18046770160529401457, 17998527484994012712, 17947574297423171006,
    17893918271179503955, 17837567486663201478, 17778530430095137256, 17716815992238875079,
    17652433467061752556, 17585392550335243823, 17515703338174812021, 17443376325519471441,
    17368422404551288317, 17290852863055058269, 17210679382718407432, 17127914037372573266,
    17042569291174129989 ] ++
  [ 16954657996727932439, 16864193393151561058, 16771189104081559484, 16675659135621764998,
    16577617874234040805, 16477080084571727796, 16374060907256142060, 16268575856596453010,
    16160640818253285484, 16050272046846397691, 15937486163506795261, 15822300153373650055,
    15704731363036400681, 15584797497922419931, 15462516619630642544, 15337907143211554842,
    15210987834393955863, 15081777806758907629, 14950296518861300146, 14816563771299464606,
    14680599703733276117, 14542424791851195003, 14402059844286703433, 14259525999484601767,
    14114844722517636517, 13968037801853939345, 13819127346075763911, 13668135780550014705,
    13515085844051069277, 13360000585336402459, 13202903359675528264, 13043817825332782212,
    12882767940004473736 ] ++
  [ 12719777957210945243, 12554872422644081165, 12388076170470817045, 12219414319593205343,
    12048912269865601182, 11876595698269537712, 11702490555046867136, 11526623059791749741,
    11349019697502079460, 11169707214590940608, 10988712614858696456, 10806063155426316219,
    10621786342630552901, 10435909927881590155, 10248461903483781989, 10059470498420114690,
    9868964174101025826, 9676971620078220518, 9483521749724130485, 9288643695877666507, 9092366806456920045,
    8894720640039474723, 8695734961410993272, 8495439737082750293, 8293865130778785882, 8091041498893359743,
    7886999385919389870, 7681769519848564266, 7475382807543818423, 7267870330084875444, 7059263338087549767,
    6849593246997519366, 6638891632359275195 ] ++
  [ 6427190225060960324, 6214520906555814904, 6000915704060946578, 5786406785734149389, 5571026455829497539,
    5354807149832443555, 5137781429575153479, 4919981978332814722, 4701441595901655037, 4482193193659413855,
    4262269789609009851, 4041704503406151161, 3820530551371637052, 3598781241489102189, 3376489968388956815,
    3153690208319278250, 2930415514104411062, 2706699510092035141, 2482575887089462615, 2258078397289926196,
    2033240849189623030, 1808097102496279522, 1582681063030003905, 1357026677617194445, 1131167928978272247,
    905138830610008563, 678973421663217291, 452705761816584062, 226369926147403917, 0 ]

/-- cos of angle code `k`, × 2^64. -/
def cosStep (k : Nat) : Int :=
  let k := k % 256
  if k ≤ 64 then natAt cosTable (2 * k)
  else if k ≤ 128 then -(natAt cosTable (2 * (128 - k)) : Int)
  else if k ≤ 192 then -(natAt cosTable (2 * (k - 128)) : Int)
  else natAt cosTable (2 * (256 - k))

/-- sin of angle code `k`, × 2^64. -/
def sinStep (k : Nat) : Int := cosStep (k + 192)

/-- The quarter-turn code of a direction with both parts not negative: the boundaries (2n + 1)π/256 that it
has passed. No direction of integers lies on one, so no tie arises. -/
def quarterAngle (x y : Nat) : Nat :=
  ((List.range 64).filter fun n => decide (x * natAt cosTable (127 - 2 * n) < y * natAt cosTable (2 * n + 1))).length

/-- atan2(y, x) in 256 steps (R201); a centroid at the origin has no angle, and its code is free.
DESIGN CHOICE. DESIGN CHOICE [227]. -/
def angleCode (x y : Int) : Nat :=
  if x = 0 ∧ y = 0 then Config.realWord 3 [] 0 % 256
  else
    let q := quarterAngle x.natAbs y.natAbs
    (if 0 ≤ x then (if 0 ≤ y then q else 256 - q) else (if 0 ≤ y then 128 - q else 128 + q)) % 256

/-- An integer over 2^64, rounded to nearest, half away from zero (R201). -/
def roundAway (a : Int) : Int :=
  let n : Int := ((2 * a.natAbs + 2 ^ 64) / 2 ^ 65 : Nat)
  if a < 0 then -n else n

/-- A point turned by an angle code, to the nearest pixel (R201). -/
def turn (k : Nat) (x y : Int) : Int × Int :=
  (roundAway (x * cosStep k - y * sinStep k), roundAway (x * sinStep k + y * cosStep k))

/-! ### Features (R198 to R201) -/

/-- The parameters of a feature node (Table 6.13), with its pair table. -/
structure FeatP where
  levelLast : Nat
  kappa : Nat
  threshold : Fp
  cellLog2 : Nat
  maxPerCell : Nat
  maxFeatures : Nat
  pairs : List Byte
deriving DecidableEq, Repr

/-- The parameters of a block; the pair table lies in the parameter area. -/
def featP (b params : List Byte) : FeatP :=
  { levelLast := fld b 0 1, kappa := fld b 1 1, threshold := f16At b 2, cellLog2 := fld b 4 1
    maxPerCell := fld b 5 1, maxFeatures := fld b 8 4, pairs := slice params (fld b 12 4) 1024 }

/-- A corner candidate at one level (R198 to R201): integer position, score over 2^expo with the scores of
its horizontal and vertical neighbours, whether its patch holds 0xFFFF, orientation code and descriptor. -/
structure FeatCand where
  level : Nat
  u : Nat
  v : Nat
  score : Nat
  left : Int
  right : Int
  up : Int
  down : Int
  expo : Nat
  marked : Bool
  angle : Nat
  desc : List Byte
deriving DecidableEq, Repr

/-- Integers from `-r` to `r`. -/
def span (r : Nat) : List Int := (List.range (2 * r + 1)).map fun (i : Nat) => (i : Int) - (r : Int)

/-- The offsets of a box of half sizes `ru` and `rv`, row by row. -/
def boxOf (ru rv : Nat) : List (Int × Int) := (span rv).flatMap fun dv => (span ru).map fun du => (du, dv)

/-- The Sobel gradients at a pixel, in codes (R198 step 1). -/
def sobel (i : Img) (u v : Int) : Int × Int :=
  let c (du dv : Int) : Int := i.get (u + du) (v + dv)
  (c 1 (-1) + 2 * c 1 0 + c 1 1 - (c (-1) (-1) + 2 * c (-1) 0 + c (-1) 1),
   c (-1) 1 + 2 * c 0 1 + c 1 1 - (c (-1) (-1) + 2 * c 0 (-1) + c 1 (-1)))

/-- The structure tensor over a 7 × 7 box: Σgx², Σgx gy, Σgy² (R198 step 2). -/
def tensor (i : Img) (u v : Int) : Int × Int × Int :=
  (boxOf 3 3).foldl (fun (a, b, c) (du, dv) =>
    let (gx, gy) := sobel i (u + du) (v + dv)
    (a + gx * gx, b + gx * gy, c + gy * gy)) (0, 0, 0)

/-- The score R = det M − κ (tr M)² over 2^72: gradients are codes over 65,536 and κ is `KAPPA`/256 (R198
step 3). It is the exact value of the formula. DEDUCED [226]. -/
def cornerScore (kappa : Nat) (i : Img) (u v : Int) : Int :=
  let (a, b, c) := tensor i u v
  256 * (a * c - b * b) - kappa * (a + c) * (a + c)

/-- The exponent of the scores' denominator. -/
def scoreExpo : Nat := 72

/-- A pixel's score is the maximum of its 5 × 5 neighbourhood; of equal ones the earlier in raster order
stands (R198 step 4). -/
def isPeak (kappa : Nat) (i : Img) (u v : Int) : Bool :=
  let r := cornerScore kappa i u v
  (boxOf 2 2).all fun (du, dv) =>
    let q := cornerScore kappa i (u + du) (v + dv)
    decide (q < r) || (decide (q = r) && (decide (0 < dv) || (decide (dv = 0) && decide (0 ≤ du))))

/-- The 31 × 31 patch of a pixel holds the marker (R198 step 6). -/
def patchMarked (i : Img) (u v : Int) : Bool :=
  (boxOf 15 15).any fun (du, dv) => i.get (u + du) (v + dv) == satMark

/-- The orientation code: atan2 of the intensity centroid over a disc of radius 15 (R201). -/
def orientation (i : Img) (u v : Int) : Nat :=
  let disc := (boxOf 15 15).filter fun (du, dv) => decide (du * du + dv * dv ≤ 225)
  let (mx, my) := disc.foldl (fun ((mx, my) : Int × Int) (du, dv) =>
    (mx + du * i.get (u + du) (v + dv), my + dv * i.get (u + du) (v + dv))) (0, 0)
  angleCode mx my

/-- Twenty-five times the 5 × 5 box mean at a pixel (R201). -/
def boxSum (i : Img) (u v : Int) : Nat := ((boxOf 2 2).map fun (du, dv) => i.get (u + du) (v + dv)).sum

/-- Bit `n` of a descriptor (R201). -/
def descBit (i : Img) (pairs : List Byte) (angle : Nat) (u v : Int) (n : Nat) : Bool :=
  let at' (o : Nat) : Int := signedOf 8 (fld pairs (4 * n + o) 1)
  let (x1, y1) := turn angle (at' 0) (at' 1)
  let (x2, y2) := turn angle (at' 2) (at' 3)
  decide (boxSum i (u + x1) (v + y1) < boxSum i (u + x2) (v + y2))

/-- The 32 bytes of a descriptor (Table 6.4). -/
def descriptor (i : Img) (pairs : List Byte) (angle : Nat) (u v : Int) : List Byte :=
  (List.range 32).map fun b => BitVec.ofNat 8 ((List.range 8).foldl (fun a k =>
    a + if descBit i pairs angle u v (8 * b + k) then 2 ^ k else 0) 0)

/-- What a pixel is as a candidate of its level. -/
def candAt (p : FeatP) (level : Nat) (i : Img) (u v : Nat) : FeatCand :=
  let r (du dv : Int) : Int := cornerScore p.kappa i (u + du) (v + dv)
  let angle := orientation i u v
  { level, u, v, score := (r 0 0).toNat, left := r (-1) 0, right := r 1 0, up := r 0 (-1), down := r 0 1
    expo := scoreExpo, marked := patchMarked i u v, angle, desc := descriptor i p.pairs angle u v }

/-- A candidate's score. -/
def candScore (c : FeatCand) : Fp := .fin false c.score (2 ^ c.expo)

/-- A score reaches the threshold (R198 step 4). -/
def reaches (threshold : Fp) (r : Int) : Bool :=
  decide (0 < r) && fpLe threshold (.fin false r.natAbs (2 ^ scoreExpo))

/-- The candidates of a level in raster order: at least 16 pixels from its borders (R198 steps 4 and 5).
 DEDUCED [226]. -/
def levelCands (p : FeatP) (level : Nat) (i : Img) : List FeatCand :=
  (List.range i.h).flatMap fun v => (List.range i.w).filterMap fun u =>
    if inR 16 u (i.w - 17) && inR 16 v (i.h - 17) && decide (33 ≤ i.w) && decide (33 ≤ i.h)
        && reaches p.threshold (cornerScore p.kappa i u v) && isPeak p.kappa i u v then
      some (candAt p level i u v) else none

/-- Raster order within ascending levels (R200). -/
def candBefore (a b : FeatCand) : Bool :=
  decide (a.level < b.level) || (a.level == b.level &&
    (decide (a.v < b.v) || (a.v == b.v && decide (a.u < b.u))))

/-- Strength order: higher score first, ties to the lower level and then to raster order (R200). -/
def candStronger (a b : FeatCand) : Bool :=
  fpLt (candScore b) (candScore a) || (!fpLt (candScore a) (candScore b) && candBefore a b)

/-- Inserts in an order. -/
def insertBy (le : α → α → Bool) (a : α) : List α → List α
  | [] => [a]
  | b :: bs => if le a b then a :: b :: bs else b :: insertBy le a bs

/-- Sorts by an order. -/
def sortBy (le : α → α → Bool) (l : List α) : List α := l.foldr (insertBy le) []

/-- The cell of a candidate (R200). -/
def candCell (p : FeatP) (c : FeatCand) : Nat × Nat × Nat :=
  (c.level, c.v / 2 ^ p.cellLog2, c.u / 2 ^ p.cellLog2)

/-- Keeps the strongest of each cell, going through candidates from the strongest on. -/
def capCells (p : FeatP) : List FeatCand → List FeatCand → List FeatCand
  | [], kept => kept
  | c :: cs, kept =>
    if (kept.filter fun k => candCell p k == candCell p c).length < p.maxPerCell then
      capCells p cs (kept ++ [c])
    else capCells p cs kept

/-- The records kept, by level and raster order, and the candidates removed (R198, R200). -/
def selectFeatures (p : FeatP) (levels : List Img) : List FeatCand × Nat :=
  let all := ((levels.take (p.levelLast + 1)).zipIdx).flatMap fun (i, k) => levelCands p k i
  let clean := all.filter fun c => !c.marked
  let kept := (capCells p (sortBy candStronger clean) []).take p.maxFeatures
  (sortBy candBefore kept, all.length - kept.length)

/-- Sub-pixel position in 1/64 pixel of level 0 (R199). Where the parabola is flat the manual gives
no offset: a free value within ±0.5. DESIGN CHOICE [35]. -/
def subPixel (pos level : Nat) (s : Nat) (lo hi : Int) : Nat :=
  let den : Int := 2 * (lo - 2 * s + hi)
  let num : Int := lo - hi
  -- offset num/den, clamped to ±1/2, as a fraction with a positive denominator
  let (n, d) : Int × Nat :=
    if den = 0 then ((Config.realWord 1 [pos, level, s] 0 % 65 : Nat) - 32, 64)
    else if den.natAbs < 2 * num.natAbs then (if (decide (num < 0)) == (decide (den < 0)) then 1 else -1, 2)
    else (if den < 0 then -num else num, den.natAbs)
  let total : Int := ((pos * d : Nat) : Int) + n
  (roundInt (total * ((2 ^ level * 64 : Nat) : Int)) d).toNat

/-- One feature record (Table 6.4). -/
def featRecord (c : FeatCand) : List Byte :=
  let x := subPixel c.u c.level c.score c.left c.right
  let y := subPixel c.v c.level c.score c.up c.down
  leBytes 8 (x % 2 ^ 20 + y % 2 ^ 20 * 2 ^ 20 + c.level % 16 * 2 ^ 40 + c.angle % 256 * 2 ^ 44)
    ++ leBytes 2 (fpEncode fp16 .nearest false (candScore c)) ++ zeros 6 ++ slice c.desc 0 32

/-! ### Stereo (R202 to R204) -/

/-- The parameters of a stereo node (Table 6.13). -/
structure StereoP where
  dMin : Nat
  n : Nat
  p1 : Nat
  p2 : Nat
  lrTol : Nat
  texMin : Nat
deriving DecidableEq, Repr

def stereoP (b : List Byte) : StereoP :=
  { dMin := fld b 0 2, n := fld b 2 2, p1 := fld b 4 1, p2 := fld b 6 2, lrTol := fld b 5 1, texMin := fld b 8 2 }

/-- The 9 × 7 census transform of a pixel: nine wide, whether each neighbour is below the centre (R202).
PRESUMED. PRESUMED [228]. -/
def census (i : Img) (u v : Int) : List Bool :=
  ((boxOf 4 3).filter fun o => o != (0, 0)).map fun (du, dv) => decide (i.get (u + du) (v + dv) < i.get u v)

/-- Hamming distance. -/
def hamming (a b : List Bool) : Nat := ((a.zip b).filter fun (x, y) => x != y).length

/-- The matching costs of a left pixel over the search (R202). -/
def matchCosts (p : StereoP) (l r : Img) (u v : Int) : List Nat :=
  (List.range p.n).map fun k => hamming (census l u v) (census r (u - (p.dMin + k : Nat)) v)

/-- One step of a path: the costs at a pixel from those of the one before it (R202). The least cost before
is taken off, as the method does. PRESUMED [229]. -/
def pathStep (p : StereoP) (prev here : List Nat) : List Nat :=
  let m := prev.foldl min 0xFFFF
  here.zipIdx.map fun (c, k) =>
    let side (j : Nat) : Nat := if j < prev.length then natAt prev j + p.p1 else 0xFFFF
    let best := min (min (natAt prev k) (if k = 0 then 0xFFFF else side (k - 1))) (min (side (k + 1)) (m + p.p2))
    min (c + best - m) 0xFFFF

/-- The path costs at a pixel along a direction: 16-bit, saturating, from the border on (R202). PRESUMED [229]. -/
def pathCosts (p : StereoP) (l r : Img) (du dv : Int) : Nat → Int → Int → List Nat
  | 0, u, v => matchCosts p l r u v
  | n + 1, u, v =>
    let (a, b) := (u - du, v - dv)
    if 0 ≤ a ∧ a < l.w ∧ 0 ≤ b ∧ b < l.h then pathStep p (pathCosts p l r du dv n a b) (matchCosts p l r u v)
    else matchCosts p l r u v

/-- The eight path directions. -/
def directions : List (Int × Int) := (boxOf 1 1).filter fun o => o != (0, 0)

/-- The aggregated costs of a left pixel: the sum over the eight paths (R202). -/
def aggregated (p : StereoP) (l r : Img) (u v : Int) : List Nat :=
  let ps := directions.map fun (du, dv) => pathCosts p l r du dv (l.w + l.h) u v
  (List.range p.n).map fun k => (ps.map (natAt · k)).sum

/-- The index of the lowest cost, the lower one on a tie. DEDUCED [36]. -/
def argMin (cs : List Nat) : Nat :=
  (cs.zipIdx.foldl (fun best c => match best with
    | none => some c
    | some b => if c.1 < b.1 then some c else some b) none).elim 0 (·.2)

/-- δ of R202 in 1/16 pixel as part of a fraction: numerator and denominator; a flat parabola leaves
it open within ±0.5. -/
def stereoDelta (cs : List Nat) (i : Nat) : Int × Nat :=
  if i = 0 ∨ cs.length ≤ i + 1 then (0, 1) else
  let a : Int := natAt cs (i - 1)
  let b : Int := natAt cs i
  let c : Int := natAt cs (i + 1)
  let den := 2 * (a - 2 * b + c)
  if den = 0 then ((Config.realWord 2 cs 0 % 17 : Nat) - 8, 16)
  else if den.natAbs < 2 * (a - c).natAbs then (if decide (a < c) == decide (den < 0) then 1 else -1, 2)
  else (if den < 0 then c - a else a - c, den.natAbs)

/-- Twenty times the mean absolute horizontal difference over a 5 × 5 window: between its neighbours in each
row (R203). DEDUCED [230]. -/
def textureSum (i : Img) (u v : Int) : Nat :=
  (((boxOf 2 2).filter fun (du, _) => du != 2).map fun (du, dv) =>
    ((i.get (u + du + 1) (v + dv) : Int) - i.get (u + du) (v + dv)).natAbs).sum

/-- The integer right-image disparity at a right pixel, from the same aggregated costs (R203); outside the
image, where none is stated, it is free. DESIGN CHOICE [231]. -/
def rightDisparity (p : StereoP) (l r : Img) (u v : Int) : Int :=
  if u < 0 ∨ (r.w : Int) ≤ u then Config.realWord 4 [u.natAbs, v.natAbs] 0
  else
    let cs := (List.range p.n).filterMap fun k =>
      let x := u + (p.dMin + k : Nat)
      if x < l.w then some (natAt (aggregated p l r x v) k) else none
    p.dMin + argMin cs

/-- Disparity code and confidence of one left pixel (R202 to R204, Table 6.5). -/
def stereoPixel (p : StereoP) (l r : Img) (u v : Nat) : Nat × Nat :=
  let cs := aggregated p l r u v
  let i := argMin cs
  let (n, d) := stereoDelta cs i
  let num : Int := (((p.dMin + i) * d : Nat) : Int) + n
  let whole := roundInt num d
  if l.get u v = satMark ∨ r.get ((u : Int) - (p.dMin + i : Nat)) v = satMark then (0xFFFC, 0)
  else if textureSum l u v < p.texMin * 20 then (0xFFFF, 0)
  else if u < p.dMin ∨ i + 1 = p.n ∨ (i = 0 ∧ 0 < p.dMin) then (0xFFFD, 0)
  else if p.lrTol ≠ 0xFF ∧ p.lrTol < (whole - rightDisparity p l r (u - whole) v).natAbs then (0xFFFE, 0)
  else
    let c1 := natAt cs i
    let far := (cs.zipIdx.filter fun (_, k) => decide (k + 2 ≤ i) || decide (i + 2 ≤ k)).map (·.1)
    let c2 := match far with
      | [] => 0
      | c :: rest => rest.foldl min c
    ((roundInt (num * 16) d).toNat, if c2 = 0 then 1 else max 1 (min 255 (256 * (c2 - c1) / c2)))

/-- The pixels of a stereo node in raster order: disparity codes and confidences. -/
def stereoImg (p : StereoP) (l r : Img) : List (Nat × Nat) :=
  (List.range l.h).flatMap fun v => (List.range l.w).map fun u => stereoPixel p l r u v

/-! ### FP32 in the vision units (R208, R287) -/

/-- The value of an FP32 code rounded to an integer, ties to even; 0 for one that is not finite. -/
def f32ToInt (c : Nat) : Int :=
  match fpDecode fp32 c with
  | .fin neg a b => let q : Int := roundDiv .nearest neg a b; if neg then -q else q
  | _ => 0

/-- The integer at or below the value of an FP32 code. -/
def f32Floor (c : Nat) : Int :=
  match fpDecode fp32 c with
  | .fin neg a b => let n : Int := a; if neg then -n / b else n / b
  | _ => 0

/-- An integer, and an integer over 2^n, as FP32 codes. -/
def f32I (i : Int) : Nat := flInt fp32 i
def f32Q (i : Int) (n : Nat) : Nat := fpIeee fp32 (.fin (decide (i < 0)) i.natAbs (2 ^ n))

/-- The bilinear sample of an image at FP32 coordinates. -/
def bilinear (i : Img) (x y : Nat) : Nat :=
  let u := f32Floor x
  let v := f32Floor y
  let a := f32Sub x (f32I u)
  let b := f32Sub y (f32I v)
  let c (du dv : Int) : Nat := f32I (i.get (u + du) (v + dv))
  let mix (p q t : Nat) : Nat := f32Add p (f32Mul t (f32Sub q p))
  mix (mix (c 0 0) (c 1 0) a) (mix (c 0 1) (c 1 1) a) b

/-! ### Flow (R206, R207) -/

/-- The parameters of a flow node (Table 6.13). -/
structure FlowP where
  win : Nat
  levelTop : Nat
  iters : Nat
  eps : Nat
  resMax : Nat
  eigMin : Fp
  maxPoints : Nat
deriving DecidableEq, Repr

def flowP (b : List Byte) : FlowP :=
  { win := fld b 0 1, levelTop := fld b 1 1, iters := fld b 2 1, eps := fld b 3 1, resMax := fld b 4 2
    eigMin := f16At b 6, maxPoints := fld b 8 4 }

/-- What tracking ends with for one point (R206): the displacement in level-0 pixels as FP32 codes, whether
the iterations of level 0 ran out, and the residual there in U16 codes. -/
structure FlowPt where
  dx : Nat
  dy : Nat
  ranOut : Bool
  residual : Nat
  marked : Bool
  leaves : Bool
  eigLow : Bool
deriving DecidableEq, Repr

/-- The window's samples of an image about FP32 coordinates. -/
def windowAt (p : FlowP) (i : Img) (x y : Nat) : List Nat :=
  (boxOf (p.win / 2) (p.win / 2)).map fun (du, dv) => bilinear i (f32Add x (f32I du)) (f32Add y (f32I dv))

/-- The window's gradients: half the difference of the samples a pixel to either side. PRESUMED [232]. -/
def windowGrad (p : FlowP) (i : Img) (x y : Nat) : List (Nat × Nat) :=
  let half := f32Q 1 1
  (boxOf (p.win / 2) (p.win / 2)).map fun (du, dv) =>
    let at' (a b : Int) : Nat := bilinear i (f32Add x (f32I (du + a))) (f32Add y (f32I (dv + b)))
    (f32Mul half (f32Sub (at' 1 0) (at' (-1) 0)), f32Mul half (f32Sub (at' 0 1) (at' 0 (-1))))

/-- The structure tensor of a window's gradients, its sums in a free order. -/
def gradTensor (k : Nat) (g : List (Nat × Nat)) : Nat × Nat × Nat :=
  (flSum fp32 k (g.map fun (x, _) => f32Mul x x), flSum fp32 k (g.map fun (x, y) => f32Mul x y),
    flSum fp32 k (g.map fun (_, y) => f32Mul y y))

/-- One Gauss-Newton update of a displacement (R206), none where the tensor is singular. PRESUMED [232]. -/
def flowStep (k : Nat) (g : List (Nat × Nat)) (e : List Nat) : Option (Nat × Nat) :=
  let (a, b, c) := gradTensor k g
  let det := f32Sub (f32Mul a c) (f32Mul b b)
  let bx := flSum fp32 k ((g.zip e).map fun ((x, _), r) => f32Mul x r)
  let byy := flSum fp32 k ((g.zip e).map fun ((_, y), r) => f32Mul y r)
  if !fpPos (fpDecode fp32 det) then none else
  some (f32Div (f32Sub (f32Mul c bx) (f32Mul b byy)) det, f32Div (f32Sub (f32Mul a byy) (f32Mul b bx)) det)

/-- The iterations of one level: the displacement, and whether they ran out (R206): they stop when the
update's length falls below `EPS`/64 pixel. PRESUMED [232]. -/
def flowIters (p : FlowP) (k : Nat) (cur : Img) (x y : Nat) (tpl : List Nat) (g : List (Nat × Nat)) :
    Nat → Nat × Nat → (Nat × Nat) × Bool
  | 0, d => (d, true)
  | n + 1, (dx, dy) =>
    let now := windowAt p cur (f32Add x dx) (f32Add y dy)
    let e := (tpl.zip now).map fun (t, c) => f32Sub t c
    match flowStep (k + 4096 * n) g e with
    | none => ((dx, dy), true)
    | some (ux, uy) =>
      let d := (f32Add dx ux, f32Add dy uy)
      let len2 := f32Add (f32Mul ux ux) (f32Mul uy uy)
      if flLt fp32 len2 (f32Q (p.eps * p.eps) 12) then (d, false) else flowIters p k cur x y tpl g n d

/-- One level of a track, from the displacement found above it (R206). The point is in level-0 pixels. -/
def flowLevel (p : FlowP) (k : Nat) (prev cur : Img) (level : Nat) (px py : Nat) (d : Nat × Nat) :
    (Nat × Nat) × Bool :=
  let sc := f32Q 1 level
  let (x, y) := (f32Mul px sc, f32Mul py sc)
  flowIters p (k + 65536 * level) cur x y (windowAt p prev x y) (windowGrad p prev x y) p.iters d

/-- The levels of a track, coarse to fine (R206): the displacement doubles from one to the next. PRESUMED [232]. -/
def flowTrack (p : FlowP) (k : Nat) (prev cur : List Img) (px py : Nat) : Nat → Nat × Nat → (Nat × Nat) × Bool
  | 0, d => flowLevel p k ((prev[0]?).getD ⟨0, 0, []⟩) ((cur[0]?).getD ⟨0, 0, []⟩) 0 px py d
  | l + 1, d =>
    let (d', _) := flowLevel p k ((prev[l + 1]?).getD ⟨0, 0, []⟩) ((cur[l + 1]?).getD ⟨0, 0, []⟩) (l + 1) px py d
    flowTrack p k prev cur px py l (f32Add d'.1 d'.1, f32Add d'.2 d'.2)

/-- The pixels that a window about FP32 coordinates draws on. -/
def windowPixels (p : FlowP) (x y : Nat) : List (Int × Int) :=
  let (u, v) := (f32Floor x, f32Floor y)
  (boxOf (p.win / 2 + 1) (p.win / 2 + 1)).filterMap fun (du, dv) =>
    if -(p.win / 2 : Nat) ≤ du ∧ -(p.win / 2 : Nat) ≤ dv then some (u + du, v + dv) else none

/-- λ is an eigenvalue below `m` of the tensor (a, b, c), decided exactly: the smallest one is below m when
a + c < 2m or (a − m)(c − m) < b² (Table 6.6). -/
def eigBelow (a b c : Nat) (m : Fp) : Bool :=
  let v (x : Nat) : Fp := fpDecode fp32 x
  let am := fpAdd (v a) (fpNeg m)
  let cm := fpAdd (v c) (fpNeg m)
  fpLt (fpAdd am cm) (fpNat 0) || fpLt (fpMul am cm) (fpMul (v b) (v b))

/-- A point tracked from the previous pyramid to the present one (R206, R207); its position is Q14.6. The
structure tensor is of codes over 65,536, as R198's. DEDUCED [233]. -/
def flowPoint (p : FlowP) (k : Nat) (prev cur : List Img) (px py : Nat) : FlowPt :=
  let (x, y) := (f32Q px 6, f32Q py 6)
  let ((dx, dy), ranOut) := flowTrack p k prev cur x y p.levelTop (0, 0)
  let p0 := (prev[0]?).getD ⟨0, 0, []⟩
  let c0 := (cur[0]?).getD ⟨0, 0, []⟩
  let (ex, ey) := (f32Add x dx, f32Add y dy)
  let wp := windowPixels p x y
  let wc := windowPixels p ex ey
  let out (i : Img) (q : Int × Int) : Bool :=
    decide (q.1 < 0) || decide ((i.w : Int) ≤ q.1) || decide (q.2 < 0) || decide ((i.h : Int) ≤ q.2)
  let sc := f32Q 1 16
  let g := (windowGrad p p0 x y).map fun (a, b) => (f32Mul sc a, f32Mul sc b)
  let (a, b, c) := gradTensor k g
  let diff := (windowAt p p0 x y).zip (windowAt p c0 ex ey) |>.map fun (t, r) =>
    let d := f32Sub t r
    if flLt fp32 d 0 then flNeg fp32 d else d
  { dx, dy, ranOut
    residual := f32Div (flSum fp32 (k + 1024) diff) (f32I (p.win * p.win : Nat))
    marked := (wp.any fun q => p0.get q.1 q.2 == satMark) || wc.any fun q => c0.get q.1 q.2 == satMark
    leaves := wp.any (out p0) || wc.any (out c0)
    eigLow := eigBelow a b c p.eigMin }

/-- An FP32 displacement in units of 1/32 pixel, rounded to nearest with ties to even (R206). -/
def flowUnits (d : Nat) : Int :=
  match fpDecode fp32 d with
  | .fin neg a b => let q : Int := roundDiv .nearest neg (32 * a) b; if neg then -q else q
  | .inf neg => if neg then -65536 else 65536
  | .nan => 65536

/-- One component of a displacement in sQ10.5, clamped (R206, Table 6.6). -/
def flowComp (d : Nat) : Nat :=
  let n := flowUnits d
  if n < -32768 then 0x8000 else if 32767 < n then 0x7FFF else codeOf 16 n

/-- A component outside −1,024 to 1,023.96875 (Table 6.6). -/
def flowOut (d : Nat) : Bool :=
  let v := fpDecode fp32 d
  v == .nan || fpLt v (fpInt (-1024)) || fpLt (.fin false 32767 32) v

/-- A residual exceeds `RES_MAX`. -/
def resOver (p : FlowP) (r : Nat) : Bool := !fpLe (fpDecode fp32 r) (fpNat p.resMax)

/-- The status of a point (Table 6.6), in the order given. -/
def flowStatus (p : FlowP) (f : FlowPt) : Nat :=
  if f.marked then 5 else if f.leaves then 1
  else if f.eigLow || resOver p f.residual then 4
  else if flowOut f.dx || flowOut f.dy then 2
  else if f.ranOut then 3 else 0

/-- floor(255 × residual / RES_MAX) (Table 6.7). -/
def flowLoss (p : FlowP) (f : FlowPt) : Nat :=
  match fpDecode fp32 f.residual with
  | .fin _ a b => 255 * a / (p.resMax * b)
  | _ => 255

/-- One flow record (Table 6.7). -/
def flowRecord (p : FlowP) (f : FlowPt) : List Byte :=
  let st := flowStatus p f
  let valid := st == 0 || st == 2 || st == 3
  if valid then leBytes 2 (flowComp f.dx) ++ leBytes 2 (flowComp f.dy) ++ leBytes 1 st
    ++ leBytes 1 (255 - min 255 (flowLoss p f)) ++ zeros 2
  else zeros 4 ++ leBytes 1 st ++ zeros 3

/-! ### ICP (R208, R209) -/

/-- The parameters of an ICP node (Table 6.13), numbers as FP32 codes. -/
structure IcpP where
  fx : Nat
  fy : Nat
  cx : Nat
  cy : Nat
  scale : Nat
  stride : Nat
  iters : Nat
  minInliers : Nat
  dMax : Nat
  cosMin : Nat
deriving DecidableEq, Repr

def icpP (b : List Byte) : IcpP :=
  { fx := fld b 0 4, fy := fld b 4 4, cx := fld b 8 4, cy := fld b 12 4, scale := fld b 16 4
    stride := fld b 20 1, iters := fld b 21 1, minInliers := fld b 24 4, dMax := fld b 28 4, cosMin := fld b 32 4 }

/-- A vector of three FP32 codes, and its arithmetic. -/
abbrev V3 := Nat × Nat × Nat

def v3Sub (a b : V3) : V3 := (f32Sub a.1 b.1, f32Sub a.2.1 b.2.1, f32Sub a.2.2 b.2.2)
def v3Dot (a b : V3) : Nat := f32Add (f32Add (f32Mul a.1 b.1) (f32Mul a.2.1 b.2.1)) (f32Mul a.2.2 b.2.2)
def v3Cross (a b : V3) : V3 :=
  (f32Sub (f32Mul a.2.1 b.2.2) (f32Mul a.2.2 b.2.1), f32Sub (f32Mul a.2.2 b.1) (f32Mul a.1 b.2.2),
    f32Sub (f32Mul a.1 b.2.1) (f32Mul a.2.1 b.1))

/-- A vector at unit length. -/
def v3Unit (a : V3) : V3 :=
  let n := flSqrt fp32 (v3Dot a a)
  (f32Div a.1 n, f32Div a.2.1 n, f32Div a.2.2 n)

/-- The point of a pixel of a depth image (R208 step 1). -/
def backProject (p : IcpP) (i : Img) (u v : Int) : V3 :=
  let z := f32Mul (f32I (i.get u v)) p.scale
  (f32Div (f32Mul (f32Sub (f32I u) p.cx) z) p.fx, f32Div (f32Mul (f32Sub (f32I v) p.cy) z) p.fy, z)

/-- The unit normal at a pixel: the cross product of its neighbours' differences (R208 step 2). -/
def normalAt (p : IcpP) (i : Img) (u v : Int) : V3 :=
  v3Unit (v3Cross (v3Sub (backProject p i (u + 1) v) (backProject p i (u - 1) v))
    (v3Sub (backProject p i u (v + 1)) (backProject p i u (v - 1))))

/-- A 3 × 4 transform of FP32 codes, row-major, applied to a point (`w` 1) or a direction (`w` 0). -/
def xform (m : List Nat) (w : Bool) (a : V3) : V3 :=
  let row (r : Nat) : Nat :=
    let x := v3Dot (natAt m (4 * r), natAt m (4 * r + 1), natAt m (4 * r + 2)) a
    if w then f32Add x (natAt m (4 * r + 3)) else x
  (row 0, row 1, row 2)

/-- A correspondence of one iteration: its row (J, r) with the translation first, as Table 10.2 orders a
pose's tangent; none when it is rejected (R208 steps 1 and 2). DEDUCED [234]. -/
def correspond (p : IcpP) (src tgt : Img) (m : List Nat) (u v : Int) : Option (List Nat × Nat) :=
  if src.get u v = 0 then none else
  let q := xform m true (backProject p src u v)
  if !fpPos (fpDecode fp32 q.2.2) then none else
  let tu := f32ToInt (f32Add (f32Div (f32Mul p.fx q.1) q.2.2) p.cx)
  let tv := f32ToInt (f32Add (f32Div (f32Mul p.fy q.2.1) q.2.2) p.cy)
  let inside := decide (0 ≤ tu) && decide (tu < tgt.w) && decide (0 ≤ tv) && decide (tv < tgt.h)
  let around := [(0, 0), (1, 0), (-1, 0), (0, 1), (0, -1)]
  if !inside || around.any fun (a, b) => tgt.get (tu + a) (tv + b) == 0 then none else
  let n := normalAt p tgt tu tv
  let dist := v3Dot n (v3Sub q (backProject p tgt tu tv))
  let mag := if flLt fp32 dist 0 then flNeg fp32 dist else dist
  let cosine := v3Dot (xform m false (normalAt p src u v)) n
  if !flLe fp32 mag p.dMax || !flLe fp32 p.cosMin cosine then none else
  let c := v3Cross q n
  some ([n.1, n.2.1, n.2.2, c.1, c.2.1, c.2.2], dist)

/-- The pixels that an iteration takes: every `STRIDE`-th in both directions (R208 step 1). -/
def icpPixels (p : IcpP) (i : Img) : List (Int × Int) :=
  (List.range i.h).flatMap fun v => (List.range i.w).filterMap fun u =>
    if u % p.stride = 0 ∧ v % p.stride = 0 then some ((u : Int), (v : Int)) else none

/-- The normal equations of an iteration, each row with its right side, sums in a free order (R287). DEDUCED [234]. -/
def normalEqs (k : Nat) (rows : List (List Nat × Nat)) : List (List Nat) :=
  (List.range 6).map fun a =>
    ((List.range 6).map fun b => flSum fp32 (k + 8 * min a b + max a b) (rows.map fun (j, _) => f32Mul (natAt j a) (natAt j b)))
      ++ [flNeg fp32 (flSum fp32 (k + 64 + a) (rows.map fun (j, r) => f32Mul (natAt j a) r))]

/-- The transform after a small-angle increment (R208 step 3): (I + [ω]) T, and the translation added.
 DEDUCED [234]. -/
def composeSmall (d m : List Nat) : List Nat :=
  let w : V3 := (natAt d 3, natAt d 4, natAt d 5)
  let col (c : Nat) : V3 := (natAt m c, natAt m (4 + c), natAt m (8 + c))
  let new (c : Nat) : V3 :=
    let x := col c
    let y := v3Cross w x
    let z : V3 := (f32Add x.1 y.1, f32Add x.2.1 y.2.1, f32Add x.2.2 y.2.2)
    if c = 3 then (f32Add z.1 (natAt d 0), f32Add z.2.1 (natAt d 1), f32Add z.2.2 (natAt d 2)) else z
  let (c0, c1, c2, c3) := (new 0, new 1, new 2, new 3)
  [c0.1, c1.1, c2.1, c3.1, c0.2.1, c1.2.1, c2.2.1, c3.2.1, c0.2.2, c1.2.2, c2.2.2, c3.2.2]

/-- Where an ICP node stands between iterations: transform, normal equations and correspondences of the last
one, and whether any skipped its increment. -/
structure IcpRun where
  m : List Nat
  eqs : List (List Nat)
  rows : List (List Nat × Nat)
  skipped : Bool
deriving DecidableEq, Repr

/-- One iteration (R208, R209): a pivot at or below 2^-20 of the largest diagonal skips the increment. -/
def icpIter (p : IcpP) (k : Nat) (src tgt : Img) (x : IcpRun) : IcpRun :=
  let rows := (icpPixels p src).filterMap fun (u, v) => correspond p src tgt x.m u v
  let eqs := normalEqs k rows
  let top := (List.range 6).foldl (fun a i =>
    let d := natAt ((eqs[i]?).getD []) i
    if flLt fp32 a d then d else a) 0
  let (d, ps) := ldlSolve fp32 id 6 eqs
  let low := ps.any fun q => !flLt fp32 (f32Mul top (f32Q 1 20)) q
  { m := if low then x.m else composeSmall d x.m, eqs, rows, skipped := x.skipped || low }

/-- Exactly `ITERS` iterations (R208). -/
def icpIters (p : IcpP) (src tgt : Img) : Nat → Nat → IcpRun → IcpRun
  | 0, _, x => x
  | n + 1, k, x => icpIters p src tgt n (k + 65536) (icpIter p k src tgt x)

/-- The identity transform. -/
def identityM : List Nat :=
  let one := f32I 1
  [one, 0, 0, 0, 0, one, 0, 0, 0, 0, one, 0]

/-- The initial transform: the first record of the transform input, or the identity (R208). -/
def icpStart (c : Option (List Byte)) : List Nat :=
  match c with
  | none => identityM
  | some b => if fld b 0 4 = 0 then identityM else (List.range 12).map fun i => fld b (16 + 4 * i) 4

/-- The node's own status (R209). -/
def icpStatus (p : IcpP) (x : IcpRun) : Nat :=
  if x.skipped || decide (x.rows.length < p.minInliers) then stDegraded else stOk

/-- The 160-byte result (Table 6.8). -/
def icpRecord (p : IcpP) (k : Nat) (x : IcpRun) : List Byte :=
  let upper := (List.range 6).flatMap fun a => (List.range (6 - a)).map fun b =>
    natAt ((x.eqs[a]?).getD []) (a + b)
  let sq := flSum fp32 k (x.rows.map fun (_, r) => f32Mul r r)
  x.m.flatMap (leBytes 4) ++ upper.flatMap (leBytes 4) ++ leBytes 4 x.rows.length
    ++ leBytes 4 (flSqrt fp32 (f32Div sq (f32I x.rows.length))) ++ leBytes 4 p.iters
    ++ leBytes 2 (icpStatus p x) ++ zeros 14

/-! ### Stored planes and record arrays (R189, R192) -/

/-- The bytes of an image plane: rows of `px` bytes per pixel, their pitch rounded up to 64 bytes (R189). What
the padding holds is free. DESIGN CHOICE [235]. -/
def planeOf (w px : Nat) : Nat → List Nat → List Byte
  | 0, _ => []
  | h + 1, codes =>
    (codes.take w).flatMap (leBytes px)
      ++ (List.range (roundUp (w * px) 64 - w * px)).map (fun i => Config.padByte h i)
      ++ planeOf w px h (codes.drop w)

/-- The codes of a stored plane. -/
def planeCodes (w h px : Nat) (bs : List Byte) : List Nat :=
  let pitch := roundUp (w * px) 64
  (List.range h).flatMap fun v => (List.range w).map fun u => fld bs (v * pitch + px * u) px

/-- The header of a record array (Table 6.3). -/
def recHeader (count status set dropped : Nat) : List Byte :=
  leBytes 4 count ++ leBytes 2 status ++ zeros 2 ++ leBytes 4 set ++ leBytes 4 dropped

end Sys2Proof.Machine
end

