-- ==== Sys2Proof/Machine/Cue.lean ====
section
/-! DEFINITION. Cue sheet images: their layout, checks and claims (R210, R211, R224 to R226), and
CUE_LOAD. -/
namespace Sys2Proof.Machine

/-- `ST_E_CUE_GRAPH` and `ST_E_GROUP_FENCED` (Table 6.18). -/
def stCueGraph : Nat := 0x8301
def stGroupFenced : Nat := 0x8302

/-- The tag of an absent buffer, node output or flag. -/
def none16 : Nat := 0xFFFF

/-! ### Layout (R210) -/

/-- The first offset whose check fails; checks stand in ascending order of their offsets. -/
def firstBad (cs : List (Bool × Nat)) : Option Nat := (cs.find? fun c => !c.1).map (·.2)

/-- The header's checks (Table 6.9). -/
def headerChecks (b : List Byte) : List (Bool × Nat) :=
  [ (fld b 0 4 == 0x43554531, 0), (fld b 4 2 == 1, 4), (inR 1 (fld b 6 2) 256, 6)
  , (inR 1 (fld b 8 2) 512, 8), (inR 0 (fld b 10 2) 1024, 10), (inR 1 (fld b 12 1) 16, 12)
  , (decide (fld b 13 1 < fld b 12 1), 13), (inR 1 (fld b 14 1) 4, 14), (fld b 15 1 == 0, 15)
  , (inR 1000 (fld b 16 4) 1000000, 16), (inR 0 (fld b 20 4) 10000000, 20)
  , (inR 0 (fld b 24 4) 67108864, 24)
  , (fld b 28 4 == 64 + 8 * fld b 12 1 + 32 * (fld b 6 2 + fld b 8 2) + fld b 24 4
      && fld b 28 4 == b.length, 28)
  , (fld b 32 32 == 0, 32) ]

/-- Offset of node record `i`, of buffer record `i` and of the parameter area. -/
def nodeOff (b : List Byte) (i : Nat) : Nat := 64 + 8 * fld b 12 1 + 32 * i
def bufOff (b : List Byte) (i : Nat) : Nat := nodeOff b (fld b 6 2 + i)
def paramOff (b : List Byte) : Nat := bufOff b (fld b 8 2)

/-- A node's parameter block length (Table 6.13). -/
def blockLen (unit : Nat) : Nat := natAt [0, 16, 1, 16, 10, 12, 36] unit

/-- A buffer reference of a node: an index in range, without `PREV` for an output, or none. -/
def refOk (v bufs : Nat) (input : Bool) : Bool :=
  v == none16 || (decide (v % 512 < bufs) && bitsOf v 14 9 == 0 && (input || !v.testBit 15))

/-- The checks of node record at `o` (Table 6.10). -/
def nodeChecks (b : List Byte) (o : Nat) : List (Bool × Nat) :=
  let u := fld b o 1
  let n := fld b 8 2
  [ (inR 1 u 6, o), (fld b (o + 1) 1 == 0 || (fld b (o + 1) 1 == 1 && decide (u ≤ 2)), o + 1)
  , (refOk (fld b (o + 2) 2) n true, o + 2), (refOk (fld b (o + 4) 2) n true, o + 4)
  , (refOk (fld b (o + 6) 2) n true, o + 6), (refOk (fld b (o + 8) 2) n false, o + 8)
  , (refOk (fld b (o + 10) 2) n false, o + 10)
  , (fld b (o + 12) 4 % 8 == 0 && decide (fld b (o + 12) 4 ≤ fld b 24 4), o + 12)
  , (decide (blockLen u ≤ fld b (o + 16) 2) && decide (fld b (o + 12) 4 + fld b (o + 16) 2 ≤ fld b 24 4), o + 16)
  , (fld b (o + 18) 14 == 0, o + 18) ]

/-- A buffer format of Table 6.2 for a kind. -/
def bufFormat (kind f : Nat) : Bool := if kind = 0 then inR 1 f 8 else inR 0x10 f 0x14 || inR 0x20 f 0x23

/-- The checks of the buffer record at `o` (Table 6.11). -/
def bufChecks (b : List Byte) (o : Nat) : List (Bool × Nat) :=
  let k := fld b o 1
  let fl := fld b (o + 6) 2
  [ (decide (k ≤ 2), o), (decide (fld b (o + 1) 1 ≤ if k = 0 then 0 else 1), o + 1)
  , (decide (fld b (o + 2) 1 ≤ 15), o + 2)
  , (if k = 0 then fld b (o + 3) 1 == 0 else inR 1 (fld b (o + 3) 1) 4, o + 3)
  , (bufFormat k (fld b (o + 4) 1), o + 4), (decide (fld b (o + 5) 1 ≤ 1), o + 5)
  , (fl == none16 || decide (fl < fld b 10 2), o + 6)
  , (k != 0 || decide (fld b (o + 16) 1 < fld b 12 1), o + 16)
  , (fld b (o + 4) 1 != 0x12 || inR 1 (fld b (o + 17) 1) 8, o + 17)
  , (fld b (o + 18) 14 == 0, o + 18) ]

/-- A parsed buffer record. -/
def bufRec (b : List Byte) (o : Nat) : BufRec :=
  { kind := fld b o 1, place := fld b (o + 1) 1, cluster := fld b (o + 2) 1, slots := fld b (o + 3) 1
    format := fld b (o + 4) 1, release := fld b (o + 5) 1 == 1, flag := fld b (o + 6) 2
    width := fld b (o + 8) 2, height := fld b (o + 10) 2, capacity := fld b (o + 12) 4
    sslot := fld b (o + 16) 1, levels := fld b (o + 17) 1 }

/-- A parsed node record. -/
def nodeRec (b : List Byte) (o : Nat) : NodeRec :=
  { unit := fld b o 1, streaming := fld b (o + 1) 1 == 1, inA := fld b (o + 2) 2, inB := fld b (o + 4) 2
    inC := fld b (o + 6) 2, out0 := fld b (o + 8) 2, out1 := fld b (o + 10) 2, poff := fld b (o + 12) 4
    plen := fld b (o + 16) 2 }

/-- The image as records. -/
def parseSheet (b : List Byte) : SheetImg :=
  { flags := fld b 10 2, trigger := fld b 13 1, maxSets := fld b 14 1, deadlineUs := fld b 16 4
    matchNs := fld b 20 4
    slots := (List.range (fld b 12 1)).map fun i =>
      { width := fld b (64 + 8 * i) 2, height := fld b (66 + 8 * i) 2, format := fld b (68 + 8 * i) 1 }
    nodes := (List.range (fld b 6 2)).map fun i => nodeRec b (nodeOff b i)
    bufs := (List.range (fld b 8 2)).map fun i => bufRec b (bufOff b i)
    params := slice b (paramOff b) (fld b 24 4), len := fld b 28 4 }

/-! ### What a reference names -/

/-- The buffer a reference names. -/
def SheetImg.buf (m : SheetImg) (r : Nat) : Option BufRec := if r = none16 then none else m.bufs[r % 512]?

/-- Whether a reference has `PREV`. -/
def isPrev (r : Nat) : Bool := r != none16 && r.testBit 15

/-- The format a reader meets, with stream formats by their slot. -/
def SheetImg.fmt (m : SheetImg) (r : Nat) : Nat :=
  (m.buf r).elim 0 fun x => if x.kind = 0 then (m.slots[x.sslot]?).elim 0 (·.format) else x.format

/-- Width and height of what a reference names. -/
def SheetImg.size (m : SheetImg) (r : Nat) : Nat × Nat :=
  (m.buf r).elim (0, 0) fun x =>
    if x.kind = 0 then (m.slots[x.sslot]?).elim (0, 0) fun y => (y.width, y.height) else (x.width, x.height)

/-- Whether a reference names a stream. -/
def SheetImg.isStream (m : SheetImg) (r : Nat) : Bool := (m.buf r).any fun x => x.kind == 0

/-- Levels of a pyramid a reference names, 0 for a plain image. -/
def SheetImg.levels (m : SheetImg) (r : Nat) : Nat :=
  (m.buf r).elim 0 fun x => if x.format = 0x12 then x.levels else 0

/-- A node's parameter block. -/
def SheetImg.block (m : SheetImg) (n : NodeRec) : List Byte := slice m.params n.poff n.plen

/-- A node reads depth (Table 6.12). -/
def SheetImg.depthIn (m : SheetImg) (r : Nat) : Bool :=
  if m.isStream r then m.fmt r == 8 else m.fmt r == 0x11

/-- Every reference of a node. -/
def NodeRec.ins (n : NodeRec) : List Nat := [n.inA, n.inB, n.inC].filter (· != none16)
def NodeRec.outs (n : NodeRec) : List Nat := [n.out0, n.out1].filter (· != none16)

/-! ### Parameter ranges (Table 6.13, R195, R197) -/

/-- The checks of a node's parameter block; `o` is its offset in the image. DEDUCED [34]. -/
def paramChecks (m : SheetImg) (n : NodeRec) (o : Nat) : List (Bool × Nat) :=
  let b := m.block n
  let f (off len : Nat) : Nat := fld b off len
  let room (off len : Nat) : Bool := decide (off + len ≤ m.params.length)
  let cap := (m.buf n.out0).elim 0 (·.capacity)
  match n.unit with
  | 1 =>
    let p := warpP b
    [ (inR 1 p.w 8192, o), (inR 1 p.h 8192, o + 2)
    , (inR 1 p.bin 2 && !(p.bin == 2 && m.depthIn n.inA), o + 4)
    , (p.grid == 8 || p.grid == 16 || p.grid == 32, o + 5), (decide (p.fill ≤ 0xFFFE), o + 6)
    , (p.mapOff % 8 == 0 && room p.mapOff 0, o + 8)
    , (f 12 4 == p.entries && room p.mapOff (8 * p.entries), o + 12) ]
  | 2 =>
    let l := f 0 1
    let s := m.size n.inA
    [ (inR 1 l 8 && decide (8 ≤ levelSize s.1 l) && decide (8 ≤ levelSize s.2 l), o) ]
  | 3 =>
    let pairs := slice m.params (f 12 4) 1024
    [ (decide (f 0 1 ≤ m.levels n.inA), o), (inR 1 (f 1 1) 64, o + 1)
    , (fpPos (f16At b 2) && fpFinite (f16At b 2), o + 2), (inR 5 (f 4 1) 7, o + 4)
    , (inR 1 (f 5 1) 255, o + 5), (inR 1 (f 8 4) (min 65536 cap), o + 8)
    , (room (f 12 4) 1024 && pairs.all fun x => decide ((signedOf 8 x.toNat).natAbs ≤ 15), o + 12) ]
  | 4 =>
    [ (decide (f 0 2 ≤ 3839), o), (inR 16 (f 2 2) 256 && f 2 2 % 16 == 0 && decide (f 0 2 + f 2 2 ≤ 4095), o + 2)
    , (inR 1 (f 4 1) 63, o + 4), (decide (f 5 1 ≤ 4) || f 5 1 == 0xFF, o + 5)
    , (inR (f 4 1) (f 6 2) 1023, o + 6) ]
  | 5 =>
    [ (f 0 1 % 2 == 1 && inR 5 (f 0 1) 31, o), (decide (f 1 1 ≤ min (m.levels n.inA) (m.levels n.inB)), o + 1)
    , (inR 1 (f 2 1) 32, o + 2), (inR 1 (f 3 1) 64, o + 3), (inR 1 (f 4 2) 65535, o + 4)
    , (fpAbove (f16At b 6), o + 6), (inR 1 (f 8 4) (min 65536 cap), o + 8) ]
  | _ =>
    [ (fpPos (f32At b 0) && fpFinite (f32At b 0), o), (fpPos (f32At b 4) && fpFinite (f32At b 4), o + 4)
    , (fpFinite (f32At b 8), o + 8), (fpFinite (f32At b 12), o + 12), (fpAbove (f32At b 16), o + 16)
    , (inR 1 (f 20 1) 16, o + 20), (inR 1 (f 21 1) 32, o + 21), (inR 6 (f 24 4) 4194304, o + 24)
    , (fpAbove (f32At b 28), o + 28)
    , (fpNonneg (f32At b 32) && fpLe (f32At b 32) (fpNat 1), o + 32) ]

/-- R210: the offset of the first field outside its range. DEDUCED [33]. -/
def sheetRange (b : List Byte) : Option Nat :=
  match firstBad (headerChecks b) with
  | some o => some o
  | none =>
    let m := parseSheet b
    let slots := (List.range (fld b 12 1)).flatMap fun i =>
      [(inR 1 (fld b (68 + 8 * i) 1) 8, 68 + 8 * i), (fld b (69 + 8 * i) 3 == 0, 69 + 8 * i)]
    let nodes := (List.range (fld b 6 2)).flatMap fun i => nodeChecks b (nodeOff b i)
    let bufs := (List.range (fld b 8 2)).flatMap fun i => bufChecks b (bufOff b i)
    match firstBad (slots ++ nodes ++ bufs) with
    | some o => some o
    | none => firstBad (m.nodes.flatMap fun n => paramChecks m n (paramOff b + n.poff))

/-! ### The graph (R211, Table 6.12) -/

/-- A node's inputs and outputs against Table 6.12. -/
def ioOk (m : SheetImg) (n : NodeRec) : Bool :=
  let fmt := m.fmt
  let node (r f : Nat) : Bool := r != none16 && !m.isStream r && fmt r == f
  let no (r : Nat) : Bool := r == none16
  let out (r f : Nat) : Bool := node r f && (m.buf r).any fun x => x.kind == 1
  match n.unit with
  | 1 => n.inA != none16 && (m.isStream n.inA || fmt n.inA == 0x10 || fmt n.inA == 0x11) && no n.inB
      && no n.inC && out n.out0 (if m.depthIn n.inA then 0x11 else 0x10) && no n.out1
  | 2 => node n.inA 0x10 && no n.inB && no n.inC && out n.out0 0x12 && no n.out1
  | 3 => (node n.inA 0x12 || node n.inA 0x10) && no n.inB && no n.inC && out n.out0 0x20 && no n.out1
  | 4 => node n.inA 0x10 && node n.inB 0x10 && no n.inC && out n.out0 0x13 && out n.out1 0x14
      && m.size n.inA == m.size n.inB
  | 5 => node n.inA 0x12 && node n.inB 0x12 && isPrev n.inB && node n.inC 0x20 && isPrev n.inC
      && out n.out0 0x21 && no n.out1
  | _ => m.depthIn n.inA && node n.inB 0x11 && (no n.inC || node n.inC 0x23) && out n.out0 0x22 && no n.out1

/-- `PREV` stands only on flow inputs B and C, on buffers of at least two slots. -/
def prevOk (m : SheetImg) (n : NodeRec) : Bool :=
  let two (r : Nat) : Bool := !isPrev r || (m.buf r).any fun x => decide (2 ≤ x.slots)
  !isPrev n.inA && (n.unit == 5 || (!isPrev n.inB && !isPrev n.inC)) && two n.inB && two n.inC

/-- An output's size and level count agree with its node's parameters. -/
def sizeOk (m : SheetImg) (n : NodeRec) : Bool :=
  let b := m.block n
  match n.unit with
  | 1 => m.size n.out0 == (fld b 0 2, fld b 2 2)
  | 2 => m.size n.out0 == m.size n.inA && m.levels n.out0 == fld b 0 1
  | 4 => m.size n.out0 == m.size n.inA && m.size n.out1 == m.size n.inA
  | _ => true

/-- Nodes that write a buffer. -/
def writers (m : SheetImg) (buf : Nat) : List Nat :=
  (m.nodes.zipIdx.filter fun (n, _) => n.outs.any fun r => r % 512 == buf).map (·.2)

/-- Index of the first element that fails. -/
def firstIdx (l : List α) (ok : α → Nat → Bool) : Option Nat :=
  (l.zipIdx.find? fun (a, i) => !ok a i).map (·.2)

/-- R211: the index of the first failing node or buffer, its rules taken in their order. DEDUCED [33]. -/
def sheetGraph (m : SheetImg) : Option Nat :=
  let tests : List (Option Nat) :=
    [ firstIdx m.nodes fun n _ => ioOk m n
    , firstIdx m.bufs fun x i => decide ((writers m i).length ≤ 1) && (x.kind != 1 || (writers m i).length == 1)
    , firstIdx m.nodes fun n i => n.ins.all fun r => (m.buf r).all fun x =>
        x.kind != 1 || (writers m (r % 512)).all fun w => decide (w ≤ i)
    , firstIdx m.nodes fun n _ => prevOk m n
    , firstIdx m.bufs fun x i => x.flag == none16 || !((m.bufs.take i).any fun y => y.flag == x.flag)
    , firstIdx m.bufs fun x _ => x.kind != 2 || x.flag != none16
    , firstIdx m.bufs fun x _ => x.kind != 0 || x.flag == none16
    , firstIdx m.nodes fun n _ => sizeOk m n ]
  tests.findSome? id

/-! ### Claims (R189, R192, R205, R224, R225) -/

/-- Bytes of a plane (R189). -/
def planeBytes (w h px : Nat) : Nat := roundUp (w * px) 64 * h

/-- Bytes of one slot of a buffer (R189, R192, Table 6.2). -/
def slotBytes (x : BufRec) : Nat :=
  let arr (n : Nat) : Nat := roundUp (16 + x.capacity * n) 64
  match x.format with
  | 0x12 => ((List.range (x.levels + 1)).map fun k =>
      planeBytes (levelSize x.width k) (levelSize x.height k) 2).sum
  | 0x14 => planeBytes x.width x.height 1
  | 0x20 => arr 48
  | 0x21 => arr 8
  | 0x22 => arr 160
  | 0x23 => arr 48
  | _ => planeBytes x.width x.height 2

/-- Bytes of a buffer in the place given. -/
def bufBytes (place : Nat) (x : BufRec) : Nat :=
  if x.kind ≠ 0 ∧ x.place = place then x.slots * slotBytes x else 0

/-- Flags of a sheet in a cluster. -/
def SheetImg.flagsIn (m : SheetImg) (c : Nat) : Nat :=
  (m.bufs.filter fun x => x.cluster == c && x.flag != none16).length

/-- Stage-memory bytes of a sheet in a cluster: buffers and flags (R225). -/
def SheetImg.stageIn (m : SheetImg) (c : Nat) : Nat :=
  ((m.bufs.filter fun x => x.cluster == c).map (bufBytes 0)).sum + 16 * m.flagsIn c

/-- The stereo scratch (R205). -/
def SheetImg.scratch (m : SheetImg) : Nat :=
  (m.nodes.map fun n =>
    if n.unit = 4 then (m.size n.inA).1 * (m.size n.inA).2 * fld (m.block n) 2 2 * 2 else 0).foldl max 0

/-- Stacked bytes of a sheet: image, scratch and stacked buffers (R225). -/
def SheetImg.stacked (m : SheetImg) : Nat := m.len + m.scratch + (m.bufs.map (bufBytes 1)).sum

/-- All on-chip bytes of a sheet. -/
def SheetImg.onchip (m : SheetImg) : Nat := ((List.range 16).map m.stageIn).sum

/-- Pixels by which a node's line exceeds the widest that fits (R224, Table 6.15). -/
def lineShort (m : SheetImg) (n : NodeRec) : Nat :=
  let b := m.block n
  let w := (m.size n.inA).1
  match n.unit with
  | 1 =>
    let p := warpP b
    let h := (m.size n.inA).2
    let (w, h) := if p.bin = 2 then (w / 2, h / 2) else (w, h)
    w - 524288 / (2 * warpSpan p m.params h)
  | 2 => w - 262144 / 10
  | 3 => w - 262144 / 64
  | 4 => w - 1310720 / (6 * fld b 2 2)
  | _ => 0

/-- The first node that fails the line buffers. -/
def SheetImg.lineShort (m : SheetImg) : Nat := ((m.nodes.map (Machine.lineShort m)).find? (0 < ·)).getD 0

/-- Stage memory of a cluster (R404). -/
def stageCap : Nat := 4194304
/-- Cue flags of a cluster (R225). -/
def flagCap : Nat := 4096

/-- Stage-memory bytes in use in a cluster: on-chip allocations, packages with the sheets they
carry, and loaded sheets. -/
def stageUsed (c : Nat) (s : State) : Nat :=
  ((s.mem.allocs.filter fun a => a.onchip && a.cluster == c).map fun a =>
      (if a.flags.testBit 5 then 2 else 1) * granOn a.size).sum
    + ((s.tile.pkgs.map fun p => (if p.place.contains c then p.rs.stageBytes else 0)
        + (p.sheets.map fun m => m.stageIn c).sum)).sum
    + (s.sheets.map fun x => x.img.stageIn c).sum

/-- Cue flags in use in a cluster. -/
def flagsUsed (c : Nat) (s : State) : Nat :=
  ((s.tile.pkgs.map fun p => (if p.place.contains c then p.rs.pkgFlags else 0)
      + (p.sheets.map fun m => m.flagsIn c).sum)).sum
    + (s.sheets.map fun x => x.img.flagsIn c).sum

/-- Bytes free on chip over all clusters. -/
def onchipFree (s : State) : Nat := onchipCap - ((List.range 16).map (stageUsed · s)).sum

/-- The first cluster whose need exceeds what is free, as a shortfall. -/
def clusterShort (need' used : Nat → Nat) (cap : Nat) : Nat :=
  (((List.range 16).map fun c => if need' c = 0 then 0 else need' c + used c - cap).find? (0 < ·)).getD 0

/-- The fit checks of CUE_LOAD in the order of R89 (R225, R90). -/
def sheetFit (fn : Nat) (m : SheetImg) (s : State) : Except Fail Unit := do
  fits 0x003 (clusterShort m.stageIn (stageUsed · s) stageCap)
  fitsQuota fn 0 m.onchip s
  fitsQuota fn 1 m.stacked s
  fits 0x007 (clusterShort m.flagsIn (flagsUsed · s) flagCap)
  fits 0x009 (m.stacked - stackedFree s)
  fits 0x00A m.lineShort
  fits 0x00D (m.onchip - onchipFree s)

/-! ### CUE_LOAD (Table 6.16, R226) -/

def iCueLoad : CmdInfo :=
  { opcode := 0x0300, handle := .obj [1], inline := 1, dl := dlMs 1000, pay := .required
    range := fun c _ => decide (prm c 0 1 < 2) }

/-- An empty flag of a buffer (R220). -/
def freshFlags (m : SheetImg) : List CueFlag :=
  (List.range m.flags).map fun i =>
    { done := 0, status := stOk, slot := 0, released := 0
      writer := if m.bufs.any fun x => x.flag == i && x.kind == 2 then 1 else 0 }

/-- Empty buffers. -/
def freshBufs (m : SheetImg) : List BufRun :=
  m.bufs.map fun x =>
    { slots := List.replicate x.slots { set := 0, writing := false, status := stOk, bytes := [] }
      next := 0, stats := [] }

/-- A loaded sheet, not started. -/
def newSheet (slot : Nat) (m : SheetImg) : Sheet :=
  { slot, img := m, started := false, stopping := none, group := 0xFF, streams := []
    flags := freshFlags m, bufs := freshBufs m, sets := [], lastSet := 0, lastDone := 0
    skippedSets := 0, missingSets := 0, abandoned := 0, lastLat := 0, maxLat := 0, unmatched := 0
    prevOk := false, skips := [], t0s := [] }

/-- The checks of a sheet image before its fit (R210, R211): its records, or why it fails. DEDUCED [33]. -/
def checkSheet (b : List Byte) : Except Fail SheetImg :=
  match sheetRange b with
  | some o => .error { st := stRange, r0 := o, r1 := 0 }
  | none => match sheetGraph (parseSheet b) with
    | some i => .error { st := stCueGraph, r0 := i, r1 := 0 }
    | none => .ok (parseSheet b)

/-- CUE_LOAD (R210, R211, R224 to R226); the image is measured (R525). -/
def bodyCueLoad : Body := fun c s => do
  let m ← checkSheet c.pay
  quotaPair c.fn 0 m.onchip s
  quotaPair c.fn 1 m.stacked s
  limitCheck 4 s
  sheetFit c.fn m s
  if prm c 0 1 = 1 then .ok (s, okR 0 0) else
  let (slot, g, s) := newObj 4 (2 ^ 32) c.fn c.sess [] false m.onchip m.stacked s
  let s := charge c.fn 0 m.onchip (charge c.fn 1 m.stacked s)
  .ok (measure 7 (Config.sha3 c.pay) { s with sheets := s.sheets ++ [newSheet slot m] }, okR slot g)

def execCueLoad (r : ReqRef) (io : Io) (s : State) : Result := serve iCueLoad bodyCueLoad r io s

end Sys2Proof.Machine
end

