-- ==== Sys2Proof/Machine/Sched.lean ====
section
/-! DEFINITION. Solver schedule images (R321, R324, R327 to R330): their layout and checks, as SOLV_LOAD and
PKG_LOAD make them. -/
namespace Sys2Proof.Machine

/-! ### Kinds (Tables 10.2 and 10.3) -/

/-- Tangent dimension of a block kind; kind 5 has the dimension its record gives. -/
def tangentDim (kind dim : Nat) : Nat := natAt [0, 6, 3, 3, 6, dim] kind

/-- Words of a block's value layout. -/
def valueWords (kind dim : Nat) : Nat := natAt [0, 7, 3, 3, 6, dim] kind

/-- The block kinds of a factor kind, in order; kinds 1, 6 and 7 take what their rules say. -/
def factorKinds (kind : Nat) : List Nat :=
  match kind with
  | 2 => [1, 1]
  | 3 => [1, 2]
  | 4 => [1, 3, 4, 1, 3]
  | 5 => [1, 3, 1, 3]
  | _ => []

/-- `ARITY` of a factor kind in range. -/
def arityOk (kind arity : Nat) : Bool :=
  match kind with
  | 1 => arity == 1
  | 6 => arity == 2
  | 7 => inR 1 arity 6
  | k => arity == (factorKinds k).length

/-- Measurement words of a factor (Table 10.3) whose blocks have these kinds and dimensions. -/
def measWords (kind resDim : Nat) (bs : List BlockRec) : Nat :=
  match kind with
  | 1 => (bs.head?).elim 0 fun b => valueWords b.kind b.dim
  | 2 => 7
  | 3 => 18
  | 4 => 74
  | 5 => 1
  | 6 => resDim
  | _ => resDim + resDim * (bs.map (·.dim)).sum

/-- Payload words of a `SET_FACTOR` (R327): `HUBER`, the measurement, the upper triangle of Λ. -/
def factorWords (f : FactorRec) (bs : List BlockRec) : Nat :=
  1 + measWords f.kind f.resDim bs + f.resDim * (f.resDim + 1) / 2

/-! ### The header (Table 10.4) -/

/-- Offsets of the tables of an image. -/
def schBlocks (b : List Byte) : Nat := fld b 24 4
def schFactors (b : List Byte) : Nat := fld b 28 4
def blockOff (i : Nat) : Nat := 128 + 16 * i
def factorOff (b : List Byte) (i : Nat) : Nat := blockOff (schBlocks b) + 32 * i
def orderOff (b : List Byte) : Nat := factorOff b (schFactors b)

/-- Bits of a small number that are set. -/
def bitCount (n : Nat) : Nat := ((List.range 32).filter n.testBit).length

/-- Blocks that are not `FIXED`. -/
def freeBlocks (b : List Byte) : List Nat :=
  (List.range (schBlocks b)).filter fun i => !(fld b (blockOff i + 2) 1).testBit 0

/-- `IMAGE_LEN` by the parts of R328. -/
def schLen (b : List Byte) : Nat := roundUp (orderOff b + 4 * (freeBlocks b).length) 16 + fld b 60 4

/-- The mask names exactly the count of GSUs, all in one group (R321). -/
def gsuMaskOk (mask count : Nat) : Bool :=
  mask == 0 || (bitCount mask == count && (decide (mask < 16) || mask % 16 == 0))

/-- Header checks. -/
def schHeader (b : List Byte) (total : Nat) : List (Bool × Nat) :=
  let ar := fld b 7 1
  let me := fld b 11 1
  let l0 := f64At b 48
  [ (fld b 0 4 == 0x53434831, 0), (fld b 4 2 == 1, 4), (inR 1 (fld b 6 1) 2, 6), (decide (ar ≤ 2), 7)
  , (inR 1 (fld b 8 1) 4, 8), (gsuMaskOk (fld b 9 1) (fld b 8 1), 9), (inR 1 (fld b 10 1) 64, 10)
  , (decide (me < 4), 11), (if me.testBit 1 then inR 1 (fld b 12 2) 256 else fld b 12 2 == 0, 12)
  , (decide (fld b 14 1 ≤ 7), 14), (ar != 0 || decide (fld b 15 1 ≤ 60), 15)
  , (inR 1 (fld b 24 4) 1049600, 24), (inR 1 (fld b 28 4) 1048576, 28), (inR 1 (fld b 32 4) 10000000, 32)
  , (inR 4096 (fld b 36 4) 4194304, 36), (inR 4096 (fld b 40 8) 68719476736, 40)
  , (fld b 48 8 == 0 || (me.testBit 0 && fpPos l0 && fpFinite l0), 48), (decide (1 ≤ fld b 56 4), 56)
  , (inR 16 (fld b 60 4) 201326592 && fld b 60 4 % 16 == 0, 60)
  , (decide (fld b 64 4 ≤ 268435456) && fld b 64 4 == schLen b && fld b 64 4 == total, 64)
  , (fld b 68 60 == 0, 68) ]

/-! ### Tables (Tables 10.5 and 10.6) -/

/-- A block record's checks, at offset `o`. -/
def blockChecks (b : List Byte) (o : Nat) : List (Bool × Nat) :=
  let ar := fld b 7 1
  let k := fld b o 1
  let fl := fld b (o + 2) 1
  let mo := bitsOf fl 3 2
  let v := fld b (o + 4) 4
  let bd := f64At b (o + 8)
  [ (inR 1 k 5, o), (if k = 5 then inR 1 (fld b (o + 1) 1) 15 else fld b (o + 1) 1 == tangentDim k 0, o + 1)
  , (decide (fl < 16) && decide (mo ≤ 2) && (mo == 0 || k == 1), o + 2)
  , (decide (fld b (o + 3) 1 ≤ natAt [0, 63, 31] ar), o + 3)
  , (if mo = 2 then decide (schBlocks b ≤ v) || fld b (blockOff v) 1 == 3 else v == 0xFFFFFFFF, o + 4)
  , (if ar = 0 then fpNotNeg bd else fpPos bd && fpFinite bd, o + 8) ]

/-- A factor record's block indices. -/
def factorIdx (b : List Byte) (o : Nat) : List Nat := (List.range 6).map fun i => fld b (o + 4 + 4 * i) 4

/-- `RES_DIM` of a factor as Table 10.3 requires, where its blocks exist. -/
def resDimOk (b : List Byte) (kind resDim first : Nat) : Bool :=
  match kind with
  | 2 => resDim == 6
  | 3 => resDim == 2
  | 4 => resDim == 9
  | 5 => resDim == 6
  | 7 => inR 1 resDim 15
  | _ => decide (schBlocks b ≤ first) || resDim == fld b (blockOff first + 1) 1

/-- A factor record's checks, at offset `o`. -/
def factorChecks (b : List Byte) (o : Nat) : List (Bool × Nat) :=
  let k := fld b o 1
  let ar := fld b (o + 1) 1
  let idx := factorIdx b o
  [ (inR 1 k 7, o), (arityOk k ar, o + 1), (resDimOk b k (fld b (o + 2) 1) (natAt idx 0), o + 2)
  , (fld b (o + 3) 1 == 0, o + 3) ]
    ++ (List.range 6).map (fun i => (decide (i < ar) || natAt idx i == 0xFFFFFFFF, o + 4 + 4 * i))
    ++ [(fld b (o + 28) 4 == 0, o + 28)]

/-- The offset of the first header or table field out of range (R329 steps 1 and 2). -/
def schRange (b : List Byte) (total : Nat) : Option Nat :=
  match firstBad (schHeader b total) with
  | some o => some o
  | none => firstBad ((List.range (schBlocks b)).flatMap (fun i => blockChecks b (blockOff i))
      ++ (List.range (schFactors b)).flatMap fun i => factorChecks b (factorOff b i))

/-! ### Records and structure (R329 step 3) -/

/-- A parsed block record. -/
def parseBlock (b : List Byte) (o : Nat) : BlockRec :=
  let fl := fld b (o + 2) 1
  { kind := fld b o 1, dim := fld b (o + 1) 1, fixed := fl.testBit 0, marginal := fl.testBit 1
    motion := bitsOf fl 3 2, f := fld b (o + 3) 1, vel := fld b (o + 4) 4
    bound := BitVec.ofNat 64 (fld b (o + 8) 8) }

/-- A parsed factor record. -/
def parseFactor (b : List Byte) (o : Nat) : FactorRec :=
  { kind := fld b o 1, arity := fld b (o + 1) 1, resDim := fld b (o + 2) 1
    blocks := (factorIdx b o).take (fld b (o + 1) 1) }

/-- The image as records, with its defaults applied. -/
def parseSched (b : List Byte) : Sched :=
  let ar := fld b 7 1
  { cls := fld b 6 1, arith := ar, gsuCount := fld b 8 1, gsuMask := fld b 9 1, outer := fld b 10 1
    method := fld b 11 1, inner := fld b 12 2, designLevel := fld b 14 1
    floor := if fld b 15 1 = 0 then (if ar = 0 then 40 else 16) else fld b 15 1
    finger := BitVec.ofNat 64 (fld b 16 8), statedUs := fld b 32 4, gsuBytes := fld b 36 4
    valueBytes := fld b 40 8
    lambda0 := if fld b 48 8 = 0 then 0x3F1A36E2EB1C432D else BitVec.ofNat 64 (fld b 48 8)
    deadlineUs := fld b 56 4
    blocks := (List.range (schBlocks b)).map fun i => parseBlock b (blockOff i)
    factors := (List.range (schFactors b)).map fun i => parseFactor b (factorOff b i)
    order := (List.range (freeBlocks b).length).map fun i => fld b (orderOff b + 4 * i) 4
    len := fld b 64 4 }

/-- A block of a schedule. -/
def Sched.block (m : Sched) (i : Nat) : Option BlockRec := m.blocks[i]?

/-- A factor's blocks match its kind (Table 10.3). -/
def factorMatch (m : Sched) (f : FactorRec) : Bool :=
  let ks := f.blocks.map fun i => (m.block i).elim 0 (·.kind)
  let ds := f.blocks.map fun i => (m.block i).elim 0 (·.dim)
  f.blocks.all (fun i => decide (i < m.blocks.length)) && match f.kind with
    | 1 => true
    | 6 => ks[0]? == ks[1]? && inR 2 (natAt ks 0) 5 && ds[0]? == ds[1]?
    | 7 => true
    | k => ks == factorKinds k

/-- Factor kinds of a class (Table 10.1). -/
def classKind (cls kind : Nat) : Bool := if cls = 1 then kind != 3 else true

/-- Blocks of a schedule that are poses, points and others. -/
def blockCounts (m : Sched) : Nat × Nat × Nat :=
  let n (k : Nat) : Nat := (m.blocks.filter fun b => b.kind == k).length
  (n 1, n 2, m.blocks.length - n 1 - n 2)

/-- The block counts exceed the limits of the class (R321, Table 10.1). DEDUCED [254]. -/
def classOver (m : Sched) : Bool :=
  let (poses, points, others) := blockCounts m
  if m.cls = 1 then decide (65536 < poses) || decide (0 < points) || decide (65536 < others)
  else decide (512 < poses) || decide (1048576 < points) || decide (512 < others)

/-- The schedule lacks a block that its class has (Table 10.1). DEDUCED [254]. -/
def classLacks (m : Sched) : Bool :=
  let (poses, points, _) := blockCounts m
  poses == 0 || (m.cls == 2 && points == 0)

/-- The elimination order is a permutation of the blocks that are not `FIXED`: its first bad entry. -/
def orderBad (m : Sched) : Option Nat :=
  let free (i : Nat) : Bool := (m.block i).any fun b => !b.fixed
  firstIdx m.order fun b i => free b && !((m.order.take i).contains b)
    && (m.cls != 2 || (m.block b).any (fun x => x.kind != 2)
      || !((m.order.take i).any fun a => (m.block a).any fun x => x.kind == 1))

/-- R329 step 3 and R330: record index and table of the first breach. -/
def schStructure (b : List Byte) (m : Sched) : Option (Nat × Nat) :=
  let velBad := firstIdx m.blocks fun x _ => x.motion != 2 || decide (x.vel < m.blocks.length)
  let idxBad := firstIdx m.factors fun f _ => f.blocks.all fun i => decide (i < m.blocks.length)
  let kindBad := firstIdx m.factors fun f _ => factorMatch m f
  let classBad := firstIdx m.factors fun f _ => classKind m.cls f.kind
  let part := (List.range m.blocks.length).flatMap (fun i => slice b (blockOff i) 3)
    ++ (List.range m.factors.length).flatMap (fun i => slice b (factorOff b i) 3 ++ slice b (factorOff b i + 4) 24)
    ++ m.order.flatMap (leBytes 4)
  let finger := unle ((Config.sha3 part).take 8)
  [ velBad.map fun i => (i, 0), idxBad.map fun i => (i, 1), kindBad.map fun i => (i, 1)
  , if classLacks m then some (0, 0) else none, classBad.map fun i => (i, 1), (orderBad m).map fun i => (i, 2)
  , if m.finger.toNat = finger then none else some (0, 3) ].findSome? id

/-- The checks of a schedule before placement and fit: its records, or why it fails (R321, R329, R330).
 DEDUCED [254]. -/
def checkSched (b : List Byte) : Except Fail Sched :=
  match schRange b b.length with
  | some o => .error { st := stRange, r0 := o, r1 := 0 }
  | none =>
    if classOver (parseSched b) then .error { st := stRange, r0 := 24, r1 := 0 } else
    match schStructure b (parseSched b) with
    | some (i, t) => .error { st := stStructure, r0 := i, r1 := t }
    | none => .ok (parseSched b)

/-! ### GSUs (R323, R331) -/

/-- A GSU is fenced: its unit in group domain 88 or 89, or the whole group. -/
def gsuFenced (g : Nat) (s : State) : Bool :=
  let d := getDom (88 + g / 4) s
  d.test == 2 || d.fenced.testBit (g % 4)

/-- Schedule memory of a GSU (R320). -/
def gsuCap : Nat := 4194304

/-- Schedule memory in use on a GSU: resident problems, and packages' schedules not held by one. -/
def gsuUsed (g : Nat) (s : State) : Nat :=
  (s.probs.map fun p => if p.pkg.isNone ∧ p.gsus.contains g then p.sch.gsuBytes else 0).sum
    + (s.tile.pkgs.map fun k => if k.gsus.any fun (_, m) => m == g then k.rs.gsuBytes else 0).sum

/-- Free schedule memory of a GSU. -/
def gsuFree (g : Nat) (s : State) : Nat := gsuCap - gsuUsed g s

end Sys2Proof.Machine
end

