-- ==== Sys2Proof/Machine/Gsu.lean ====
section
/-! DEFINITION. What a graph solver unit computes (R324 to R327, R336 to R346): its arithmetic, the block updates, the
residuals of Table 10.3 with their Jacobians, the normal equations, LDL^T, the Schur complement and PCG. -/
namespace Sys2Proof.Machine

/-! ### Arithmetic (R286, R340 to R342, R346) -/

/-- The arithmetic of a schedule: its `ARITH`, what stands for its compiled program, and its `FLOOR`. -/
structure Ar where
  arith : Nat
  prog : Nat
  floor : Nat
deriving DecidableEq, Repr

/-- What a solve keeps while its program runs: the next free value, the place in the program, the block whose quantity
is formed, whether an FP64 intermediate was not finite, the blocks of saturations and of floored pivots, and whether a
curvature was not positive. -/
structure Calc where
  k : Nat
  op : Nat
  blk : Nat
  bad : Bool
  sats : List Nat
  pivots : List Nat
  cg : Bool
deriving DecidableEq, Repr

/-- A computation of a GSU. -/
abbrev Gsu := StateM Calc

def fp0 : Fp := .fin false 0 1
def fp1 : Fp := .fin false 1 1

/-- A value times two, exactly. -/
def fpTwice (v : Fp) : Fp := fpMul (fpNat 2) v

/-- Element `i` of a vector. -/
def fpAt (v : List Fp) (i : Nat) : Fp := v[i]?.getD fp0

/-- A value outside `w` bits at binary point `p` (R282, R283). -/
def fixOver (w p : Nat) (v : Fp) : Bool :=
  match v with
  | .nan => false
  | .inf _ => true
  | .fin neg a b =>
    let n := roundDiv .nearest neg (a * 2 ^ p) b
    if neg then decide (2 ^ (w - 1) < n) else decide (2 ^ (w - 1) ≤ n)

/-- Width of fixed-point values. -/
def Ar.width (a : Ar) : Nat := if a.arith = 1 then 64 else 32

/-- The program goes on at a place of its own: a phase and a record of it. Places are the same in every iteration, as
the binary points are fixed at compile time (R282). DESIGN CHOICE [247]. -/
def gPlace (phase i : Nat) : Gsu Unit := modify fun c => { c with op := (phase * 2 ^ 32 + i) * 2 ^ 32 }

/-- The quantities that follow are of a block. DEDUCED [252]. -/
def gBlock (b : Nat) : Gsu Unit := modify fun c => { c with blk := b }

/-- Counts a saturation. -/
def gSat : Gsu Unit := modify fun c => { c with sats := c.sats ++ [c.blk] }

/-- A free value. -/
def gFree : Gsu Nat := do
  let c ← get
  set { c with k := c.k + 1 }
  pure (Config.freeNat c.k)

/-- Rounds a result: FP64 by R286, noting what is not finite (R346); fixed point of `w` bits at the binary point that
the program gives the quantity (R282, R342). DESIGN CHOICE [247]. -/
def gRoundTo (a : Ar) (w : Nat) (v : Fp) : Gsu Fp := do
  let c ← get
  if a.arith = 0 then
    let r := fpDecode fp64 (fpIeee fp64 v)
    set { c with bad := c.bad || !fpFinite r }
    pure r
  else
    let p := Config.binaryPoint a.prog c.op % w
    set { c with op := c.op + 1, sats := if fixOver w p v then c.sats ++ [c.blk] else c.sats }
    pure (fixVal p (fixOf w p .nearest v))

/-- Rounds an operand or result. -/
def gRound (a : Ar) (v : Fp) : Gsu Fp := gRoundTo a a.width v

def gAdd (a : Ar) (x y : Fp) : Gsu Fp := gRound a (fpAdd x y)
def gSub (a : Ar) (x y : Fp) : Gsu Fp := gRound a (fpAdd x (fpNeg y))
def gMul (a : Ar) (x y : Fp) : Gsu Fp := gRound a (fpMul x y)

/-- A zero of either sign. -/
def fpIsZero : Fp → Bool
  | .fin _ n _ => n == 0
  | _ => false

/-- A value below zero. -/
def fpBelow (v : Fp) : Bool := fpLt v fp0

/-- A quotient (R286, R341). -/
def gDiv (a : Ar) (x y : Fp) : Gsu Fp := do
  if a.arith ≠ 0 && fpIsZero y then
    if fpIsZero x then do gSat; gRound a fp0 else gRound a (.inf (fpBelow x))
  else gRound a (fpDiv x y)

/-- A root to 300 fraction bits with a sticky part, from which every rounding is right. -/
def fineRoot (v : Fp) : Fp :=
  match v with
  | .fin false n d =>
    let x := n * 2 ^ 600 / d
    let r := isqrt x
    .fin false (2 * r + (if r * r * d = n * 2 ^ 600 then 0 else 1)) (2 ^ 301)
  | v => v

/-- A square root (R286, R341). -/
def gSqrt (a : Ar) (x : Fp) : Gsu Fp := do
  if a.arith = 0 then gRound a (fpDecode fp64 (fpSqrt fp64 x))
  else if fpBelow x then do gSat; gRound a fp0
  else gRound a (fineRoot x)

/-- acc + x × y: the accumulator is fixed-64 for fixed-32 operands (Table 8.3); whether an FP64 product is fused is the
compiled program's. DESIGN CHOICE [247]. -/
def gMac (a : Ar) (acc x y : Fp) : Gsu Fp := do
  if a.arith = 0 then
    let c ← get
    if Config.binaryPoint a.prog c.op % 2 = 0 then gRound a (fpAdd acc (fpMul x y))
    else do
      let p ← gMul a x y
      gAdd a acc p
  else do
    let p ← gRoundTo a 64 (fpMul x y)
    gRoundTo a 64 (fpAdd acc p)

/-- A chain of products added to an accumulator. -/
def gChain (a : Ar) : Fp → List (Fp × Fp) → Gsu Fp
  | acc, [] => pure acc
  | acc, (x, y) :: ps => do
    let acc ← gMac a acc x y
    gChain a acc ps

/-- A dot product; its terms meet in a free order (R287, R288). DESIGN CHOICE [247]. -/
def gDot (a : Ar) (xs ys : List Fp) : Gsu Fp := do
  let c ← get
  let ps := freeOrder c.k (xs.zip ys)
  set { c with k := c.k + ps.length }
  let r ← gChain a fp0 ps
  if a.arith = 2 then gRound a r else pure r

/-- A sum, in a free order. -/
def gSum (a : Ar) (xs : List Fp) : Gsu Fp := gDot a xs (xs.map fun _ => fp1)

/-- A result of which only the exact value is stated: the codes within 2 units in the last place of it in FP64, the
nearest value in fixed point; a free value where there is none. DESIGN CHOICE [249]. -/
def gReal (a : Ar) (v : Option Fp) : Gsu Fp := do
  let x ← gFree
  match v with
  | none => gRound a (fpDecode fp64 (x % 2 ^ 62))
  | some v =>
    if a.arith ≠ 0 || fpIsZero v then gRound a v
    else
      let cs := near2 fp64 v
      gRound a (fpDecode fp64 (natAt cs (x % cs.length)))

/-! ### Vectors and matrices -/

/-- A matrix as rows. -/
abbrev Mat := List (List Fp)

def mT (m : Mat) : Mat := (List.range (m.headD []).length).map fun j => m.map fun r => fpAt r j

def gMatVec (a : Ar) (m : Mat) (v : List Fp) : Gsu (List Fp) := m.mapM fun r => gDot a r v

def gMatMul (a : Ar) (m n : Mat) : Gsu Mat :=
  let cols := mT n
  m.mapM fun r => cols.mapM fun c => gDot a r c

def gVec (f : Fp → Fp → Gsu Fp) (u v : List Fp) : Gsu (List Fp) := (u.zip v).mapM fun (x, y) => f x y

def gMat (f : Fp → Fp → Gsu Fp) (m n : Mat) : Gsu Mat := (m.zip n).mapM fun (r, s) => gVec f r s

def gScale (a : Ar) (k : Fp) (m : Mat) : Gsu Mat := m.mapM fun r => r.mapM fun x => gMul a k x

def vNeg (v : List Fp) : List Fp := v.map fpNeg
def mNeg (m : Mat) : Mat := m.map vNeg

/-- The unit matrix. -/
def mOne (n : Nat) : Mat := (List.range n).map fun i => (List.range n).map fun j => if i = j then fp1 else fp0

/-- Zeros. -/
def mZero (n k : Nat) : Mat := List.replicate n (List.replicate k fp0)

/-- Two matrices side by side. -/
def mBeside (m n : Mat) : Mat := (m.zip n).map fun (r, s) => r ++ s

/-- The matrix of a cross product. -/
def mHat (v : List Fp) : Mat :=
  let x := fpAt v 0
  let y := fpAt v 1
  let z := fpAt v 2
  [[fp0, fpNeg z, y], [z, fp0, fpNeg x], [fpNeg y, x, fp0]]

/-! ### Functions of an angle: fixed point of 400 fraction bits -/

/-- Σ (-1)^i y^i / (2i + n)!, of the square y of an angle: its cosine with n = 0, then (sin θ)/θ, (1 − cos θ)/θ², ….
 DESIGN CHOICE [249]. -/
def angleFix (n : Nat) (y : Int) : Int :=
  seriesFix (fun i t => -mulFix t y / ((2 * i + n + 1) * (2 * i + n + 2) : Nat)) (fun _ t => t) 400 0
    (oneFix / (natAt [1, 1, 2, 6] n : Nat))

/-- A fixed-point number as a value. -/
def fixFp (x : Int) : Fp := .fin (decide (x < 0)) x.natAbs (2 ^ 400)

/-- The square of an angle below 64 in fixed point. DESIGN CHOICE [249]. -/
def squareFix (v : List Fp) : Option Int :=
  match fpSum (v.map fun x => fpMul x x) with
  | .fin _ n d => if n ≤ 4096 * d then some (ratFix false n d) else none
  | _ => none

/-- x / y in fixed point. -/
def divFix (x y : Int) : Int := x * oneFix / y

/-- (1 − A / (2 B)) / θ², with A = (sin θ)/θ and B = (1 − cos θ)/θ². -/
def invFix (y : Int) : Int :=
  if y < 2 ^ 300 then oneFix / 12 else divFix (oneFix - divFix (angleFix 1 y) (2 * angleFix 2 y)) y

/-- The factors of ad² and ad⁴ in the inverse of the right Jacobian of SE(3). -/
def jacFix (y : Int) : Int × Int :=
  if y < 2 ^ 340 then (oneFix / 12, -(oneFix / 720) - y / 15120) else
  let h := y / 4
  let c := angleFix 0 h
  let s := angleFix 1 h
  let value := divFix c s - oneFix
  let slope := -(-(mulFix s s) / 2 - mulFix c (divFix (c - s) (2 * h)))
  let slope := divFix slope (mulFix s s) / 4
  let b := -divFix (value + mulFix slope y) (mulFix y y)
  (slope + 2 * mulFix b y, b)

/-- The inverse tangent of a number from 0 to 1. -/
def atanUnit (x : Int) : Int :=
  let half (x : Int) : Int := divFix x (oneFix + isqrt ((oneFix + mulFix x x).toNat * 2 ^ 400))
  4 * atanFix true (half (half x))

/-- θ / sin(θ/2) of a unit quaternion with w ≥ 0, from w and the square of its vector part: what turns the vector part
into the rotation vector. -/
def logFix (w n2 : Int) : Int :=
  let n : Int := isqrt (n2.toNat * 2 ^ 400)
  if n2 < 2 ^ 100 then (if w = 0 then 0 else divFix (2 * oneFix) w)
  else if n ≤ w then divFix (2 * atanUnit (divFix n w)) n
  else divFix (piFix - 2 * atanUnit (divFix w n)) n

/-! ### Poses (Table 10.2) -/

/-- A pose: translation and quaternion w, x, y, z. -/
structure GPose where
  t : List Fp
  q : List Fp
deriving DecidableEq, Repr

def poseOf (v : List Fp) : GPose := { t := v.take 3, q := v.drop 3 }
def poseWords (p : GPose) : List Fp := p.t ++ p.q

def qConj (q : List Fp) : List Fp := fpAt q 0 :: vNeg (q.drop 1)

/-- The product of quaternions. -/
def gQuat (a : Ar) (p q : List Fp) : Gsu (List Fp) := do
  let (w, x, y, z) := (fpAt p 0, fpAt p 1, fpAt p 2, fpAt p 3)
  let r (row : List Fp) : Gsu Fp := gDot a row q
  let c0 ← r [w, fpNeg x, fpNeg y, fpNeg z]
  let c1 ← r [x, w, fpNeg z, y]
  let c2 ← r [y, z, w, fpNeg x]
  let c3 ← r [z, fpNeg y, x, w]
  pure [c0, c1, c2, c3]

/-- The rotation matrix of a unit quaternion. -/
def gRot (a : Ar) (q : List Fp) : Gsu Mat := do
  let (w, x, y, z) := (fpAt q 0, fpAt q 1, fpAt q 2, fpAt q 3)
  let diag (u v : Fp) : Gsu Fp := gDot a [fp1, fpNeg (fpTwice u), fpNeg (fpTwice v)] [fp1, u, v]
  let off (u v s t : Fp) : Gsu Fp := gDot a [fpTwice u, fpTwice s] [v, t]
  let r00 ← diag y z
  let r01 ← off x y (fpNeg w) z
  let r02 ← off x z w y
  let r10 ← off x y w z
  let r11 ← diag x z
  let r12 ← off y z (fpNeg w) x
  let r20 ← off x z (fpNeg w) y
  let r21 ← off y z w x
  let r22 ← diag x y
  pure [[r00, r01, r02], [r10, r11, r12], [r20, r21, r22]]

/-- Unit length and a non-negative w (R325). -/
def gNormal (a : Ar) (q : List Fp) : Gsu (List Fp) := do
  let n ← gDot a q q
  let n ← gSqrt a n
  let q ← q.mapM fun x => gDiv a x n
  pure (if fpBelow (fpAt q 0) then vNeg q else q)

/-- The rotation of a rotation vector, as a quaternion. -/
def gExpRot (a : Ar) (f : List Fp) : Gsu (List Fp) := do
  let h := (squareFix f).map (· / 4)
  let w ← gReal a (h.map fun y => fixFp (angleFix 0 y))
  let s ← gReal a (h.map fun y => fixFp (angleFix 1 y / 2))
  let v ← f.mapM fun x => gMul a s x
  pure (w :: v)

/-- t + B φ × t + C φ × (φ × t). -/
def gTwist (a : Ar) (b c : Fp) (f t : List Fp) : Gsu (List Fp) := do
  let u ← gMatVec a (mHat f) t
  let v ← gMatVec a (mHat f) u
  (t.zip (u.zip v)).mapM fun (x, y, z) => gDot a [fp1, b, c] [x, y, z]

/-- exp of a twist (ρ, φ). -/
def gExp (a : Ar) (d : List Fp) : Gsu GPose := do
  let f := d.drop 3
  let y := squareFix f
  let b ← gReal a (y.map fun y => fixFp (angleFix 2 y))
  let c ← gReal a (y.map fun y => fixFp (angleFix 3 y))
  let t ← gTwist a b c f (d.take 3)
  let q ← gExpRot a f
  pure { t, q }

/-- The rotation vector of a quaternion. -/
def gLogRot (a : Ar) (q : List Fp) : Gsu (List Fp) := do
  let q := if fpBelow (fpAt q 0) then vNeg q else q
  let v := q.drop 1
  let w := match fpAt q 0 with
    | .fin false n d => some (ratFix false n d)
    | _ => none
  let l ← gReal a (w.bind fun w => (squareFix v).map fun n2 => fixFp (logFix w n2))
  v.mapM fun x => gMul a l x

/-- log of a pose: the twist (ρ, φ). -/
def gLog (a : Ar) (p : GPose) : Gsu (List Fp) := do
  let f ← gLogRot a p.q
  let d ← gReal a ((squareFix f).map fun y => fixFp (invFix y))
  let t ← gTwist a (.fin true 1 2) d f p.t
  pure (t ++ f)

def gCompose (a : Ar) (p q : GPose) : Gsu GPose := do
  let r ← gRot a p.q
  let u ← gMatVec a r q.t
  let t ← gVec (gAdd a) p.t u
  let q ← gQuat a p.q q.q
  pure { t, q }

def gInverse (a : Ar) (p : GPose) : Gsu GPose := do
  let r ← gRot a p.q
  let t ← gMatVec a (mT r) p.t
  pure { t := vNeg t, q := qConj p.q }

/-- The adjoint of a twist. -/
def mAd (x : List Fp) : Mat :=
  let r := mHat (x.take 3)
  let f := mHat (x.drop 3)
  mBeside f r ++ mBeside (mZero 3 3) f

/-- The inverse of the right Jacobian of SE(3) at a twist. -/
def gJacInv (a : Ar) (x : List Fp) : Gsu Mat := do
  let y := squareFix (x.drop 3)
  let b ← gReal a (y.map fun y => fixFp (jacFix y).1)
  let d ← gReal a (y.map fun y => fixFp (jacFix y).2)
  let m := mAd x
  let m2 ← gMatMul a m m
  let m4 ← gMatMul a m2 m2
  ((mOne 6).zip (m.zip (m2.zip m4))).mapM fun (r, s, t, u) =>
    (r.zip (s.zip (t.zip u))).mapM fun (i, x, y, z) => gDot a [fp1, .fin false 1 2, b, d] [i, x, y, z]

/-- The inverse of the right Jacobian of SO(3) at a rotation vector. -/
def gJacRot (a : Ar) (f : List Fp) : Gsu Mat := do
  let d ← gReal a ((squareFix f).map fun y => fixFp (invFix y))
  let h := mHat f
  let h2 ← gMatMul a h h
  ((mOne 3).zip (h.zip h2)).mapM fun (r, s, t) =>
    (r.zip (s.zip t)).mapM fun (i, x, y) => gDot a [fp1, .fin false 1 2, d] [i, x, y]

/-- The right Jacobian of SO(3) at a rotation vector. -/
def gRightJac (a : Ar) (f : List Fp) : Gsu Mat := do
  let y := squareFix f
  let b ← gReal a (y.map fun y => fixFp (angleFix 2 y))
  let c ← gReal a (y.map fun y => fixFp (angleFix 3 y))
  let h := mHat f
  let h2 ← gMatMul a h h
  ((mOne 3).zip (h.zip h2)).mapM fun (r, s, t) =>
    (r.zip (s.zip t)).mapM fun (i, x, y) => gDot a [fp1, fpNeg b, c] [i, x, y]

/-- The adjoint of a pose. -/
def gAdjoint (a : Ar) (p : GPose) : Gsu Mat := do
  let r ← gRot a p.q
  let h ← gMatMul a (mHat p.t) r
  pure (mBeside r h ++ mBeside (mZero 3 3) r)

/-! ### Blocks (R324, R325, Table 10.2) -/

/-- x ⊟ z: the tangent from z to x. -/
def gMinus (a : Ar) (kind : Nat) (x z : List Fp) : Gsu (List Fp) := do
  if kind = 1 then
    let i ← gInverse a (poseOf z)
    let e ← gCompose a i (poseOf x)
    gLog a e
  else gVec (gSub a) x z

/-- x ⊞ δ: the update of a block. -/
def gPlus (a : Ar) (kind : Nat) (x d : List Fp) : Gsu (List Fp) := do
  if kind = 1 then
    let e ← gExp a d
    let p ← gCompose a (poseOf x) e
    let q ← gNormal a p.q
    pure (p.t ++ q)
  else gVec (gAdd a) x d

/-! ### Residuals and Jacobians (R327, Table 10.3) -/

/-- A factor's residual, and the computation of its Jacobian for each of its blocks in order. -/
structure Resid where
  r : List Fp
  js : Gsu (List Mat)

/-- Prior: x ⊟ z. -/
def residPrior (a : Ar) (kind : Nat) (x z : List Fp) : Gsu Resid := do
  let r ← gMinus a kind x z
  pure { r, js := if kind = 1 then do pure [← gJacInv a r] else pure [mOne x.length] }

/-- Relative pose: log(Z⁻¹ a⁻¹ b). -/
def residRelative (a : Ar) (x y z : List Fp) : Gsu Resid := do
  let ia ← gInverse a (poseOf x)
  let ab ← gCompose a ia (poseOf y)
  let iz ← gInverse a (poseOf z)
  let e ← gCompose a iz ab
  let r ← gLog a e
  pure { r, js := do
    let j ← gJacInv a r
    let ba ← gInverse a ab
    let ad ← gAdjoint a ba
    let ja ← gMatMul a j ad
    pure [mNeg ja, j] }

/-- Projection: π(c) − (u, v), with c = T_cam⁻¹ P⁻¹ p; nothing where c_z is below 10^-6 m. -/
def residProjection (a : Ar) (x p z : List Fp) : Gsu (Option Resid) := do
  let cam : Mat := (List.range 3).map fun i => (List.range 3).map fun j => fpAt z (6 + 4 * i + j)
  let off := (List.range 3).map fun i => fpAt z (6 + 4 * i + 3)
  let rp ← gRot a (x.drop 3)
  let d ← gVec (gSub a) p (x.take 3)
  let y ← gMatVec a (mT rp) d
  let yc ← gVec (gSub a) y off
  let c ← gMatVec a (mT cam) yc
  let depth := fpAt c 2
  if fpLt depth (.fin false 1 1000000) then pure none else do
    let (fx, fy) := (fpAt z 2, fpAt z 3)
    let nx ← gDiv a (fpAt c 0) depth
    let ny ← gDiv a (fpAt c 1) depth
    let u ← gDot a [fx, fp1, fpNeg fp1] [nx, fpAt z 4, fpAt z 0]
    let v ← gDot a [fy, fp1, fpNeg fp1] [ny, fpAt z 5, fpAt z 1]
    pure (some { r := [u, v], js := do
      let gx ← gDiv a fx depth
      let gy ← gDiv a fy depth
      let hx ← gMul a gx nx
      let hy ← gMul a gy ny
      let jp : Mat := [[gx, fp0, fpNeg hx], [fp0, gy, fpNeg hy]]
      let jc ← gMatMul a jp (mT cam)
      let jf ← gMatMul a jc (mHat y)
      let jq ← gMatMul a jc (mT rp)
      pure [mBeside (mNeg jc) jf, jq] })

/-- Constant velocity: (t_j − t_i − v_i Δt, v_j − v_i). -/
def residVelocity (a : Ar) (xi vi xj vj z : List Fp) : Gsu Resid := do
  let dt := fpAt z 0
  let r0 ← (List.range 3).mapM fun n => gDot a [fp1, fpNeg fp1, fpNeg (fpAt vi n)] [fpAt xj n, fpAt xi n, dt]
  let r1 ← gVec (gSub a) vj vi
  pure { r := r0 ++ r1, js := do
    let ri ← gRot a (xi.drop 3)
    let rj ← gRot a (xj.drop 3)
    let step : Mat := (List.range 3).map fun i => (List.range 3).map fun j => if i = j then fpNeg dt else fp0
    pure [ mBeside (mNeg ri) (mZero 3 3) ++ mZero 3 6, step ++ mNeg (mOne 3)
         , mBeside rj (mZero 3 3) ++ mZero 3 6, mZero 3 3 ++ mOne 3 ] }

/-- Between: b − a − z. -/
def residBetween (a : Ar) (x y z : List Fp) : Gsu Resid := do
  let r ← (List.range x.length).mapM fun n => gDot a [fp1, fpNeg fp1, fpNeg fp1] [fpAt y n, fpAt x n, fpAt z n]
  pure { r, js := pure [mNeg (mOne x.length), mOne x.length] }

/-- Linear: r0 + Σ J_k (x_k ⊟ x_k0). -/
def residLinear (a : Ar) (n : Nat) (kinds dims : List Nat) (xs x0s : List (List Fp)) (z : List Fp) : Gsu Resid := do
  let mats := (List.range dims.length).map fun k =>
    let o := n + n * (dims.take k).sum
    (List.range n).map fun i => (List.range (natAt dims k)).map fun j => fpAt z (o + i * natAt dims k + j)
  let ds ← (kinds.zip (xs.zip x0s)).mapM fun (k, x, x0) => gMinus a k x x0
  let terms ← (mats.zip ds).mapM fun (m, d) => gMatVec a m d
  let r ← (List.range n).mapM fun i => gSum a (fpAt z i :: terms.map fun t => fpAt t i)
  pure { r, js := (kinds.zip (mats.zip ds)).mapM fun (k, m, d) => do
    if k = 1 then
      let j ← gJacInv a d
      gMatMul a m j
    else pure m }

/-- IMU preintegration: rotation, velocity and position errors, bias-corrected to first order. -/
def residImu (a : Ar) (xi vi bi xj vj z : List Fp) : Gsu Resid := do
  let dt := fpAt z 0
  let g := (z.drop 1).take 3
  let db ← gVec (gSub a) bi ((z.drop 14).take 6)
  let jac : Mat := (List.range 9).map fun i => (z.drop (20 + 6 * i)).take 6
  let cr ← gMatVec a (jac.take 3) db
  let cv ← gMatVec a ((jac.drop 3).take 3) db
  let cp ← gMatVec a (jac.drop 6) db
  let eb ← gExpRot a cr
  let dr ← gQuat a ((z.drop 4).take 4) eb
  let ri ← gRot a (xi.drop 3)
  let rj ← gRot a (xj.drop 3)
  let qij ← gQuat a (qConj (xi.drop 3)) (xj.drop 3)
  let qe ← gQuat a (qConj dr) qij
  let er ← gLogRot a qe
  let half ← gMul a dt dt
  let sv ← (List.range 3).mapM fun n => gDot a [fp1, fpNeg fp1, fpNeg (fpAt g n)] [fpAt vj n, fpAt vi n, dt]
  let sp ← (List.range 3).mapM fun n =>
    gDot a [fp1, fpNeg fp1, fpNeg (fpAt vi n), fpMul (.fin true 1 2) (fpAt g n)] [fpAt xj n, fpAt xi n, dt, half]
  let wv ← gMatVec a (mT ri) sv
  let wp ← gMatVec a (mT ri) sp
  let ev ← (List.range 3).mapM fun n =>
    gDot a [fp1, fpNeg fp1, fpNeg fp1] [fpAt wv n, fpAt z (8 + n), fpAt cv n]
  let ep ← (List.range 3).mapM fun n =>
    gDot a [fp1, fpNeg fp1, fpNeg fp1] [fpAt wp n, fpAt z (11 + n), fpAt cp n]
  pure { r := er ++ ev ++ ep, js := do
    let jr ← gJacRot a er
    let rji ← gMatMul a (mT rj) ri
    let ji ← gMatMul a jr rji
    let rij ← gMatMul a (mT ri) rj
    let ex ← gExpRot a er
    let exm ← gRot a ex
    let rb ← gRightJac a cr
    let b0 ← gMatMul a jr (mT exm)
    let b1 ← gMatMul a b0 rb
    let jb ← gMatMul a b1 (jac.take 3)
    let rdt ← gScale a dt (mT ri)
    let z3 := mZero 3 3
    pure [ mBeside z3 (mNeg ji) ++ mBeside z3 (mHat wv) ++ mBeside (mNeg (mOne 3)) (mHat wp)
         , z3 ++ mNeg (mT ri) ++ mNeg rdt
         , mNeg jb ++ mNeg (jac.drop 3)
         , mBeside z3 jr ++ mZero 3 6 ++ mBeside rij z3
         , z3 ++ mT ri ++ z3 ] }

/-- The residual of a factor at an iterate, by its kind. DEDUCED [248]. -/
def gResid (a : Ar) (m : Sched) (f : FactorRec) (z : List Fp) (xs x0s : List (List Fp)) : Gsu (Option Resid) := do
  let bs := f.blocks.filterMap fun i => m.blocks[i]?
  let x (i : Nat) : List Fp := xs[i]?.getD []
  match f.kind with
  | 1 => pure (some (← residPrior a ((bs.head?).elim 0 (·.kind)) (x 0) z))
  | 2 => pure (some (← residRelative a (x 0) (x 1) z))
  | 3 => residProjection a (x 0) (x 1) z
  | 4 => pure (some (← residImu a (x 0) (x 1) (x 2) (x 3) (x 4) z))
  | 5 => pure (some (← residVelocity a (x 0) (x 1) (x 2) (x 3) z))
  | 6 => pure (some (← residBetween a (x 0) (x 1) z))
  | _ => pure (some (← residLinear a f.resDim (bs.map (·.kind)) (bs.map (·.dim)) xs x0s z))

/-! ### Costs (R326) -/

/-- A factor as the program has it: its record, `HUBER`, the measurement, Λ, and the x_k0 of a linear factor, in the
problem's arithmetic. -/
structure GFactor where
  i : Nat
  rec' : FactorRec
  huber : Fp
  z : List Fp
  info : Mat
  x0 : List (List Fp)
deriving DecidableEq, Repr

/-- An n × n matrix from its upper triangle row by row. -/
def symmetric (n : Nat) (tri : List Fp) : Mat :=
  let at' (i j : Nat) : Fp := fpAt tri (min i j * n - min i j * (min i j - 1) / 2 + (max i j - min i j))
  (List.range n).map fun i => (List.range n).map (at' i)

/-- ρ(e) and ρ'(e). -/
def gHuber (a : Ar) (k e : Fp) : Gsu (Fp × Fp) := do
  if fpIsZero k then pure (e, fp1) else
  let k2 ← gMul a k k
  if fpLe e k2 then pure (e, fp1) else
  let s ← gSqrt a e
  let c ← gDot a [fpTwice k, fpNeg fp1] [s, k2]
  let w ← gDiv a k s
  pure (c, w)

/-- The values of a factor's blocks. -/
def blockVals (f : FactorRec) (x : List (List Fp)) : List (List Fp) := f.blocks.map fun i => x[i]?.getD []

/-- The cost of the enabled factors at an iterate (R326). DEDUCED [251]. DEDUCED [252]. -/
def gCost (a : Ar) (m : Sched) (fs : List GFactor) (x : List (List Fp)) : Gsu Fp := do
  let cs ← fs.mapM fun f => do
    gPlace 1 f.i
    gBlock (natAt f.rec'.blocks 0)
    match ← gResid a m f.rec' f.z (blockVals f.rec' x) f.x0 with
    | none => pure fp0
    | some y =>
      let lr ← gMatVec a f.info y.r
      let e ← gDot a y.r lr
      let c ← gHuber a f.huber e
      pure c.1
  gPlace 2 0
  gSum a cs

/-! ### The normal equations (R336) -/

/-- A linearised factor: its blocks, w Jᵀ for each, Λ J for each, and Λ r. -/
structure Lin where
  i : Nat
  blocks : List Nat
  wjt : List Mat
  lj : List Mat
  lr : List Fp

/-- Linearises the enabled factors at an iterate. DEDUCED [248]. DEDUCED [252]. -/
def gLinear (a : Ar) (m : Sched) (fs : List GFactor) (x : List (List Fp)) : Gsu (List Lin) := do
  let ls ← fs.mapM fun f => do
    gPlace 3 f.i
    gBlock (natAt f.rec'.blocks 0)
    match ← gResid a m f.rec' f.z (blockVals f.rec' x) f.x0 with
    | none => pure none
    | some y =>
      let lr ← gMatVec a f.info y.r
      let e ← gDot a y.r lr
      let h ← gHuber a f.huber e
      let js ← y.js
      let lj ← js.mapM fun j => gMatMul a f.info j
      let wjt ← js.mapM fun j => gScale a h.2 (mT j)
      pure (some ({ i := f.i, blocks := f.rec'.blocks, wjt, lj, lr } : Lin))
  pure (ls.filterMap id)

/-- The sum of matrices of one shape, element by element. -/
def gSumMats (a : Ar) (n k : Nat) (ms : List Mat) : Gsu Mat :=
  (List.range n).mapM fun i => (List.range k).mapM fun j => gSum a (ms.map fun m => fpAt (m[i]?.getD []) j)

/-- One row of a system: its block, its coefficients over every unknown and its right side. -/
structure Row where
  blk : Nat
  cs : List Fp
  b : Fp
deriving DecidableEq, Repr

/-- The tangent dimension of a block. -/
def blockDim (m : Sched) (i : Nat) : Nat := (m.blocks[i]?).elim 0 fun b => tangentDim b.kind b.dim

/-- The block of H for the unknowns `i` and `j`. -/
def gHBlock (a : Ar) (m : Sched) (ls : List Lin) (i j : Nat) : Gsu Mat := do
  gPlace 4 (i * 2 ^ 24 + j)
  gBlock i
  let terms ← ls.mapM fun l => do
    let ps := (l.blocks.zip l.wjt).filter fun (b, _) => b == i
    let qs := (l.blocks.zip l.lj).filter fun (b, _) => b == j
    ps.flatMapM fun (_, p) => qs.mapM fun (_, q) => gMatMul a p q
  gSumMats a (blockDim m i) (blockDim m j) terms.flatten

/-- The block of −g for the unknown `i`. -/
def gGrad (a : Ar) (m : Sched) (ls : List Lin) (i : Nat) : Gsu (List Fp) := do
  gPlace 5 i
  gBlock i
  let terms ← ls.mapM fun l =>
    ((l.blocks.zip l.wjt).filter fun (b, _) => b == i).mapM fun (_, p) => gMatVec a p l.lr
  let s ← gSumMats a (blockDim m i) 1 (terms.flatten.map fun v => v.map fun x => [x])
  pure (vNeg (s.map fun r => fpAt r 0))

/-- The system H δ = −g over the unknowns, in the order given (R336). Only the upper triangle is formed.
 DEDUCED [248]. -/
def gSystem (a : Ar) (m : Sched) (ls : List Lin) (order : List Nat) : Gsu (List Row) := do
  let upper ← order.zipIdx.mapM fun (i, n) => do
    let bs ← (order.drop n).mapM fun j => gHBlock a m ls i j
    pure (i, bs)
  let hs := order.zipIdx.map fun (_, n) => (List.range order.length).map fun k =>
    if n ≤ k then (((upper[n]?).elim [] (·.2))[k - n]?).getD [] else mT ((((upper[k]?).elim [] (·.2))[n - k]?).getD [])
  let gs ← order.mapM fun i => gGrad a m ls i
  pure ((order.zip (hs.zip gs)).flatMap fun (i, h, g) =>
    (List.range (blockDim m i)).map fun r => { blk := i, cs := h.flatMap fun x => x[r]?.getD [], b := fpAt g r })

/-- The diagonal of a system. -/
def diagOf (rows : List Row) : List Fp := rows.zipIdx.map fun (r, i) => fpAt r.cs i

/-- A magnitude. -/
def fpAbs : Fp → Fp
  | .fin _ a b => .fin false a b
  | .inf _ => .inf false
  | v => v

/-- The largest magnitude of some values. -/
def fpMaxAbs (vs : List Fp) : Fp := vs.foldl (fun m v => if fpLt m (fpAbs v) then fpAbs v else m) fp0

/-- H + λ diag(H) (R337). -/
def gDamp (a : Ar) (lam : Fp) (rows : List Row) : Gsu (List Row) := do
  gPlace 6 0
  rows.zipIdx.mapM fun (r, i) => do
    gBlock r.blk
    let d ← gMac a (fpAt r.cs i) lam (fpAt r.cs i)
    pure { r with cs := r.cs.set i d }

/-! ### LDL^T with floored pivots (R338, R343) -/

/-- The floor of a system with FP64 arithmetic; fixed point has a floor at each pivot's binary point. -/
def floorOf (a : Ar) (diag : List Fp) : Fp :=
  fpDecode fp64 (fpIeee fp64 (fpMul (fpMaxAbs diag) (.fin false 1 (2 ^ a.floor))))

/-- A pivot below the floor is replaced by the floor with its sign (R343). -/
def gPivot (a : Ar) (floor : Fp) (blk : Nat) (d : Fp) : Gsu Fp := do
  let c ← get
  let fl := if a.arith = 0 then floor else .fin false a.floor (2 ^ (Config.binaryPoint a.prog c.op % a.width))
  if fpLt (fpAbs d) fl then do
    set { c with pivots := c.pivots ++ [blk] }
    pure (if fpBelow d then fpNeg fl else fl)
  else pure d

/-- Factors and solves a symmetric system by LDL^T in the order of its rows: each holds its block, its coefficients
from the diagonal on and its right sides; one solution vector comes for each row. DEDUCED [248]. -/
def gLdl (a : Ar) (floor : Fp) : Nat → List (Nat × List Fp × List Fp) → Gsu Mat
  | 0, _ => pure []
  | _ + 1, [] => pure []
  | n + 1, (blk, row, rhs) :: rows => do
    gBlock blk
    let d ← gPivot a floor blk (fpAt row 0)
    let rest := row.drop 1
    let ls ← rest.mapM fun x => gDiv a x d
    let below ← rows.zipIdx.mapM fun ((o, r, b), i) => do
      gBlock o
      let l := fpNeg (fpAt ls i)
      let r ← (r.zip (rest.drop i)).mapM fun (x, y) => gMac a x l y
      let b ← (b.zip rhs).mapM fun (x, y) => gMac a x l y
      pure (o, r, b)
    let xs ← gLdl a floor n below
    gBlock blk
    let x ← rhs.zipIdx.mapM fun (b, c) => do
      let z ← gDiv a b d
      gDot a (fp1 :: vNeg ls) (z :: xs.map fun v => fpAt v c)
    pure (x :: xs)

/-- The rows of a system as LDL^T takes them. -/
def ldlRows (rows : List Row) : List (Nat × List Fp × List Fp) := rows.zipIdx.map fun (r, i) => (r.blk, r.cs.drop i, [r.b])

/-- The solution of a system by LDL^T. -/
def gDirect (a : Ar) (rows : List Row) : Gsu (List Fp) := do
  gPlace 7 0
  let xs ← gLdl a (floorOf a (diagOf rows)) rows.length (ldlRows rows)
  pure (xs.map fun v => fpAt v 0)

/-! ### PCG (R338, R345) -/

/-- The diagonal blocks of a system: where each begins, and its rows over its own unknowns. -/
def diagBlocks (m : Sched) : Nat → Nat → List Row → List (Nat × List (Nat × List Fp))
  | 0, _, _ => []
  | _ + 1, _, [] => []
  | n + 1, at', r :: rows =>
    let d := max (blockDim m r.blk) 1
    let mine := (r :: rows).take d
    (at', mine.zipIdx.map fun (x, i) => (x.blk, ((x.cs.drop (at' + i)).take (d - i)))) :: diagBlocks m n (at' + d) ((r :: rows).drop d)

/-- The block-Jacobi preconditioner applied to a vector: each diagonal block is factored by LDL^T. DEDUCED [253]. -/
def gPrecond (a : Ar) (m : Sched) (rows : List Row) (r : List Fp) : Gsu (List Fp) := do
  gPlace 8 0
  let parts ← (diagBlocks m rows.length 0 rows).mapM fun (at', b) => do
    let fl := floorOf a (b.map fun (_, cs) => fpAt cs 0)
    let xs ← gLdl a fl b.length (b.zipIdx.map fun ((o, cs), i) => (o, cs, [fpAt r (at' + i)]))
    pure (xs.map fun v => fpAt v 0)
  pure parts.flatten

/-- `INNER` conjugate-gradient steps from the increment x with residual r, direction p and rᵀz. -/
def gCgSteps (a : Ar) (m : Sched) (rows : List Row) : Nat → List Fp → List Fp → List Fp → Fp → Gsu (List Fp)
  | 0, x, _, _, _ => pure x
  | n + 1, x, r, p, rz => do
    if r.all fpIsZero then pure x else
    gPlace 9 0
    let ap ← gMatVec a (rows.map (·.cs)) p
    let curve ← gDot a p ap
    if !fpLt fp0 curve then do
      modify fun c => { c with cg := true }
      pure x
    else do
      let al ← gDiv a rz curve
      let x ← (x.zip p).mapM fun (u, v) => gMac a u al v
      let r ← (r.zip ap).mapM fun (u, v) => gMac a u (fpNeg al) v
      let z ← gPrecond a m rows r
      gPlace 10 0
      let rz' ← gDot a r z
      let be ← gDiv a rz' rz
      let p ← (z.zip p).mapM fun (u, v) => gMac a u be v
      gCgSteps a m rows n x r p rz'

/-- The increment by PCG: the preconditioner's pivots are those of one factorisation. DEDUCED [248]. DEDUCED [253]. -/
def gPcg (a : Ar) (m : Sched) (rows : List Row) : Gsu (List Fp) := do
  let b := rows.map (·.b)
  if b.all fpIsZero then pure (b.map fun _ => fp0) else
  let z ← gPrecond a m rows b
  let c ← get
  let rz ← gDot a b z
  let x ← gCgSteps a m rows m.inner (b.map fun _ => fp0) b z rz
  modify fun e => { e with pivots := c.pivots }
  pure x

/-! ### One outer iteration (R336, R338, R339) -/

/-- Solves a system by `METHOD`. -/
def gMethod (a : Ar) (m : Sched) (rows : List Row) : Gsu (List Fp) :=
  if m.method.testBit 1 then gPcg a m rows else gDirect a rows

/-- Eliminates the first `n` point blocks, solves what remains and recovers the points' increments (R339).
 DEDUCED [248]. -/
def gSchur (a : Ar) (m : Sched) : Nat → List Row → Gsu (List Fp)
  | 0, rows => gMethod a m rows
  | n + 1, rows => do
    let top := rows.take 3
    gPlace 11 ((top.head?).elim 0 (·.blk))
    let fl := floorOf a (top.zipIdx.map fun (r, i) => fpAt r.cs i)
    let y ← gLdl a fl 3 (top.zipIdx.map fun (r, i) => (r.blk, (r.cs.take 3).drop i, r.cs.drop 3 ++ [r.b]))
    let cols := mT y
    let rest ← (rows.drop 3).mapM fun r => do
      gBlock r.blk
      let w := vNeg (r.cs.take 3)
      let sub (x : Fp) (c : List Fp) : Gsu Fp := gDot a (fp1 :: w) (x :: c)
      let cs ← ((r.cs.drop 3).zip cols).mapM fun (x, c) => sub x c
      let b ← sub r.b (cols.getLastD [])
      pure { r with cs, b }
    let dr ← gSchur a m n rest
    gPlace 12 ((top.head?).elim 0 (·.blk))
    let dp ← y.mapM fun v => gDot a (fp1 :: vNeg v.dropLast) (v.getLastD fp0 :: dr)
    pure (dp ++ dr)

/-- The unknowns in the order of elimination: in class 2 every point first (R339). -/
def unknowns (m : Sched) : List Nat :=
  let isPoint (i : Nat) : Bool := (m.blocks[i]?).any fun b => b.kind == 2
  if m.cls = 2 then m.order.filter isPoint ++ m.order.filter (!isPoint ·) else m.order

/-- Points among the unknowns of a class 2 schedule. -/
def pointCount (m : Sched) : Nat :=
  if m.cls = 2 then (m.order.filter fun i => (m.blocks[i]?).any fun b => b.kind == 2).length else 0

/-- The increments of the blocks, by block. -/
def splitSteps (m : Sched) : List Nat → List Fp → List (Nat × List Fp)
  | [], _ => []
  | i :: is, d => (i, d.take (blockDim m i)) :: splitSteps m is (d.drop (blockDim m i))

/-- Binary point of component `i` of a block's value (R340). -/
def blockPoint (m : Sched) (b : BlockRec) (i : Nat) : Nat :=
  if b.kind = 1 ∧ 3 ≤ i then (if m.arith = 1 then 62 else 30) else b.f

/-- Width of a schedule's fixed-point values. -/
def fixWidth (m : Sched) : Nat := if m.arith = 1 then 64 else 32

/-- A value at the binary point of a block's component. -/
def gStore (m : Sched) (b : BlockRec) (i : Nat) (v : Fp) : Gsu Fp := do
  if m.arith = 0 then pure v else
  let p := blockPoint m b i
  if fixOver (fixWidth m) p v then gSat
  pure (fixVal p (fixOf (fixWidth m) p .nearest v))

/-- The values after a step: every unknown updated, `FIXED` blocks held (R324, R325). -/
def gUpdate (a : Ar) (m : Sched) (x : List (List Fp)) (steps : List (Nat × List Fp)) : Gsu (List (List Fp)) :=
  (m.blocks.zip x).zipIdx.mapM fun ((b, v), i) => match steps.lookup i with
    | none => pure v
    | some d => do
      gPlace 13 i
      gBlock i
      let w ← gPlus a b.kind v d
      w.zipIdx.mapM fun (c, j) => gStore m b j c

/-- What a solve has come to: its values and their cost, λ as an FP64 code, the system last formed, the outer
iterations completed, and whether a value was not finite. -/
structure Progress where
  x : List (List Fp)
  cost : Fp
  lam : Nat
  sys : List Row
  done : Nat
  rolled : Bool
deriving DecidableEq, Repr

/-- FP64 codes of 10, 10^-12 and 10^12. -/
def w10 : Nat := 0x4024000000000000
def w1em12 : Nat := 0x3D719799812DEA11
def w1e12 : Nat := 0x426D1A94A2000000

/-- λ after a step (R337). -/
def nextLambda (lam : Nat) (taken : Bool) : Nat :=
  if taken then
    let l := flDiv fp64 lam w10
    if flLt fp64 l w1em12 then w1em12 else l
  else
    let l := flMul fp64 lam w10
    if flLt fp64 w1e12 l then w1e12 else l

/-- Levenberg-Marquardt. -/
def Sched.lm (m : Sched) : Bool := m.method.testBit 0

/-- One outer iteration (R336 to R339). DEDUCED [251]. -/
def gOuter (a : Ar) (m : Sched) (fs : List GFactor) (p : Progress) : Gsu Progress := do
  let ls ← gLinear a m fs p.x
  let h ← gSystem a m ls (unknowns m)
  let lam := if p.done = 0 then flMul fp64 m.lambda0.toNat (fpIeee fp64 (fpMaxAbs (diagOf h))) else p.lam
  let rows ← if m.lm then gDamp a (fpDecode fp64 lam) h else pure h
  let d ← gSchur a m (pointCount m) rows
  let x ← gUpdate a m p.x (splitSteps m (unknowns m) d)
  let cost ← gCost a m fs x
  let taken := !m.lm || fpLt cost p.cost
  let q := { p with sys := rows, lam := nextLambda lam taken, done := p.done + 1 }
  pure (if taken then { q with x, cost } else q)

/-- The outer iterations, ending at a value that is not finite: the values are then those of the last iterate accepted
before (R336, R346). -/
def gIterate (a : Ar) (m : Sched) (fs : List GFactor) : Nat → Progress → Gsu Progress
  | 0, p => pure p
  | n + 1, p => do
    let q ← gOuter a m fs p
    if (← get).bad then pure { p with rolled := true } else gIterate a m fs n q

/-! ### A solve -/

/-- FP64 value of a word. -/
def wordVal (w : W64) : Fp := fpDecode fp64 w.toNat

/-- The value that a block's stored word stands for: FP64, or a fixed-point integer at its binary point (R340). -/
def storedVal (m : Sched) (b : BlockRec) (i : Nat) (w : W64) : Fp :=
  if m.arith = 0 then wordVal w else fixVal (blockPoint m b i) (signedOf (fixWidth m) w.toNat)

/-- The stored word of a value (R283, R340). -/
def storedWord (m : Sched) (b : BlockRec) (i : Nat) (v : Fp) : W64 :=
  if m.arith = 0 then BitVec.ofNat 64 (fpIeee fp64 v)
  else BitVec.ofNat 64 (codeOf 64 (fixOf (fixWidth m) (blockPoint m b i) .nearest v))

/-- A stored word as FP64, as results carry it. -/
def resultWord (m : Sched) (b : BlockRec) (i : Nat) (w : W64) : W64 := BitVec.ofNat 64 (fpIeee fp64 (storedVal m b i w))

/-- The values of a block's stored words. -/
def storedVals (m : Sched) (b : BlockRec) (ws : List W64) : List Fp := ws.zipIdx.map fun (w, i) => storedVal m b i w

/-- Whether word `i` of a factor's payload is a component of a quaternion, whose binary point R340 fixes. -/
def payloadQuat (m : Sched) (f : FactorRec) (i : Nat) : Bool :=
  let pose := ((f.blocks[0]?).bind fun b => m.blocks[b]?).any fun b => b.kind == 1
  match f.kind with
  | 1 => pose && decide (4 ≤ i) && decide (i < 8)
  | 2 => decide (4 ≤ i) && decide (i < 8)
  | 4 => decide (5 ≤ i) && decide (i < 9)
  | _ => false

/-- The binary point of word `i` of a factor's payload: fixed for a quaternion, else the compiled program's.
 DESIGN CHOICE [64]. DESIGN CHOICE [247]. -/
def payloadPoint (m : Sched) (prog index i : Nat) : Nat :=
  if (m.factors[index]?).any fun f => payloadQuat m f i then (if m.arith = 1 then 62 else 30)
  else Config.binaryPoint prog (2 ^ 80 + index * 4096 + i) % fixWidth m

/-- A word of a payload in the problem's arithmetic (R283). -/
def payloadVal (m : Sched) (prog index i : Nat) (w : W64) : Fp :=
  if m.arith = 0 then wordVal w
  else
    let p := payloadPoint m prog index i
    fixVal p (fixOf (fixWidth m) p .nearest (wordVal w))

/-- The enabled factors of a problem. -/
def gFactors (m : Sched) (prog : Nat) (vals : List FactorVal) : List GFactor :=
  ((m.factors.zip vals).zipIdx.filter fun ((_, v), _) => v.enabled).map fun ((f, v), i) =>
    let ws := v.words.zipIdx.map fun (w, j) => payloadVal m prog i j w
    let bs := f.blocks.filterMap fun b => m.blocks[b]?
    let n := measWords f.kind f.resDim bs
    { i, rec' := f, huber := fpAt ws 0, z := (ws.drop 1).take n, info := symmetric f.resDim (ws.drop (1 + n))
      x0 := (bs.zip v.x0).map fun (b, x) => storedVals m b x }

/-- What a solve delivers. -/
structure Solved where
  values : List (List W64)
  cost0 : W64
  cost : W64
  done : Nat
  rolled : Bool
  cov : List (List W64)
  last : Calc
deriving DecidableEq, Repr

/-- The upper triangle of an n × n part of a matrix from index `at'` on. -/
def triAt (m : Mat) (at' n : Nat) : List Fp :=
  (List.range n).flatMap fun i => (List.range (n - i)).map fun j => fpAt (m[at' + i]?.getD []) (at' + i + j)

/-- Where the unknowns of a block begin. -/
def startOf (m : Sched) (i : Nat) : Nat := (((unknowns m).takeWhile (· != i)).map (blockDim m)).sum

/-- The tangent covariance of every `MARGINAL` block, from the system last factored (R361); none without LDL^T.
DEDUCED. DEDUCED [250]. -/
def gMarginals (a : Ar) (m : Sched) (sys : List Row) : Gsu (List (List Fp)) := do
  if m.method.testBit 1 || sys.isEmpty || !m.blocks.any (·.marginal) then pure (m.blocks.map fun _ => []) else
  gPlace 14 0
  let n := sys.length
  let rows := (sys.zip (mOne n)).zipIdx.map fun ((r, e), i) => (r.blk, r.cs.drop i, e)
  let inv ← gLdl a (floorOf a (diagOf sys)) n rows
  pure (m.blocks.zipIdx.map fun (b, i) =>
    if !b.marginal then []
    else if b.fixed then List.replicate (blockDim m i * (blockDim m i + 1) / 2) fp0
    else triAt inv (startOf m i) (blockDim m i))

/-- A whole solve from its starting values (R336 to R346). DEDUCED [251]. -/
def solveRun (m : Sched) (prog : Nat) (vals : List FactorVal) (base : List (List W64)) (c : Calc) : Solved :=
  let a : Ar := { arith := m.arith, prog, floor := m.floor }
  let fs := gFactors m prog vals
  let x0 := (m.blocks.zip base).map fun (b, ws) => storedVals m b ws
  let (cost0, c) := (gCost a m fs x0).run c
  let p0 : Progress := { x := x0, cost := cost0, lam := 0, sys := [], done := 0, rolled := c.bad }
  let (p, c) := if c.bad then (p0, c) else (gIterate a m fs m.outer p0).run c
  let (cov, e) := (gMarginals a m p.sys).run c
  let word (v : Fp) : W64 := BitVec.ofNat 64 (fpIeee fp64 v)
  { values := (m.blocks.zip p.x).map fun (b, v) => v.zipIdx.map fun (x, i) => storedWord m b i x
    cost0 := word cost0, cost := word p.cost, done := p.done, rolled := p.rolled
    cov := cov.map fun v => v.map word, last := { c with k := e.k } }

end Sys2Proof.Machine
end

