-- ==== Sys2Proof/Machine/Memory.lean ====
section
/-! DEFINITION. Allocations (R101 to R111, R404 to R410, R419 to R421, R580): the commands of group 0x09,
the BAR4 window (R35, R36) and moves between tiers (R407). -/
namespace Sys2Proof.Machine

/-! ### Allocations in the state -/

def getAlloc (slot : Nat) (s : State) : Option Alloc := s.mem.allocs.find? fun a => a.slot == slot

def updAlloc (slot : Nat) (f : Alloc → Alloc) (s : State) : State :=
  { s with mem.allocs := updIf (fun a => a.slot == slot) f s.mem.allocs }

/-- The flags of Table 3.12. -/
def Alloc.tierOnchip (a : Alloc) : Bool := a.flags.testBit 0
def Alloc.tierStacked (a : Alloc) : Bool := a.flags.testBit 1
def Alloc.pin (a : Alloc) : Bool := a.flags.testBit 2
def Alloc.compress (a : Alloc) : Bool := a.flags.testBit 3
def Alloc.critical (a : Alloc) : Bool := a.flags.testBit 5

/-- Granule-rounded bytes of an allocation in a tier, twice over with `CRITICAL` (R102). -/
def occupied (onchip critical : Bool) (size : Nat) : Nat :=
  (if critical then 2 else 1) * (if onchip then granOn size else granSt size)

/-- The words that a byte range touches. -/
def wordsOf (off len : Nat) : List Nat :=
  if len = 0 then [] else (List.range ((off + len - 1) / 4 - off / 4 + 1)).map fun i => off / 4 + i

/-- A word lies whole inside a byte range. -/
def wholeIn (off len w : Nat) : Bool := decide (off ≤ 4 * w) && decide (4 * w + 4 ≤ off + len)

/-- Writes bytes into an allocation: a whole-word write clears poison and makes a critical word's
pair good again; a narrower one leaves both marks (R409, R421). DESIGN CHOICE [2]. -/
def Alloc.write (off : Nat) (bs : List Byte) (a : Alloc) : Alloc :=
  { a with
    mem := memWrite a.mem off bs
    poison := a.poison.filter fun w => !wholeIn off bs.length w
    badPair := a.badPair.filter fun w => !wholeIn off bs.length w }

/-- The first poisoned word that a range touches. -/
def Alloc.firstPoison (off len : Nat) (a : Alloc) : Option Nat :=
  a.poison.find? fun w => (wordsOf off len).contains w

/-- A range touches a critical word whose pair is unusable (R421). -/
def Alloc.pairBad (off len : Nat) (a : Alloc) : Bool :=
  a.badPair.any fun w => (wordsOf off len).contains w

/-- What a read that meets a poisoned word leaves (R409, R427): a fault record and event 0x0901. The
word's place is a free value: placement is no user interface (R405). DEDUCED [31]. -/
def poisonMet (slot : Nat) (ended : Nat) (s : State) : State :=
  let on := (getAlloc slot s).any fun a => a.onchip
  let cl := (getAlloc slot s).elim 0 fun a => a.cluster
  let (x, s) := draw s
  let (y, s) := draw s
  let h := handleOf 13 slot s
  let f := mkFault 2 (if on then 2 else 0) (if on then cl else x % 32) (y % 2 ^ 38) (128 + x / 32 % 128) 2 h ended 0 s
  raiseOnce 0x0901 (13, slot) (fun n => n) (addFault f s)

/-- What a request that meets a poisoned word of an object in stacked memory leaves (R411, R427). -/
def objectPoison (ty slot ended : Nat) (s : State) : State :=
  let (x, s) := draw s
  raiseOnce 0x0901 (ty, slot) (fun n => n)
    (addFault (mkFault 2 0 (x % 32) (x / 32 % 2 ^ 38) 128 2 (handleOf ty slot s) ended 0 s) s)

/-- What a read that meets an unusable critical word leaves (R421). -/
def pairMet (slot : Nat) (ended : Nat) (s : State) : State :=
  let on := (getAlloc slot s).any fun a => a.onchip
  let (y, s) := draw s
  let cl := (getAlloc slot s).elim 0 fun a => a.cluster
  mismatch (if on then 2 else 0) (if on then cl else y / 2 ^ 38 % 32) (y % 2 ^ 38) (13, slot) ended s

/-- Reads a range in the device (R410, R420): its bytes, or the status that ends the reader. DEDUCED [31]. -/
def allocRead (slot off len : Nat) (s : State) : Except Fail (List Byte) :=
  match getAlloc slot s with
  | none => .error (err stState)
  | some a =>
    if a.pairBad off len then .error { err stIntegrity with fx := pairMet slot 1 }
    else if (a.firstPoison off len).isSome then .error { err stMedia with fx := poisonMet slot 1 }
    else .ok (memRead a.mem off len)

/-- An allocation named by an object of a session (R106): its own, or a `SHARED` one. -/
def allocUsable (o : Obj) (sess : Option Nat) : Bool := o.shared || o.sess == sess

/-! ### Placement (R101, R107) -/

/-- The largest free extent of a cluster's stage memory. DESIGN CHOICE [15]. -/
def extent (c : Nat) (s : State) : Nat :=
  let used := stageUsed c s
  let free := stageCap - used
  if used = 0 then free else free - Config.fragmented [0, c, used, s.obj.nextOrder] % (free + 1)

/-- Clusters whose stage memory can be used at all. -/
def stageClusters (s : State) : List Nat := (List.range 16).filter fun c => !domBarred (64 + c) s

/-- The cluster with the largest free extent, the lower number on a tie (R107). -/
def bestCluster (s : State) : Nat :=
  ((stageClusters s).foldl (fun best c => match best with
    | none => some c
    | some b => if extent b s < extent c s then some c else some b) none).getD 0

/-- What MEM_ALLOC asks for (Table 3.13). -/
structure AllocArgs where
  size : Nat
  flags : Nat
  align : Nat
  cluster : Nat
deriving DecidableEq, Repr

def allocArgs (c : Ctx) : AllocArgs :=
  { size := prm c 0 8, flags := prm c 8 4, align := prm c 12 1, cluster := prm c 13 1 }

/-- Field ranges of MEM_ALLOC (R101, R107, Tables 3.12 and 3.13). -/
def allocRange (a : AllocArgs) : Bool :=
  let f := a.flags.testBit
  inR 1 a.size (if f 0 then 4194304 else 68719476736) && decide (a.flags < 64) && inR 8 a.align 21
    && (decide (a.cluster ≤ 15) || a.cluster == 0xFF) && !(f 0 && f 1) && !(f 3 && f 0) && !(f 3 && f 5)
    && (a.cluster == 0xFF || f 0)

/-- The tier is on chip for this cluster and size: quota and capacity allow it. -/
def onchipOk (fn cl size : Nat) (critical : Bool) (s : State) : Bool :=
  quotaOver fn 0 (occupied true critical size) s == 0 && decide (occupied true critical size ≤ extent cl s)

/-- The tier is stacked: quota and capacity allow it. -/
def stackedOk (fn size : Nat) (critical : Bool) (s : State) : Bool :=
  quotaOver fn 1 (occupied false critical size) s == 0 && decide (occupied false critical size ≤ stackedFree s)

/-- The tier and cluster of an allocation (R101, R107). With neither tier flag set the tier is Stage
Manager's choice among those that take it: a free value. -/
def placeAlloc (fn : Nat) (a : AllocArgs) (s : State) : Bool × Nat × State :=
  let cl := if a.cluster = 0xFF then bestCluster s else a.cluster
  if a.flags.testBit 0 then (true, cl, s)
  else if a.flags.testBit 1 || a.flags.testBit 3 then (false, 0, s)
  else
    let crit := a.flags.testBit 5
    let (x, s) := draw s
    let on := onchipOk fn cl a.size crit s
    if on && (x % 2 == 0 || !stackedOk fn a.size crit s) then (true, cl, s) else (false, 0, s)

def iMemAlloc : CmdInfo :=
  { opcode := 0x0900, handle := .obj [1], inline := 14, dl := dlMs 100
    range := fun c _ => allocRange (allocArgs c)
    doms := fun c s =>
      let (on, cl, _) := placeAlloc c.fn (allocArgs c) s
      if on then [64 + cl] else [] }

/-- MEM_ALLOC (R101, R102, R107, R90). DESIGN CHOICE [206]. -/
def bodyMemAlloc : Body := fun c s => do
  let a := allocArgs c
  let crit := a.flags.testBit 5
  let (on, cl, s) := placeAlloc c.fn a s
  let tier := if on then 0 else 1
  let n := occupied on crit a.size
  quotaPair c.fn tier n s
  limitCheck 13 s
  need (quotaOver c.fn tier n s == 0) { err stQuota with fx := quotaRefused c.fn tier }
  if on then fits 0x00D (n - extent cl s) else fits 0x009 (n - stackedFree s)
  let (slot, g, s) := newObj 13 (2 ^ 32) c.fn c.sess [] (a.flags.testBit 4) (if on then n else 0) (if on then 0 else n) s
  let s := charge c.fn tier n s
  let rec' : Alloc :=
    { slot, size := a.size, onchip := on, flags := a.flags, align := a.align, cluster := cl, mapped := none
      sealed := none, mem := [], poison := [], badPair := [] }
  .ok ({ s with mem.allocs := s.mem.allocs ++ [rec'] }, okR slot g)

def execMemAlloc (r : ReqRef) (io : Io) (s : State) : Result := serve iMemAlloc bodyMemAlloc r io s

/-! ### Commands on an allocation -/

/-- A command on an allocation. -/
def memCmd (opcode ms inline : Nat) : CmdInfo := { opcode, handle := .obj [13], inline, dl := dlMs ms }

/-- The allocation a command names. -/
def allocArg (c : Ctx) (s : State) : Except Fail Alloc :=
  match getAlloc (objSlot c) s with
  | some a => .ok a
  | none => .error (err stState)

def iMemFree : CmdInfo := memCmd 0x0901 100 0

/-- MEM_FREE (R111, R77, R78). -/
def bodyMemFree : Body := fun c s => do
  let a ← allocArg c s
  need a.mapped.isNone (err stState)
  releaseBody c s

def execMemFree (r : ReqRef) (io : Io) (s : State) : Result := serve iMemFree bodyMemFree r io s

/-- Stage memory of an on-chip allocation. -/
def allocDoms (c : Ctx) (s : State) : List Nat :=
  (getAlloc (objSlot c) s).elim [] fun a => if a.onchip then [64 + a.cluster] else []

def iMemCopy : CmdInfo :=
  { memCmd 0x0902 10000 21 with
    range := fun c s => inR 1 (prm c 16 4) 4294967295 && decide (prm c 20 1 ≤ 1)
      && (getAlloc (objSlot c) s).all fun a => decide (prm c 8 8 + prm c 16 4 ≤ a.size)
    doms := allocDoms }

/-- A copy from the host (R108): every byte below the first failing read is written. -/
def copyIn (c : Ctx) (a : Alloc) (s : State) : State × Done :=
  let bs := c.io.payload.bytes.take (prm c 16 4)
  let s := updAlloc a.slot (Alloc.write (prm c 8 8) bs) s
  match c.io.payload.fail with
  | some f => (s, .reply (readFail f) bs.length 0 none)
  | none => (s, okR bs.length 0)

/-- A copy to the host (R108, R410): the bytes before the first poisoned word. -/
def copyOut (c : Ctx) (a : Alloc) (s : State) : State × Done :=
  let off := prm c 8 8
  let len := prm c 16 4
  match a.firstPoison off len with
  | some w =>
    let n := 4 * w - off
    (poisonMet a.slot 1 (dma c.fn (prm c 0 8) (memRead a.mem off n) s), .reply stMedia n 0 none)
  | none => (dma c.fn (prm c 0 8) (memRead a.mem off len) s, okR len 0)

/-- MEM_COPY (R108, R410, R577). -/
def bodyMemCopy : Body := fun c s => do
  let a ← allocArg c s
  need (getFn c.fn s).busMaster (err stState)
  if prm c 20 1 = 0 then
    need a.sealed.isNone (err stState)
    .ok (copyIn c a s)
  else
    need (!a.pairBad (prm c 8 8) (prm c 16 4)) { err stIntegrity with fx := pairMet a.slot 1 }
    .ok (copyOut c a s)

def execMemCopy (r : ReqRef) (io : Io) (s : State) : Result := serve iMemCopy bodyMemCopy r io s

def iMemSeal : CmdInfo := memCmd 0x0903 10000 0

/-- MEM_SEAL (R102, R415, R580). How far the data packs is Stage Manager's coding: a free value of
stored blocks, one for at most 16 units (R415). DESIGN CHOICE [202]. -/
def bodyMemSeal : Body := fun c s => do
  let a ← allocArg c s
  need (a.compress && a.sealed.isNone) (err stState)
  need a.poison.isEmpty { err stMedia with fx := poisonMet a.slot 1 }
  let units := ceilDiv a.size 4096
  let lo := ceilDiv units 16
  let (x, s) := draw s
  let n := lo + x % (units - lo + 1)
  let s := updAlloc a.slot (fun a => { a with sealed := some n }) s
  .ok (recharge 13 a.slot 0 (n * 4096) s, okR n 0)

def execMemSeal (r : ReqRef) (io : Io) (s : State) : Result := serve iMemSeal bodyMemSeal r io s

/-! ### The BAR4 window (R35, R36, R109, R111) -/

/-- Pages of a mapping. DEDUCED [30]. -/
def pagesOf (a : Alloc) : Nat := ceilDiv a.size 4096

/-- A page range of the window meets no mapping. DEDUCED [30]. -/
def windowFree (p n : Nat) (s : State) : Bool :=
  s.mem.allocs.all fun b => b.mapped.all fun q => decide (p + n ≤ q) || decide (q + pagesOf b ≤ p)

/-- Stage Manager's choice of a free range: a free value where that range is free, else the first
that starts at the window's beginning or behind a mapping. DEDUCED [30]. -/
def windowChoice (n : Nat) (s : State) : Option Nat × State :=
  let pages := s.link.bar4Size / 4096
  let (x, s) := draw s
  let fit (p : Nat) : Bool := decide (p + n ≤ pages) && windowFree p n s
  let c := x % (pages + 1)
  let ends := 0 :: s.mem.allocs.filterMap fun b => b.mapped.map fun q => q + pagesOf b
  (if fit c then some c else ends.find? fit, s)

def iMemMapBar4 : CmdInfo :=
  { memCmd 0x0904 100 4 with
    pfOnly := true
    range := fun c s => prm c 0 4 == 0xFFFFFFFF
      || (getAlloc (objSlot c) s).all fun a => decide (prm c 0 4 + pagesOf a ≤ s.link.bar4Size / 4096) }

/-- MEM_MAP_BAR4 (R109). -/
def bodyMemMapBar4 : Body := fun c s => do
  let a ← allocArg c s
  need (a.tierStacked && !a.compress && !a.critical && a.mapped.isNone) (err stState)
  let n := pagesOf a
  let map (p : Nat) (s : State) : State × Done :=
    (updAlloc a.slot (fun a => { a with mapped := some p }) s, okR p 0)
  if prm c 0 4 = 0xFFFFFFFF then
    match windowChoice n s with
    | (some p, s) => .ok (map p s)
    | (none, _) => .error (err stState)
  else
    need (windowFree (prm c 0 4) n s) (err stState)
    .ok (map (prm c 0 4) s)

def execMemMapBar4 (r : ReqRef) (io : Io) (s : State) : Result := serve iMemMapBar4 bodyMemMapBar4 r io s

def iMemUnmapBar4 : CmdInfo := memCmd 0x0905 100 0

/-- MEM_UNMAP_BAR4 (R109). -/
def bodyMemUnmapBar4 : Body := fun c s => do
  let a ← allocArg c s
  need a.mapped.isSome (err stState)
  .ok (updAlloc a.slot (fun a => { a with mapped := none }) s, okR 0 0)

def execMemUnmapBar4 (r : ReqRef) (io : Io) (s : State) : Result := serve iMemUnmapBar4 bodyMemUnmapBar4 r io s

/-- The allocation that maps a byte range of the window, and the range's offset in it. DEDUCED [48]. -/
def bar4Hit (off len : Nat) (s : State) : Option (Alloc × Nat) :=
  s.mem.allocs.findSome? fun a => a.mapped.bind fun p =>
    if p * 4096 ≤ off ∧ off + len ≤ p * 4096 + a.size then some (a, off - p * 4096) else none

/-- Counts an access that meets no mapping (R35). DEDUCED [48]. -/
def bar4Miss (s : State) : State := { s with link.bar4Miss := sat32 s.link.bar4Miss 1 }

/-- BAR4_ACCESS (R35, R36, R409). DEDUCED [48]. -/
def execBar4Access (off : Nat) (acc : Bar4Access) (s : State) : Result :=
  ended (if !s.link.up then s else
    match acc with
    | .read len => match bar4Hit off len s with
      | none => emit (.bar4 (List.replicate len 0xFF)) (bar4Miss s)
      | some (a, o) =>
        if (a.firstPoison o len).isSome then emit .poisonedTlp (poisonMet a.slot 0 s)
        else emit (.bar4 (memRead a.mem o len)) s
    | .write bs => match bar4Hit off bs.length s with
      | none => bar4Miss s
      | some (a, o) => updAlloc a.slot (Alloc.write o bs) s)

/-- BAR4_MISS_READ: the counter is read and cleared (R35, Table 2.5). -/
def execBar4MissRead (s : State) : Result :=
  .next (if s.link.up then emit (.read s.link.bar4Miss) { s with link.bar4Miss := 0 } else s)

/-! ### Quotas and statistics (R103 to R105, R110) -/

/-- The capacity of a tier. -/
def tierCap (tier : Nat) (s : State) : Nat := if tier = 0 then onchipCap else s.mem.stackedCap

/-- What a function's objects occupy in a tier (R105); other members' shards are the physical function's (R452). -/
def recount (fn tier : Nat) (s : State) : Nat :=
  ((s.obj.objs.filter fun o => o.fn == fn).map fun o => if tier = 0 then o.chOn else o.chSt).sum
    + if fn = 0 ∧ tier = 1 then heldBytes s else 0

def iMemQuotaSet : CmdInfo :=
  { opcode := 0x0906, handle := .admin, inline := 12, dl := dlMs 100
    range := fun c s => decide (prm c 0 1 ≤ 31) && decide (prm c 1 1 ≤ 1) && prm c 2 2 == 0
      && decide (prm c 4 8 ≤ tierCap (prm c 1 1) s) }

/-- MEM_QUOTA_SET (R103 to R105): the counter is rebuilt by recounting. -/
def bodyMemQuotaSet : Body := fun c s =>
  let fn := prm c 0 1
  let tier := prm c 1 1
  .ok (updQuota fn tier (fun q => { q with quota := prm c 4 8, used := Comp.of (recount fn tier s) }) s, okR 0 0)

def execMemQuotaSet (r : ReqRef) (io : Io) (s : State) : Result := serve iMemQuotaSet bodyMemQuotaSet r io s

def iMemQuotaQuery : CmdInfo :=
  { opcode := 0x0907, handle := .obj [1], inline := 14, dl := dlMs 100, res := resMin 32
    auth := fun c _ => c.fn == 0 || prm c 12 1 == c.fn
    range := fun c _ => decide (prm c 12 1 ≤ 31) && decide (prm c 13 1 ≤ 1) }

/-- MEM_QUOTA_QUERY (R105, R110). -/
def bodyMemQuotaQuery : Body := fun c s => do
  let fn := prm c 12 1
  let tier := prm c 13 1
  quotaPair fn tier 1 s
  let q := getQuota fn tier s
  .ok (s, okD 0 0 (leBytes 8 q.quota ++ leBytes 8 q.used.n ++ leBytes 8 q.peak ++ leBytes 8 q.refused))

def execMemQuotaQuery (r : ReqRef) (io : Io) (s : State) : Result := serve iMemQuotaQuery bodyMemQuotaQuery r io s

/-- Bytes that sealed allocations and packages' tensor blocks save by compression. DEDUCED [32]. -/
def savedBytes (s : State) : Nat :=
  (s.mem.allocs.map fun a => a.sealed.elim 0 fun n => granSt a.size - n * 4096).sum
    + (s.tile.pkgs.map fun p => (p.blocks.map fun b => (b.units - 1) * 4096).sum).sum

/-- The largest free extent of the stacked tier. DESIGN CHOICE [15]. -/
def stackedExtent (s : State) : Nat :=
  if stackedUsed s = 0 then stackedFree s
  else stackedFree s - Config.fragmented [1, stackedUsed s, s.obj.nextOrder] % (stackedFree s + 1)

/-- The MEM_STATS record (Table 3.13). DEDUCED [32]. -/
def statsRecord (s : State) : List Byte :=
  let on := [onchipCap, ((List.range 16).map (stageUsed · s)).sum, ((List.range 16).map (extent · s)).foldl max 0, 0, 0]
  let st := [s.mem.stackedCap, stackedUsed s, stackedExtent s, s.mem.quarStacked, savedBytes s]
  (on ++ st).flatMap (leBytes 8) ++ zeros 176

def iMemStats : CmdInfo :=
  { opcode := 0x0908, handle := .obj [1], inline := 12, dl := dlMs 100, res := resMin 256 }

/-- MEM_STATS. -/
def bodyMemStats : Body := fun _ s => .ok (s, okD 0 0 (statsRecord s))

def execMemStats (r : ReqRef) (io : Io) (s : State) : Result := serve iMemStats bodyMemStats r io s

/-! ### Moves (R407) -/

/-- An allocation is in use (R407). -/
def allocInUse (slot : Nat) (s : State) : Bool :=
  (s.link.reqs.any fun q => q.phase == .running && (getObj 13 slot s).any (namesObj q))
    || (s.tile.insts.any fun i => i.binds.any fun (t, n, _) => t == 13 && n == slot)
    || (getAlloc slot s).any fun a => a.mapped.isSome

/-- Moves an allocation to the other tier; poison goes with its words (R407, R410). -/
def moveAlloc (a : Alloc) (fn : Nat) (s : State) : State :=
  let cl := bestCluster s
  let crit := a.critical
  if a.onchip then
    if stackedOk fn a.size crit s then
      recharge 13 a.slot 0 (occupied false crit a.size) (updAlloc a.slot (fun a => { a with onchip := false, cluster := 0 }) s)
    else s
  else if a.size ≤ 4194304 ∧ onchipOk fn cl a.size crit s ∧ domOn (64 + cl) s then
    recharge 13 a.slot (occupied true crit a.size) 0 (updAlloc a.slot (fun a => { a with onchip := true, cluster := cl }) s)
  else s

/-- ALLOC_MOVE (R101, R407). -/
def execAllocMove (slot : Nat) (s : State) : Result :=
  .next (match getAlloc slot s, getObj 13 slot s with
    | some a, some o =>
      if a.tierOnchip || a.tierStacked || a.pin || a.compress || allocInUse slot s
          || (a.onchip && !domOn (64 + a.cluster) s) then s
      else moveAlloc a o.fn s
    | _, _ => s)

end Sys2Proof.Machine
end

