-- ==== Sys2Proof/Machine/Blocks.lean ====
section
/-! DEFINITION. The lossless block code (R415 to R417), the retirement pool (R413, R414) and the quarantine
of tensor blocks (R423). -/
namespace Sys2Proof.Machine

/-! ### The decoder (R416, R417) -/

/-- Copies `n` bytes one at a time from `d` back in the output, which is kept newest first. -/
def copyBack (d : Nat) : Nat → List Byte → List Byte
  | 0, out => out
  | n + 1, out => copyBack d n ((out[d - 1]?).getD 0 :: out)

/-- Decodes tokens; the output is kept newest first. `fuel` bounds the tokens by the code's bytes. -/
def decodeTokens (limit : Nat) : Nat → List Byte → List Byte → Option (List Byte)
  | 0, _, _ => none
  | fuel + 1, code, out =>
    match code with
    | [] => none
    | t :: rest =>
      let n := t.toNat % 64
      if limit < out.length then none else
      match t.toNat / 64 with
      | 0 => if rest.length < n + 1 then none
             else decodeTokens limit fuel (rest.drop (n + 1)) ((rest.take (n + 1)).reverse ++ out)
      | 1 => match rest with
        | a :: b :: rest =>
          let d := a.toNat + 256 * b.toNat
          if d = 0 ∨ out.length < d then none else decodeTokens limit fuel rest (copyBack d (n + 4) out)
        | _ => none
      | 2 => match rest with
        | a :: rest => decodeTokens limit fuel rest (List.replicate (n + 3) a ++ out)
        | [] => none
      | _ => if t = 0xFF ∧ rest.isEmpty then some out.reverse else none

/-- One stored block's output: its units, checked against its CRC (R416, R417). -/
def decodeBlock (mode units codeLen crc : Nat) (stored : List Byte) : Option (List Byte) :=
  let code := stored.take codeLen
  let out := if mode = 0 then some code else decodeTokens (units * 4096) (codeLen + 1) code []
  match out with
  | some o => if o.length = units * 4096 ∧ crc32c o = crc then some o else none
  | none => none

/-! ### Granules (R406, R413, R414) -/

/-- Counts quarantined bytes of the stacked tier (Table 12.7). -/
def quarantineBytes (n : Nat) (s : State) : State := { s with mem.quarStacked := s.mem.quarStacked + n }

/-- R414: the pool below 1,024 granules takes free granules of the stacked tier, at most 1,024 at a
time. -/
def refillPool (s : State) : State :=
  if 1024 ≤ s.mem.pool then s else
  let n := min 1024 (stackedFree s / 4096)
  let s := { s with mem := { s.mem with pool := s.mem.pool + n, stackedCap := s.mem.stackedCap - n * 4096 } }
  let s := addFault (mkFault 10 0 0 0 0 0 0 0 0 s) (quarantineBytes (n * 4096) s)
  raise 0x0906 s.mem.pool none s

/-- Takes a granule of the pool, refilling it first where it is low (R413, R414). DESIGN CHOICE [195]. -/
def takeGranule (s : State) : Option State :=
  let s := if s.mem.pool = 0 ∧ 4096 ≤ stackedFree s then refillPool s else s
  if s.mem.pool = 0 then none else
  some (refillPool { s with mem.pool := s.mem.pool - 1 })

/-! ### Quarantine (R423, R424) -/

def getPkg (slot : Nat) (s : State) : Option Pkg := s.tile.pkgs.find? fun p => p.slot == slot

def updPkg (slot : Nat) (f : Pkg → Pkg) (s : State) : State :=
  { s with tile.pkgs := updIf (fun p => p.slot == slot) f s.tile.pkgs }

/-- Block indexes of a package that are quarantined and not given up. -/
def quarantined (p : Pkg) : List Nat :=
  (p.blocks.zipIdx.filter fun (b, _) => b.quarAt.isSome && !b.dead).map (·.2)

/-- Starts a refetch pass when none runs and a block waits for one (R424). -/
def startRefetch (slot : Nat) (s : State) : State :=
  updPkg slot (fun p =>
    if p.refetch.isNone && !(quarantined p).isEmpty then
      { p with refetch := some { failures := 0, retryAt := none, blocks := quarantined p } }
    else p) s

/-- Quarantines a tensor block (R423): its granule is retired without a copy, event 0x0902 is raised and
a refetch is started. -/
def quarantine (slot i : Nat) (s : State) : State :=
  match (getPkg slot s).bind fun p => p.blocks[i]? with
  | none => s
  | some b =>
    if b.quarAt.isSome then s else
    let (x, s) := draw s
    let h := handleOf 5 slot s
    let s := addFault (mkFault 4 0 (x % 32) (x / 32 % 2 ^ 38) 0 4 h 0 0 s) (quarantineBytes 4096 s)
    let s := updPkg slot (fun p => { p with blocks := p.blocks.modify i fun b => { b with quarAt := some s.time.mono } }) s
    startRefetch slot (raise 0x0902 i (some (5, slot)) s)

end Sys2Proof.Machine
end

