-- ==== Sys2Proof/Machine/CueRun.lean ====
section
/-! DEFINITION. The cue engine (R187, R188, R196, R212 to R223): frame sets, nodes on their units, buffer
slots and cue flags; the rows that move them and the other commands of group 0x03. -/
namespace Sys2Proof.Machine

/-! ### Sheets in the state -/

def getSheet (slot : Nat) (s : State) : Option Sheet := s.sheets.find? fun x => x.slot == slot

def updSheet (slot : Nat) (f : Sheet → Sheet) (s : State) : State :=
  { s with sheets := updIf (fun x => x.slot == slot) f s.sheets }

/-- Whether set a is later than set b (R220). -/
def seqLater (a b : Nat) : Bool := decide (0 < signedOf 32 (a + 2 ^ 32 - b % 2 ^ 32))

/-- Set a has been reached by b: b is a or later (R220). DEDUCED [55]. -/
def seqReached (a b : Nat) : Bool := !seqLater a b

/-- The number after a set's (R220). -/
def nextSet (n : Nat) : Nat := if n ≥ 0xFFFFFFFF then 1 else n + 1

/-- The number before a set's. -/
def prevSet (n : Nat) : Nat := if n ≤ 1 then 0xFFFFFFFF else n - 1

/-- A set in flight. -/
def Sheet.getSet (sh : Sheet) (n : Nat) : Option FrameSet := sh.sets.find? fun x => x.n == n

/-- Changes a set in flight. -/
def Sheet.updSet (sh : Sheet) (n : Nat) (f : FrameSet → FrameSet) : Sheet :=
  { sh with sets := updIf (fun x => x.n == n) f sh.sets }

/-- The flag of a buffer. -/
def Sheet.flagOf (sh : Sheet) (buf : Nat) : Option CueFlag :=
  (sh.img.bufs[buf]?).bind fun x => if x.flag = none16 then none else sh.flags[x.flag]?

def isDone : NodeSt → Bool
  | .done _ => true
  | _ => false

/-- A node that has not started. -/
def isWaiting : NodeSt → Bool
  | .idle => true
  | .met => true
  | _ => false

/-- Where a node of a set stands. -/
def FrameSet.node (fs : FrameSet) (i : Nat) : NodeSt := (fs.nodes[i]?).getD .idle

/-! ### Inputs (R212 to R216, R223) -/

/-- The frame in a stream's ring buffer, and whether it is complete. -/
def ringFrame (slot buf : Nat) (s : State) : Option (Frame × Bool) :=
  (getStream slot s).bind fun x => (x.ring[buf]?).bind fun b => match b with
    | .claimed f => some (f, false)
    | .held f => some (f, true)
    | .free => none

/-- What a frame contributes (R215, Table 4.7). -/
def frameStatus (f : Frame) : Nat := if f.desync then stDesync else if f.incomplete then stPartial else stOk

/-- The frame that a set has in a stream slot. -/
def setFrame (sh : Sheet) (fs : FrameSet) (sslot : Nat) (s : State) : Option (Frame × Bool) :=
  match fs.frames[sslot]?, sh.streams[sslot]? with
  | some (.matched b), some x => ringFrame x b s
  | _, _ => none

/-- The status of a node's input once it is known; `absent` marks a `PREV` input without a slot
(R216). -/
structure InSt where
  st : Nat
  absent : Bool
deriving DecidableEq, Repr

/-- Slot and status of an external input as the node's wait met it (R223). -/
def extInput (fs : FrameSet) (i ref : Nat) : Option (Nat × Nat) :=
  (fs.ext.find? fun x => x.1 == i && x.2.1 == ref % 512).map (·.2.2)

/-- An input of a node: none while it is not complete. -/
def inputSt (sh : Sheet) (fs : FrameSet) (i ref : Nat) (s : State) : Option InSt :=
  match sh.img.buf ref with
  | none => none
  | some x =>
    let run := sh.bufs[ref % 512]?
    match x.kind with
    | 0 => match fs.frames[x.sslot]? with
      | some .missing => some { st := stTimeout, absent := false }
      | _ => match setFrame sh fs x.sslot s with
        | some (f, true) => some { st := frameStatus f, absent := false }
        | _ => none
    | 2 =>
      if isPrev ref && !fs.prevOk then some { st := stPartial, absent := true }
      else (extInput fs i ref).map fun (_, st) => { st, absent := false }
    | _ =>
      if isPrev ref then
        if !fs.prevOk then some { st := stPartial, absent := true } else
        match run.bind fun r => r.stats.lookup (prevSet fs.n) with
        | some st => some { st, absent := false }
        | none => if (sh.getSet (prevSet fs.n)).isSome then none else some { st := stPartial, absent := true }
      else (run.bind fun r => r.stats.lookup fs.n).map fun st => { st, absent := false }

/-- The inputs of node `i`. -/
def inputs (sh : Sheet) (fs : FrameSet) (i : Nat) (s : State) : List (Option InSt) :=
  (sh.img.nodes[i]?).elim [] fun n => n.ins.map fun r => inputSt sh fs i r s

/-- The error on an input that keeps the node from running (R215); of several met together, the lowest code
(R19). -/
def inputError (sh : Sheet) (fs : FrameSet) (i : Nat) (s : State) : Option Nat :=
  ((inputs sh fs i s).filterMap fun o => o.bind fun x =>
    if isErr x.st && x.st != stDesync then some x.st else none).min?

/-- A node reads an external buffer (R223). -/
def readsExternal (m : SheetImg) (n : NodeRec) : Bool := n.ins.any fun r => (m.buf r).any fun x => x.kind == 2

/-! ### Completing nodes (R215, R219 to R221) -/

/-- What a completed node leaves in one output: its slot's bytes, none when it did not run. -/
abbrev OutData := Option (List Byte)

/-- Writes one output buffer of a node of set n: the slot, then its flag (R221). DEDUCED [41]. -/
def writeOut (n ref st : Nat) (d : OutData) (sh : Sheet) : Sheet :=
  let b := ref % 512
  match sh.bufs[b]? with
  | none => sh
  | some r =>
    let mine := r.slots.findIdx? fun x => x.set == n && x.writing
    let fill (x : BufSlot) : BufSlot := match d with
      | some bytes => { x with writing := false, status := st, bytes }
      | none => { x with writing := false, status := st }
    let r := { r with slots := updIf (fun x => x.set == n && x.writing) fill r.slots
                      stats := (n, st) :: r.stats.take 7 }
    let flag (f : CueFlag) : CueFlag := { f with done := n, status := st, slot := mine.getD f.slot }
    let fi := (sh.img.bufs[b]?).elim none16 (·.flag)
    { sh with bufs := sh.bufs.set b r, flags := sh.flags.modify fi flag }

/-- Completes node `i` of set `n` with one status for its outputs. -/
def finishNode (n i st : Nat) (ds : List OutData) (sh : Sheet) : Sheet :=
  let outs := (sh.img.nodes[i]?).elim [] NodeRec.outs
  let sh := (outs.zipIdx).foldl (fun sh (r, k) => writeOut n r st ((ds[k]?).getD none) sh) sh
  sh.updSet n fun fs => { fs with nodes := fs.nodes.set i (.done st) }

/-- In each set's order, older sets first: the same node of an older set is done. DEDUCED [42]. -/
def olderDone (sh : Sheet) (fs : FrameSet) (i : Nat) : Bool :=
  (sh.sets.takeWhile fun x => x.n != fs.n).all fun x => isDone (x.node i)

/-- The unit that works on a node is free again. -/
def freeUnit (slot n i : Nat) (s : State) : State :=
  { s with vis := s.vis.filter fun u => !(u.sheet == slot && u.set == n && u.node == i) }

/-- Nodes that meet an error on an input do not run, or run no further; their outputs carry it (R215).
DEDUCED [41]. -/
def spreadErrors (slot : Nat) (s : State) : State :=
  match getSheet slot s with
  | none => s
  | some sh0 =>
    let pairs := sh0.sets.flatMap fun fs => (List.range sh0.img.nodes.length).map fun i => (fs.n, i)
    pairs.foldl (fun s (n, i) => match getSheet slot s with
      | none => s
      | some sh => match sh.getSet n with
        | none => s
        | some fs =>
          if !isDone (fs.node i) && olderDone sh fs i then
            match inputError sh fs i s with
            | some st => updSheet slot (finishNode n i st []) (freeUnit slot n i s)
            | none => s
          else s) s

/-! ### Frames (R212, R214, R218) -/

/-- A ring buffer is used by a set of the sheet. -/
def frameUsed (sh : Sheet) (stream buf : Nat) : Bool :=
  sh.sets.any fun fs => (fs.frames.zipIdx).any fun (f, i) =>
    f == .matched buf && sh.streams[i]? == some stream

/-- Releases a stream frame: at once when it is complete, at its end while it is in progress. DEDUCED [40]. -/
def releaseFrame (stream buf : Nat) (s : State) : State :=
  match ringFrame stream buf s with
  | some (_, true) => freeBuf stream buf s
  | some (_, false) => updStream stream (fun x => { x with relEnd := buf :: x.relEnd }) s
  | none => s

/-- Nodes of a sheet that read a stream slot. -/
def slotReaders (m : SheetImg) (sslot : Nat) : List Nat :=
  (m.nodes.zipIdx.filter fun (n, _) => n.ins.any fun r =>
    (m.buf r).any fun x => x.kind == 0 && x.sslot == sslot).map (·.2)

/-- Every node that reads a frame, in whatever slot and set holds it, has completed (R218). -/
def readersDone (sh : Sheet) (stream : Option Nat) (buf : Nat) : Bool :=
  sh.sets.all fun fs => (fs.frames.zipIdx).all fun (f, i) =>
    f != .matched buf || sh.streams[i]? != stream || (slotReaders sh.img i).all fun k => isDone (fs.node k)

/-- R218: releases the frames of a set whose readers have all completed. -/
def releaseSetFrames (slot : Nat) (s : State) : State :=
  match getSheet slot s with
  | none => s
  | some sh =>
    let due := sh.sets.flatMap fun fs => (fs.frames.zipIdx).filterMap fun (f, i) => match f with
      | .matched b => if readersDone sh sh.streams[i]? b then some (fs.n, i, b) else none
      | _ => none
    due.foldl (fun s (n, i, b) =>
      let s := updSheet slot (fun sh => sh.updSet n fun fs => { fs with frames := fs.frames.set i .released }) s
      match sh.streams[i]? with
      | some x => releaseFrame x b s
      | none => s) s

/-- Two instants lie within a set's matching window (R212). -/
def within (a b matchNs : Nat) : Bool := decide (a ≤ b + matchNs * 65536) && decide (b ≤ a + matchNs * 65536)

/-- A frame of a bound stream that no set uses: freed when it belongs to
a skipped trigger frame (R214), or when no set can match it any more (R212). -/
def sweepFrame (slot stream buf : Nat) (s : State) : State :=
  match getSheet slot s, ringFrame stream buf s with
  | some sh, some (f, true) =>
    if frameUsed sh stream buf then s
    else if sh.skips.any fun t => within t f.stamp.t sh.img.matchNs then freeBuf stream buf s
    else if f.stamp.t + sh.img.matchNs * 65536 < s.time.now then
      let s := freeBuf stream buf s
      let s := updSheet slot (fun sh => { sh with unmatched := sh.unmatched + 1 }) s
      let s := updStream stream (fun x => { x with unmatched := x.unmatched + 1 }) s
      raiseOnce 0x0304 (2, stream) (fun n => n) s
    else s
  | _, _ => s

/-- Goes through the frames of every stream that a started sheet binds. DEDUCED [40]. -/
def sweepFrames (slot : Nat) (s : State) : State :=
  match getSheet slot s with
  | none => s
  | some sh => (sh.streams.eraseDups).foldl (fun s x =>
      let n := (getStream x s).elim 0 fun y => y.ring.length
      (List.range n).foldl (fun s b => sweepFrame slot x b s) s) s

/-! ### Sets -/

/-- The last set that every flag of the sheet has reached, 0 before the first (Table 6.17); a sheet without
flags has written them all when its nodes have completed. -/
def flagsReached (sh : Sheet) : Nat :=
  let used := (sh.img.bufs.filter fun x => x.flag != none16).filterMap fun x => sh.flags[x.flag]?
  match used.map (·.done) with
  | [] => ((sh.sets.filter fun fs => fs.nodes.all isDone).getLast?).elim sh.lastDone (·.n)
  | d :: ds => if (d :: ds).contains 0 then 0 else ds.foldl (fun a b => if seqLater a b then b else a) d

/-- Notes the last set with every flag written, and its time from t_n to its last flag (Table 6.17). -/
def noteFlags (now : Nat) (sh : Sheet) : Sheet :=
  let n := flagsReached sh
  match sh.t0s.lookup n with
  | some (_, t0) =>
    if n = sh.lastDone then sh else
    { sh with lastDone := n, lastLat := usOf (now - t0), maxLat := max (usOf (now - t0)) sh.maxLat }
  | none => sh

/-- Sets whose every node has completed leave the sheet. -/
def finishSets (slot : Nat) (s : State) : State :=
  updSheet slot (fun sh =>
    let sh := noteFlags s.time.mono sh
    { sh with sets := sh.sets.filter fun fs => !(fs.nodes.all isDone) }) s

/-- Unbinds a stopped sheet (R228). -/
def unbind (slot : Nat) (s : State) : State :=
  let s := { s with vis := s.vis.filter fun u => u.sheet != slot }
  updObj 4 slot (fun o => { o with deps := o.deps.filter fun d => d.1 != 2 })
    (updSheet slot (fun sh => { sh with
      started := false, stopping := none, group := 0xFF, streams := [], sets := []
      skips := [] }) s)

/-- A draining sheet that has no set left completes its CUE_STOP (R228). -/
def finishStop (slot : Nat) (s : State) : State :=
  match getSheet slot s with
  | some sh => match sh.stopping with
    | some r => if sh.sets.isEmpty then postRef r stOk sh.lastSet 0 none (unbind slot s) else s
    | none => s
  | none => s

/-! ### Units (R185, R187, R196) -/

/-- Units of a kind in a group (Table 6.1). -/
def unitCount (kind : Nat) : Nat := natAt [0, 2, 2, 2, 1, 1, 1] kind

/-- Bands of a node, 0 for a node that runs from start to end (R185). -/
def nodeBands (m : SheetImg) (n : NodeRec) : Nat :=
  let h := (m.size n.inA).2
  let levels (l : Nat) : Nat := ((List.range (l + 1)).map fun k => bandsOf (levelSize h k)).sum
  match n.unit with
  | 1 => bandsOf (fld (m.block n) 2 2)
  | 2 => levels (fld (m.block n) 0 1)
  | 3 => levels (fld (m.block n) 0 1)
  | _ => 0

/-- Bands that the producer of a buffer has finished in a set. -/
def producerBands (sh : Sheet) (fs : FrameSet) (ref : Nat) : Nat × Nat :=
  match writers sh.img (ref % 512) with
  | w :: _ =>
    let total := (sh.img.nodes[w]?).elim 0 (nodeBands sh.img)
    (match fs.node w with
      | .running b => b
      | .done _ => total
      | _ => 0, total)
  | [] => (0, 0)

/-- Whether band `k` of a streaming node is ready before its input is complete (R196). DEDUCED [39]. -/
def bandReady (sh : Sheet) (fs : FrameSet) (n : NodeRec) (k : Nat) (s : State) : Bool :=
  match sh.img.buf n.inA with
  | none => false
  | some x =>
    if x.kind = 0 then
      match setFrame sh fs x.sslot s with
      | some (f, full) =>
        full || decide (bandNeeds (warpP (sh.img.block n)) sh.img.params (sh.img.size n.inA).2 k + 1 ≤ f.lines)
      | none => false
    else
      let (b, total) := producerBands sh fs n.inA
      decide (0 < b) && decide (min (k + 2) total ≤ b)

/-- All inputs of a node are complete. -/
def allIn (sh : Sheet) (fs : FrameSet) (i : Nat) (s : State) : Bool := (inputs sh fs i s).all Option.isSome

/-- A slot of a buffer is held (R219). -/
def slotHeld (sh : Sheet) (b : Nat) (x : BufSlot) : Bool :=
  let m := x.set
  if m = 0 then false else
  let reads (prev : Bool) : List Nat := (sh.img.nodes.zipIdx.filter fun (n, _) =>
    n.ins.any fun r => r % 512 == b && isPrev r == prev).map (·.2)
  let busy (n : Nat) (ks : List Nat) : Bool :=
    (sh.getSet n).any fun fs => ks.any fun k => !isDone (fs.node k)
  let later := sh.lastSet == m && sh.prevOk && !(reads true).isEmpty && sh.started && sh.stopping.isNone
  let rel := (sh.img.bufs[b]?).any fun r => r.release
  x.writing || busy m (reads false) || busy (nextSet m) (reads true) || later
    || (rel && (sh.flagOf b).any fun f => !seqReached m f.released)

/-- The next slot of every output of a node is free. -/
def outsFree (sh : Sheet) (n : NodeRec) : Bool :=
  n.outs.all fun r => match sh.bufs[r % 512]? with
    | none => false
    | some br => (br.slots[br.next]?).any fun x => !slotHeld sh (r % 512) x

/-- A node may start now. DEDUCED [42]. -/
def nodeStartable (sh : Sheet) (fs : FrameSet) (i : Nat) (s : State) : Bool :=
  match sh.img.nodes[i]? with
  | none => false
  | some n => isWaiting (fs.node i) && olderDone sh fs i && outsFree sh n
      && (!readsExternal sh.img n || fs.node i == .met)
      && (inputError sh fs i s).isNone && (allIn sh fs i s || (n.streaming && bandReady sh fs n 0 s))

/-- A banded node between bands may take its next one. -/
def bandStartable (sh : Sheet) (fs : FrameSet) (i : Nat) (s : State) : Bool :=
  match sh.img.nodes[i]?, fs.node i with
  | some n, .running k => decide (k < nodeBands sh.img n)
      && !(s.vis.any fun u => u.sheet == sh.slot && u.set == fs.n && u.node == i)
      && (allIn sh fs i s || bandReady sh fs n k s)
  | _, _ => false

/-- A node that waits for a unit, with what R187 orders it by. -/
structure Ready where
  deadline : Nat
  node : Nat
  sheet : Nat
  set : Nat
deriving DecidableEq, Repr

/-- Nodes of a group that are ready for units of a kind. -/
def readyNodes (group kind : Nat) (s : State) : List Ready :=
  (s.sheets.filter fun sh => sh.started && sh.group == group).flatMap fun sh =>
    sh.sets.flatMap fun fs => (sh.img.nodes.zipIdx).filterMap fun (n, i) =>
      if n.unit = kind ∧ (nodeStartable sh fs i s || bandStartable sh fs i s) then
        some { deadline := fs.tnMono + sh.img.deadlineUs * usT, node := i, sheet := sh.slot, set := fs.n }
      else none

/-- The first by earliest set deadline and then lowest node index (R187). -/
def firstReady : List Ready → Option Ready
  | [] => none
  | r :: rs => some (rs.foldl (fun a b =>
      if b.deadline < a.deadline ∨ (b.deadline = a.deadline ∧ b.node < a.node) then b else a) r)

/-- Takes the next slot of each output for a node that starts. -/
def claimSlots (n : Nat) (node : NodeRec) (sh : Sheet) : Sheet :=
  node.outs.foldl (fun sh r =>
    let take (br : BufRun) : BufRun := { br with
      slots := br.slots.modify br.next fun x => { x with set := n, writing := true }
      next := (br.next + 1) % br.slots.length }
    { sh with bufs := sh.bufs.modify (r % 512) take }) sh

/-- Gives a unit to a node: its start, or its next band. -/
def runOn (group kind no : Nat) (r : Ready) (s : State) : State :=
  let s := updSheet r.sheet (fun sh => match sh.getSet r.set, sh.img.nodes[r.node]? with
    | some fs, some n =>
      if isWaiting (fs.node r.node) then
        (claimSlots r.set n sh).updSet r.set fun fs => { fs with nodes := fs.nodes.set r.node (.running 0) }
      else sh
    | _, _ => sh) s
  { s with vis := s.vis ++ [{ group, kind, no, sheet := r.sheet, set := r.set, node := r.node }] }

/-- Gives free units of one kind their work, at most `fuel` times. -/
def giveUnits (group kind : Nat) : Nat → State → State
  | 0, s => s
  | fuel + 1, s =>
    let used := (s.vis.filter fun u => u.group == group && u.kind == kind).map (·.no)
    let no := firstFree used
    if unitCount kind ≤ no then s else
    match firstReady (readyNodes group kind s) with
    | none => s
    | some r => giveUnits group kind fuel (runOn group kind no r s)

/-- Gives every free unit of a group its work (R187). -/
def giveWork (group : Nat) (s : State) : State :=
  [1, 2, 3, 4, 5, 6].foldl (fun s k => giveUnits group k 2 s) s

/-- Everything that follows a change of a sheet: errors spread, frames and sets are released, a
draining stop completes, free units take work. -/
def advanceSheet (slot : Nat) (s : State) : State :=
  let s := releaseSetFrames slot (spreadErrors slot s)
  let s := sweepFrames slot (finishSets slot s)
  match getSheet slot s with
  | none => s
  | some sh => let s := finishStop slot s; if sh.group < 4 then giveWork sh.group s else s

/-! ### Frame starts and ends (R212, R214) -/

/-- The started sheet that binds a stream. -/
def sheetOf (stream : Nat) (s : State) : Option Sheet :=
  s.sheets.find? fun sh => sh.started && sh.streams.contains stream

/-- The frame of a stream that matches an opening set: the first ring buffer whose frame start lies
in the window and that no set uses. -/
def earlyFrame (sh : Sheet) (stream t : Nat) (s : State) : SetFrame :=
  let n := (getStream stream s).elim 0 fun y => y.ring.length
  match (List.range n).find? fun b => (ringFrame stream b s).any fun (f, _) =>
      within f.stamp.t t sh.img.matchNs && !frameUsed sh stream b
        && !((getStream stream s).any fun x => x.relEnd.contains b) with
  | some b => .matched b
  | none => .waiting

/-- The trigger frame opens a set (R212), or is skipped while `MAX_SETS` sets are in flight (R214). DEDUCED [40]. -/
def triggerFrame (sh : Sheet) (stream buf : Nat) (stamp : Stamp) (number : Nat) (s : State) : State :=
  if sh.stopping.isSome then s
  else if sh.img.maxSets ≤ sh.sets.length then
    let s := updSheet sh.slot (fun x => { x with
      skippedSets := x.skippedSets + 1, prevOk := false, skips := stamp.t :: x.skips.take 7 }) s
    raise 0x0301 number (some (4, sh.slot)) (releaseFrame stream buf s)
  else
    let n := nextSet sh.lastSet
    let frames := (sh.streams.zipIdx).map fun (x, i) =>
      if i = sh.img.trigger then .matched buf else earlyFrame sh x stamp.t s
    let fs : FrameSet :=
      { n, tn := stamp, tnMono := s.time.mono, frames, nodes := sh.img.nodes.map fun _ => .idle
        ext := [], prevOk := sh.prevOk }
    updSheet sh.slot (fun x => { x with
      sets := x.sets ++ [fs], lastSet := n, prevOk := true
      t0s := (n, stamp.t, s.time.mono) :: x.t0s }) s

/-- A frame of another slot joins the set whose window it lies in (R212). -/
def slotFrame (sh : Sheet) (i buf : Nat) (stamp : Stamp) (s : State) : State :=
  match sh.sets.find? fun fs => fs.frames[i]? == some .waiting && within stamp.t fs.tn.t sh.img.matchNs with
  | some fs => updSheet sh.slot (fun x => x.updSet fs.n fun y => { y with frames := y.frames.set i (.matched buf) }) s
  | none => s

/-- A frame start of a bound stream reaches the cue engine. -/
def cueFrameStart (stream buf : Nat) (stamp : Stamp) (number : Nat) (s : State) : State :=
  match sheetOf stream s with
  | none => s
  | some sh =>
    let mine := (sh.streams.zipIdx.filter fun (x, _) => x == stream).map (·.2)
    let s := mine.foldl (fun s i => match getSheet sh.slot s with
      | none => s
      | some sh => if i = sh.img.trigger then triggerFrame sh stream buf stamp number s
        else slotFrame sh i buf stamp s) s
    advanceSheet sh.slot s

/-- Received lines or a frame's end reach the cue engine (R196). -/
def cueFrameMoved (stream : Nat) (s : State) : State :=
  (sheetOf stream s).elim s fun sh => advanceSheet sh.slot s

/-- Abandons every node of a set that has not completed (R217, R228). -/
def abandonSet (n st : Nat) (sh : Sheet) : Sheet :=
  match sh.getSet n with
  | none => sh
  | some fs =>
    let left := (List.range fs.nodes.length).filter fun i => !isDone (fs.node i)
    let sh := left.foldl (fun sh i => finishNode n i st [] sh) sh
    { sh with abandoned := sh.abandoned + left.length }

/-- Abandons a set of the state: its units are free again. -/
def abandon (slot n st : Nat) (s : State) : State :=
  updSheet slot (abandonSet n st)
    { s with vis := s.vis.filter fun u => !(u.sheet == slot && u.set == n) }

/-! ### Rows of the cue engine -/

/-- CUE_SLOT_MISSING (R213, R216). -/
def execCueSlotMissing (slot n i : Nat) (s : State) : Result :=
  .next (match getSheet slot s with
    | none => s
    | some sh => match sh.getSet n with
      | none => s
      | some fs =>
        if !(fs.frames[i]? == some .waiting && due (fs.tnMono + sh.img.matchNs * 65536) s) then s else
        let first := !(fs.frames.contains .missing)
        let mark (x : FrameSet) : FrameSet :=
          if x.n = n then { x with frames := x.frames.set i .missing }
          else if x.n = nextSet n then { x with prevOk := false } else x
        let s := updSheet slot (fun sh => { sh with
          sets := sh.sets.map mark, missingSets := sh.missingSets + (if first then 1 else 0)
          prevOk := if sh.lastSet = n then false else sh.prevOk }) s
        settle (advanceSheet slot (raise 0x0303 (n + i * 2 ^ 32) (some (4, slot)) s)))

/-- CUE_SET_DEADLINE (R217). -/
def execCueSetDeadline (slot n : Nat) (s : State) : Result :=
  .next (match getSheet slot s with
    | none => s
    | some sh => match sh.getSet n with
      | none => s
      | some fs =>
        if !due (fs.tnMono + sh.img.deadlineUs * usT) s then s else
        match (List.range fs.nodes.length).find? fun i => !isDone (fs.node i) with
        | none => s
        | some i =>
          let s := abandon slot n stTimeout s
          settle (advanceSheet slot (raise 0x0302 (n + i * 2 ^ 32) (some (4, slot)) s)))

/-- The kind and number of a banded unit. -/
def bandUnit : VisionUnit → Nat × Nat
  | .warp n => (1, n)
  | .pyramid n => (2, n)
  | .feature n => (3, n)

/-- VISION_BAND_DONE (R185, R187): the unit is free, and the cue engine gives it the next work. -/
def execVisionBandDone (group : Nat) (u : VisionUnit) (s : State) : Result :=
  .next (match s.vis.find? fun x => x.group == group && (x.kind, x.no) == bandUnit u with
    | none => s
    | some x =>
      let s := { s with vis := s.vis.filter fun y => y != x }
      let step (fs : FrameSet) : FrameSet := { fs with nodes := fs.nodes.modify x.node fun st => match st with
        | .running k => .running (k + 1)
        | st => st }
      settle (advanceSheet x.sheet (updSheet x.sheet (fun sh => sh.updSet x.set step) s)))

/-! ### What a node leaves (R190 to R209, R215) -/

/-- The slot that node `i` reads in a set: of the set itself, of the one before with `PREV`, or the one
an external buffer's flag named when the wait was met (R216, R223). -/
def readSlot (sh : Sheet) (fs : FrameSet) (i ref : Nat) : Option BufSlot :=
  let b := ref % 512
  match sh.bufs[b]?, sh.img.bufs[b]? with
  | some r, some x =>
    if x.kind = 2 then (extInput fs i ref).bind fun (k, _) => r.slots[k]?
    else
      let n := if isPrev ref then prevSet fs.n else fs.n
      r.slots.find? fun y => y.set == n
  | _, _ => none

/-- The plane that node `i` reads. -/
def readImg (sh : Sheet) (fs : FrameSet) (i ref : Nat) (s : State) : Img :=
  match sh.img.buf ref with
  | none => { w := 0, h := 0, px := [] }
  | some x =>
    if x.kind = 0 then
      let (w, h) := sh.img.size ref
      frameImg (sh.img.fmt ref) w h ((setFrame sh fs x.sslot s).elim [] fun f => f.1.rows)
    else
      { w := x.width, h := x.height
        px := planeCodes x.width x.height 2 ((readSlot sh fs i ref).elim [] (·.bytes)) }

/-- Levels `k` to `k + n` of a stored pyramid (Table 6.2). -/
def levelsOf (w h k : Nat) : Nat → List Byte → List Img
  | 0, bs => [{ w := levelSize w k, h := levelSize h k, px := planeCodes (levelSize w k) (levelSize h k) 2 bs }]
  | n + 1, bs =>
    { w := levelSize w k, h := levelSize h k, px := planeCodes (levelSize w k) (levelSize h k) 2 bs }
      :: levelsOf w h (k + 1) n (bs.drop (planeBytes (levelSize w k) (levelSize h k) 2))

/-- The levels that node `i` reads: a pyramid's, or a plain image alone. -/
def readLevels (sh : Sheet) (fs : FrameSet) (i ref : Nat) (s : State) : List Img :=
  match sh.img.buf ref with
  | none => []
  | some x =>
    if x.format = 0x12 then levelsOf x.width x.height 0 x.levels ((readSlot sh fs i ref).elim [] (·.bytes))
    else [readImg sh fs i ref s]

/-- What node `i` leaves in its outputs, and its own outcome (R193 to R209). The outputs' bytes come from the
status that they will carry. -/
def nodeOut (sh : Sheet) (fs : FrameSet) (i : Nat) (n : NodeRec) (absent : Bool) (s : State) :
    Nat × (Nat → List OutData) :=
  let b := sh.img.block n
  let a := readImg sh fs i n.inA s
  let two := readImg sh fs i n.inB s
  match n.unit with
  | 1 =>
    let o := warpImg (warpP b) sh.img.params a (sh.img.depthIn n.inA)
    (stOk, fun _ => [some (planeOf o.w 2 o.h o.px)])
  | 2 => (stOk, fun _ => [some ((pyramid a (fld b 0 1)).flatMap fun o => planeOf o.w 2 o.h o.px)])
  | 3 =>
    let (kept, dropped) := selectFeatures (featP b sh.img.params) (readLevels sh fs i n.inA s)
    (stOk, fun st => [some (recHeader kept.length st fs.n dropped ++ kept.flatMap featRecord)])
  | 4 =>
    let ds := stereoImg (stereoP b) a two
    (stOk, fun _ => [some (planeOf a.w 2 a.h (ds.map (·.1))), some (planeOf a.w 1 a.h (ds.map (·.2)))])
  | 5 =>
    let p := flowP b
    let pts := (readSlot sh fs i n.inC).elim [] (·.bytes)
    let count := if absent then 0 else min (fld pts 0 4) p.maxPoints
    let prev := readLevels sh fs i n.inB s
    let cur := readLevels sh fs i n.inA s
    let recs := (List.range count).flatMap fun j =>
      let xy := fld pts (16 + 48 * j) 8
      flowRecord p (flowPoint p (s.fresh + 16777216 * j) prev cur (bitsOf xy 19 0) (bitsOf xy 39 20))
    (if absent then stPartial else stOk, fun st => [some (recHeader count st fs.n 0 ++ recs)])
  | _ =>
    let p := icpP b
    let start := if n.inC = none16 then none else (readSlot sh fs i n.inC).map (·.bytes)
    let x := icpIters p a two p.iters s.fresh { m := icpStart start, eqs := [], rows := [], skipped := false }
    (icpStatus p x, fun st => [some (recHeader 1 st fs.n 0 ++ icpRecord p (s.fresh + 16777216) x)])

/-- Free values that one node's sums may take (R287). -/
def nodeDraws : Nat := 2 ^ 48

/-- The status of a node's outputs (R215, R19). -/
def outStatus (own : Nat) (ins : List InSt) : Nat :=
  if isErr own then own
  else if ins.any fun x => x.st == stDesync then stDesync
  else ins.foldl (fun a x => worseOk a x.st) own

/-- Whether a running node may complete: its inputs are complete and, for a banded one, its last band
is the one that ends. -/
def mayComplete (sh : Sheet) (fs : FrameSet) (i : Nat) (s : State) : Bool :=
  match sh.img.nodes[i]?, fs.node i with
  | some n, .running k => allIn sh fs i s && decide (nodeBands sh.img n ≤ k + 1)
  | _, _ => false

/-- VISION_NODE_DONE (R215, R221): the outputs are written, then their flags; `media` marks an uncorrectable
line buffer (Table 12.2). -/
def execVisionNodeDone (slot n i : Nat) (media : Bool) (s : State) : Result :=
  .next (match getSheet slot s with
    | none => s
    | some sh => match sh.getSet n, sh.img.nodes[i]? with
      | some fs, some node =>
        if !mayComplete sh fs i s then s else
        if media then settle (advanceSheet slot (updSheet slot (finishNode n i stMedia []) (freeUnit slot n i s)))
        else
          let ins := (inputs sh fs i s).filterMap id
          let (own, ds) := nodeOut sh fs i node (ins.any (·.absent)) s
          let st := outStatus own ins
          let s := { s with fresh := s.fresh + nodeDraws }
          settle (advanceSheet slot (updSheet slot (finishNode n i st (ds st)) (freeUnit slot n i s)))
      | _, _ => s)

/-- The external inputs of a node as their flags stand: buffer, slot and status, none while one has not reached
its set (R223). A `PREV` input waits for the set before and reads its slot (R216). -/
def extMet (sh : Sheet) (fs : FrameSet) (node : NodeRec) : Option (List (Nat × Nat × Nat)) :=
  let refs := node.ins.filter fun r => (sh.img.buf r).any fun x => x.kind == 2
  (refs.filter fun r => fs.prevOk || !isPrev r).mapM fun r => do
    let f ← sh.flagOf (r % 512)
    let m := if isPrev r then prevSet fs.n else fs.n
    if f.done = 0 ∨ !seqReached m f.done then none else
    if f.done = m ∨ !isPrev r then some (r % 512, f.slot, f.status) else
    let br ← sh.bufs[r % 512]?
    let k ← br.slots.findIdx? fun x => x.set == m
    some (r % 512, k, ((br.slots[k]?).elim stPartial (·.status)))

/-- CUE_EXTERNAL_WAIT_MET (R223): every external buffer the node reads has reached its set; the node will read
the slots that the flags name now. -/
def execCueExternalWaitMet (slot n i : Nat) (s : State) : Result :=
  .next (match getSheet slot s with
    | none => s
    | some sh => match sh.getSet n, sh.img.nodes[i]? with
      | some fs, some node =>
        match extMet sh fs node with
        | some xs =>
          if fs.node i == .idle && readsExternal sh.img node then
            settle (advanceSheet slot (updSheet slot (fun sh => sh.updSet n fun fs =>
              { fs with nodes := fs.nodes.set i .met, ext := fs.ext ++ xs.map fun x => (i, x) }) s))
          else s
        | none => s
      | _, _ => s)

/-! ### Flags (R220 to R222) -/

/-- The 16 bytes of a flag (Table 6.14). -/
def flagBytes (f : CueFlag) : List Byte :=
  leBytes 4 f.done ++ leBytes 2 f.status ++ leBytes 1 f.slot ++ leBytes 1 f.writer ++ leBytes 4 f.released ++ zeros 4

/-- A flag from its bytes; reserved bytes stay zero. -/
def flagOfBytes (b : List Byte) (writer : Nat) : CueFlag :=
  { done := fld b 0 4, status := fld b 4 2, slot := fld b 6 1, writer, released := fld b 8 4 }

/-- A tile write to a flag is dropped (R222). -/
def flagWriteBarred (f : CueFlag) (at' len : Nat) : Bool :=
  (f.writer == 0 && decide (at' < 8)) || (decide (at' ≤ 7) && decide (7 < at' + len))

/-- The buffer that holds a flag. -/
def flagBuf (sh : Sheet) (fi : Nat) : Option Nat := sh.img.bufs.findIdx? fun x => x.flag == fi

/-- A tile write of bytes into a flag (R220, R222); the slot that an external flag names holds its
set (R219). DEDUCED [242]. -/
def writeFlag (slot fi at' : Nat) (bs : List Byte) (s : State) : State :=
  match getSheet slot s with
  | none => s
  | some sh => match sh.flags[fi]? with
    | none => s
    | some f =>
      if flagWriteBarred f at' bs.length then
        { s with tile.droppedFlags := s.tile.droppedFlags + 1 }
      else
        let old := flagBytes f
        let f' := flagOfBytes (old.take at' ++ bs ++ old.drop (at' + bs.length)) f.writer
        let mark (br : BufRun) : BufRun :=
          if f'.done = f.done then br else { br with
            slots := if isErr f'.status then br.slots
              else br.slots.modify f'.slot fun x => { x with set := f'.done, status := f'.status }
            stats := (f'.done, f'.status) :: br.stats.take 7 }
        let s := updSheet slot (fun sh => { sh with
          flags := sh.flags.set fi f'
          bufs := match flagBuf sh fi with
            | some b => if f.writer = 1 then sh.bufs.modify b mark else sh.bufs
            | none => sh.bufs }) s
        advanceSheet slot s

/-! ### Commands (Table 6.16) -/

/-- A command on a cue sheet. -/
def cueCmd (opcode ms inline : Nat) : CmdInfo := { opcode, handle := .obj [4], inline, dl := dlMs ms }

/-- The sheet a command names. -/
def sheetArg (c : Ctx) (s : State) : Except Fail Sheet :=
  match getSheet (objSlot c) s with
  | some sh => .ok sh
  | none => .error (err stState)

def iCueUnload : CmdInfo := cueCmd 0x0301 1000 0

/-- CUE_UNLOAD (R229, R77). -/
def bodyCueUnload : Body := fun c s => do
  let sh ← sheetArg c s
  need (!sh.started) (err stState)
  releaseBody c s

def execCueUnload (r : ReqRef) (io : Io) (s : State) : Result := serve iCueUnload bodyCueUnload r io s

/-- A vision group is in service: its domain is not fenced. DEDUCED [44]. -/
def groupOk (g : Nat) (s : State) : Bool := (getDom (80 + g) s).test != 2

/-- Started sheets on a group. -/
def groupLoad (g : Nat) (s : State) : Nat := (s.sheets.filter fun x => x.started && x.group == g).length

/-- The group in service with the fewest started sheets, the lowest number on a tie (R188). -/
def freeGroup (s : State) : Option Nat :=
  ((List.range 4).filter (groupOk · s)).foldl (fun best g => match best with
    | none => some g
    | some b => if groupLoad g s < groupLoad b s then some g else some b) none

/-- The group that CUE_START takes. DEDUCED [44]. -/
def startGroup (c : Ctx) (s : State) : Option Nat :=
  if prm c 0 1 = 0xFF then freeGroup s else some (prm c 0 1)

/-- The stream handles of CUE_START. -/
def startHandles (c : Ctx) : List Nat := (List.range (c.pay.length / 8)).map fun i => fld c.pay (8 * i) 8

def iCueStart : CmdInfo :=
  { cueCmd 0x0302 100 1 with
    pay := .required
    range := fun c s => (decide (prm c 0 1 ≤ 3) || prm c 0 1 == 0xFF)
      && (getSheet (objSlot c) s).any fun sh => c.plen == 8 * sh.img.slots.length
    doms := fun c s => (startGroup c s).elim [] fun g => [80 + g] }

/-- CUE_START (R188, R220, R227). -/
def bodyCueStart : Body := fun c s => do
  let sh ← sheetArg c s
  let os ← (startHandles c).mapM fun h => lookupHandle [2] c.fn false h s
  let xs := os.map (·.slot)
  let bound (x : Nat) : Bool := s.sheets.any fun y => y.started && y.slot != sh.slot && y.streams.contains x
  need (!sh.started && !(xs.any bound)) (err stState)
  let differs (i : Nat) : Bool := match xs[i]?.bind fun x => getStream x s, sh.img.slots[i]? with
    | some x, some r => x.width != r.width || x.height != r.height || x.format != r.format
    | _, _ => true
  match (List.range sh.img.slots.length).find? differs with
  | some i => .error { st := stStructure, r0 := i, r1 := 0 }
  | none =>
    let some g := startGroup c s | .error (err stLimit)
    need (groupOk g s) (err stGroupFenced)
    need (decide (groupLoad g s < 4)) (err stLimit)
    let s := updSheet sh.slot (fun x => { newSheet x.slot x.img with started := true, group := g, streams := xs }) s
    let s := updObj 4 sh.slot (fun o => { o with deps := o.deps ++ (xs.eraseDups.map fun x => (2, x)) }) s
    .ok (s, okR g 0)

def execCueStart (r : ReqRef) (io : Io) (s : State) : Result := serve iCueStart bodyCueStart r io s

def iCueStop : CmdInfo := { cueCmd 0x0303 1000 1 with range := fun c _ => decide (prm c 0 1 ≤ 1) }

/-- CUE_STOP (R228): drain, or abandon at once. DEDUCED [43]. -/
def bodyCueStop : Body := fun c s => do
  let sh ← sheetArg c s
  need (sh.started && sh.stopping.isNone) (err stState)
  if prm c 0 1 = 0 then
    let s := updSheet sh.slot (fun x => { x with stopping := some (reqRef c.q) }) s
    if sh.sets.isEmpty then .ok (unbind sh.slot s, okR sh.lastSet 0) else .ok (s, .wait)
  else
    let s := sh.sets.foldl (fun s fs => abandon sh.slot fs.n stAborted s) s
    let s := finishSets sh.slot (releaseSetFrames sh.slot s)
    .ok (giveWork sh.group (unbind sh.slot s), okR sh.lastSet 0)

def execCueStop (r : ReqRef) (io : Io) (s : State) : Result := serve iCueStop bodyCueStop r io s

/-- What CUE_STOP in mode 0 does at its deadline: the sets in flight are abandoned (R228). -/
def stopDeadline (q : Req) (s : State) : State :=
  match s.sheets.find? fun sh => sh.stopping == some (reqRef q) with
  | none => s
  | some sh =>
    let s := sh.sets.foldl (fun s fs => abandon sh.slot fs.n stAborted s) s
    advanceSheet sh.slot s

/-- The CUE_QUERY record (Table 6.17). -/
def cueRecord (sh : Sheet) : List Byte :=
  leBytes 1 (if sh.stopping.isSome then 2 else if sh.started then 1 else 0) ++ leBytes 1 sh.group ++ zeros 2
    ++ leBytes 4 sh.lastSet ++ leBytes 4 sh.lastDone ++ leBytes 4 sh.skippedSets ++ leBytes 4 sh.missingSets
    ++ leBytes 4 sh.abandoned ++ leBytes 4 sh.lastLat ++ leBytes 4 sh.maxLat ++ leBytes 4 sh.unmatched ++ zeros 28

def iCueQuery : CmdInfo := { cueCmd 0x0304 100 12 with res := resMin 64 }

/-- CUE_QUERY (Table 6.17). -/
def bodyCueQuery : Body := fun c s => do
  let sh ← sheetArg c s
  .ok (s, okD 0 0 (cueRecord sh))

def execCueQuery (r : ReqRef) (io : Io) (s : State) : Result := serve iCueQuery bodyCueQuery r io s

/-- The span of CUE_FLAG_READ. -/
def iCueFlagRead : CmdInfo :=
  { cueCmd 0x0305 100 16 with
    res := fun q _ => some (16 * fld q.param 14 2)
    range := fun c s => inR 1 (prm c 14 2) 1024
      && (getSheet (objSlot c) s).any fun sh => decide (prm c 12 2 + prm c 14 2 ≤ sh.img.flags) }

/-- CUE_FLAG_READ (R220). -/
def bodyCueFlagRead : Body := fun c s => do
  let sh ← sheetArg c s
  let fs := (sh.flags.drop (prm c 12 2)).take (prm c 14 2)
  .ok (s, okD (prm c 14 2) 0 (fs.flatMap flagBytes))

def execCueFlagRead (r : ReqRef) (io : Io) (s : State) : Result := serve iCueFlagRead bodyCueFlagRead r io s

end Sys2Proof.Machine
end

