-- ==== Sys2Proof/Machine/Package.lean ====
section
/-! DEFINITION. Baskozar packages (R230, R242 to R250, R267): the image, its checks, placement and claims;
PKG_LOAD, PKG_UNLOAD and PKG_QUERY. -/
namespace Sys2Proof.Machine

/-- Group 0x04 status codes (Table 7.13). -/
def stPkgDigest : Nat := 0x8401
def stPkgTarget : Nat := 0x8402
def stSetGone : Nat := 0x8403

/-! ### Tiles in service (R242, R243) -/

/-- The switched domain of a tile: its quadrant. -/
def tileDom (tile : Nat) : Nat := tile / 4

/-- A tile in service: neither it nor its quadrant is fenced. -/
def tileOk (tile : Nat) (s : State) : Bool :=
  let d := getDom (tileDom tile) s
  d.test != 2 && !d.fenced.testBit (tile % 4)

/-- Tiles in service of a cluster. -/
def tilesIn (c : Nat) (s : State) : List Nat := ((List.range 16).map fun i => c * 16 + i).filter (tileOk · s)

/-- Tiles in service of a placement. -/
def tilesOf (place : List Nat) (s : State) : Nat := (place.map fun c => (tilesIn c s).length).sum

/-! ### Header and sections (Tables 7.2 to 7.4, R246) -/

/-- Header checks of step 1 (Table 7.2); `FAMILY`, `MEMBER` and `PLIMBE_BUILD` are step 2. -/
def pkgHeader (b : List Byte) (total : Nat) : List (Bool × Nat) :=
  [ (fld b 0 4 == 0x425A5031, 0), (fld b 4 2 == 1, 4), (inR 4 (fld b 6 2) 64, 6)
  , (inR 8192 (fld b 8 8) 68719476736 && fld b 8 8 == total, 8), (decide (fld b 19 1 ≤ 7), 19)
  , (fld b 24 8 == 0, 24), (fld b 96 32 == 0, 96) ]

/-- Step 2. DESIGN CHOICE [17]. -/
def pkgTarget (b : List Byte) : Bool :=
  fld b 16 2 == 0x4B47 && fld b 18 1 == 0x09 && decide (fld b 20 4 ≤ Config.plimbeNewest)

/-- Step 3: SHA3-512 over the image with its digest bytes taken as zero. -/
def pkgDigest (b : List Byte) : Bool :=
  slice b 32 64 == Config.sha3 (b.take 32 ++ zeros 64 ++ b.drop 96)

/-- A section table entry (Table 7.3). -/
structure Sec where
  ty : Nat
  count : Nat
  off : Nat
  len : Nat
  rsv : Bool
deriving DecidableEq, Repr

def pkgSecs (b : List Byte) : List Sec :=
  (List.range (fld b 6 2)).map fun i =>
    let o := 128 + 32 * i
    { ty := fld b o 2, count := fld b (o + 4) 4, off := fld b (o + 8) 8, len := fld b (o + 16) 8
      rsv := fld b (o + 2) 2 == 0 && fld b (o + 24) 8 == 0 }

/-- Most sections of a type that a package may have (Table 7.4). -/
def secMax (ty : Nat) : Nat := natAt [0, 1, 1, 1, 1, 64, 64, 4, 8] ty

/-- Step 4: the index of the first bad section; a missing type is named by the number of sections. DEDUCED [49]. -/
def secBad (b : List Byte) : Option Nat :=
  let ss := pkgSecs b
  let apart (x y : Sec) : Bool := decide (x.off + x.len ≤ y.off) || decide (y.off + y.len ≤ x.off)
  let ok (x : Sec) (i : Nat) : Bool :=
    inR 1 x.ty 8 && x.rsv && x.off % 4096 == 0 && decide (x.off + x.len ≤ fld b 8 8)
      && decide (128 + 32 * ss.length ≤ x.off) && (ss.take i).all (apart x)
      && decide (((ss.take i).filter fun y => y.ty == x.ty).length < secMax x.ty)
  match firstIdx ss ok with
  | some i => some i
  | none => if [1, 2, 3, 4, 5].all fun t => ss.any fun x => x.ty == t then none else some ss.length

/-- The sections of a type. -/
def secsOf (b : List Byte) (ty : Nat) : List Sec := (pkgSecs b).filter fun x => x.ty == ty

/-- The bytes of a section. -/
def secBytes (b : List Byte) (x : Sec) : List Byte := slice b x.off x.len

/-! ### Contents (Tables 7.5, 7.6, 7.8, 12.3; R246 step 5) -/

/-- Resource statement checks (Table 7.5): fields with a default may be 0. -/
def resOk (b : List Byte) : Bool :=
  let f (o n : Nat) : Nat := fld b o n
  let dflt (lo v hi : Nat) : Bool := v == 0 || inR lo v hi
  decide (f 0 4 ≤ 491520) && inR 1 (f 4 1) 16 && inR 1 (f 5 1) 16 && f 6 2 == 0 && decide (f 8 4 ≤ 4194304)
    && decide (f 12 4 ≤ 4194304) && decide (f 16 8 ≤ 68719476736) && decide (f 24 8 ≤ 68719476736)
    && inR 1 (f 32 1) 8 && f 33 1 == 0 && inR 1 (f 34 2) 256 && decide (f 36 2 ≤ 1024) && f 38 2 == 0
    && dflt 100 (f 40 4) 100000 && dflt 1000 (f 44 4) 1000000 && dflt 1 (f 48 4) 1000000
    && dflt 10 (f 52 4) 10000 && f 60 68 == 0 && decide (128 ≤ b.length)

/-- The resource statement with its defaults (R248). -/
def parseRes (b : List Byte) : ResStmt :=
  let d (o dflt : Nat) : Nat := if fld b o 4 = 0 then dflt else fld b o 4
  { tileBytes := fld b 0 4, clusters := fld b 4 1, tilesMin := fld b 5 1, stageBytes := fld b 8 4
    gsuBytes := fld b 12 4, stackedShared := fld b 16 8, stackedPerInst := fld b 24 8, lookahead := fld b 32 1
    instances := fld b 34 2, pkgFlags := fld b 36 2, lateWeightUs := d 40 2000, weightTimeoutUs := d 44 50000
    flagWaitUs := d 48 50000, taskLimitUs := d 52 1000, runDeadlineUs := d 56 100000 }

/-- Port records (Table 7.8). -/
def parsePorts (n : Nat) (b : List Byte) : List PortRec :=
  (List.range n).map fun i =>
    let o := 16 * i
    { kind := fld b o 1, dir := fld b (o + 1) 1, format := fld b (o + 2) 2, minBytes := fld b (o + 4) 8
      dynMax := fld b (o + 12) 4 }

/-- A port record's ranges. -/
def portOk (p : PortRec) : Bool :=
  decide (p.kind ≤ 5) && decide (p.dir ≤ 2)
    && (match p.kind with
        | 1 => bufFormat 0 p.format || bufFormat 1 p.format
        | 2 => bufFormat 1 p.format
        | _ => p.format == 0)

/-- Layer records (Table 7.6). -/
def parseLayers (n : Nat) (b : List Byte) : List LayerRec :=
  (List.range n).map fun i =>
    let o := 32 * i
    { firstBlock := fld b o 4, blocks := fld b (o + 4) 4, tasks := fld b (o + 8) 4, waitPort := fld b (o + 12) 2
      signalPort := fld b (o + 14) 2, cls := fld b (o + 16) 1, remoteOk := fld b (o + 17) 1 == 1
      statedUs := fld b (o + 20) 4 }

/-- A layer record's ranges, with the reserved bytes of its record at `o`. -/
def layerOk (ports : List PortRec) (blocks : Nat) (b : List Byte) (o : Nat) (l : LayerRec) : Bool :=
  let port (p k : Nat) : Bool := p == none16 || (ports[p]?).any fun x => x.kind == k
  decide (l.blocks ≤ 16777216) && decide (l.firstBlock + l.blocks ≤ blocks) && inR 1 l.tasks 65536
    && port l.waitPort 1 && port l.signalPort 2 && inR 1 l.cls 7 && decide (fld b (o + 17) 1 ≤ 1)
    && fld b (o + 18) 2 == 0 && decide (1 ≤ l.statedUs) && fld b (o + 24) 8 == 0

/-- Block table entry `i` of a section's bytes. -/
def parseTBlock (sec : Sec) (b : List Byte) (i : Nat) : TBlock :=
  let o := 16 * i
  let so := roundUp (16 * sec.count) 4096 + 4096 * i
  let mode := fld b (o + 4) 1
  let units := fld b (o + 5) 1
  let codeLen := fld b (o + 6) 2
  let crc := fld b (o + 8) 4
  { off := sec.off + so, mode, units, codeLen, crc, quarAt := none, dead := false
    good := (decodeBlock mode units codeLen crc (slice b so 4096)).isSome }

/-- A section's stored blocks. -/
def secBlocks (b : List Byte) (x : Sec) : List TBlock :=
  let bs := secBytes b x
  (List.range x.count).map (parseTBlock x bs)

/-- The first block table entry that breaks R415. -/
def blockTableBad (x : Sec) (b : List Byte) : Option Nat :=
  let table := roundUp (16 * x.count) 4096
  let first (i : Nat) : Nat := fld b (16 * i) 4
  let units (i : Nat) : Nat := fld b (16 * i + 5) 1
  let ok (i : Nat) : Bool :=
    let mode := fld b (16 * i + 4) 1
    let len := fld b (16 * i + 6) 2
    (first i == if i = 0 then 0 else first (i - 1) + units (i - 1)) && decide (mode ≤ 1)
      && (if mode = 0 then units i == 1 && len == 4096 else inR 1 (units i) 16 && inR 1 len 4096)
      && fld b (16 * i + 12) 4 == 0
      && (slice b (table + 4096 * i + len) (4096 - len)).all fun v => v == 0
  if b.length ≠ table + 4096 * x.count ∨ (slice b (16 * x.count) (table - 16 * x.count)).any fun v => v != 0
  then some x.count
  else (List.range x.count).find? fun i => !ok i

/-- The record of a cue sheet image that an offset lies in. -/
def sheetRecord (b : List Byte) (o : Nat) : Nat :=
  if o < 64 then 0 else if o < nodeOff b 0 then (o - 64) / 8
  else if o < bufOff b 0 then (o - nodeOff b 0) / 32
  else if o < paramOff b then (o - bufOff b 0) / 32 else 0

/-- The record of a solver schedule image that an offset lies in. -/
def schRecord (b : List Byte) (o : Nat) : Nat :=
  if o < 128 then 0 else if o < factorOff b 0 then (o - 128) / 16 else (o - factorOff b 0) / 32

/-- The schedule image in a section. -/
def schImage (b : List Byte) : List Byte := b.take (fld b 64 4)

/-- What fails in a section's contents: status and record (R246 step 5); a tile program may name only formats that
its units run (R276). DESIGN CHOICE [239]. -/
def contentBad (img : List Byte) (x : Sec) : Option (Nat × Nat) :=
  let b := secBytes img x
  match x.ty with
  | 1 => if resOk b then none else some (stRange, 0)
  | 2 =>
    if !inR 1 x.count 64 || decide (b.length < 16 * x.count) then some (stRange, 0)
    else (firstIdx (parsePorts x.count b) fun p _ => portOk p).map fun i => (stRange, i)
  | 3 =>
    let ports := (secsOf img 2).flatMap fun y => parsePorts y.count (secBytes img y)
    let blocks := ((secsOf img 6).map (·.count)).sum
    if !inR 1 x.count 4096 || decide (b.length < 32 * x.count) then some (stRange, 0)
    else (firstIdx (parseLayers x.count b) fun l i => layerOk ports blocks b (32 * i) l).map fun i => (stRange, i)
  | 5 => if ((Config.tileFormats b).take b.length).all fun (u, f, g) => unitRuns u f g then none else some (stRange, 0)
  | 6 => (blockTableBad x b).map fun i => (stRange, i)
  | 7 =>
    let b := b.take (fld b 28 4)
    match sheetRange b with
    | some o => some (stRange, sheetRecord b o)
    | none => (sheetGraph (parseSheet b)).map fun i => (stStructure, i)
  | 8 =>
    let b := schImage b
    match schRange b b.length with
    | some o => some (stRange, schRecord b o)
    | none => if classOver (parseSched b) then some (stRange, schRecord b 24) else (schStructure b (parseSched b)).map fun (i, _) => (stStructure, i)
  | _ => none

/-- The checks of R246 before placement. DEDUCED [49]. -/
def checkPkg (b : List Byte) : Except Fail Unit := do
  match firstBad (pkgHeader b b.length) with
  | some o => .error { st := stRange, r0 := o, r1 := 0 }
  | none => pure ()
  need (pkgTarget b) (err stPkgTarget)
  need (pkgDigest b) (err stPkgDigest)
  match secBad b with
  | some i => .error { st := stStructure, r0 := i, r1 := 0 }
  | none => pure ()
  match (pkgSecs b).zipIdx.findSome? fun (x, i) => (contentBad b x).map fun (st, r) => (st, i, r) with
  | some (st, i, r) => .error { st, r0 := i, r1 := sat16 r }
  | none => .ok ()

/-- The package's records from a checked image. -/
def parsePkg (slot : Nat) (b : List Byte) (place : List Nat) : Pkg :=
  let rs := ((secsOf b 1).head?).elim (parseRes []) fun x => parseRes (secBytes b x)
  let scheds := ((pkgSecs b).zipIdx.filter fun (x, _) => x.ty == 8).map fun (x, i) => (i, schImage (secBytes b x))
  { slot, designLevel := fld b 19 1, digest := slice b 32 64, len := b.length, rs
    ports := (secsOf b 2).flatMap fun x => parsePorts x.count (secBytes b x)
    layers := (secsOf b 3).flatMap fun x => parseLayers x.count (secBytes b x)
    blocks := (secsOf b 6).flatMap (secBlocks b)
    sheets := (secsOf b 7).map fun x => let y := secBytes b x; parseSheet (y.take (fld y 28 4))
    scheds, schedHeld := []
    gsus := scheds.flatMap fun (i, x) => ((List.range 8).filter (fld x 9 1).testBit).map fun g => (i, g)
    place, below := [], prefetch := (secsOf b 4).flatMap (secBytes b), late := [], refetched := 0, refetch := none }

/-! ### Placement and fit (R249, R250) -/

/-- Tile memory a package may claim (R231). -/
def tileCap : Nat := 491520

/-- Tile memory free on every tile of a cluster. -/
def tileFree (c : Nat) (s : State) : Nat :=
  tileCap - (s.tile.pkgs.map fun p => if p.place.contains c then p.rs.tileBytes else 0).sum

/-- Eligible clusters in order of preference (R249). -/
def eligible (mask tilesMin : Nat) (s : State) : List Nat :=
  let cs := (List.range 16).filter fun c =>
    (mask == 0 || mask.testBit c) && decide (tilesMin ≤ (tilesIn c s).length)
  sortBy (fun a b => decide (tileFree b s < tileFree a s) || (tileFree a s == tileFree b s && decide (a < b))) cs

/-- What a resource of the placed clusters has in use. -/
def placedSum (f : Pkg → Nat) (c : Nat) (s : State) : Nat :=
  (s.tile.pkgs.map fun p => if p.place.contains c then f p else 0).sum

/-- Prefetch slots of an instance stream set (R250). -/
def slotsOf (rs : ResStmt) : Nat := (rs.lookahead + 1) * rs.instances

/-- On-chip bytes a package claims: `STAGE_BYTES` per placed cluster, and its sheets (R230, R250). -/
def pkgOnchip (p : Pkg) : Nat := p.rs.stageBytes * p.place.length + (p.sheets.map SheetImg.onchip).sum

/-- Stacked bytes a package claims (R250). -/
def pkgStacked (p : Pkg) : Nat :=
  p.rs.stackedShared + p.rs.instances * p.rs.stackedPerInst + (p.sheets.map SheetImg.scratch).sum

/-- The fit checks in the order of R89 (R250); a placement that lacks eligible clusters has failed
before. -/
def pkgFit (fn : Nat) (p : Pkg) (s : State) : Except Fail Unit := do
  let on (n : Nat) (c : Nat) : Nat := if p.place.contains c then n else 0
  let room := (p.place.map (tileFree · s)).foldl min tileCap
  fits 0x002 (p.rs.tileBytes - room)
  fits 0x003 (clusterShort (fun c => on p.rs.stageBytes c + (p.sheets.map fun m => m.stageIn c).sum) (stageUsed · s) stageCap)
  fitsQuota fn 0 (pkgOnchip p) s
  fitsQuota fn 1 (pkgStacked p) s
  fits 0x006 (clusterShort (on (slotsOf p.rs)) (placedSum (fun q => slotsOf q.rs) · s) 64)
  fits 0x007 (clusterShort (fun c => on p.rs.pkgFlags c + (p.sheets.map fun m => m.flagsIn c).sum) (flagsUsed · s) flagCap)
  fits 0x008 (clusterShort (on p.rs.instances) (placedSum (fun q => q.rs.instances) · s) 256)
  fits 0x009 (pkgStacked p - stackedFree s)
  fits 0x00B (((p.gsus.map fun (_, g) => p.rs.gsuBytes - gsuFree g s).find? (0 < ·)).getD 0)
  fits 0x00D (pkgOnchip p - onchipFree s)

def iPkgLoad : CmdInfo :=
  { opcode := 0x0400, handle := .obj [1], inline := 3, dl := dlMs 10000, pay := .required
    range := fun c _ => decide (prm c 2 1 < 2) }

/-- PKG_LOAD (R230, R246 to R250). -/
def bodyPkgLoad : Body := fun c s => do
  checkPkg c.pay
  let rs := (parsePkg 0 c.pay []).rs
  let cs := eligible (prm c 0 2) rs.tilesMin s
  let p := parsePkg 0 c.pay (cs.take rs.clusters)
  quotaPair c.fn 0 (pkgOnchip p) s
  quotaPair c.fn 1 (pkgStacked p) s
  limitCheck 5 s
  need (decide (rs.clusters ≤ cs.length)) (fitFail 0x002 rs.tileBytes)
  pkgFit c.fn p s
  if prm c 2 1 = 1 then .ok (s, okR 0 0) else
  let (slot, g, s) := newObj 5 (2 ^ 32) c.fn c.sess [] false (pkgOnchip p) (pkgStacked p) s
  let s := charge c.fn 0 (pkgOnchip p) (charge c.fn 1 (pkgStacked p) s)
  .ok (measure 6 p.digest { s with tile.pkgs := s.tile.pkgs ++ [{ p with slot }] }, okR slot g)

def execPkgLoad (r : ReqRef) (io : Io) (s : State) : Result := serve iPkgLoad bodyPkgLoad r io s

/-- A command on a package. -/
def pkgCmd (opcode ms inline : Nat) : CmdInfo := { opcode, handle := .obj [5], inline, dl := dlMs ms }

def pkgArg (c : Ctx) (s : State) : Except Fail Pkg :=
  match getPkg (objSlot c) s with
  | some p => .ok p
  | none => .error (err stState)

def iPkgUnload : CmdInfo := pkgCmd 0x0401 1000 0

/-- PKG_UNLOAD (R77, R258, R426): a refetch pass ends with the package. -/
def bodyPkgUnload : Body := fun c s => releaseBody c s

def execPkgUnload (r : ReqRef) (io : Io) (s : State) : Result := serve iPkgUnload bodyPkgUnload r io s

/-! ### PKG_QUERY (R267, Table 7.12) -/

/-- Pace frequency of a level in units of 10 MHz (Table 1.3). -/
def paceOf (level : Nat) : Nat := natAt [120, 108, 96, 84, 70, 56, 42, 28] level

/-- A time stated at a level, at the present level, rounded up (R267, R351). -/
def atPace (time design present : Nat) : Nat := ceilDiv (time * paceOf design) (paceOf present)

/-- Stated time of one run, in 0.01 µs. -/
def statedRun (p : Pkg) : Nat := (p.layers.map (·.statedUs)).sum

/-- The predicted time of one run in µs (R267). -/
def predictedRun (p : Pkg) (s : State) : Nat :=
  let tiles := tilesOf p.place s
  if tiles = 0 then 0xFFFFFFFF
  else ceilDiv (statedRun p * paceOf p.designLevel * (16 * p.rs.clusters)) (100 * paceOf s.pwr.level * tiles)

/-- A bit mask of small numbers. -/
def maskOf (ns : List Nat) : Nat := ns.foldl (fun m n => m ||| 2 ^ n) 0

/-- Late-weight record of a layer: events and longest stall. -/
def lateOf (p : Pkg) (layer : Nat) : Nat × Nat :=
  ((p.late.find? fun (l, _, _) => l == layer).map fun (_, n, us) => (n, us)).getD (0, 0)

/-- The PKG_QUERY record. -/
def pkgRecord (p : Pkg) (first count : Nat) (s : State) : List Byte :=
  leBytes 2 (maskOf p.place) ++ leBytes 2 (tilesOf p.place s)
    ++ leBytes 2 (s.tile.insts.filter fun i => i.pkg == p.slot).length ++ leBytes 2 p.rs.instances
    ++ leBytes 2 (maskOf p.below) ++ leBytes 1 s.pwr.level ++ leBytes 1 p.designLevel
    ++ leBytes 4 (ceilDiv (statedRun p) 100) ++ leBytes 4 (predictedRun p s)
    ++ leBytes 8 ((getObj 5 p.slot s).elim 0 (·.chSt)) ++ leBytes 4 ((p.late.map fun (_, n, _) => n).sum)
    ++ leBytes 4 p.refetched ++ zeros 92
    ++ (List.range count).flatMap fun i =>
        let (n, us) := lateOf p (first + i)
        leBytes 4 n ++ leBytes 4 us

def iPkgQuery : CmdInfo :=
  { pkgCmd 0x0406 100 16 with
    res := fun q _ => some (128 + 8 * fld q.param 14 2)
    range := fun c s => decide (prm c 14 2 ≤ 512)
      && (getPkg (objSlot c) s).any fun p => decide (prm c 12 2 + prm c 14 2 ≤ p.layers.length) }

/-- PKG_QUERY (R267). -/
def bodyPkgQuery : Body := fun c s => do
  let p ← pkgArg c s
  .ok (s, okD (prm c 14 2) 0 (pkgRecord p (prm c 12 2) (prm c 14 2) s))

def execPkgQuery (r : ReqRef) (io : Io) (s : State) : Result := serve iPkgQuery bodyPkgQuery r io s

end Sys2Proof.Machine
end

