-- ==== Sys2Proof/Machine/Tile.lean ====
section
/-! DEFINITION. The tile array (R232 to R241, R251 to R268): instances, runs, dispatchers, tiles, stealing,
weight stalls and flag waits; INST_CREATE, INST_DESTROY, INFER_RUN and INST_QUERY. -/
namespace Sys2Proof.Machine

/-! ### Instances and their ports -/

def getInst (slot : Nat) (s : State) : Option Inst := s.tile.insts.find? fun x => x.slot == slot

def updInst (slot : Nat) (f : Inst → Inst) (s : State) : State :=
  { s with tile.insts := updIf (fun x => x.slot == slot) f s.tile.insts }

/-- The package of an instance. -/
def instPkg (x : Inst) (s : State) : Option Pkg := getPkg x.pkg s

/-- Changes the run at the head of an instance. -/
def updHead (slot : Nat) (f : Run → Run) (s : State) : State :=
  updInst slot (fun x => { x with runs := x.runs.modify 0 f }) s

/-- Ports of a kind, by number. -/
def portsOf (p : Pkg) (kind : Nat) : List Nat :=
  (p.ports.zipIdx.filter fun (r, _) => r.kind == kind).map (·.2)

/-- The sheet, buffer record and buffer index that a port is bound to. -/
def portBuf (x : Inst) (port : Nat) (s : State) : Option (Sheet × BufRec × Nat) :=
  match x.binds[port]? with
  | some (4, slot, b) => (getSheet slot s).bind fun sh => (sh.img.bufs[b]?).map fun r => (sh, r, b)
  | _ => none

/-- What a stream buffer, which has no flag, shows a tile-side wait: the latest set whose frame in that
slot is known, with the frame's status. DESIGN CHOICE [54]. -/
def streamFlag (sh : Sheet) (sslot : Nat) (s : State) : CueFlag :=
  let known (fs : FrameSet) : Option Nat := match fs.frames[sslot]? with
    | some .missing => some stTimeout
    | some .released => some stOk
    | _ => match setFrame sh fs sslot s with
      | some (f, true) => some (frameStatus f)
      | _ => none
  let before := (sh.sets.head?).elim sh.lastSet fun fs => if fs.n = 1 then 0 else prevSet fs.n
  let (n, st) := sh.sets.foldl (fun a fs => match known fs with
    | some st => (fs.n, st)
    | none => a) (before, stOk)
  { done := n, status := st, slot := 0, writer := 0, released := 0 }

/-- The flag that a cue port shows. DESIGN CHOICE [54]. -/
def portFlag (x : Inst) (port : Nat) (s : State) : Option CueFlag :=
  (portBuf x port s).bind fun (sh, r, b) => if r.kind = 0 then some (streamFlag sh r.sslot s) else sh.flagOf b

/-- The reference port: the first cue input port (R260). -/
def refPort (p : Pkg) : Option Nat := (portsOf p 1).head?

/-- The instant a run's deadline falls: fixed at admission, or counted from the opening of its set
(R261). DEDUCED [58]. -/
def runDl (x : Inst) (r : Run) (s : State) : Option Nat :=
  match r.dl with
  | some t => some t
  | none => ((instPkg x s).bind refPort).bind fun p => (portBuf x p s).bind fun (sh, _, _) =>
      (sh.t0s.find? fun (n, _, _) => n == r.set).map fun (_, _, m) => m + r.dlUs * usT

/-- The deadline a run without one is ordered by: after every other (R235). DEDUCED [58]. -/
def noDl : Nat := 2 ^ 200

/-- The run of a number. -/
def runOf (x : Inst) (serial : Nat) : Option Run := x.runs.find? fun r => r.serial == serial

/-- Changes the run of a number. -/
def updRun (slot serial : Nat) (f : Run → Run) (s : State) : State :=
  updInst slot (fun x => { x with runs := updIf (fun r => r.serial == serial) f x.runs }) s

/-- The deadline that orders a run's work: it is known once its set has opened (R261). -/
def runKey (x : Inst) (r : Run) (s : State) : Nat := (runDl x r s).getD noDl

/-! ### Dispatch (R235, R237) -/

/-- The deadline of a task's run. -/
def taskDl (t : Task) (s : State) : Nat := (getInst t.inst s).elim noDl fun x => (runOf x t.run).elim noDl (runKey x · s)

/-- Task a goes before task b. DEDUCED [58]. -/
def taskBefore (s : State) (a b : Task) : Bool :=
  decide (taskDl a s < taskDl b s) || (taskDl a s == taskDl b s && decide (a.order < b.order))

/-- The first task of a list by deadline and arrival. -/
def firstTask (s : State) : List Task → Option Task
  | [] => none
  | t :: ts => some (ts.foldl (fun a b => if taskBefore s b a then b else a) t)

/-- Tasks are the same task. -/
def sameTask (a b : Task) : Bool := a.order == b.order

/-- A tile's queue and running task. -/
def getTile (id : Nat) (s : State) : Tile :=
  (s.tile.tiles.find? fun t => t.id == id).getD { id, queue := [], running := none }

/-- Stores a tile; one without work is not listed. -/
def putTile (t : Tile) (s : State) : State :=
  let rest := s.tile.tiles.filter fun x => x.id != t.id
  { s with tile.tiles := if t.queue.isEmpty && t.running.isNone then rest else rest ++ [t] }

/-- The pool of a dispatcher. -/
def poolOf (c : Nat) (s : State) : List Task := (s.tile.pools.lookup c).getD []

/-- Stores a dispatcher's pool. -/
def putPool (c : Nat) (ts : List Task) (s : State) : State :=
  let rest := s.tile.pools.filter fun p => p.1 != c
  { s with tile.pools := if ts.isEmpty then rest else (c, ts) :: rest }

/-- The tile whose queue has the fewest entries, the lowest number on a tie; none while each holds 64.
 DESIGN CHOICE [50]. -/
def shortestQueue (c : Nat) (s : State) : Option Nat :=
  (tilesIn c s).foldl (fun best id => match best with
    | none => if (getTile id s).queue.length < 64 then some id else none
    | some b => if (getTile id s).queue.length < (getTile b s).queue.length then some id else some b) none

/-- Places held tasks of a dispatcher on tile queues, at most `fuel` of them. DESIGN CHOICE [50]. -/
def placeTasks (c : Nat) : Nat → State → State
  | 0, s => s
  | fuel + 1, s =>
    match firstTask s (poolOf c s), shortestQueue c s with
    | some t, some id =>
      let s := putPool c ((poolOf c s).filter fun u => !sameTask u t) s
      let x := getTile id s
      placeTasks c fuel (putTile { x with queue := x.queue ++ [t] } s)
    | _, _ => s

/-- The run of a task, while it goes on. -/
def taskRun (t : Task) (s : State) : Option Run := (getInst t.inst s).bind (runOf · t.run)

/-- A task has its weights in tile memory; one whose run has ended waits for none. -/
def weightsIn (t : Task) (s : State) : Bool := (taskRun t s).all fun r => r.landed.contains t.layer

/-- A task starts on a tile: a bad image of its package is restored first (R233), the run's first task sets its
start, and a task without its weights stalls (R252). -/
def startTask (id : Nat) (t : Task) (s : State) : State :=
  let x := getTile id s
  let pkg := (getInst t.inst s).elim 0 (·.pkg)
  let s := putTile { x with queue := x.queue.filter fun u => !sameTask u t, running := some (t, s.time.mono) } s
  let s := { s with tile.badImgs := s.tile.badImgs.filter (· != (id, pkg)) }
  let stalled := !weightsIn t s
  updRun t.inst t.run (fun r => { r with
    startAt := some (r.startAt.getD s.time.mono)
    stallAt := if stalled then some (r.stallAt.getD s.time.mono) else r.stallAt }) s

/-- An idle tile that is powered takes the first task of its queue (R235). -/
def takeTask (id : Nat) (s : State) : State :=
  let x := getTile id s
  if x.running.isSome || !domOn (tileDom id) s then s else
  match firstTask s x.queue with
  | some t => startTask id t s
  | none => s

/-- Places what a dispatcher holds, lets idle tiles take work, and fills the queues again. -/
def pump (c : Nat) (s : State) : State :=
  let s := placeTasks c (poolOf c s).length s
  let s := (tilesIn c s).foldl (fun s id => takeTask id s) s
  placeTasks c (poolOf c s).length s

/-- Makes `n` tasks of a run's layer. -/
def newTasks (x : Inst) (r : Run) (first n limitUs : Nat) (remote : Bool) (cluster : Nat) (s : State) : List Task :=
  let gen := (getObj 6 x.slot s).elim 0 (·.gen)
  (List.range n).map fun i =>
    { inst := x.slot, gen, run := r.serial, limitUs, layer := r.layer, no := first + i, order := s.tile.nextOrder + i
      remote, cluster }

/-- Releases tasks of the head run's layer to its dispatcher, which holds at most 4,096 (R237). DESIGN CHOICE [50]. -/
def releaseTasks (inst : Nat) (s : State) : State :=
  match getInst inst s with
  | none => s
  | some x => match x.runs, instPkg x s with
    | r :: _, some p => match r.st, p.layers[r.layer]? with
      | .tasks left unrel c, some l =>
        let n := min unrel (4096 - (poolOf c s).length)
        if n = 0 then s else
        let ts := newTasks x r (l.tasks - unrel) n p.rs.taskLimitUs l.remoteOk c s
        let s := putPool c (poolOf c s ++ ts) { s with tile.nextOrder := s.tile.nextOrder + n }
        pump c (updHead inst (fun r => { r with st := .tasks left (unrel - n) c }) s)
      | _, _ => s
    | _, _ => s

/-- Gives every run whose layer waits for a dispatcher's pool its room, in order of deadline. -/
def releaseAllTasks (s : State) : State :=
  let key (x : Inst) : Nat := (x.runs.head?).elim noDl (runKey x · s)
  let waits (x : Inst) : Bool := (x.runs.head?).any fun r => match r.st with
    | .tasks _ u _ => decide (0 < u)
    | _ => false
  let xs := sortBy (fun a b => decide (key a ≤ key b)) (s.tile.insts.filter waits)
  xs.foldl (fun s x => releaseTasks x.slot s) s

/-- Every dispatcher of the array (after tiles or tasks have changed). -/
def pumpAll (s : State) : State :=
  let s := (s.tile.pools.map (·.1)).foldl (fun s c => pump c s) s
  releaseAllTasks ((s.tile.tiles.map (·.id)).foldl (fun s id => takeTask id s) s)

/-! ### The end of a run (R259, R264 to R266) -/

/-- What an output port's flag shows next: the set the run reads, or one more than its last (R264). -/
def nextDone (r : Run) (f : CueFlag) : Nat := if r.set = 0 then nextSet f.done else r.set

/-- The slot an output port writes next (R264). -/
def nextSlot (b : BufRec) (f : CueFlag) : Nat := if f.done = 0 then 0 else (f.slot + 1) % b.slots

/-- Writes bytes 0 to 6 of an output port's flag (R264). DEDUCED [242]. -/
def signalPort (x : Inst) (r : Run) (port st : Nat) (moved : Bool) (s : State) : State :=
  match portBuf x port s with
  | some (sh, b, _) => match portFlag x port s with
    | some f =>
      let slot := if moved then nextSlot b f else f.slot
      writeFlag sh.slot b.flag 0 (leBytes 4 (nextDone r f) ++ leBytes 2 st ++ leBytes 1 slot) s
    | none => s
  | none => s

/-- R265: the output ports not signalled carry the final status; they name no new slot. -/
def signalRest (x : Inst) (r : Run) (st : Nat) (s : State) : State :=
  ((instPkg x s).elim [] fun p => portsOf p 2).foldl (fun s port =>
    if r.signalled.contains port then s else signalPort x r port st false s) s

/-- R266: `RELEASED_SEQ` of every cue input port whose buffer has `RELEASE` set. -/
def releaseInputs (x : Inst) (r : Run) (s : State) : State :=
  ((instPkg x s).elim [] fun p => portsOf p 1).foldl (fun s port => match portBuf x port s with
    | some (sh, b, _) => if b.release then writeFlag sh.slot b.flag 8 (leBytes 4 r.set) s else s
    | none => s) s

/-- The time of a run in µs, from its first task (Table 7.11). -/
def runUs (r : Run) (s : State) : Nat := r.startAt.elim 0 fun t => usOf (s.time.mono - t)

/-- Counts a run that has ended (Table 7.11). DEDUCED [57]. -/
def countRun (r : Run) (st us : Nat) (x : Inst) : Inst :=
  { x with
    runs := x.runs.filter fun y => y.serial != r.serial
    doneRuns := x.doneRuns + 1, errRuns := x.errRuns + (if isErr st then 1 else 0)
    lateRuns := x.lateRuns + (if st = stLateWeight then 1 else 0)
    lastUs := us, maxUs := max us x.maxUs, lastSet := r.set }

/-! ### Prefetch (R251) -/

/-- The stored blocks of a layer. -/
def layerBlocks (p : Pkg) (k : Nat) : List TBlock :=
  (p.layers[k]?).elim [] fun l => (p.blocks.drop l.firstBlock).take l.blocks

/-- The block indexes of a layer in the order in which the prefetch schedule fetches them. DESIGN CHOICE [238]. -/
def fetchOrder (p : Pkg) (k : Nat) : List Nat :=
  (p.layers[k]?).elim [] fun l =>
    sortBy (fun a b => decide (Config.fetchKey p.prefetch k a ≤ Config.fetchKey p.prefetch k b))
      ((List.range l.blocks).map (l.firstBlock + ·))

/-- A layer's fetch is issued. -/
def isIssued (r : Run) (k : Nat) : Bool := r.issued.any fun (i, _) => i == k

/-- A run with layers issued in order from `n` on; a layer without blocks has landed. DEDUCED [236]. -/
def issueLayers (p : Pkg) (n : Nat) (ks : List Nat) (r : Run) : Run :=
  { r with
    issued := r.issued ++ ks.zipIdx.map fun (k, i) => (k, n + i)
    landed := r.landed ++ ks.filter fun k => (layerBlocks p k).isEmpty }

/-- Layer slots that a run holds: its layers issued and not complete. -/
def heldSlots (r : Run) : Nat := (r.issued.filter fun (k, _) => decide (r.layer ≤ k)).length

/-- The free slots of an instance's stream go to its runs in order: to the layers of each from the one it runs to
`LOOKAHEAD` ahead of it. DEDUCED [236]. -/
def fillRuns (p : Pkg) : Nat → Nat → List Run → Nat × List Run
  | n, _, [] => (n, [])
  | n, free, r :: rs =>
    let ahead := (List.range (p.rs.lookahead + 1)).map (r.layer + ·)
    let ks := (ahead.filter fun k => decide (k < p.layers.length) && !isIssued r k).take (free - heldSlots r)
    let (m, rest) := fillRuns p (n + ks.length) (free - heldSlots r - ks.length) rs
    (m, issueLayers p n ks r :: rest)

/-- Issues the fetch of the layers that an instance's slots have room for. DEDUCED [236]. -/
def fillSlots (inst : Nat) (s : State) : State :=
  match getInst inst s with
  | none => s
  | some x => match instPkg x s with
    | none => s
    | some p =>
      let (n, runs) := fillRuns p s.tile.nextIssue (p.rs.lookahead + 1) x.runs
      updInst inst (fun x => { x with runs }) { s with tile.nextIssue := n }

/-- A run awaits a block that the package has given up (R425). DEDUCED [52]. -/
def deadAhead (p : Pkg) (r : Run) : Bool :=
  r.issued.any fun (k, _) => !r.landed.contains k && (layerBlocks p k).any (·.dead)

/-- A layer fetch waits behind one issued before it for a run of earlier deadline, as the prefetch engines of a
placement serve the slots of all runs (R251). DEDUCED [237]. -/
def servedLater (pkg : Pkg) (key order : Nat) (s : State) : Bool :=
  (s.tile.insts.filter fun y => y.pkg == pkg.slot).any fun y => y.runs.any fun r =>
    r.dl.any (fun d => decide (d < key)) && r.issued.any fun (k, n) =>
      decide (n < order) && !r.landed.contains k && !(layerBlocks pkg k).any (·.quarAt.isSome)

/-- The tasks of a run that stalls on weights leave their tiles when it ends (R252). DEDUCED [240]. -/
def stopStalled (r : Run) (s : State) : State :=
  let waits (t : Task) : Bool := t.run == r.serial && !r.landed.contains t.layer
  let stop (t : Tile) : Tile := { t with running := t.running.filter fun (k, _) => !waits k }
  { s with tile.tiles := (s.tile.tiles.map stop).filter fun t => !t.queue.isEmpty || t.running.isSome }

/-- Ends a run with a status (R265, R266): flags, tasks, counts, completion. DEDUCED [57]. -/
def endRun (inst : Nat) (r : Run) (st : Nat) (s : State) : State :=
  match getInst inst s with
  | none => s
  | some x =>
    let st := if isErr st then st else worseOk (worseOk st r.status) (if r.clamped.isEmpty then stOk else stPartial)
    let s := if isErr st then signalRest x r st s else s
    let s := releaseInputs x r s
    let s := stopStalled r (withdrawTasks (fun t => t.run == r.serial) s)
    let s := fillSlots inst (updInst inst (countRun r st (runUs r s)) s)
    postRef r.req st r.set (min r.desyncs.length 255 + 256 * min r.clamped.length 255) none s

/-- Ends the run at the head of an instance. -/
def endHead (inst st : Nat) (s : State) : State :=
  match (getInst inst s).bind (·.runs.head?) with
  | some r => endRun inst r st s
  | none => s

/-! ### The course of a run (R234, R251, R262 to R264) -/

/-- The ports, counts of which were found, whose count is above their `DYN_MAX` (R255). -/
def clampedPorts (p : Pkg) (counts : List (Nat × Nat)) : List Nat :=
  (counts.filter fun (i, n) => (p.ports[i]?).any fun r => r.dynMax != 0 && decide (r.dynMax < n)).map (·.1)

/-- The records that a record buffer's slot, as the flag of a cue input port names it, holds for a set (Table 6.3). -/
def portCount (x : Inst) (port set : Nat) (s : State) : List (Nat × Nat) :=
  match portBuf x port s, portFlag x port s with
  | some (sh, b, i), some f =>
    if b.kind = 0 || b.format < 0x20 then [] else
    let slots := (sh.bufs[i]?).elim [] (·.slots)
    let y := if f.done = set then slots[f.slot]? else slots.find? fun y => y.set == set
    y.toList.map fun y => (port, fld y.bytes 0 4)
  | _, _ => []

/-- The tasks of the head run's layer go to the dispatcher of one cluster of the placement that has
tiles in service: Stage Manager's choice, a free value. -/
def toTasks (inst : Nat) (s : State) : State :=
  match getInst inst s with
  | none => s
  | some x => match x.runs, instPkg x s with
    | r :: _, some p =>
      let cs := p.place.filter fun c => !(tilesIn c s).isEmpty
      let (d, s) := draw s
      let n := (p.layers[r.layer]?).elim 0 (·.tasks)
      releaseTasks inst (updHead inst (fun r => { r with st := .tasks n n (natAt cs (d % cs.length)), stallAt := none }) s)
    | _, _ => s

/-- The next slot of a signal port is held (R219, R264). -/
def slotBusy (x : Inst) (port : Nat) (s : State) : Bool :=
  match portBuf x port s, portFlag x port s with
  | some (sh, b, i), some f =>
    (sh.bufs[i]?).any fun br => (br.slots[nextSlot b f]?).any fun y => slotHeld sh i y
  | _, _ => false

/-- The head run waits for the slot of its layer's signal port, or goes on to its tasks. -/
def trySlot (inst : Nat) (s : State) : State :=
  match getInst inst s with
  | none => s
  | some x => match x.runs.head?, instPkg x s with
    | some r, some p =>
      let port := (p.layers[r.layer]?).elim none16 (·.signalPort)
      if port ≠ none16 ∧ slotBusy x port s then
        match r.st with
        | .waitSlot _ => s
        | _ => updHead inst (fun r => { r with st := .waitSlot s.time.mono }) s
      else toTasks inst s
    | _, _ => s

/-- The head run waits for its layer's flag, or the flag decides what happens next (R262, R263). DEDUCED [55]. -/
def tryFlag (inst : Nat) (s : State) : State :=
  match getInst inst s with
  | none => s
  | some x => match x.runs.head?, instPkg x s with
    | some r, some p =>
      let port := (p.layers[r.layer]?).elim none16 (·.waitPort)
      if port = none16 then trySlot inst s else
      match portFlag x port s with
      | none => trySlot inst s
      | some f =>
        let kept := (portBuf x port s).any fun (_, b, _) => b.release
        if f.done = 0 ∨ !seqReached r.set f.done then
          match r.st with
          | .waitFlag _ => s
          | _ => updHead inst (fun r => { r with st := .waitFlag s.time.mono }) s
        else if f.done ≠ r.set ∧ !kept then endHead inst stSetGone s
        else
        let over' := clampedPorts p (portCount x port r.set s)
        let s := updHead inst (fun r => { r with clamped := (r.clamped ++ over').eraseDups }) s
        if f.status = stDesync then
          trySlot inst (updHead inst (fun r => { r with desyncs := (r.desyncs ++ [port]).eraseDups }) s)
        else if isErr f.status then endHead inst f.status s
        else trySlot inst (updHead inst (fun r => { r with status := worseOk r.status f.status }) s)
    | _, _ => s

/-- The head run, when it is queued, starts (R245, R262). -/
def startRun (inst : Nat) (s : State) : State :=
  match getInst inst s with
  | none => s
  | some x => match x.runs.head?, instPkg x s with
    | some r, some p =>
      if r.st ≠ .queued then s else
      if tilesOf p.place s = 0 then endHead inst stState s
      else tryFlag inst s
    | _, _ => s

/-- The first run of an instance whose prefetch has reached a block that is given up. -/
def deadRun (inst : Nat) (s : State) : Option Run :=
  (getInst inst s).bind fun x => (instPkg x s).bind fun p => x.runs.find? (deadAhead p)

/-- Ends the runs that await a given-up block (R425) and starts the run at the head of an instance; one that ends at
once makes room for the next. DEDUCED [56]. -/
def kick (inst : Nat) : Nat → State → State
  | 0, s => s
  | fuel + 1, s =>
    match deadRun inst s with
    | some r => kick inst fuel (endRun inst r stMedia s)
    | none => match (getInst inst s).bind (·.runs.head?) with
      | some r => if r.st = .queued then kick inst fuel (startRun inst s) else s
      | none => s

/-- What follows when the work of an instance has changed: its next run starts, free dispatchers and
tiles take work. -/
def advanceInst (inst : Nat) (s : State) : State :=
  let n := (getInst inst s).elim 0 (·.runs.length)
  settle (pumpAll (kick inst (2 * n + 2) s))

/-- The head run's layer is complete (R234, R251, R264): its signal port is written, the next layer to
fetch is issued, and the next layer or the end of the run follows. -/
def layerDone (inst : Nat) (s : State) : State :=
  match getInst inst s with
  | none => s
  | some x => match x.runs.head?, instPkg x s with
    | some r, some p =>
      let port := (p.layers[r.layer]?).elim none16 (·.signalPort)
      let so := worseOk r.status (if r.clamped.isEmpty then stOk else stPartial)
      let s := if port = none16 then s else
        updHead inst (fun r => { r with signalled := r.signalled ++ [port] }) (signalPort x r port so true s)
      if r.layer + 1 < p.layers.length then
        let s := fillSlots inst (updHead inst (fun r => { r with layer := r.layer + 1 }) s)
        match (getInst inst s).bind (·.runs.head?) with
        | some r => if deadAhead p r then endHead inst stMedia s else tryFlag inst s
        | none => s
      else endHead inst stOk s
    | _, _ => s

/-! ### What a task leaves (R232, R255) -/

/-- The instance that a task works for, while it lives. DEDUCED [240]. -/
def taskInst (t : Task) (s : State) : Option Inst :=
  if (getObj 6 t.inst s).any fun o => o.gen == t.gen then getInst t.inst s else none

/-- A task's write: to an allocation it is bound to, to the slot an output port is to signal, or, past
the ports, to the instance's stacked memory. Writes elsewhere reach no object. Answers the status that
ends the run. DEDUCED [53]. -/
def taskWrite (t : Task) (w : TileWrite) (s : State) : Nat × State :=
  let bytes := dataBytes w.data s.fresh
  let s := { s with fresh := s.fresh + dataDraws w.data }
  match taskInst t s with
  | none => (stOk, s)
  | some x => match x.binds[w.port]? with
    | none => (stOk, updInst x.slot (fun x => { x with mem := memWrite x.mem w.off bytes }) s)
    | some (13, slot, _) => match getAlloc slot s with
      | none => (stOk, s)
      | some a =>
        if a.sealed.isSome ∨ a.size < w.off + bytes.length then (stOk, s)
        else if a.critical ∧ (w.off % 4 ≠ 0 ∨ bytes.length % 4 ≠ 0) then (stRange, s)
        else (stOk, updAlloc slot (Alloc.write w.off bytes) s)
    | some (4, _, _) => match portBuf x w.port s, portFlag x w.port s with
      | some (sh, b, i), some f =>
        let put (y : BufSlot) : BufSlot :=
          { y with set := 0
                   bytes := y.bytes.take w.off ++ zeros (w.off - y.bytes.length) ++ bytes
                     ++ y.bytes.drop (w.off + bytes.length) }
        if b.kind = 2 ∧ w.off + bytes.length ≤ slotBytes b then
          (stOk, updSheet sh.slot (fun sh => { sh with
            bufs := sh.bufs.modify i fun br => { br with slots := br.slots.modify (nextSlot b f) put } }) s)
        else (stOk, s)
      | _, _ => (stOk, s)
    | some _ => (stOk, s)

/-- The writes of a task in order; the first that ends the run decides the status. DEDUCED [53]. -/
def taskWrites (t : Task) (ws : List TileWrite) (s : State) : Nat × State :=
  ws.foldl (fun (st, s) w =>
    let (e, s) := taskWrite t w s
    (if st = stOk then e else st, s)) (stOk, s)

/-- An uncorrectable error of tile memory (R233, Table 12.6): recorded, and the tile's image of the package is to be
restored before the tile takes another task of it. -/
def tileMediaError (id : Nat) (t : Task) (addr syndrome : Nat) (s : State) : State :=
  match taskInst t s with
  | none => s
  | some x =>
    let s := addFault (mkFault 2 1 id addr syndrome 6 (handleOf 5 x.pkg s) (if (taskRun t s).isSome then 1 else 0) 0 s) s
    let s := raiseOnce 0x0901 (5, x.pkg) (fun n => n) s
    { s with tile.badImgs := (s.tile.badImgs ++ [(id, x.pkg)]).eraseDups }

/-- Ends the run that a task belongs to, when it still goes on. -/
def endTaskRun (t : Task) (st : Nat) (s : State) : State :=
  match taskRun t s with
  | some r => endRun t.inst r st s
  | none => s

/-- The tile stops its task, and takes its next one. -/
def freeTile (id : Nat) (s : State) : State := putTile { getTile id s with running := none } s

/-- Scatter batches of a run wait to be lifted (R299). -/
def liftPending (serial : Nat) (s : State) : Bool :=
  s.fus.grids.any fun g => g.epochs.any fun e => e.batches.any fun b => b.run == serial && b.lifted.isNone

/-- A run's layer is over: no task of it is left and, in class 4, the engine has lifted all of its batches (R299).
 DESIGN CHOICE [258]. -/
def layerOver (inst : Nat) (r : Run) (s : State) : Bool :=
  let scatter := (((getInst inst s).bind (instPkg · s)).bind fun p => p.layers[r.layer]?).any fun l => l.cls == 4
  (match r.st with
    | .tasks 0 _ _ => true
    | _ => false) && !(scatter && liftPending r.serial s)

/-- Goes on with a run whose layer is over. -/
def endLayer (inst serial : Nat) (s : State) : State :=
  if ((getInst inst s).bind (runOf · serial)).any fun r => layerOver inst r s then layerDone inst s else s

/-- TASK_COMPLETE (R232 to R235, R255): the tile is free, and the last task of a layer ends it; of a run that has
ended only the writes remain. DESIGN CHOICE [200]. DEDUCED [240]. -/
def execTaskComplete (id : Nat) (o : TaskOut) (s : State) : Result :=
  ended (match (getTile id s).running with
    | none => s
    | some (t, _) =>
      if !weightsIn t s then s else
      let (e, s) := taskWrites t o.writes (freeTile id s)
      let s := o.tileBad.elim s fun (addr, syndrome) => tileMediaError id t addr syndrome s
      let st := if o.tileBad.isSome then stMedia else if isErr o.error then o.error else e
      let found := ((getInst t.inst s).bind (instPkg · s)).elim [] (clampedPorts · o.counts)
      let count (r : Run) : Run := { r with
        clamped := (r.clamped ++ found).eraseDups
        st := match r.st with
          | .tasks left u c => .tasks (left - 1) u c
          | x => x }
      let s := updRun t.inst t.run count s
      let s := if isErr st then endTaskRun t st s else endLayer t.inst t.run s
      advanceInst t.inst (takeTask id s))

/-- TILE_FLAG_WRITE (R220, R222, R232): a task's write of a flag takes effect after the earlier writes of the task;
an earlier write that its destination refuses ends the run instead. DEDUCED [241]. -/
def execTileFlagWrite (slot fi at' : Nat) (bs : List Byte) (s : State) (tile : Nat := 0)
    (writes : List TileWrite := []) : Result :=
  ended (match (getTile tile s).running with
    | none => s
    | some (t, _) =>
      if !weightsIn t s then s else
      let (e, s) := taskWrites t writes s
      if isErr e then advanceInst t.inst (takeTask tile (endTaskRun t e (freeTile tile s)))
      else if bs.isEmpty || decide (16 < at' + bs.length) then s
      else settle (writeFlag slot fi at' bs s))

/-- TASK_WATCHDOG (R236): a task past its package's limit is stopped and ends its run. DEDUCED [51]. -/
def execTaskWatchdog (id : Nat) (s : State) : Result :=
  ended (match (getTile id s).running with
    | none => s
    | some (t, at') =>
      if weightsIn t s && due (at' + t.limitUs * usT) s then
        advanceInst t.inst (takeTask id (endTaskRun t stTimeout (freeTile id s)))
      else s)

/-! ### Stealing (R238, R239) -/

/-- Mesh hops between two clusters. -/
def meshHops (a b : Nat) : Nat :=
  (max (a / 4) (b / 4) - min (a / 4) (b / 4)) + (max (a % 4) (b % 4) - min (a % 4) (b % 4))

/-- The placement of a task's package. -/
def taskPlace (t : Task) (s : State) : List Nat := ((getInst t.inst s).bind (instPkg · s)).elim [] (·.place)

/-- Queued tasks of a cluster's tiles, with their tiles. -/
def queuedIn (c : Nat) (s : State) : List (Nat × Task) :=
  (s.tile.tiles.filter fun t => t.id / 16 == c).flatMap fun t => t.queue.map fun k => (t.id, k)

/-- The first of queued tasks by deadline and arrival. -/
def firstQueued (s : State) (l : List (Nat × Task)) : Option (Nat × Task) :=
  (firstTask s (l.map (·.2))).bind fun t => l.find? fun x => sameTask x.2 t

/-- What an idle tile steals: from its own cluster first, then through the steal port, nearest cluster
first. -/
def stealFrom (id : Nat) (s : State) : Option (Nat × Task) :=
  let c := id / 16
  let own := (queuedIn c s).filter fun (i, t) => i != id && (taskPlace t s).contains c
  match firstQueued s own with
  | some x => some x
  | none =>
    let far := sortBy (fun a b => decide (meshHops c a < meshHops c b) || (meshHops c a == meshHops c b && decide (a ≤ b)))
      ((List.range 16).filter (· != c))
    far.findSome? fun d => firstQueued s ((queuedIn d s).filter fun (_, t) => t.remote && (taskPlace t s).contains c)

/-- TILE_STEAL (R238): one handshake moves the task. -/
def execTileSteal (id : Nat) (s : State) : Result :=
  let x := getTile id s
  .next (if decide (256 ≤ id) || !tileOk id s || !domOn (tileDom id) s || x.running.isSome || !x.queue.isEmpty then s else
    match stealFrom id s with
    | none => s
    | some (victim, t) =>
      let v := getTile victim s
      let s := putTile { v with queue := v.queue.filter fun u => !sameTask u t } s
      settle (pumpAll (startTask id t s)))

/-! ### Weights (R251 to R253) -/

/-- Notes the longest stall of a layer, and a late-weight event. -/
def noteStall (layer us events : Nat) (p : Pkg) : Pkg :=
  let (n, m) := lateOf p layer
  { p with late := (layer, n + events, max m us) :: p.late.filter fun (l, _, _) => l != layer }

/-- Tasks of a landed layer that stalled start their watchdog anew (R236). -/
def unstall (run layer : Nat) (s : State) : State :=
  { s with tile.tiles := s.tile.tiles.map fun t => { t with
      running := t.running.map fun (k, at') =>
        if k.run = run ∧ k.layer = layer then (k, s.time.mono) else (k, at') } }

/-- The runs of a package, with their instances, that have read a block (R253). -/
def blockReaders (p : Pkg) (i : Nat) (s : State) : List (Nat × Run) :=
  let holds (k : Nat) : Bool := (p.layers[k]?).any fun l => decide (l.firstBlock ≤ i) && decide (i < l.firstBlock + l.blocks)
  (s.tile.insts.filter fun x => x.pkg == p.slot).flatMap fun x =>
    (x.runs.filter fun r => r.landed.any holds).map fun r => (x.slot, r)

/-- Quarantines a block: every run that has read it ends with `ST_E_MEDIA` at once (R253, R423). -/
def quarantineRead (pkg i : Nat) (s : State) : State :=
  let hit := (getPkg pkg s).elim [] (blockReaders · i s)
  hit.foldl (fun s (x, r) => advanceInst x (endRun x r stMedia s)) (quarantine pkg i s)

/-- A block of the stored image that does not decode is corrupt (R417): fault record of kind 9. -/
def blockFault (pkg i : Nat) (s : State) : State :=
  let (x, s) := draw s
  let n := (getPkg pkg s).elim 0 fun p => (blockReaders p i s).length
  addFault (mkFault 9 0 (x % 32) (x / 32 % 2 ^ 38) 0 4 (handleOf 5 pkg s) (n + 1) 0 s) s

/-- WEIGHT_LANDED (R251, R253, R417): the blocks of a layer are read in the order of the prefetch schedule; the first
that is bad is quarantined and ends the run. DEDUCED [51]. -/
def execWeightLanded (inst k : Nat) (s : State) (run : Nat := 0) : Result :=
  ended (match getInst inst s with
    | none => s
    | some x => match x.runs[run]?, instPkg x s with
      | some r, some p => match r.issued.find? fun (i, _) => i == k with
        | none => s
        | some (_, order) =>
          if r.landed.contains k || servedLater p (runKey x r s) order s then s else
          if (layerBlocks p k).any (·.quarAt.isSome) then s else
          match (fetchOrder p k).find? fun i => (p.blocks[i]?).any fun b => !b.good with
          | some i =>
            advanceInst inst (endRun inst r stMedia (quarantineRead p.slot i (blockFault p.slot i s)))
          | none =>
            let us := if k = r.layer then r.stallAt.elim 0 fun t => usOf (s.time.mono - t) else 0
            let s := if us = 0 then s else updPkg p.slot (noteStall k us 0) s
            let land (r : Run) : Run := { r with
              landed := r.landed ++ [k], stallAt := if k = r.layer then none else r.stallAt }
            unstall r.serial k (updRun inst r.serial land s)
      | _, _ => s)

/-- A block that the head run's layer awaits is quarantined; the earliest quarantine. -/
def awaitedQuar (p : Pkg) (k : Nat) : Option Nat :=
  ((layerBlocks p k).filterMap (·.quarAt)).foldl (fun a t => some (a.elim t (min t))) none

/-- The stalled runs of a package that await a block keep no late-weight limit (R253). -/
def stopLate (pkg i : Nat) (s : State) : State :=
  match getPkg pkg s with
  | none => s
  | some p =>
    let awaits (r : Run) : Bool := r.stallAt.isSome && (p.layers[r.layer]?).any fun l =>
      decide (l.firstBlock ≤ i) && decide (i < l.firstBlock + l.blocks)
    let off (x : Inst) : Inst := { x with runs := updIf awaits (fun r => { r with lateOff := true }) x.runs }
    { s with tile.insts := updIf (fun x => x.pkg == pkg) off s.tile.insts }

/-- LATE_WEIGHT_EXPIRY (R252): not while an awaited block is quarantined (R253). -/
def execLateWeightExpiry (inst : Nat) (s : State) : Result :=
  ended (match getInst inst s with
    | none => s
    | some x => match x.runs.head?, instPkg x s with
      | some r, some p => match r.stallAt with
        | none => s
        | some t =>
          if !due (t + p.rs.lateWeightUs * usT) s || r.lateOff || (awaitedQuar p r.layer).isSome then s else
          let s := updPkg p.slot (noteStall r.layer (usOf (s.time.mono - t)) 1) s
          let s := raiseOnce 0x0401 (5, p.slot) (fun n => r.layer + min n (2 ^ 32 - 1) * 65536) s
          advanceInst inst (endHead inst stLateWeight s)
      | _, _ => s)

/-- WEIGHT_TIMEOUT (R253): counted from the start of the quarantine. DESIGN CHOICE [29]. -/
def execWeightTimeout (inst : Nat) (s : State) : Result :=
  ended (match getInst inst s with
    | none => s
    | some x => match x.runs.head?, instPkg x s with
      | some r, some p =>
        if r.stallAt.isNone then s else
        match awaitedQuar p r.layer with
        | none => s
        | some t => if due (t + p.rs.weightTimeoutUs * usT) s then advanceInst inst (endHead inst stMedia s) else s
      | _, _ => s)

/-! ### Flag waits (R262 to R264) -/

/-- FLAG_WAIT_MET: a flag or slot wait that is met goes on. DEDUCED [56]. -/
def execFlagWaitMet (inst : Nat) (s : State) : Result :=
  ended (match (getInst inst s).bind (·.runs.head?) with
    | none => s
    | some r => match r.st with
      | .waitFlag _ => advanceInst inst (tryFlag inst s)
      | .waitSlot _ => advanceInst inst (trySlot inst s)
      | _ => s)

/-- FLAG_WAIT_EXPIRY (R262, R264). -/
def execFlagWaitExpiry (inst : Nat) (s : State) : Result :=
  ended (match getInst inst s with
    | none => s
    | some x => match x.runs.head?, instPkg x s with
      | some r, some p =>
        let passed (t : Nat) : Bool := due (t + p.rs.flagWaitUs * usT) s
        match r.st with
        | .waitFlag t => if passed t then advanceInst inst (endHead inst stTimeout s) else s
        | .waitSlot t => if passed t then advanceInst inst (endHead inst stTimeout s) else s
        | _ => s
      | _, _ => s)

/-! ### Commands (Table 7.10) -/

/-- Object types that a port kind takes (Table 7.8). -/
def portType (kind : Nat) : Nat := natAt [13, 4, 4, 7, 3, 2] kind

/-- The binding records of INST_CREATE: handle, buffer index, reserved bytes zero. -/
def bindRecs (b : List Byte) : List (Nat × Nat × Bool) :=
  (List.range (b.length / 16)).map fun i => (fld b (16 * i) 8, fld b (16 * i + 8) 2, fld b (16 * i + 10) 6 == 0)

/-- The package that INST_CREATE names. -/
def createPkg (c : Ctx) (s : State) : Option Pkg := getPkg (prm c 0 8 % 2 ^ 32) s

def iInstCreate : CmdInfo :=
  { opcode := 0x0402, handle := .obj [1], inline := 8, dl := dlMs 100, pay := .required
    hands := fun c s => (lookupHandle [5] c.fn false (prm c 0 8) s).map fun _ => ()
    range := fun c s => (createPkg c s).any fun p => c.plen == 16 * p.ports.length }

/-- R256 for one port whose object is found: the status that ends the command. -/
def bindBad (sess : Option Nat) (p : PortRec) (o : Obj) (buf : Nat) (s : State) : Option Nat :=
  match p.kind with
  | 0 =>
    if !allocUsable o sess then some stAuth
    else if (getAlloc o.slot s).all fun a => decide (a.size < p.minBytes) then some stStructure else none
  | 1 => if (getSheet o.slot s).any fun sh => (sh.img.bufs[buf]?).any fun b =>
        decide (b.kind ≤ 1) && sh.img.fmt buf == p.format && (b.kind == 0 || b.flag != none16)
      then none else some stStructure
  | 2 => if (getSheet o.slot s).any fun sh => (sh.img.bufs[buf]?).any fun b =>
        b.kind == 2 && b.format == p.format && b.flag != none16
      then none else some stStructure
  | _ => none

/-- R256 for the ports in order. -/
def checkBinds (c : Ctx) (s : State) : List (PortRec × (Nat × Nat × Bool)) → Nat → Except Fail (List (Nat × Nat × Nat))
  | [], _ => .ok []
  | (p, h, buf, rsv) :: rest, i => do
    need rsv (err stRange)
    need (p.kind == 1 || p.kind == 2 || buf == 0) (err stRange)
    need (h / 2 ^ 56 == portType p.kind) { st := stStructure, r0 := i, r1 := 0 }
    let o ← lookupHandle [portType p.kind] c.fn false h s
    match bindBad c.sess p o buf s with
    | some st => .error { st, r0 := i, r1 := 0 }
    | none => pure ()
    let more ← checkBinds c s rest (i + 1)
    .ok ((o.ty, o.slot, buf) :: more)

/-- INST_CREATE (R256 to R258). -/
def bodyInstCreate : Body := fun c s => do
  let some p := createPkg c s | .error (err stState)
  let binds ← checkBinds c s (p.ports.zip (bindRecs c.pay)) 0
  let made := (s.tile.insts.filter fun x => x.pkg == p.slot).length
  need (decide (made < p.rs.instances)) (err stLimit)
  limitCheck 6 s
  let deps := ((5, p.slot) :: binds.map fun (t, n, _) => (t, n)).eraseDups
  let (slot, g, s) := newObj 6 (2 ^ 32) c.fn c.sess deps false 0 0 s
  let x : Inst :=
    { slot, pkg := p.slot, binds, runs := [], doneRuns := 0, errRuns := 0, lateRuns := 0, lastUs := 0, maxUs := 0
      lastSet := 0, aborted := 0, mem := [] }
  .ok ({ s with tile.insts := s.tile.insts ++ [x] }, okR slot g)

def execInstCreate (r : ReqRef) (io : Io) (s : State) : Result := serve iInstCreate bodyInstCreate r io s

/-- A command on an instance. -/
def instCmd (opcode ms inline : Nat) : CmdInfo := { opcode, handle := .obj [6], inline, dl := dlMs ms }

def instArg (c : Ctx) (s : State) : Except Fail Inst :=
  match getInst (objSlot c) s with
  | some x => .ok x
  | none => .error (err stState)

def iInstDestroy : CmdInfo := instCmd 0x0403 1000 0

/-- Ends the queued runs of an instance with `ST_E_ABORTED`; answers how many (R268). -/
def abortQueued (inst : Nat) (s : State) : Nat × State :=
  let qs := (getInst inst s).elim [] fun x => x.runs.filter fun r => r.st == .queued
  (qs.length, qs.foldl (fun s r => endRun inst r stAborted s) s)

/-- INST_DESTROY (R77, R78, R268). -/
def bodyInstDestroy : Body := fun c s => do
  let x ← instArg c s
  let (s, d) ← releaseBody c s
  let (n, s) := abortQueued x.slot s
  .ok (updInst x.slot (fun x => { x with aborted := n }) s, d)

def execInstDestroy (r : ReqRef) (io : Io) (s : State) : Result := serve iInstDestroy bodyInstDestroy r io s

/-- The instance that an `INFER_RUN` request names. -/
def reqInst (q : Req) (s : State) : Option Inst := getInst (q.handle.toNat % 2 ^ 32) s

/-- Quadrants and stage memories that a placement's runs need. -/
def placeDoms (p : Pkg) (s : State) : List Nat :=
  ((p.place.flatMap fun c => (List.range 4).map fun i => c * 4 + i) ++ p.place.map (64 + ·)).filter fun d =>
    (getDom d s).test != 2

def iInferRun : CmdInfo :=
  { instCmd 0x0404 0 8 with
    dl := fun q s => ((reqInst q s).bind (instPkg · s)).elim 100000 (·.rs.runDeadlineUs)
    range := fun c s => decide (prm c 4 1 ≤ 1) && prm c 5 3 == 0
      && (((getInst (objSlot c) s).bind (instPkg · s)).all fun p =>
            (refPort p).isSome || (prm c 0 4 == 0 && prm c 4 1 == 0))
    doms := fun c s => (((getInst (objSlot c) s).bind (instPkg · s)).elim [] (placeDoms · s)) }

/-- The set that a run reads (R260). -/
def runSet (x : Inst) (p : Pkg) (waitSeq : Nat) (s : State) : Nat :=
  match refPort p with
  | none => 0
  | some port => if waitSeq ≠ 0 then waitSeq else nextSet ((portFlag x port s).elim 0 (·.done))

/-- INFER_RUN (R245, R259 to R261). -/
def bodyInferRun : Body := fun c s => do
  let x ← instArg c s
  let some p := instPkg x s | .error (err stState)
  need (tilesOf p.place s != 0) (err stState)
  need (decide (x.runs.length < 65)) (err stLimit)
  let fromSet := prm c 4 1 == 1
  let us := c.q.dl.elim 0 fun d => usOf (d - c.q.at')
  let r : Run :=
    { req := reqRef c.q, dl := if fromSet then none else c.q.dl, dlUs := us, admitted := s.time.now
      set := runSet x p (prm c 0 4) s, layer := 0, st := .queued, startAt := none, serial := s.tile.nextRun
      landed := [], issued := [], lateOff := false, stallAt := none, desyncs := [], clamped := [], status := stOk, signalled := [] }
  let s := updInst x.slot (fun x => { x with runs := x.runs ++ [r] })
    (markRunning c.q { s with tile.nextRun := s.tile.nextRun + 1 })
  let n := x.runs.length + 1
  .ok (pumpAll (kick x.slot (2 * n + 2) (fillSlots x.slot s)), .wait)

def execInferRun (r : ReqRef) (io : Io) (s : State) : Result := serve iInferRun bodyInferRun r io s

/-- The INST_QUERY record (Table 7.11). -/
def instRecord (x : Inst) (s : State) : List Byte :=
  let busy := x.runs.any fun r => r.st != .queued
  let closing := (getObj 6 x.slot s).any fun o => o.st != .live && o.st != .orphan
  leBytes 1 (if closing then 2 else if busy then 1 else 0) ++ zeros 3
    ++ leBytes 4 (x.runs.filter fun r => r.st == .queued).length ++ leBytes 8 x.doneRuns ++ leBytes 4 x.errRuns
    ++ leBytes 4 x.lateRuns ++ leBytes 4 (min x.lastUs (2 ^ 32 - 1)) ++ leBytes 4 (min x.maxUs (2 ^ 32 - 1))
    ++ leBytes 4 x.lastSet ++ zeros 28

def iInstQuery : CmdInfo := { instCmd 0x0405 100 12 with res := resMin 64 }

/-- INST_QUERY (Table 7.11). -/
def bodyInstQuery : Body := fun c s => do
  let x ← instArg c s
  .ok (s, okD 0 0 (instRecord x s))

def execInstQuery (r : ReqRef) (io : Io) (s : State) : Result := serve iInstQuery bodyInstQuery r io s

/-- What ends a run that its instance holds, named by its request: an abort or a deadline. -/
def cancelRun (q : Req) (st : Nat) (s : State) : State :=
  match s.tile.insts.find? fun x => x.runs.any fun r => r.req == reqRef q with
  | none => s
  | some x => match x.runs.find? fun r => r.req == reqRef q with
    | none => s
    | some r => pumpAll (kick x.slot (2 * x.runs.length + 2) (endRun x.slot r st s))

/-- The deadline in force for a run's request (R261). -/
def runDeadline (q : Req) (s : State) : Option Nat :=
  match s.tile.insts.find? fun x => x.runs.any fun r => r.req == reqRef q with
  | none => q.dl
  | some x => match x.runs.find? fun r => r.req == reqRef q with
    | none => q.dl
    | some r => runDl x r s

end Sys2Proof.Machine
end

