-- ==== Sys2Proof/Machine/Solver.lean ====
section
/-! DEFINITION. Graph solver units (R322 to R325, R331 to R362): problems, delta batches, runs, solutions and
deadlines; group 0x06 and the rows SOLVE_START, SOLVE_COMPLETE and SOLVE_DEADLINE. -/
namespace Sys2Proof.Machine

/-- Group 0x06 status codes (Table 10.12). -/
def stGsuFenced : Nat := 0x8601

/-! ### Problems in the state -/

def getProb (slot : Nat) (s : State) : Option Problem := s.probs.find? fun p => p.slot == slot

def updProb (slot : Nat) (f : Problem → Problem) (s : State) : State :=
  { s with probs := updIf (fun p => p.slot == slot) f s.probs }

/-- The slot that stands for a grid's ego-motion problem, which has no handle (R332). -/
def egoSlot (grid : Nat) : Nat := 2 ^ 32 + grid

/-- A block's value at load: zero, the identity for a pose (R335). -/
def zeroBlock (m : Sched) (b : BlockRec) : List W64 :=
  if b.kind = 1 then [0, 0, 0, storedWord m b 3 fp1, 0, 0, 0] else List.replicate (valueWords b.kind b.dim) 0

/-- What a block holds: its resident value, or its starting value while no solve has completed. -/
def Problem.held (p : Problem) (i : Nat) : List W64 :=
  match p.resident with
  | some r => (r.values[i]?).getD []
  | none => (p.start[i]?).getD []

/-- Flags of a run (Table 10.10). DEDUCED [65]. -/
def fCold : Nat := 1
def fWarmRejected : Nat := 2
/-- The solution flags of Table 10.9. DEDUCED [65]. -/
def fNoWarm : Nat := 4
def fPivot : Nat := 8
def fSat : Nat := 16
def fRollback : Nat := 32
def fCgBreak : Nat := 64
def fStale : Nat := 128
def fNoPrevious : Nat := 256

/-! ### SOLV_LOAD (R323, R329 to R331, R359) -/

/-- GSUs in service of a group. -/
def gsusIn (grp : Nat) (s : State) : List Nat :=
  ((List.range 4).map fun i => 4 * grp + i).filter fun g => !gsuFenced g s

/-- The least free schedule memory of a group's GSUs: its fullest member. DEDUCED [60]. -/
def fullestFree (grp : Nat) (s : State) : Nat := ((gsusIn grp s).map (gsuFree · s)).foldl min gsuCap

/-- The GSUs a schedule takes (R323): those it names, or Stage Manager's choice; none when no group has
enough in service. -/
def chooseGsus (m : Sched) (s : State) : Option (List Nat) :=
  if m.gsuMask ≠ 0 then some ((List.range 8).filter m.gsuMask.testBit)
  else
    let grps := [0, 1].filter fun g => decide (m.gsuCount ≤ (gsusIn g s).length)
    let best := grps.foldl (fun b g => match b with
      | none => some g
      | some h => if fullestFree h s < fullestFree g s then some g else some h) none
    best.map fun g =>
      let order := sortBy (fun a b => decide (gsuFree b s < gsuFree a s) || (gsuFree a s == gsuFree b s && decide (a ≤ b)))
        (gsusIn g s)
      order.take m.gsuCount

/-- R323: a named GSU that is fenced. -/
def placeGsus (m : Sched) (s : State) : Except Fail (Option (List Nat)) := do
  let gs := chooseGsus m s
  need (m.gsuMask == 0 || !((gs.getD []).any (gsuFenced · s))) (err stGsuFenced)
  .ok gs

/-- The eligible GSUs: those the schedule names, or every one in service (R323). -/
def eligibleGsus (m : Sched) (s : State) : List Nat :=
  if m.gsuMask ≠ 0 then (List.range 8).filter m.gsuMask.testBit else gsusIn 0 s ++ gsusIn 1 s

/-- The shortfall of schedule memory: what the most free eligible GSU lacks (R331). DEDUCED [60]. -/
def gsuShort (m : Sched) (s : State) : Nat := m.gsuBytes - ((eligibleGsus m s).map (gsuFree · s)).foldl max 0

/-- Each of a problem's GSUs holds its claim (R331). DEDUCED [60]. -/
def gsuRoom (m : Sched) (gs : Option (List Nat)) (s : State) : Bool :=
  gs.any fun l => l.all fun g => decide (m.gsuBytes ≤ gsuFree g s)

/-- Stacked bytes of a problem (R331). -/
def schStacked (m : Sched) : Nat := m.valueBytes + m.len

/-- A new problem (R335): every factor disabled, every block zero. -/
def newProblem (slot : Nat) (m : Sched) (gsus : List Nat) (prog : Nat) (pkg : Option (Nat × Nat)) : Problem :=
  { slot, sch := m, gsus, prog, pkg, start := m.blocks.map (zeroBlock m), startBad := []
    factors := m.factors.map fun _ => { set' := false, enabled := false, words := [], x0 := [] }
    resident := none, previous := none, valuesBad := false, schedBad := false, init := [], delivered := none
    runs := [], doneRuns := 0, staleRuns := 0, degraded := 0, lastUs := 0, maxUs := 0 }

/-- The package's schedule that a section index names. -/
def pkgSched (p : Pkg) (sec : Nat) : Option (List Byte) := p.scheds.lookup sec

/-- The schedule memory is claimed by the package already (R250, R359). DEDUCED [59]. -/
def pkgClaims (p : Pkg) (sec : Nat) : Bool := p.gsus.any fun (i, _) => i == sec

/-- Holds a package's claim for a problem (R359). DEDUCED [59]. -/
def holdClaim (p : Pkg) (sec : Nat) (s : State) : State :=
  updPkg p.slot (fun p => { p with schedHeld := p.schedHeld ++ [sec] }) s

/-- The package SOLV_LOAD names, if any. DEDUCED [59]. -/
def loadPkg (c : Ctx) (s : State) : Option Pkg :=
  if prm c 0 8 = 0 then none else getPkg (prm c 0 8 % 2 ^ 32) s

/-- The image SOLV_LOAD checks. -/
def loadImage (c : Ctx) (s : State) : List Byte :=
  match loadPkg c s with
  | some p => (pkgSched p (prm c 8 1)).getD []
  | none => c.pay

def iSolvLoad : CmdInfo :=
  { opcode := 0x0600, handle := .obj [1], inline := 10, dl := dlMs 10000, pay := .optional
    hands := fun c s => if prm c 0 8 = 0 then .ok () else (lookupHandle [5] c.fn false (prm c 0 8) s).map fun _ => ()
    range := fun c s =>
      let pay := c.q.pref || c.q.cbdata
      decide (prm c 8 1 ≤ 63) && decide (prm c 9 1 ≤ 1)
        && (if prm c 0 8 = 0 then pay else !pay && (loadPkg c s).any fun p => (pkgSched p (prm c 8 1)).isSome)
    doms := fun c s => ((chooseGsus (parseSched (loadImage c s)) s).getD []).map fun g => 88 + g / 4 }

/-- SOLV_LOAD (R329 to R331, R359). -/
def bodySolvLoad : Body := fun c s => do
  let sec := prm c 8 1
  let pkg := loadPkg c s
  let m ← checkSched (loadImage c s)
  let claimed := pkg.any fun p => pkgClaims p sec
  need (!(claimed && pkg.any fun p => p.schedHeld.contains sec)) (err stState)
  let gs ← placeGsus m s
  let bytes := if claimed then 0 else schStacked m
  quotaPair c.fn 1 bytes s
  limitCheck 8 s
  fitsQuota c.fn 1 bytes s
  fits 0x009 (bytes - stackedFree s)
  need (claimed || gsuRoom m gs s) (fitFail 0x00B (gsuShort m s))
  if prm c 9 1 = 1 then .ok (s, okR 0 0) else
  let deps := (pkg.map fun p => (5, p.slot)).toList
  let (slot, g, s) := newObj 8 (2 ^ 32) c.fn c.sess deps false 0 bytes s
  let s := charge c.fn 1 bytes s
  let claim := if claimed then pkg.map fun p => (p.slot, sec) else none
  let s := match claim, pkg with
    | some _, some p => holdClaim p sec s
    | _, _ => s
  let (prog, s) := draw s
  let s := if pkg.isNone then measure 7 (Config.sha3 c.pay) s else s
  .ok ({ s with probs := s.probs ++ [newProblem slot m (gs.getD []) prog claim] }, okR slot g)

def execSolvLoad (r : ReqRef) (io : Io) (s : State) : Result := serve iSolvLoad bodySolvLoad r io s

/-- A command on a problem. -/
def probCmd (opcode ms inline : Nat) : CmdInfo := { opcode, handle := .obj [8], inline, dl := dlMs ms }

def probArg (c : Ctx) (s : State) : Except Fail Problem :=
  match getProb (objSlot c) s with
  | some p => .ok p
  | none => .error (err stState)

/-! ### Delta batches (R333 to R335, R360) -/

/-- One delta record. -/
structure Delta where
  op : Nat
  rsv : Nat
  words : Nat
  index : Nat
  data : List W64
deriving DecidableEq, Repr

/-- Words of a run of bytes. -/
def wordsAt (b : List Byte) (off n : Nat) : List W64 := (List.range n).map fun i => BitVec.ofNat 64 (fld b (off + 8 * i) 8)

/-- The delta records of a batch and where they end. DEDUCED [62]. -/
def parseDeltas (b : List Byte) : Nat → Nat → List Delta → List Delta × Nat
  | 0, off, acc => (acc.reverse, off)
  | n + 1, off, acc =>
    let w := fld b (off + 2) 2
    let d : Delta :=
      { op := fld b off 1, rsv := fld b (off + 1) 1, words := w, index := fld b (off + 4) 4
        data := wordsAt b (off + 8) w }
    parseDeltas b n (off + 8 + 8 * w) (d :: acc)

/-- A quaternion within 10^-6 of unit length (R334). -/
def quatOk (ws : List W64) : Bool := unitNorm (ws.map wordVal) 1 1000000

/-- A block's values in the problem's storage (R283, R340). -/
def storedBlock (m : Sched) (b : BlockRec) (vs : List Fp) : List W64 := vs.zipIdx.map fun (v, i) => storedWord m b i v

/-- Components of a block's value that saturate on conversion (R283). -/
def satCount (m : Sched) (b : BlockRec) (vs : List Fp) : Nat :=
  if m.arith = 0 then 0 else (vs.zipIdx.filter fun (v, i) => fixOver (fixWidth m) (blockPoint m b i) v).length

/-- A word of a factor's payload saturates on conversion to its binary point (R283, R334). DESIGN CHOICE [64]. -/
def factorSat (m : Sched) (prog index i : Nat) (x : W64) : Bool :=
  m.arith != 0 && fixOver (fixWidth m) (payloadPoint m prog index i) (wordVal x)

/-- Index of the diagonal entries in the upper triangle, row by row, of an n × n matrix. -/
def diagIdx (n : Nat) : List Nat := (List.range n).map fun i => i * n - i * (i - 1) / 2

/-- The quaternion of a factor's measurement, if it has one. -/
def measQuat (m : Sched) (f : FactorRec) (z : List W64) : Option (List W64) :=
  match f.kind with
  | 1 => if ((f.blocks[0]?).bind m.block).any fun b => b.kind == 1 then some ((z.drop 3).take 4) else none
  | 2 => some ((z.drop 3).take 4)
  | 4 => some ((z.drop 4).take 4)
  | _ => none

/-- A word below zero. -/
def negWord (w : W64) : Bool := fpLt (wordVal w) (.fin false 0 1)

/-- The range checks of a `SET_FACTOR` payload (R334). DEDUCED [63]. -/
def factorRange (m : Sched) (prog index : Nat) (f : FactorRec) (ws : List W64) : Bool :=
  let bs := f.blocks.filterMap m.block
  let z := (ws.drop 1).take (measWords f.kind f.resDim bs)
  let tri := ws.drop (1 + measWords f.kind f.resDim bs)
  ws.all (fun w => fpFinite (wordVal w)) && (measQuat m f z).all quatOk && !negWord (ws.headD 0)
    && (diagIdx f.resDim).all (fun i => !negWord ((tri[i]?).getD 0))
    && !((ws.zipIdx).any fun (w, i) => factorSat m prog index i w)

/-- A value beyond a bound. -/
def beyond (bound w : W64) : Bool :=
  match wordVal w with
  | .fin _ a b => bound != 0 && fpLt (wordVal bound) (.fin false a b)
  | _ => true

/-- The range checks of an `INIT_BLOCK` payload (R334). DEDUCED [63]. -/
def initRange (m : Sched) (b : BlockRec) (ws : List W64) : Bool :=
  ws.all (fun w => fpFinite (wordVal w)) && (b.kind != 1 || quatOk (ws.drop 3))
    && !(ws.any (beyond b.bound)) && satCount m b (ws.map wordVal) == 0

/-- One record's check; `known` are the factors set since load or before it in the batch. DEDUCED [62]. -/
def deltaStatus (p : Problem) (known : List Nat) (d : Delta) : Option Nat :=
  let m := p.sch
  match d.op with
  | 1 => match m.factors[d.index]? with
    | none => some stStructure
    | some f =>
      if d.words ≠ factorWords f (f.blocks.filterMap m.block) then some stStructure
      else if factorRange m p.prog d.index f d.data then none else some stRange
  | 4 => match m.blocks[d.index]? with
    | none => some stStructure
    | some b =>
      if d.words ≠ valueWords b.kind b.dim then some stStructure
      else if initRange m b d.data then none else some stRange
  | _ =>
    if m.factors.length ≤ d.index ∨ d.words ≠ 0 then some stStructure
    else if d.op = 2 ∧ !known.contains d.index then some stState else none

/-- The first record that fails: its index and status. -/
def deltasBad (p : Problem) : List Delta → Nat → List Nat → Option (Nat × Nat)
  | [], _, _ => none
  | d :: ds, i, known =>
    if !inR 1 d.op 4 || d.rsv != 0 || decide (2048 < d.words) then some (i, stRange) else
    match deltaStatus p known d with
    | some st => some (i, st)
    | none => deltasBad p ds (i + 1) (if d.op = 1 then d.index :: known else known)

/-- Factors set since load. DEDUCED [61]. -/
def knownFactors (p : Problem) : List Nat := (p.factors.zipIdx.filter fun (f, _) => f.set').map (·.2)

/-- A problem has a running solve. -/
def Problem.solving (p : Problem) : Bool := (p.runs.head?).any fun r => r.start.isSome

/-- Applies one record (Table 10.7). DEDUCED [61]. -/
def applyDelta (p : Problem) (d : Delta) : Problem :=
  match d.op with
  | 1 =>
    let bs := (p.sch.factors[d.index]?).elim [] (·.blocks)
    { p with factors := p.factors.set d.index { set' := true, enabled := true, words := d.data, x0 := bs.map p.held } }
  | 2 => { p with factors := p.factors.modify d.index fun f => { f with enabled := true } }
  | 3 => { p with factors := p.factors.modify d.index fun f => { f with enabled := false } }
  | _ =>
    let ws := (p.sch.blocks[d.index]?).elim d.data fun b => storedBlock p.sch b (d.data.map wordVal)
    { p with
      start := p.start.set d.index ws
      startBad := p.startBad.filter (· != d.index)
      resident := p.resident.map fun r => { r with values := r.values.set d.index ws }
      init := if p.solving then (d.index, ws) :: p.init.filter (fun x => x.1 != d.index) else p.init }

/-- The batch in an allocation (R360). -/
def allocBatch (c : Ctx) (s : State) : Except Fail (List Byte) := do
  let o ← lookupHandle [13] c.fn false (prm c 0 8) s
  let some a := getAlloc o.slot s | .error (err stState)
  need (allocUsable o c.sess) (err stAuth)
  need (!a.compress) (err stState)
  need (decide (prm c 8 8 + prm c 16 4 ≤ a.size)) (err stRange)
  allocRead o.slot (prm c 8 8) (prm c 16 4) s

def iSolvDelta : CmdInfo :=
  { probCmd 0x0602 1000 20 with
    pay := .optional
    hands := fun c s => if prm c 0 8 = 0 then .ok () else (lookupHandle [13] c.fn false (prm c 0 8) s).map fun _ => ()
    range := fun c _ =>
      let pay := c.q.pref || c.q.cbdata
      if prm c 0 8 = 0 then pay && prm c 8 8 == 0 && prm c 16 4 == 0
      else !pay && decide (16 ≤ prm c 16 4) }

/-- SOLV_DELTA (R333 to R335, R360). -/
def bodySolvDelta : Body := fun c s => do
  let p ← probArg c s
  let b ← if prm c 0 8 = 0 then .ok c.pay else allocBatch c s
  let n := fld b 8 4
  need (decide (16 ≤ b.length) && inR 1 n 4194304 && fld b 12 4 == 0) (err stRange)
  need (BitVec.ofNat 64 (fld b 0 8) == p.sch.finger) (err stStructure)
  need (decide (16 + 8 * n ≤ b.length)) (err stRange)
  let (ds, fin) := parseDeltas b n 16 []
  need (fin == b.length) (err stRange)
  match deltasBad p ds 0 (knownFactors p) with
  | some (i, st) => .error { st, r0 := i, r1 := 0 }
  | none => .ok (updProb p.slot (fun p => ds.foldl applyDelta p) s, okR n 0)

def execSolvDelta (r : ReqRef) (io : Io) (s : State) : Result := serve iSolvDelta bodySolvDelta r io s

/-! ### Runs (R347 to R351) -/

/-- The problem a request names. -/
def reqProb (q : Req) (s : State) : Option Problem := getProb (q.handle.toNat % 2 ^ 32) s

/-- `T_REF` of SOLV_RUN as a stepped instant; 0 takes the present one. -/
def runTRef (q : Req) (s : State) : Nat :=
  let t := (fld q.param 16 8 * 1000000000 + fld q.param 24 4) * 65536 + fld q.param 28 2
  if t = 0 then s.time.now else t

/-- A request's `DEADLINE_US`, in steps of mono time. -/
def ownSpan (q : Req) : Nat := q.dl.elim 0 fun d => d - q.at'

/-- The deadline of a SOLV_RUN that is not admitted yet (R354): by R48, or from `T_REF`, which is none yet when it is
the time of admission. DEDUCED [256]. -/
def heldDeadline (q : Req) (s : State) : Option Nat :=
  if (fld q.param 13 1).testBit 0 then
    if fld q.param 16 8 = 0 ∧ fld q.param 24 4 = 0 ∧ fld q.param 28 2 = 0 then none else some (monoOf (runTRef q s) s + ownSpan q)
  else q.dl

/-- The run of a SOLV_RUN that waits for its GSUs from now on. -/
def newRun (q : Req) (s : State) : SolveRun :=
  { req := reqRef q
    dl := if (fld q.param 13 1).testBit 0 then monoOf (runTRef q s) s + ownSpan q else q.dl.getD s.time.mono
    warm := fld q.param 12 1, source := if fld q.param 12 1 = 2 then some (fld q.param 32 8 % 2 ^ 32) else none
    tRef := runTRef q s, at' := s.time.mono, start := none, flags := 0, base := [], vals := [], sats := [] }

def iSolvRun : CmdInfo :=
  { probCmd 0x0603 0 40 with
    dl := fun q s => (reqProb q s).elim 100000 (·.sch.deadlineUs)
    res := resMin 64
    hands := fun c s => if prm c 12 1 = 2 then (lookupHandle [8] c.fn false (prm c 32 8) s).map fun _ => () else .ok ()
    range := fun c _ => decide (prm c 12 1 ≤ 2) && decide (prm c 13 1 ≤ 1) && prm c 14 2 == 0
      && decide (prm c 24 4 < 1000000000) && prm c 30 2 == 0 && (prm c 12 1 == 2 || prm c 32 8 == 0)
    doms := fun c s => ((getProb (objSlot c) s).elim [] (·.gsus)).map fun g => 88 + g / 4 }

/-- SOLV_RUN (R349, R354): the run waits for its GSUs. -/
def bodySolvRun : Body := fun c s => do
  let p ← probArg c s
  need (decide ((p.runs.filter fun r => r.start.isNone).length < 8)) (err stLimit)
  .ok (updProb p.slot (fun p => { p with runs := p.runs ++ [newRun c.q s] }) s, .wait)

def execSolvRun (r : ReqRef) (io : Io) (s : State) : Result := serve iSolvRun bodySolvRun r io s

/-- A problem's run that is ready: its head, not started. -/
def readyRun (p : Problem) : Option SolveRun := (p.runs.head?).filter fun r => r.start.isNone

/-- A GSU runs a solve. -/
def gsuBusy (g : Nat) (s : State) : Bool := s.probs.any fun p => p.gsus.contains g && p.solving

/-- The problem whose solve a GSU chooses (R350). -/
def gsuChoice (g : Nat) (s : State) : Option Nat :=
  let ready := s.probs.filterMap fun p => if p.gsus.contains g then (readyRun p).map fun r => (r.dl, p.slot) else none
  (ready.foldl (fun b x => match b with
    | none => some x
    | some y => if x.1 < y.1 ∨ (x.1 = y.1 ∧ x.2 < y.2) then some x else some y) none).map (·.2)

/-- How a solve starts: its flags, its values, the blocks that saturated on conversion (once each time), and the
event of a rejected source. -/
structure WarmStart where
  flags : Nat
  base : List (List W64)
  sats : List Nat
  event : Option Nat
deriving DecidableEq, Repr

/-- A cold start, with further flags and an event. -/
def coldStart (p : Problem) (flags : Nat) (event : Option Nat) : WarmStart := { flags, base := p.start, sats := [], event }

/-- A problem's resident values as they are. -/
def residentVals (p : Problem) (x : Solution) : List (List Fp) :=
  (p.sch.blocks.zip x.values).map fun (b, ws) => storedVals p.sch b ws

/-- The solution of a source, converted to the problem's arithmetic (R283, R342, R347). -/
def convertStart (p : Problem) (vs : List (List Fp)) : WarmStart :=
  let bs := p.sch.blocks.zip vs
  { flags := 0, base := bs.map fun (b, v) => storedBlock p.sch b v, event := none
    sats := bs.zipIdx.flatMap fun ((b, v), i) => List.replicate (satCount p.sch b v) i }

/-- How a solve starts (R347, R348, R352). DEDUCED [65]. -/
def warmStart (p : Problem) (r : SolveRun) (s : State) : WarmStart :=
  match r.warm with
  | 0 => match p.resident with
    | none => coldStart p (fCold + fNoWarm) none
    | some x => if p.valuesBad then coldStart p fCold none else { flags := 0, base := x.values, sats := [], event := none }
  | 1 => coldStart p 0 none
  | _ => match r.source.bind (getProb · s) with
    | none => coldStart p (fCold + fNoWarm) (some 0)
    | some q =>
      if q.sch.finger ≠ p.sch.finger then coldStart p (fCold + fWarmRejected) (some (q.sch.finger.toNat % 2 ^ 48))
      else match q.resident with
        | none => coldStart p (fCold + fNoWarm) (some (q.sch.finger.toNat % 2 ^ 48))
        | some x => convertStart p (residentVals q x)

/-- The solve starts from a source whose values are uncorrectable (R352). DEDUCED [255]. -/
def sourceBad (p : Problem) (r : SolveRun) (s : State) : Bool :=
  r.warm == 2 && (r.source.bind (getProb · s)).any fun q =>
    q.slot != p.slot && q.sch.finger == p.sch.finger && q.resident.isSome && q.valuesBad

/-- The source object of a problem's events: none for a grid's own problem (R332). -/
def probSrc (slot : Nat) : Option (Nat × Nat) := if slot < 2 ^ 32 then some (8, slot) else some (7, slot - 2 ^ 32)

/-- Takes the head run away with a status that changes neither solution (R358). -/
def dropRun (slot st : Nat) (s : State) : State :=
  match (getProb slot s).bind (·.runs.head?) with
  | none => s
  | some r => postRef r.req st 0 0 none (updProb slot (fun p => { p with runs := p.runs.drop 1, init := [] }) s)

/-- SOLVE_START (R350, R352). -/
def execSolveStart (slot : Nat) (s : State) : Result :=
  .next (match getProb slot s with
    | none => s
    | some p => match readyRun p with
      | none => s
      | some r =>
        let free := p.gsus.all fun g => !gsuBusy g s && gsuChoice g s == some slot && domOn (88 + g / 4) s
        if !free || due r.dl s then s
        else if !p.startBad.isEmpty || sourceBad p r s then settle (dropRun slot stMedia s)
        else
          let w := warmStart p r s
          let run (r : SolveRun) : SolveRun :=
            { r with start := some s.time.mono, flags := w.flags, base := w.base, sats := w.sats, vals := p.factors }
          let s := updProb slot (fun p => { p with runs := p.runs.modify 0 run, schedBad := false, init := [] }) s
          settle (w.event.elim s fun d => raise 0x0605 d (probSrc slot) s))

/-! ### Completion (R336, R337, R342 to R346) -/

/-- Words of a block's covariance: the upper triangle of its tangent space (R361). -/
def covWords (b : BlockRec) : Nat := b.dim * (b.dim + 1) / 2

/-- The schedule factors by LDL^T. -/
def Sched.ldlt (m : Sched) : Bool := !m.method.testBit 1

/-- The first of some blocks in elimination order (R342, R344). -/
def firstBlock (m : Sched) (bs : List Nat) : Nat := (m.order.find? bs.contains).getD ((bs.head?).getD 0xFFFFFFFF)

/-- The run summary (Table 10.10). DESIGN CHOICE [67]. -/
def summary (m : Sched) (st flags outer : Nat) (pivots sats : List Nat) (cost0 cost : W64) (tWord : List Byte)
    (solveUs waitUs : Nat) : List Byte :=
  leBytes 2 st ++ leBytes 2 flags ++ leBytes 4 outer
    ++ leBytes 4 (if pivots.isEmpty then 0xFFFFFFFF else firstBlock m pivots) ++ leBytes 4 pivots.length
    ++ leBytes 4 (if sats.isEmpty then 0xFFFFFFFF else firstBlock m sats) ++ leBytes 4 sats.length
    ++ leBytes 8 cost0.toNat ++ leBytes 8 cost.toNat ++ tWord ++ leBytes 4 solveUs ++ leBytes 4 waitUs

/-- The time word of a stepped instant (Table 4.9), with tag 0. -/
def tbWord (t : Nat) : List Byte := timeWord { t, tag := 0 }

/-- The pose block of a problem that stands for a sensor's pose of an epoch: its place is the compiled schedule's, no
user interface. [13] DESIGN CHOICE [263]. -/
def egoBlock (m : Sched) (prog sensor tu : Nat) : Option Nat :=
  let ps := (m.blocks.zipIdx.filter fun (b, _) => b.kind == 1).map (·.2)
  ps[Config.egoPlace prog [0, sensor, tu] % max ps.length 1]?

/-- A pose block's value in a solution, as FP64 words. -/
def solvedPose (m : Sched) (sol : Solution) (i : Nat) : List W64 :=
  (m.block i).elim [] fun b => ((sol.values[i]?).getD []).zipIdx.map fun (w, n) => resultWord m b n w

/-- The σ of a pose block in a solution, FP32 codes: roots of its covariance's diagonal; free values where the schedule
gives no covariance. [13] -/
def solvedSigma (prog : Nat) (sol : Solution) (i : Nat) : List Nat :=
  let cov := (sol.cov[i]?).getD []
  if cov.isEmpty then (List.range 6).map fun n => Config.realWord 7 (prog :: i :: sol.values.flatten.map (·.toNat)) n % 2 ^ 32
  else (diagIdx 6).map fun n => fpIeee fp32 (fineRoot (wordVal ((cov[n]?).getD 0)))

/-- What an ego-motion solution does to its grid: the refined pose of each moving sensor (R309). -/
def publishPoses (grid : Nat) (sol : Solution) (st : Nat) (s : State) : State :=
  let pose (y : GSensor) (i : Nat) : GSensor :=
    if !y.moving then y else
    (getProb (egoSlot grid) s).elim y fun p => (egoBlock p.sch p.prog i sol.tRef).elim y fun b => { y with
      pose := solvedPose p.sch sol b, sigma6 := solvedSigma p.prog sol b, poseAt := sol.tRef, poseSt := st }
  { s with fus.grids := updIf (fun g => g.slot == grid) (fun g => { g with
      sensors := (g.sensors.zipIdx).map fun (y, i) => pose y i }) s.fus.grids }

/-- Stores what a run delivers (R358) and publishes a grid's poses. -/
def deliver (slot : Nat) (sol : Solution) (st : Nat) (s : State) : State :=
  let s := updProb slot (fun p => { p with delivered := some (sol, st), runs := p.runs.drop 1, init := [] }) s
  if slot < 2 ^ 32 then s else publishPoses (slot - 2 ^ 32) sol st s

/-- What becomes resident: the solution, with the blocks that INIT_BLOCK rewrote meanwhile (Table 10.7). -/
def newResident (p : Problem) (sol : Solution) : Solution :=
  { sol with values := p.init.foldl (fun vs (i, ws) => vs.set i ws) sol.values }

/-- A run's solution, with what its program noted. -/
def runSolution (p : Problem) (r : SolveRun) (k : Nat) : Solved :=
  solveRun p.sch p.prog r.vals r.base { k, op := 0, blk := 0, bad := false, sats := r.sats, pivots := [], cg := false }

/-- A completed solve: it becomes resident and delivered, and its completion is posted (R336, R342, R344 to R346). -/
def completeSolve (p : Problem) (r : SolveRun) (s : State) : State :=
  let m := p.sch
  let o := runSolution p r s.fresh
  let s := { s with fresh := s.fresh + (o.last.k - s.fresh) }
  let sats := o.last.sats
  let pivots := o.last.pivots
  let flags := r.flags + (if pivots.isEmpty then 0 else fPivot) + (if sats.isEmpty then 0 else fSat)
    + (if o.rolled then fRollback else 0) + (if o.last.cg then fCgBreak else 0)
  let st := if o.rolled || o.last.cg || !pivots.isEmpty || !sats.isEmpty then stDegraded else stOk
  let sol : Solution :=
    { values := o.values, cov := o.cov, tRef := r.tRef, cost := o.cost, satBlocks := sats, pivBlocks := pivots
      status := st }
  let us := usOf (s.time.mono - r.start.getD s.time.mono)
  let wait := usOf (r.start.getD s.time.mono - r.at')
  let s := updProb p.slot (fun p => { p with
    resident := some (newResident p sol), previous := p.resident, valuesBad := false
    doneRuns := p.doneRuns + 1, degraded := p.degraded + (if st = stDegraded then 1 else 0)
    lastUs := us, maxUs := max us p.maxUs }) s
  let s := deliver p.slot sol st s
  let src := probSrc p.slot
  let s := if pivots.isEmpty then s else
    raise 0x0602 (firstBlock m pivots + sat16 pivots.length * 2 ^ 32) src s
  let s := if sats.isEmpty then s else
    raise 0x0603 (firstBlock m sats + sat16 sats.length * 2 ^ 32) src s
  let s := if o.rolled then raise 0x0604 o.done src s else s
  postRef r.req st o.done flags
    (some (summary m st flags o.done pivots sats o.cost0 o.cost (tbWord r.tRef) us wait)) s

/-- The fault record and event of an uncorrectable error in a problem, and what it marks (R352, Table 12.2).
 DEDUCED [255]. -/
def badProblem (p : MemPlace) (syndrome slot action ended : Nat) (f : Problem → Problem) (s : State) : State :=
  match getProb slot s with
  | none => s
  | some _ =>
    let (ty, n) := (probSrc slot).getD (8, slot)
    let s := addFault (mkFault 2 p.unit p.index p.addr syndrome action (handleOf ty n s) ended 0 s) s
    updProb slot f (raiseOnce 0x0901 (ty, n) (fun n => n) s)

/-- SOLVE_COMPLETE (R332, R336, R352, R354). DEDUCED [66]. DEDUCED [255]. -/
def execSolveComplete (slot : Nat) (e : SolveEnd) (s : State) : Result :=
  .next (match getProb slot s with
    | none => s
    | some p => match p.runs.head? with
      | none => s
      | some r =>
        if r.start.isNone || decide (r.dl < s.time.mono) then s else
        match e with
        | .complete => settle (completeSolve p r s)
        | .outside g => settle (raise 0x0606 g (probSrc slot) (dropRun slot stStructure s))
        | .valuesBad a y => settle (dropRun slot stMedia (badProblem a y slot 2 1 (fun p => { p with valuesBad := true }) s))
        | .startBad i a y =>
          settle (dropRun slot stMedia (badProblem a y slot 2 1 (fun p => { p with startBad := insertRising i p.startBad }) s))
        | .scheduleBad a y => settle (dropRun slot stMedia (badProblem a y slot 6 1 (fun p => { p with schedBad := true }) s)))

/-! ### Deadlines (R354 to R358) -/

/-- A difference of instants in seconds. -/
def seconds (a b : Nat) : Fp := if b ≤ a then .fin false (a - b) secT else .fin true (b - a) secT

/-- The arithmetic of a problem. -/
def Problem.ar (p : Problem) : Ar := { arith := p.sch.arith, prog := p.prog, floor := p.sch.floor }

/-- A pose carried on from two solutions: P · exp(ξ Δt), with ξ = log(P_{k−1}⁻¹ P_k) / (t_k − t_{k−1}).
 DEDUCED [257]. -/
def gMotion (a : Ar) (old cur : List Fp) (span dt : Fp) : Gsu (List Fp) := do
  let xi ← gMinus a 1 cur old
  let span ← gRound a span
  let dt ← gRound a dt
  let d ← xi.mapM fun x => do
    let v ← gDiv a x span
    gMul a v dt
  gPlus a 1 cur d

/-- A pose moved by a velocity. DEDUCED [257]. -/
def gDrift (a : Ar) (cur v : List Fp) (dt : Fp) : Gsu (List Fp) := do
  let dt ← gRound a dt
  let t ← (List.range 3).mapM fun n => gMac a (fpAt cur n) (fpAt v n) dt
  pure (t ++ cur.drop 3)

/-- A block shifted by its `MOTION` to an instant (R356), in the problem's arithmetic. DEDUCED [257]. -/
def gShift (p : Problem) (cur : Solution) (t : Nat) (b : BlockRec) (i : Nat) (ws : List W64) : Gsu (List W64) := do
  let m := p.sch
  let x := storedVals m b ws
  gPlace 15 i
  if b.kind ≠ 1 then pure ws
  else match b.motion with
    | 1 => match p.previous with
      | none => pure ws
      | some o =>
        if o.tRef = cur.tRef then pure ws else do
          let v ← gMotion p.ar (storedVals m b ((o.values[i]?).getD [])) x (seconds cur.tRef o.tRef) (seconds t cur.tRef)
          pure (storedBlock m b v)
    | 2 => do
      let vel := (m.block b.vel).elim [] fun c => storedVals m c ((cur.values[b.vel]?).getD [])
      let v ← gDrift p.ar x vel (seconds t cur.tRef)
      pure (storedBlock m b v)
    | _ => pure ws

/-- The resident solution shifted to an instant. -/
def gShiftAll (p : Problem) (cur : Solution) (t : Nat) : Gsu (List (List W64)) :=
  (p.sch.blocks.zip cur.values).zipIdx.mapM fun ((b, ws), i) => gShift p cur t b i ws

/-- What a run past its deadline delivers (R355 to R357): the shifted resident solution, or the starting
values. -/
def staleSolution (p : Problem) (k : Nat) (r : SolveRun) : Solution × Nat × Nat :=
  match p.resident with
  | some cur =>
    let (vs, c) := (gShiftAll p cur r.tRef).run
      { k, op := 0, blk := 0, bad := false, sats := [], pivots := [], cg := false }
    ({ cur with values := vs }, fStale, c.k - k)
  | none =>
    ({ values := p.start, cov := p.sch.blocks.map fun _ => [], tRef := r.tRef, cost := 0, satBlocks := []
       pivBlocks := [], status := stStale }, fNoPrevious, 0)

/-- The stale delivery of a run at its deadline (R355). The summary's fields that no rule gives for a
discarded solve are free values. DESIGN CHOICE [67]. -/
def staleRun (p : Problem) (r : SolveRun) (s : State) : State :=
  let (sol, flags, used) := staleSolution p s.fresh r
  let s := { s with fresh := s.fresh + used }
  let (c0, s) := draw s
  let (c1, s) := draw s
  let (tw, s) := drawBytes 16 s
  let cost := if p.resident.isSome then sol.cost else BitVec.ofNat 64 c1
  let tWord := match p.resident with
    | some cur => tbWord cur.tRef
    | none => tw
  let us := r.start.elim 0 fun t => usOf (s.time.mono - t)
  let wait := usOf (r.start.getD s.time.mono - r.at')
  let s := updProb p.slot (fun p => { p with
    runs := p.runs.filter (fun x => x != r), delivered := some (sol, stStale), staleRuns := p.staleRuns + 1
    init := if r.start.isSome then [] else p.init, lastUs := us, maxUs := max us p.maxUs }) s
  let s := if p.slot < 2 ^ 32 then s else publishPoses (p.slot - 2 ^ 32) sol stStale s
  let src := if p.slot < 2 ^ 32 then (8, p.slot) else (7, p.slot - 2 ^ 32)
  let s := raiseOnce 0x0601 src (fun n => n) s
  postRef r.req stStale 0 flags
    (some (summary p.sch stStale flags 0 [] [] (BitVec.ofNat 64 c0) cost tWord us wait)) s

/-- The outcome of a run past its deadline (R355): the stale delivery, or `ST_E_MEDIA` where the values to deliver cannot be
read (R352). -/
def pastDeadline (p : Problem) (r : SolveRun) (s : State) : State :=
  if (if p.resident.isSome then p.valuesBad else !p.startBad.isEmpty) then
    postRef r.req stMedia 0 0 none (updProb p.slot (fun p => { p with runs := p.runs.filter fun x => x != r }) s)
  else staleRun p r s

/-- SOLVE_DEADLINE (R355): the first run of a problem that is past its deadline. DEDUCED [66]. -/
def execSolveDeadline (slot : Nat) (s : State) : Result :=
  .next (match getProb slot s with
    | none => s
    | some p => match p.runs.find? fun r => due r.dl s with
      | none => s
      | some r =>
        settle (pastDeadline p r s))

/-- The problem and run of a SOLV_RUN request: admitted, or held by a fence. DEDUCED [256]. -/
def runOfReq (q : Req) (s : State) : Option (Problem × SolveRun) :=
  if q.phase == .fetched then
    match lookupHandle [8] (srcFn q.src) false q.handle.toNat s with
    | .error _ => none
    | .ok o => (getProb o.slot s).map fun p => (p, newRun q s)
  else (s.probs.find? fun p => p.runs.any fun r => r.req == reqRef q).bind fun p =>
    (p.runs.find? fun r => r.req == reqRef q).map fun r => (p, r)

/-- The deadline of a SOLV_RUN (R354). -/
def solveDeadline (q : Req) (s : State) : Option Nat :=
  if q.phase == .fetched then heldDeadline q s else ((runOfReq q s).map (·.2.dl)).or q.dl

/-- A SOLV_RUN at its deadline, whether it is held, queued or running (R15, R355). DEDUCED [256]. -/
def solveTimeout (q : Req) (s : State) : State :=
  match runOfReq q s with
  | some (p, r) => pastDeadline p r s
  | none => post q stTimeout 0 0 none s

/-- Ends the run of a request without changing a solution: an abort or an unload (R358, R362). -/
def cancelSolve (q : Req) (st : Nat) (s : State) : State :=
  match s.probs.find? fun p => p.runs.any fun r => r.req == reqRef q with
  | none => s
  | some p =>
    let running := (p.runs.head?).any fun r => r.req == reqRef q && r.start.isSome
    let s := updProb p.slot (fun p => { p with
      runs := p.runs.filter (fun r => r.req != reqRef q), init := if running then [] else p.init }) s
    post q st 0 0 none s

/-- R353: the running solves of a GSU group end; schedules are restored before the next solves. -/
def abortGroup (grp : Nat) (s : State) : State :=
  let hit := s.probs.filter fun p => p.gsus.any fun g => g / 4 == grp
  let s := hit.foldl (fun s p => if p.solving then dropRun p.slot stAborted s else s) s
  hit.foldl (fun s p => updProb p.slot (fun p => { p with schedBad := true }) s) s

/-! ### SOLV_UNLOAD, SOLV_RESULT, SOLV_QUERY -/

def iSolvUnload : CmdInfo := probCmd 0x0601 1000 0

/-- SOLV_UNLOAD (R78, R362). -/
def bodySolvUnload : Body := fun c s => do
  let p ← probArg c s
  let (s, d) ← releaseBody c s
  let queued := p.runs.filter fun r => r.start.isNone
  let s := updProb p.slot (fun p => { p with runs := p.runs.filter fun r => r.start.isSome }) s
  .ok (queued.foldl (fun s r => postRef r.req stAborted 0 0 none s) s, d)

def execSolvUnload (r : ReqRef) (io : Io) (s : State) : Result := serve iSolvUnload bodySolvUnload r io s

/-- Words of a block's record in SOLV_RESULT. -/
def resultWords (what : Nat) (b : BlockRec) : Nat := if what = 0 then valueWords b.kind b.dim else covWords b

/-- Bytes of the records that SOLV_RESULT returns. -/
def resultBytes (m : Sched) (what first count : Nat) : Nat :=
  (((m.blocks.drop first).take count).map fun b => 8 + 8 * resultWords what b).sum

def iSolvResult : CmdInfo :=
  { probCmd 0x0604 1000 22 with
    res := fun q s => some ((reqProb q s).elim 0 fun p => resultBytes p.sch (fld q.param 20 1) (fld q.param 12 4) (fld q.param 16 4))
    range := fun c s => decide (prm c 20 1 ≤ 1) && decide (prm c 21 1 ≤ 1) && decide (1 ≤ prm c 16 4)
      && (getProb (objSlot c) s).all fun p => decide (prm c 12 4 + prm c 16 4 ≤ p.sch.blocks.length) }

/-- One record of SOLV_RESULT (R361). -/
def resultRecord (m : Sched) (sol : Solution) (what i : Nat) (b : BlockRec) : List Byte :=
  let ws := if what = 0 then ((sol.values[i]?).getD []).zipIdx.map fun (w, n) => resultWord m b n w else (sol.cov[i]?).getD []
  let n := resultWords what b
  let flags := (if sol.satBlocks.contains i then 1 else 0) + (if sol.pivBlocks.contains i then 2 else 0)
    + (if b.fixed then 4 else 0)
  leBytes 4 i ++ leBytes 1 b.kind ++ leBytes 1 flags ++ leBytes 2 n
    ++ (List.range n).flatMap fun k => leBytes 8 ((ws[k]?).getD 0).toNat

/-- SOLV_RESULT (R361). -/
def bodySolvResult : Body := fun c s => do
  let p ← probArg c s
  let what := prm c 20 1
  let first := prm c 12 4
  let bs := (p.sch.blocks.drop first).take (prm c 16 4)
  need (what == 0 || (p.sch.ldlt && bs.all (·.marginal))) (err stState)
  let sol := if prm c 21 1 = 1 then p.resident else p.delivered.map (·.1)
  let some sol := sol | .error (err stState)
  need (what == 0 || (bs.zipIdx).all fun (b, i) => ((sol.cov[first + i]?).getD []).length == covWords b) (err stState)
  need (!(p.valuesBad && prm c 21 1 == 1)) (err stMedia)
  .ok (s, okD bs.length (if prm c 21 1 = 1 then sol.status else p.delivered.elim 0 (·.2)) ((bs.zipIdx).flatMap fun (b, i) => resultRecord p.sch sol what (first + i) b))

def execSolvResult (r : ReqRef) (io : Io) (s : State) : Result := serve iSolvResult bodySolvResult r io s

/-- The SOLV_QUERY record (Table 10.11). -/
def probRecord (p : Problem) (s : State) : List Byte :=
  let closing := (getObj 8 p.slot s).any fun o => o.st != .live && o.st != .orphan
  leBytes 1 (if closing then 2 else if p.solving then 1 else 0) ++ leBytes 1 (maskOf p.gsus) ++ leBytes 1 p.sch.arith
    ++ leBytes 1 s.pwr.level ++ leBytes 8 p.sch.finger.toNat ++ leBytes 4 p.sch.statedUs
    ++ leBytes 4 (atPace p.sch.statedUs p.sch.designLevel s.pwr.level)
    ++ leBytes 4 (p.runs.filter fun r => r.start.isNone).length ++ leBytes 8 p.doneRuns ++ leBytes 4 p.staleRuns
    ++ leBytes 4 p.degraded ++ (p.resident.elim (zeros 16) fun r => tbWord r.tRef)
    ++ leBytes 4 p.lastUs ++ leBytes 4 p.maxUs

def iSolvQuery : CmdInfo := { probCmd 0x0605 100 12 with res := resMin 64 }

/-- SOLV_QUERY (R351, Table 10.11). -/
def bodySolvQuery : Body := fun c s => do
  let p ← probArg c s
  .ok (s, okD 0 0 (probRecord p s))

def execSolvQuery (r : ReqRef) (io : Io) (s : State) : Result := serve iSolvQuery bodySolvQuery r io s

end Sys2Proof.Machine
end

