-- ==== Sys2Proof/Machine/Ego.lean ====
section
/-! DEFINITION. Poses of moving sensors (R308 to R310, Tables 9.2 and 9.5): joint kinematics, the gate, and the
measurements of the estimator window. The management cores' arithmetic is FP64 here. -/
namespace Sys2Proof.Machine

/-! ### Channels of a calibration set (Table 9.2) -/

/-- All-zero bytes. -/
def zeroAt (b : List Byte) (o n : Nat) : Bool := (slice b o n).all fun v => v == 0

/-- Handles of the IMU's filter channels; none without an IMU. -/
def imuHandles (b : List Byte) : List Nat :=
  if zeroAt b 640 48 then [] else (List.range 6).map fun k => fld b (640 + 8 * k) 8

/-- Low-rate channels of the joints. -/
def jointChans (b : List Byte) : List Nat := (List.range (fld b 89 1)).map fun j => fld b (128 + 64 * j + 60) 1

/-- The instant of a sample record's time word. -/
def sampleTime (r : List Byte) : Nat := (fld r 8 8 * 1000000000 + fld r 4 4) * 65536 + fld r 2 2

/-- The value of a sample record: signed, bytes 16 to 19 (Tables 4.8 and 5.2). -/
def sampleValue (r : List Byte) : Int := signedOf 32 (fld r 16 4)

/-- The records of a low-rate channel, newest first. -/
def lowRing (ch : Nat) (s : State) : List (List Byte) := (s.sens.lows.find? fun x => x.ch == ch).elim [] (·.ring)

/-- The records of a filter channel, newest first. -/
def chanRing (h : Nat) (s : State) : List (List Byte) := (s.filt.chans.find? fun c => c.slot == h % 2 ^ 32).elim [] (·.ring)

/-! ### Arithmetic -/

/-- The management cores: FP64, with the pivot floor of a schedule that gives none. DESIGN CHOICE [261]. -/
def egoAr (prog : Nat) : Ar := { arith := 0, prog, floor := 40 }

/-- A computation of the management cores, and how many free values it used. -/
def egoRunG (k : Nat) (g : Gsu α) : α × Nat :=
  let (x, c) := g.run { k, op := 0, blk := 0, bad := false, sats := [], pivots := [], cg := false }
  (x, c.k - k)

/-- A value as an FP64 word. -/
def fpWord (v : Fp) : W64 := BitVec.ofNat 64 (fpIeee fp64 v)

/-! ### Joint kinematics (R308) -/

/-- The straight line through two samples, at an instant. -/
def lineAt (a b : Nat × Int) (t : Nat) : Fp :=
  let d : Int := (b.1 : Int) - a.1
  if d = 0 then fpInt b.2 else fpDiv (fpInt (b.2 * d + (b.2 - a.2) * ((t : Int) - b.1))) (fpInt d)

/-- A joint's counts at an instant, from its samples, newest first: interpolated between the neighbours, and past the
last sample carried on under constant velocity. DEDUCED [260]. -/
def countsAt (t : Nat) : List (Nat × Int) → Option Fp
  | [] => none
  | [a] => some (fpInt a.2)
  | b :: a :: l => if a.1 ≤ t ∨ l.isEmpty then some (if t < a.1 then fpInt a.2 else lineAt a b t) else countsAt t (a :: l)

/-- The place of joint `j` at an instant, in radians or metres. DEDUCED [260]. -/
def jointAt (cal : List Byte) (j t : Nat) (s : State) : Option Fp :=
  let o := 128 + 64 * j
  let ring := (lowRing (fld cal (o + 60) 1) s).map fun r => (sampleTime r, sampleValue r)
  (countsAt t ring).map fun c => fpDiv (fpAdd c (fpInt (-(signedOf 32 (fld cal (o + 52) 4))))) (f32At cal (o + 48))

/-- A rigid motion: rotation matrix and translation. -/
structure GXf where
  r : Mat
  t : List Fp
deriving DecidableEq, Repr

def xfUnit : GXf := { r := mOne 3, t := [fp0, fp0, fp0] }

/-- The 3 × 4 FP32 transform at an offset. -/
def xfBytes (b : List Byte) (o : Nat) : GXf :=
  let v (i j : Nat) : Fp := f32At b (o + 4 * (4 * i + j))
  { r := (List.range 3).map fun i => (List.range 3).map (v i), t := (List.range 3).map fun i => v i 3 }

def gXf (a : Ar) (x y : GXf) : Gsu GXf := do
  let r ← gMatMul a x.r y.r
  let u ← gMatVec a x.r y.t
  let t ← gVec (gAdd a) x.t u
  pure { r, t }

/-- The motion of a joint about or along its z axis. -/
def gJoint (a : Ar) (prismatic : Bool) (q : Fp) : Gsu GXf := do
  let q ← gRound a q
  if prismatic then pure { xfUnit with t := [fp0, fp0, q] } else
  let y := squareFix [q]
  let c ← gReal a (y.map fun y => fixFp (angleFix 0 y))
  let k ← gReal a (y.map fun y => fixFp (angleFix 1 y))
  let n ← gMul a k q
  pure { xfUnit with r := [[c, fpNeg n, fp0], [n, c, fp0], [fp0, fp0, fp1]] }

/-- The frames of an arm's joints, from the first to the last, which is the mount. -/
def gChainFrames (a : Ar) (cal : List Byte) : GXf → List (Nat × Fp) → Gsu (List GXf)
  | _, [] => pure []
  | x, (j, q) :: l => do
    let o := 128 + 64 * j
    let p ← gXf a x (xfBytes cal o)
    let m ← gJoint a (fld cal (o + 61) 1 == 1) q
    let y ← gXf a p m
    let ys ← gChainFrames a cal y l
    pure (y :: ys)

/-- The unit quaternion of a rotation matrix: the largest component is formed first. -/
def gQuatOf (a : Ar) (m : Mat) : Gsu (List Fp) := do
  let e (i j : Nat) : Fp := fpAt (m[i]?.getD []) j
  let tr (x y z : Fp) : Gsu Fp := gDot a [fp1, x, y, z] [fp1, e 0 0, e 1 1, e 2 2]
  let one := fp1
  let neg := fpNeg fp1
  let four ← [(one, one, one), (one, neg, neg), (neg, one, neg), (neg, neg, one)].mapM fun (x, y, z) => tr x y z
  let skew := [(2, 1), (0, 2), (1, 0)]
  let off (i j : Nat) : Gsu Fp := gAdd a (e i j) (e j i)
  let d ← skew.mapM fun (i, j) => gSub a (e i j) (e j i)
  let s01 ← off 0 1
  let s02 ← off 0 2
  let s12 ← off 1 2
  let rows : Mat := [ [fpAt four 0, fpAt d 0, fpAt d 1, fpAt d 2], [fpAt d 0, fpAt four 1, s01, s02]
                    , [fpAt d 1, s01, fpAt four 2, s12], [fpAt d 2, s02, s12, fpAt four 3] ]
  let top := (four.zipIdx.foldl (fun (b : Fp × Nat) (x : Fp × Nat) => if fpLt b.1 x.1 then x else b) (fpAt four 0, 0)).2
  gNormal a (rows[top]?.getD [])

/-- The mount's pose at an instant by forward kinematics, and the joint frames; none while a joint has no sample.
 DEDUCED [260]. DESIGN CHOICE [261]. -/
def gForward (a : Ar) (cal : List Byte) (t : Nat) (s : State) : Gsu (Option (List Fp × List GXf)) := do
  match (List.range (fld cal 89 1)).mapM fun j => (jointAt cal j t s).map fun q => (j, q) with
  | none => pure none
  | some [] => pure none
  | some js => do
    let fs ← gChainFrames a cal xfUnit js
    let m := fs.getLastD xfUnit
    let q ← gQuatOf a m.r
    pure (some (m.t ++ q, fs))

/-- The change of the mount's pose with a joint, as a twist in the mount's frame. -/
def gJointTwist (a : Ar) (prismatic : Bool) (f m : GXf) : Gsu (List Fp) := do
  let z := f.r.map fun r => fpAt r 2
  let u ← gMatVec a (mT m.r) z
  if prismatic then pure (u ++ [fp0, fp0, fp0]) else
  let d ← gVec (gSub a) m.t f.t
  let v ← gMatVec a (mHat z) d
  let w ← gMatVec a (mT m.r) v
  pure (w ++ u)

/-- The covariance of the mount's pose: the joints' `SIGMA` through the chain's Jacobian (Table 9.5).
 DESIGN CHOICE [261]. -/
def gJointCov (a : Ar) (cal : List Byte) (fs : List GXf) : Gsu Mat := do
  let m := fs.getLastD xfUnit
  let cols ← fs.zipIdx.mapM fun (f, j) => do
    let o := 128 + 64 * j
    let w ← gJointTwist a (fld cal (o + 61) 1 == 1) f m
    let sg ← gRound a (f32At cal (o + 56))
    w.mapM fun x => gMul a sg x
  let j := mT cols
  gMatMul a j cols

/-- The diagonal covariance of a host pose: σ² over `HOST_SCALE`/1,000 (Table 9.5). -/
def gHostCov (a : Ar) (scale : Nat) (b : List Byte) : Gsu Mat := do
  let ds ← (List.range 6).mapM fun k =>
    gRound a (fpDiv (fpMul (fpMul (f32At b (80 + 4 * k)) (f32At b (80 + 4 * k))) (fpNat 1000)) (fpNat scale))
  pure ((List.range 6).map fun i => (List.range 6).map fun j => if i = j then fpAt ds i else fp0)

/-- Solves a symmetric system for several right sides, with the pivot floor of R343. -/
def gSolveSym (a : Ar) (m : Mat) (rhs : Mat) : Gsu Mat :=
  gLdl a (floorOf a (m.zipIdx.map fun (r, i) => fpAt r i)) m.length
    ((m.zip rhs).zipIdx.map fun ((r, b), i) => (0, r.drop i, b))

/-- The upper triangle of a matrix, row by row. -/
def upper (m : Mat) : List Fp := triAt m 0 m.length

/-- A measured pose as a prior factor (Table 10.3): `HUBER` 0, the pose, and the information. DESIGN CHOICE [261]. -/
def gPoseMeas (a : Ar) (pose : List Fp) (cov : Mat) : Gsu (List W64) := do
  let info ← gSolveSym a cov (mOne 6)
  pure (fpWord fp0 :: (pose ++ upper info).map fpWord)

/-- R310: rᵀ(Σ_m + Σ_p)⁻¹ r exceeds `GATE`. DESIGN CHOICE [261]. -/
def gGate (a : Ar) (gate : Fp) (meas pred : List Fp) (cov predCov : Mat) : Gsu Bool := do
  let r ← gMinus a 1 meas pred
  let m ← gMat (gAdd a) cov predCov
  let x ← gSolveSym a m (r.map fun v => [v])
  let d ← gDot a r (x.map fun v => fpAt v 0)
  pure (fpLt gate d)

/-! ### Free results on stated inputs (R287, R308) -/

/-- The IMU's outputs between two instants, with their scales and densities, as words. -/
def imuInputs (cal : List Byte) (t0 t1 : Nat) (s : State) : List Nat :=
  ((imuHandles cal).zipIdx.flatMap fun (h, k) =>
    fld cal (688 + 4 * k) 4 :: ((chanRing h s).filter fun r => decide (t0 ≤ sampleTime r ∧ sampleTime r ≤ t1)).flatMap fun r =>
      [sampleTime r, fld r 16 4]) ++ [fld cal 760 4, fld cal 764 4]

/-- The newest IMU outputs before an instant: what a pose is extrapolated from. -/
def imuLast (cal : List Byte) (s : State) : List Nat :=
  (imuHandles cal).flatMap fun h => ((chanRing h s).take 2).flatMap fun r => [sampleTime r, fld r 16 4]

/-- Joint weights of Table 9.5. -/
def jointWeights (cal : List Byte) : List Nat := (List.range (fld cal 89 1)).map fun j => fld cal (128 + 64 * j + 56) 4

/-- Everything that a pose at an instant is formed from: the refined pose, the IMU outputs since, the joint kinematics and
the weights. -/
def poseInputs (y : GSensor) (cal : List Byte) (fk : List Fp) (t : Nat) (s : State) : List Nat :=
  [t, y.poseAt] ++ y.pose.map (·.toNat) ++ imuInputs cal y.poseAt t s ++ imuLast cal s ++ fk.map (fpIeee fp64) ++ jointWeights cal

/-- Seven or more free FP64 words, from inputs. DESIGN CHOICE [13]. -/
def freeWords (what n : Nat) (xs : List Nat) : List W64 := (List.range n).map fun i => BitVec.ofNat 64 (Config.realWord what xs i)

/-- The lift pose of a moving sensor (R308, R311): after a warm reset joint kinematics alone; else how the refined pose,
the IMU and the joints are weighed is a free value of all of them. [13] DESIGN CHOICE [262]. -/
def gLiftPose (a : Ar) (k : Nat) (y : GSensor) (cal : List Byte) (t : Nat) (s : State) : Gsu (List W64) := do
  let fk ← gForward a cal t s
  match fk with
  | some (p, _) => pure (if y.rebuilt then p.map fpWord else freeWords 9 7 (k :: poseInputs y cal p t s))
  | none => pure (freeWords 9 7 (k :: poseInputs y cal [] t s))

/-- The predicted pose at an instant, and its covariance (R310): free values of the same inputs. [13]
 DESIGN CHOICE [262]. -/
def predicted (k : Nat) (y : GSensor) (cal : List Byte) (t : Nat) (s : State) : List Fp × Mat :=
  let xs := k :: poseInputs y cal [] t s
  ((freeWords 21 7 xs).map wordVal, symmetric 6 ((freeWords 22 21 xs).map wordVal))

/-! ### Measurements of the window (R309, Table 9.5) -/

/-- The records of a sheet's buffer in its newest whole set. DEDUCED [265]. -/
def trackRecords (sheet : Option Nat) (buf size : Nat) (s : State) : List (List Byte) :=
  match sheet.bind (getSheet · s) with
  | none => []
  | some sh => match sh.bufs[buf]? with
    | none => []
    | some r => match r.slots.find? fun x => x.set == sh.lastDone with
      | none => []
      | some x => (records size (x.bytes.drop 16)).take (fld x.bytes 0 4)

/-- One feature track as a projection factor: the feature's place moved by its flow, the calibration set's pinhole
model and mount, and `PIXEL_SIGMA`^-2 per coordinate. The Huber bound is a free value of the package's program.
 DESIGN CHOICE [262]. DEDUCED [265]. -/
def gTrack (a : Ar) (prog : Nat) (y : GSensor) (cal feat flow : List Byte) : Gsu (List W64) := do
  let at' (bits d : Nat) (n : Int) (one : Nat) : Gsu Fp := gRound a (fpAdd (fpDiv (fpNat (bitsOf (fld feat 0 8) (bits + 19) bits)) (fpNat d)) (fpDiv (fpInt n) (fpNat one)))
  let u ← at' 0 64 (signedOf 16 (fld flow 0 2)) 32
  let v ← at' 20 64 (signedOf 16 (fld flow 2 2)) 32
  let sg := fpDecode fp32 y.sigma
  let w ← gRound a (fpDiv fp1 (fpMul sg sg))
  let cam := (List.range 4).map fun i => f32At cal (8 + 4 * i)
  let mount := (List.range 12).map fun i => f32At cal (40 + 4 * i)
  pure (BitVec.ofNat 64 (Config.realWord 25 [prog] 0) :: ([u, v] ++ cam ++ mount ++ [w, fp0, w]).map fpWord)

/-- The tracks of a sensor: pairs of feature and flow records with flow status 0. DEDUCED [265]. -/
def gTracks (a : Ar) (prog : Nat) (y : GSensor) (cal : List Byte) (s : State) : Gsu (List (List W64)) :=
  let feats := trackRecords y.sheet y.feat 48 s
  let flows := trackRecords y.sheet y.flow 8 s
  ((feats.zip flows).filter fun (_, f) => fld f 4 1 == 0).mapM fun (p, f) => gTrack a prog y cal p f

/-- The IMU between two window poses as a preintegration factor: the integration and the information are free values of
the outputs, the scales and the densities. [13] DESIGN CHOICE [262]. -/
def imuMeas (k : Nat) (cal : List Byte) (t0 t1 : Nat) (s : State) : List W64 :=
  fpWord fp0 :: fpWord (seconds t1 t0) :: freeWords 23 118 (k :: t0 :: t1 :: imuInputs cal t0 t1 s)

/-- The motion prior between two window poses: its interval, and what the package fixes. DESIGN CHOICE [262]. -/
def priorMeas (prog t0 t1 : Nat) : List W64 :=
  let free := freeWords 24 22 [prog]
  free.take 1 ++ fpWord (seconds t1 t0) :: free.drop 1

/-! ### Into the problem (R309) -/

/-- The factor of a problem that takes a measurement. DESIGN CHOICE [263]. -/
def egoFactor (m : Sched) (prog : Nat) (x : EgoMeas) : Option Nat :=
  let fit (f : FactorRec) : Bool := f.kind == x.kind && factorWords f (f.blocks.filterMap m.block) == x.words.length
  let fs := (m.factors.zipIdx.filter fun (f, _) => fit f).map (·.2)
  fs[Config.egoPlace prog [1, x.kind, x.sensor, x.tu, x.no] % max fs.length 1]?

/-- The window's measurements as delta records: every factor is disabled, then those that hold one are set.
 DEDUCED [264]. -/
def egoDeltas (p : Problem) (ms : List EgoMeas) (starts : List (Nat × Nat × List W64)) : List Delta :=
  let rec' (op index : Nat) (data : List W64) : Delta := { op, rsv := 0, words := data.length, index, data }
  (List.range p.sch.factors.length).map (fun i => rec' 3 i [])
    ++ starts.filterMap (fun (i, tu, w) => (egoBlock p.sch p.prog i tu).map fun b => rec' 4 b w)
    ++ ms.filterMap fun x => (egoFactor p.sch p.prog x).map fun f => rec' 1 f x.words

end Sys2Proof.Machine
end

