-- ==== Sys2Proof/Machine/Fusion.lean ====
section
/-! DEFINITION. Multi-sensor fusion and ego-motion (R291 to R319): calibration sets, grids, epochs, lifting,
voting and host poses; group 0x05 and the rows SCATTER_BATCH, EPOCH_LIMIT and EPOCH_CLOSE. -/
namespace Sys2Proof.Machine

/-- Group 0x05 status codes (Table 9.11). -/
def stPoseWindow : Nat := 0x8501

/-! ### Calibration sets (R295 to R297, Table 9.2) -/

def getCal (slot : Nat) (s : State) : Option Cal := s.fus.cals.find? fun c => c.slot == slot

/-- A finite FP32 field. -/
def f32Fin (b : List Byte) (o : Nat) : Bool := fpFinite (f32At b o)

/-- A finite FP32 field above zero. -/
def f32Pos (b : List Byte) (o : Nat) : Bool := f32Fin b o && fpPos (f32At b o)

/-- Entry (r, c) of a 3 × 4 transform at an offset. -/
def xfEntry (b : List Byte) (o r c : Nat) : Fp := f32At b (o + 4 * (4 * r + c))

/-- A finite 3 × 4 transform whose rotation is orthonormal within 10^-4 (R295). DEDUCED [69]. -/
def xfOk (b : List Byte) (o : Nat) : Bool :=
  let dot (i j : Nat) : Fp := (List.range 3).foldl (fun a r => fpAdd a (fpMul (xfEntry b o r i) (xfEntry b o r j))) (.fin false 0 1)
  let near (i j : Nat) : Bool :=
    let v := fpAdd (dot i j) (if i = j then .fin true 1 1 else .fin false 0 1)
    fpLe v (.fin false 1 10000) && fpLe (.fin true 1 10000) v
  (List.range 12).all (fun k => f32Fin b (o + 4 * k))
    && (List.range 3).all fun i => (List.range 3).all fun j => near i j

/-- A value other than zero. -/
def fpNonzero : Fp → Bool
  | .fin _ a _ => decide (0 < a)
  | _ => true

/-- Checks of joint record `j`. DEDUCED [69]. -/
def jointChecks (b : List Byte) (joints j : Nat) : List (Bool × Nat) :=
  let o := 128 + 64 * j
  if joints ≤ j then [(zeroAt b o 64, o)] else
  [ (xfOk b o, o), (f32Fin b (o + 48) && fpNonzero (f32At b (o + 48)), o + 48)
  , (f32Pos b (o + 56), o + 56), (decide (fld b (o + 60) 1 ≤ 127), o + 60), (decide (fld b (o + 61) 1 ≤ 1), o + 61)
  , (zeroAt b (o + 62) 2, o + 62) ]

/-- Range checks of a calibration set. DEDUCED [69]. -/
def calChecks (b : List Byte) : List (Bool × Nat) :=
  let mount := fld b 7 1
  let joints := fld b 89 1
  let rangeMax := f32At b 36
  [ (fld b 0 4 == 0x43414C31, 0), (fld b 4 2 == 1, 4), (decide (fld b 6 1 ≤ 2), 6), (decide (mount ≤ 1), 7)
  , (f32Pos b 8, 8), (f32Pos b 12, 12), (f32Fin b 16, 16), (f32Fin b 20, 20)
  , (inR 1 (fld b 24 2) 8192, 24), (inR 1 (fld b 26 2) 8192, 26), (f32Pos b 28, 28)
  , (if fld b 6 1 = 2 then f32Pos b 32 else fld b 32 4 % 2 ^ 31 == 0, 32)
  , (fpLe (.fin false 1 10) rangeMax && fpLe rangeMax (.fin false 20 1), 36), (xfOk b 40, 40)
  , (if mount = 1 then decide (fld b 88 1 ≤ 7) else fld b 88 1 == 0, 88)
  , (if mount = 1 then inR 1 joints 8 else joints == 0, 89), (zeroAt b 90 38, 90) ]
    ++ (List.range 8).flatMap (jointChecks b joints)
    ++ (List.range 6).map (fun k => (f32Fin b (688 + 4 * k), 688 + 4 * k))
    ++ [(xfOk b 712, 712), (f32Pos b 760, 760), (f32Pos b 764, 764), (zeroAt b 768 256, 768)]

/-- R295: channels of an arm that the session does not hold. -/
def heldChecks (b : List Byte) (c : Ctx) (s : State) : List (Bool × Nat) :=
  let low (ch : Nat) : Bool := s.sens.lows.any fun x => x.ch == ch && some x.sess == c.sess
  let chan (h : Nat) : Bool := match lookupHandle [3] c.fn false h s with
    | .ok o => o.sess == c.sess
    | .error _ => false
  if fld b 7 1 ≠ 1 then [] else
  ((jointChans b).zipIdx.map fun (ch, j) => (low ch, 128 + 64 * j + 60))
    ++ ((imuHandles b).zipIdx.map fun (h, k) => (chan h, 640 + 8 * k))

def iCalCreate : CmdInfo :=
  { opcode := 0x0502, handle := .obj [1], inline := 8, dl := dlMs 100, pay := .required
    hands := fun c s => if prm c 0 8 = 0 then .ok () else (lookupHandle [14] c.fn false (prm c 0 8) s).map fun _ => ()
    range := fun c _ => c.plen == 1024 }

/-- Stacked bytes of a calibration set (R296). -/
def calBytes : Nat := 8192

/-- R297: the new set takes over the bindings of the one it replaces; a filter channel, which only carries the handle,
takes it at once. DEDUCED [259]. -/
def replaceCal (old new : Nat) (s : State) : State :=
  let st (x : Stream) : Stream := if x.cal = some old ∨ x.calNext = some old then { x with calNext := some new } else x
  let sn (y : GSensor) : GSensor := if y.calSlot = some old ∨ y.calNext = some old then { y with calNext := some new } else y
  let waits (n : Nat) : Bool := (s.sens.streams.filter fun x => x.slot == n).any fun x => x.cal = some old ∨ x.calNext = some old
  let dep (o : Obj) : Obj :=
    if o.ty == 2 && waits o.slot then { o with deps := (14, new) :: o.deps }
    else if o.ty == 3 then { o with deps := o.deps.map fun d => if d == (14, old) then (14, new) else d }
    else o
  let ch (x : Chan) : Chan := if x.cal = handleOf 14 old s then { x with cal := handleOf 14 new s } else x
  let s := { s with sens.streams := s.sens.streams.map st, filt.chans := s.filt.chans.map ch, obj.objs := s.obj.objs.map dep }
  let s := { s with fus.grids := s.fus.grids.map fun g => { g with sensors := g.sensors.map sn } }
  updObj 14 old (fun o => { o with st := .closing none }) s

/-- CAL_CREATE (R295 to R297). -/
def bodyCalCreate : Body := fun c s => do
  let b := c.pay
  match firstBad (calChecks b ++ heldChecks b c s) with
  | some o => .error { st := stRange, r0 := o, r1 := 0 }
  | none => pure ()
  let old := if prm c 0 8 = 0 then none else getCal (prm c 0 8 % 2 ^ 32) s
  need (old.all fun o => slice o.bytes 6 2 == slice b 6 2) (err stStructure)
  quotaPair c.fn 1 calBytes s
  limitCheck 14 s
  fitsQuota c.fn 1 calBytes s
  fits 0x009 (calBytes - stackedFree s)
  let (slot, g, s) := newObj 14 (2 ^ 32) c.fn c.sess [] false 0 calBytes s
  let s := charge c.fn 1 calBytes s
  let s := { s with fus.cals := s.fus.cals ++ [{ slot, bytes := b, bad := false }] }
  .ok (old.elim s fun o => replaceCal o.slot slot s, okR slot g)

def execCalCreate (r : ReqRef) (io : Io) (s : State) : Result := serve iCalCreate bodyCalCreate r io s

def iCalDestroy : CmdInfo := { opcode := 0x0503, handle := .obj [14], inline := 0, dl := dlMs 100 }

/-- CAL_DESTROY (R77, R78). -/
def bodyCalDestroy : Body := fun c s => releaseBody c s

def execCalDestroy (r : ReqRef) (io : Io) (s : State) : Result := serve iCalDestroy bodyCalDestroy r io s

/-! ### Grids (R291 to R294, R298, Tables 9.3 and 9.7) -/

def getGrid (slot : Nat) (s : State) : Option Grid := s.fus.grids.find? fun g => g.slot == slot

def updGrid (slot : Nat) (f : Grid → Grid) (s : State) : State :=
  { s with fus.grids := updIf (fun g => g.slot == slot) f s.fus.grids }

/-- Voxels of a grid. -/
def Grid.voxelCount (g : Grid) : Nat := g.dims.1 * g.dims.2.1 * g.dims.2.2

/-- Bricks along each axis. -/
def Grid.bricks (g : Grid) : Nat × Nat × Nat := (g.dims.1 / 8, g.dims.2.1 / 8, g.dims.2.2 / 8)

/-- Stacked bytes a grid claims (R293). -/
def gridBytes (g : Grid) : Nat :=
  g.voxelCount * (2 * g.channels + 8) + g.touchMax * (16 * ceilDiv (28 + 4 * g.channels) 16) + 1048576

/-- The index of voxel (i, j, k): 512 × brick + voxel in brick (R292). -/
def voxelIndex (g : Grid) (i j k : Nat) : Nat :=
  let (bx, by', _) := g.bricks
  512 * (i / 8 + bx * (j / 8 + by' * (k / 8))) + (i % 8 + 8 * (j % 8 + 8 * (k % 8)))

/-- Default vote settings (R316, Table 9.8). -/
def defaultVotes : Votes := { share := 200, window := 30, contra := 250, suspect := 125, conflictMin := 64 }

/-- Range checks of a grid descriptor (Table 9.7). -/
def gridRange (b : List Byte) : Bool :=
  let d (v lo hi : Nat) : Bool := v == 0 || inR lo v hi
  let dim (o hi : Nat) : Bool := d (fld b o 2) 8 hi && fld b o 2 % 8 == 0
  dim 0 1024 && dim 2 1024 && dim 4 512 && [0, 8, 16, 32].contains (fld b 6 1) && inR 1 (fld b 7 1) 64
    && d (fld b 8 2) 1000 16000 && fld b 8 2 % 1000 == 0 && (decide (fld b 10 1 ≤ 32) || fld b 10 1 == 0xFF)
    && d (fld b 11 1) 4 32 && [12, 16, 20].all (f32Fin b) && d (fld b 24 4) 65536 33554432
    && d (fld b 28 4) 1000 1000000 && d (fld b 32 4) 1 100000000 && d (fld b 36 4) 1000 1000000
    && (fld b 40 2 == 0 || (fpPos (f16At b 40) && fpFinite (f16At b 40))) && d (fld b 42 2) 1 1000
    && (decide (fld b 44 2 ≤ 1000) || fld b 44 2 == 0xFFFF) && fld b 46 2 == 0
    && (fld b 48 4 == 0 || (fpLe (.fin false 1 1) (f32At b 48) && fpLe (f32At b 48) (.fin false 1000 1)))
    && fld b 60 4 == 0

/-- Offset of a sensor entry. -/
def sensorOff (i : Nat) : Nat := 64 + 32 * i

/-- Range checks of a sensor entry (Table 9.3). -/
def sensorRange (b : List Byte) (o : Nat) : Bool :=
  decide (fld b (o + 20) 1 ≤ 3) && zeroAt b (o + 21) 3 && f32Pos b (o + 24) && zeroAt b (o + 28) 4

/-- A flow or feature buffer index: none, or a buffer of its format in the named sheet. -/
def trackOk (fn sheet buf format : Nat) (s : State) : Bool :=
  buf == none16 || match lookupHandle [4] fn false sheet s with
    | .ok o => (getSheet o.slot s).any fun sh => (sh.img.bufs[buf]?).any fun x => x.format == format
    | .error _ => false

/-- R298 for sensor `i`. -/
def sensorOk (c : Ctx) (b : List Byte) (ego : Bool) (i : Nat) (s : State) : Bool :=
  let o := sensorOff i
  let h := fld b o 8
  let moving := (fld b (o + 20) 1).testBit 1
  match lookupHandle [2] c.fn false h s with
  | .error _ => false
  | .ok x =>
    let cal := ((getStream x.slot s).bind (·.cal)).bind (getCal · s)
    !(((List.range i).map fun j => fld b (sensorOff j) 8).contains h)
      && cal.any (fun k => fld k.bytes 7 1 == (if moving then 1 else 0))
      && (fld b (o + 8) 8 == 0 || (lookupHandle [4] c.fn false (fld b (o + 8) 8) s).isOk)
      && trackOk c.fn (fld b (o + 8) 8) (fld b (o + 16) 2) 0x21 s && trackOk c.fn (fld b (o + 8) 8) (fld b (o + 18) 2) 0x20 s
      && (!moving || ego)

/-- FP64 words of the identity pose: the lift pose of a fixed sensor (R303). DEDUCED [81]. -/
def identityPose : List (BitVec 64) := [0, 0, 0, 0x3FF0000000000000, 0, 0, 0]

/-- A sensor from its entry. A moving sensor has no pose before its first solve: a free value. DEDUCED [81]. -/
def newSensor (b : List Byte) (i k : Nat) (s : State) : GSensor :=
  let o := sensorOff i
  let stream := fld b o 4
  let fl := fld b (o + 20) 1
  let pose := if fl.testBit 1 then (List.range 7).map fun n => BitVec.ofNat 64 (Config.realWord 6 [k, i] n) else identityPose
  { stream, sheet := if fld b (o + 8) 8 = 0 then none else some (fld b (o + 8) 4), flow := fld b (o + 16) 2
    feat := fld b (o + 18) 2, expect' := fl.testBit 0, moving := fl.testBit 1, sigma := fld b (o + 24) 4
    suspect := false, since := 0, win := [], calNext := (getStream stream s).bind (·.calNext), calSlot := (getStream stream s).bind (·.cal)
    rejects := 0, pose, sigma6 := List.replicate 6 0, poseAt := 0, poseSt := stOk, lift := pose, liftSt := stOk
    rebuilt := false, lastJ := 0, lastO := 0, pending := [], hosts := 0 }

/-- A grid from its descriptor, with the defaults of Table 9.7. -/
def newGrid (slot : Nat) (b : List Byte) (s : State) : Grid :=
  let d (v dflt : Nat) : Nat := if v = 0 then dflt else v
  { slot, dims := (d (fld b 0 2) 512, d (fld b 2 2) 512, d (fld b 4 2) 128), channels := d (fld b 6 1) 32
    edgeUm := d (fld b 8 2) 8000, freeSpan := if fld b 10 1 = 0xFF then 4 else fld b 10 1, window := d (fld b 11 1) 10
    origin := (fld b 12 4, fld b 16 4, fld b 20 4), touchMax := d (fld b 24 4) 4194304, epochUs := d (fld b 28 4) 100000
    matchNs := d (fld b 32 4) 1000000, egoUs := d (fld b 36 4) 100000, wMax := d (fld b 40 2) 0x6400
    decay := d (fld b 42 2) 950, hostScale := if fld b 44 2 = 0xFFFF then 1000 else fld b 44 2
    gate := d (fld b 48 4) (fpIeee fp32 (.fin false 2246 100))
    egoPkg := if fld b 52 8 = 0 then none else some (fld b 52 4)
    sensors := (List.range (fld b 7 1)).map fun i => newSensor b i s.fresh s, votes := defaultVotes, voxels := [], poison := []
    nextEpoch := 1, epochs := [], closed := none, closedTus := [], lastAbsent := 0, lastDesync := 0, lastDropped := 0
    dropLift := 0, dropBatch := 0, pairs := [], pend := [], poseTimes := [], meas := [] }

/-- The ego-motion problem's schedule: the solver schedule section of the package (R309). -/
def egoSched (p : Option Pkg) : Option (Nat × Sched) :=
  (p.bind fun p => p.scheds.head?).map fun (sec, b) => (sec, parseSched b)

/-- The ego-motion package of a descriptor. -/
def egoPkgOf (c : Ctx) (s : State) : Except Fail (Option Pkg) :=
  if fld c.pay 52 8 = 0 then .ok none
  else (lookupHandle [5] c.fn false (fld c.pay 52 8) s).map fun o => getPkg o.slot s

def iGridCreate : CmdInfo :=
  { opcode := 0x0500, handle := .obj [1], inline := 0, dl := dlMs 1000, pay := .required
    range := fun c _ => decide (64 ≤ c.plen)
    doms := fun c s => match egoPkgOf c s with
      | .ok p => (egoSched p).elim [] fun (_, m) => ((chooseGsus m s).getD []).map fun g => 88 + g / 4
      | .error _ => [] }

/-- GRID_CREATE (R291, R293, R298, R309). -/
def bodyGridCreate : Body := fun c s => do
  let b := c.pay
  let n := fld b 7 1
  need (gridRange b && c.plen == 64 + 32 * n && (List.range n).all fun i => sensorRange b (sensorOff i)) (err stRange)
  let p ← egoPkgOf c s
  need (p.isNone || (egoSched p).isSome) (err stStructure)
  match (List.range n).find? fun i => !sensorOk c b p.isSome i s with
  | some i => .error { st := stStructure, r0 := i, r1 := 0 }
  | none => pure ()
  let ego := egoSched p
  let claimed := ego.any fun (sec, _) => p.any fun p => pkgClaims p sec
  need (!(claimed && ego.any fun (sec, _) => p.any fun p => p.schedHeld.contains sec)) (err stState)
  let gs ← match ego with
    | some (_, m) => placeGsus m s
    | none => .ok none
  let g := newGrid 0 b s
  let bytes := gridBytes g
  quotaPair c.fn 1 bytes s
  limitCheck 7 s
  fitsQuota c.fn 1 bytes s
  fits 0x009 (bytes - stackedFree s)
  match ego with
  | some (_, m) => need (claimed || gsuRoom m gs s) (fitFail 0x00B (gsuShort m s))
  | none => pure ()
  let (_, s) := draw s
  let deps := (g.sensors.map fun y => (2, y.stream)) ++ (p.map fun p => (5, p.slot)).toList
  let (slot, gen, s) := newObj 7 (2 ^ 32) c.fn c.sess deps false 0 bytes s
  let s := charge c.fn 1 bytes s
  let s := { s with fus.grids := s.fus.grids ++ [{ g with slot }] }
  match ego, p with
  | some (sec, m), some p =>
    let (prog, s) := draw s
    let s := if claimed then holdClaim p sec s else s
    let q := newProblem (egoSlot slot) m (gs.getD []) prog (if claimed then some (p.slot, sec) else none)
    .ok ({ s with probs := s.probs ++ [q] }, okR slot gen)
  | _, _ => .ok (s, okR slot gen)

def execGridCreate (r : ReqRef) (io : Io) (s : State) : Result := serve iGridCreate bodyGridCreate r io s

/-- A command on a grid. -/
def gridCmd (opcode ms inline : Nat) : CmdInfo := { opcode, handle := .obj [7], inline, dl := dlMs ms }

def gridArg (c : Ctx) (s : State) : Except Fail Grid :=
  match getGrid (objSlot c) s with
  | some g => .ok g
  | none => .error (err stState)

def iGridDestroy : CmdInfo := gridCmd 0x0501 1000 0

/-- GRID_DESTROY (R77, R319). -/
def bodyGridDestroy : Body := fun c s => do
  let (s, d) ← releaseBody c s
  .ok (updGrid (objSlot c) (fun g => { g with epochs := [] }) s, d)

def execGridDestroy (r : ReqRef) (io : Io) (s : State) : Result := serve iGridDestroy bodyGridDestroy r io s

/-! ### Brick boxes (R307, R317) -/

/-- A brick box: its lower and upper corners. -/
abbrev BrickBox := (Nat × Nat × Nat) × (Nat × Nat × Nat)

/-- The box at an offset of PARAM. -/
def boxAt (b : List Byte) (o : Nat) : BrickBox :=
  ((fld b o 2, fld b (o + 2) 2, fld b (o + 4) 2), (fld b (o + 6) 2, fld b (o + 8) 2, fld b (o + 10) 2))

/-- A box inside the grid. -/
def boxOk (g : Grid) (x : BrickBox) : Bool :=
  let ((a, b, c), (d, e, f)) := x
  let (nx, ny, nz) := g.bricks
  decide (a ≤ d) && decide (d < nx) && decide (b ≤ e) && decide (e < ny) && decide (c ≤ f) && decide (f < nz)

/-- The whole grid as a box. -/
def allBox (g : Grid) : BrickBox := ((0, 0, 0), (g.bricks.1 - 1, g.bricks.2.1 - 1, g.bricks.2.2 - 1))

/-- Bricks of a box. -/
def boxCount (x : BrickBox) : Nat :=
  let ((a, b, c), (d, e, f)) := x
  (d + 1 - a) * (e + 1 - b) * (f + 1 - c)

/-- Brick indices of a box in grid brick order. -/
def boxBricks (g : Grid) (x : BrickBox) : List Nat :=
  let ((a, b, c), (d, e, f)) := x
  let (nx, ny, _) := g.bricks
  (List.range (f + 1 - c)).flatMap fun k => (List.range (e + 1 - b)).flatMap fun j =>
    (List.range (d + 1 - a)).map fun i => (a + i) + nx * ((b + j) + ny * (c + k))

/-- Bytes of an entry in a plane. -/
def entryBytes (g : Grid) (plane : Nat) : Nat := if plane = 0 then 2 * g.channels else 8

/-- A voxel that no epoch has touched (R294). -/
def blankVoxel (g : Grid) (i : Nat) : Voxel :=
  { i, w := 0, label := 0, conflict := false, voters := 0, epoch := 0, feat := List.replicate g.channels 0 }

/-- A voxel of a grid. -/
def getVoxel (g : Grid) (i : Nat) : Voxel := (g.voxels.find? fun v => v.i == i).getD (blankVoxel g i)

/-- Stores a voxel, keeping the list in rising order. -/
def putVoxel (v : Voxel) : List Voxel → List Voxel
  | [] => [v]
  | x :: xs => if v.i < x.i then v :: x :: xs else if v.i = x.i then v :: xs else x :: putVoxel v xs

/-- The state word of a voxel (Table 9.1). -/
def stateWord (v : Voxel) : Nat :=
  v.w + v.label * 2 ^ 16 + (if v.conflict then 2 ^ 18 else 0) + v.voters % 256 * 2 ^ 24 + v.epoch * 2 ^ 32

/-- The bytes of a voxel's entry in a plane. -/
def entryOf (plane : Nat) (v : Voxel) : List Byte :=
  if plane = 0 then v.feat.flatMap (leBytes 2) else leBytes 8 (stateWord v)

/-- The bytes of a brick in a plane. -/
def brickBytes (g : Grid) (plane b : Nat) : List Byte :=
  (List.range 512).flatMap fun v => entryOf plane (getVoxel g (512 * b + v))

/-- The grid a request names. -/
def reqGrid (q : Req) (s : State) : Option Grid := getGrid (q.handle.toNat % 2 ^ 32) s

/-- Result bytes of a GRID_READ; none where R317 ends it with `ST_E_RANGE`. -/
def readBytes (g : Grid) (param : List Byte) : Nat :=
  let x := boxAt param 16
  let n := boxCount x * 512 * entryBytes g (fld param 12 1)
  if boxOk g x && decide (n < 2 ^ 32) then n else 0

def iGridRead : CmdInfo :=
  { gridCmd 0x0504 1000 28 with
    res := fun q s => some ((reqGrid q s).elim 0 fun g => readBytes g q.param)
    range := fun c s => decide (prm c 12 1 ≤ 1) && decide (prm c 13 1 ≤ 1) && prm c 14 2 == 0
      && (getGrid (objSlot c) s).all fun g => decide (0 < readBytes g c.q.param) }

/-- GRID_READ (R307, R317, R411). A command is one step, so every read sees whole epochs. -/
def bodyGridRead : Body := fun c s => do
  let g ← gridArg c s
  let bs := boxBricks g (boxAt c.q.param 16)
  need (!(g.poison.any fun i => bs.contains (i / 512))) { err stMedia with fx := objectPoison 7 g.slot 1 }
  .ok (s, okD bs.length (g.closed.elim 0 fun (n, _, _) => n % 65536) (bs.flatMap (brickBytes g (prm c 12 1))))

def execGridRead (r : ReqRef) (io : Io) (s : State) : Result := serve iGridRead bodyGridRead r io s

/-! ### Changes between epochs (R316, R317) -/

/-- Zeroes both planes in a box. DEDUCED [198]. -/
def clearBox (x : BrickBox) (g : Grid) : Grid :=
  let bs := boxBricks g x
  { g with voxels := g.voxels.filter fun v => !bs.contains (v.i / 512), poison := g.poison.filter fun i => !bs.contains (i / 512) }

/-- The vote settings a GRID_VOTE_SET asks for: all-ones keeps a field. -/
def votesOf (v : Votes) (b : List Byte) : Votes :=
  let k (o n old : Nat) : Nat := if fld b o n = 2 ^ (8 * n) - 1 then old else fld b o n
  { share := k 0 2 v.share, window := k 2 2 v.window, contra := k 4 2 v.contra, suspect := k 6 2 v.suspect
    conflictMin := k 8 4 v.conflictMin }

/-- Takes vote settings over: a new window length empties every window, and named sensors stop being
suspect. -/
def setVotes (v : Votes) (mask : Nat) (g : Grid) : Grid :=
  let fresh := v.window != g.votes.window
  { g with
    votes := v
    sensors := (g.sensors.zipIdx).map fun (y, i) =>
      if mask.testBit i then { y with suspect := false, since := 0, win := [] }
      else if fresh then { y with win := [], since := 0 } else y }

/-- Carries out the changes that waited for the time between epochs, completing their commands. DEDUCED [80]. -/
def applyPend (slot : Nat) (s : State) : State :=
  match getGrid slot s with
  | none => s
  | some g =>
    g.pend.foldl (fun s x => match x with
      | .votes r b => postRef r stOk 0 0 none (updGrid slot (fun g => setVotes (votesOf g.votes b) (fld b 12 8) g) s)
      | .clear r b0 b1 => postRef r stOk (boxCount (b0, b1)) 0 none (updGrid slot (clearBox (b0, b1)) s))
      (updGrid slot (fun g => { g with pend := [] }) s)

/-- A change waits while an epoch is open, and is carried out at once otherwise. DEDUCED [80]. -/
def pendChange (slot : Nat) (p : GridPend) (s : State) : State :=
  let s := updGrid slot (fun g => { g with pend := g.pend ++ [p] }) s
  if (getGrid slot s).all (·.epochs.isEmpty) then applyPend slot s else s

/-- A waiting change of a request is forgotten (ADM_ABORT, a deadline). -/
def dropPend (r : ReqRef) (s : State) : State :=
  let mine : GridPend → Bool
    | .votes q _ => q == r
    | .clear q _ _ => q == r
  { s with fus.grids := s.fus.grids.map fun g => { g with pend := g.pend.filter fun p => !mine p } }

/-- The box of GRID_CLEAR. DEDUCED [78]. -/
def clearBoxOf (g : Grid) (param : List Byte) : BrickBox :=
  if (fld param 12 1).testBit 0 then allBox g else boxAt param 0

def iGridClear : CmdInfo :=
  { gridCmd 0x0505 1000 13 with
    range := fun c s => decide (prm c 12 1 ≤ 1)
      && (getGrid (objSlot c) s).all fun g => boxOk g (clearBoxOf g c.q.param) }

/-- GRID_CLEAR (R316, R317). -/
def bodyGridClear : Body := fun c s => do
  let g ← gridArg c s
  let (b0, b1) := clearBoxOf g c.q.param
  .ok (pendChange g.slot (.clear (reqRef c.q) b0 b1) (markRunning c.q s), .wait)

def execGridClear (r : ReqRef) (io : Io) (s : State) : Result := serve iGridClear bodyGridClear r io s

def iGridVoteSet : CmdInfo :=
  { gridCmd 0x0506 100 20 with
    range := fun c _ =>
      let k (o n lo hi : Nat) : Bool := prm c o n == 2 ^ (8 * n) - 1 || inR lo (prm c o n) hi
      k 0 2 1 999 && k 2 2 1 1024 && k 4 2 0 1000 && k 6 2 0 1000 && k 8 4 1 1000000 }

/-- GRID_VOTE_SET (R316). -/
def bodyGridVoteSet : Body := fun c s => do
  let g ← gridArg c s
  let p := GridPend.votes (reqRef c.q) c.q.param
  .ok (pendChange g.slot p (markRunning c.q s), .wait)

def execGridVoteSet (r : ReqRef) (io : Io) (s : State) : Result := serve iGridVoteSet bodyGridVoteSet r io s

/-! ### Scatter batches (R299 to R302, Table 9.4) -/

/-- A time word as a stepped instant. -/
def wordTime (b : List Byte) (o : Nat) : Nat :=
  (fld b (o + 8) 8 * 1000000000 + fld b (o + 4) 4) * 65536 + fld b (o + 2) 2

/-- Length of a record (Table 9.4). -/
def recLen (g : Grid) : Nat := 16 + 2 * g.channels

/-- Batch fields. -/
def batchSensor (b : List Byte) : Nat := fld b 32 1
def batchEnd (b : List Byte) : Bool := (fld b 33 1).testBit 0
def batchStatus (b : List Byte) : Nat := fld b 34 2
/-- A batch laid out by Table 9.4 for this grid. DEDUCED [74]. -/
def batchOk (g : Grid) (b : List Byte) : Bool :=
  decide (batchSensor b < g.sensors.length) && b.length == 48 + fld b 36 4 * recLen g

/-- Two instants match within a grid's window. -/
def epochMatch (g : Grid) (a b : Nat) : Bool := within a b g.matchNs

/-- The calibration set of a sensor, unless unusable (R296). -/
def sensorCal (y : GSensor) (s : State) : Option Cal := (y.calSlot.bind (getCal · s)).filter fun c => !c.bad

/-- `EPOCH_TIME` of a run's batches (R299): t_s of the set it reads, else its admission. -/
def runEpochTime (x : Inst) (r : Run) (s : State) : Nat :=
  match ((instPkg x s).bind refPort).bind (portBuf x · s) with
  | some (sh, _, _) => (sh.t0s.find? fun (n, _, _) => n == r.set).elim r.admitted fun (_, tb, _) => tb
  | none => r.admitted

/-- The run whose class 4 layer emits batches for a grid from a tile (R299). DEDUCED [74]. -/
def scatterRun (tile slot : Nat) (s : State) : Option (Inst × Run) := do
  let (t, _) ← (getTile tile s).running
  let x ← getInst t.inst s
  let r ← taskRun t s
  let p ← instPkg x s
  let l ← p.layers[t.layer]?
  if l.cls == 4 && x.binds.any (fun (ty, n, _) => ty == 7 && n == slot) && weightsIn t s then some (x, r) else none

/-- R297: a grid takes replaced calibration sets when an epoch opens. -/
def adoptCals (slot : Nat) (s : State) : State :=
  match getGrid slot s with
  | none => s
  | some g =>
    let new := (g.sensors.zipIdx.filter fun (y, _) => y.calNext.isSome).map (·.2)
    let take (y : GSensor) : GSensor := if y.calNext.isSome then { y with calSlot := y.calNext, calNext := none } else y
    let s := updGrid slot (fun g => { g with sensors := g.sensors.map take }) s
    new.foldl (fun s i => raise 0x0506 i (some (7, slot)) s) s

/-- Puts a new epoch in its place by t_u. -/
def insertEpoch (e : Epoch) (es : List Epoch) : List Epoch :=
  (es.takeWhile fun x => decide (x.tu ≤ e.tu)) ++ e :: es.dropWhile fun x => decide (x.tu ≤ e.tu)

/-- A batch joins an epoch (R301, R302). DEDUCED [73]. -/
def joinEpoch (g : Grid) (b : List Byte) (new : Option Batch9) (e : Epoch) : Epoch :=
  let i := batchSensor b
  let st := batchStatus b
  let add (l : List Nat) : List Nat := if l.contains i then l else l ++ [i]
  let e := { e with
    ends := if batchEnd b then add e.ends else e.ends
    desync := if st = stDesync then add e.desync else e.desync
    excluded := if isErr st then add e.excluded else e.excluded
    errored := e.errored || (isErr st && st != stDesync)
    batches := e.batches ++ new.toList }
  let expected := (g.sensors.zipIdx.filter fun (y, _) => y.expect').map (·.2)
  { e with accepting := e.accepting && (expected.isEmpty || !(expected.all e.ends.contains)) }

/-- Changes the epoch of a number. -/
def updEpoch (slot no : Nat) (f : Epoch → Epoch) (s : State) : State :=
  updGrid slot (fun g => { g with epochs := updIf (fun (e : Epoch) => e.no == no) f g.epochs }) s

/-- A batch dropped by R300. DEDUCED [74]. -/
def dropBatch (slot : Nat) (s : State) : State := updGrid slot (fun g => { g with dropBatch := g.dropBatch + 1 }) s

/-- The calibration set a sensor is lifted with in an epoch, unless unusable (R296, R316). -/
def epochCal (e : Epoch) (i : Nat) (s : State) : Option Cal := ((e.cals[i]?.bind id).bind (getCal · s)).filter fun c => !c.bad

/-- No IMU output and no joint sample of a moving sensor exists at or after a time (R308). -/
def poseStale (y : GSensor) (cal : List Byte) (t : Nat) (s : State) : Bool :=
  let late (l : List (List Byte)) : Bool := (l.head?).any fun r => decide (t ≤ sampleTime r)
  y.moving && !((imuHandles cal).any (fun h => late (chanRing h s)) || (jointChans cal).any fun ch => late (lowRing ch s))

/-- The pose a record is lifted with (R303, R308), and whether it is extrapolated. -/
def liftPose (y : GSensor) (cal : List Byte) (t : Nat) (s : State) : (List W64 × Bool) × State :=
  if !y.moving then ((identityPose, false), s) else
  let (w, n) := egoRunG (s.fresh + 1) (gLiftPose (egoAr 0) s.fresh y cal t s)
  ((w, poseStale y cal t s), { s with fresh := s.fresh + 1 + n })

/-- A batch as the engine keeps it: it may lift it before the close, at a time that no rule fixes.
 DESIGN CHOICE [258]. -/
def takeBatch (g : Grid) (y : GSensor) (cal : List Byte) (b : List Byte) (x : Inst) (r : Run) (s : State) : Batch9 × State :=
  let new : Batch9 :=
    { ftime := wordTime b 0, sensor := batchSensor b, records := records (recLen g) (b.drop 48), inst := x.slot
      run := r.serial, lifted := none }
  let (bit, s) := draw s
  if bit % 2 = 0 then (new, s) else
  let (p, s) := liftPose y cal new.ftime s
  ({ new with lifted := some p }, s)

/-- A batch enters an epoch of the grid: the run ends when the sensor's set is unusable (R296). -/
def enterBatch (slot : Nat) (b : List Byte) (x : Inst) (r : Run) (e : Epoch) (s : State) : State :=
  match getGrid slot s with
  | none => s
  | some g =>
    let i := batchSensor b
    match g.sensors[i]? with
    | none => s
    | some y =>
      if isErr (batchStatus b) then updEpoch slot e.no (joinEpoch g b none) s
      else match epochCal e i s with
        | none => advanceInst x.slot (endRun x.slot r stIntegrity (updEpoch slot e.no (joinEpoch g b none) s))
        | some c =>
          let (new, s) := takeBatch g y c.bytes b x r s
          updEpoch slot e.no (joinEpoch g b (some new)) s

/-- Opens an epoch (R294, R300). -/
def openEpoch (slot t : Nat) (s : State) : State :=
  let s := adoptCals slot s
  updGrid slot (fun g =>
    let e : Epoch :=
      { no := g.nextEpoch, tu := t, openAt := monoOf t s, accepting := true, ends := [], desync := [], errored := false
        absent := [], excluded := [], cals := g.sensors.map (·.calSlot), batches := [] }
    { g with nextEpoch := nextSet g.nextEpoch, epochs := insertEpoch e g.epochs }) s

/-- The open epoch that a batch of a time joins. -/
def epochAt (slot t : Nat) (s : State) : Option Epoch :=
  (getGrid slot s).bind fun g => g.epochs.find? fun e => epochMatch g e.tu t

/-- SCATTER_BATCH (R296, R299 to R302). DEDUCED [74]. -/
def execScatterBatch (slot : Nat) (b : List Byte) (s : State) (tile : Nat := 0) : Result :=
  .next (match getGrid slot s, scatterRun tile slot s with
    | some g, some (x, r) =>
      if !batchOk g b then s else
      let t := runEpochTime x r s
      settle (match epochAt slot t s with
        | some e => if e.accepting then enterBatch slot b x r e s else dropBatch slot s
        | none =>
          if (g.closedTus.any fun u => epochMatch g u t) || decide (2 ≤ g.epochs.length) then dropBatch slot s
          else
            let s := openEpoch slot t s
            (epochAt slot t s).elim s fun e => enterBatch slot b x r e s)
    | _, _ => s)

/-- EPOCH_LIMIT (R301). DEDUCED [73]. -/
def execEpochLimit (slot : Nat) (s : State) : Result :=
  .next (match getGrid slot s with
    | none => s
    | some g => match g.epochs.find? fun e => e.accepting && due (e.openAt + g.epochUs * usT) s with
      | none => s
      | some e =>
        let gone := (g.sensors.zipIdx.filter fun (y, i) => y.expect' && !e.ends.contains i).map (·.2)
        let s := updEpoch slot e.no (fun e => { e with accepting := false, absent := gone }) s
        settle (gone.foldl (fun s i => raise 0x0504 (e.no + i * 2 ^ 32) (some (7, slot)) s) s))

/-! ### Lifting (R303, R304)

The coordinates are exact: the finite FP32 and FP64 inputs are dyadic rationals, and the rules' products
and sums of them are formed without rounding. -/

/-- A dyadic rational m / 2^e. -/
structure Dy where
  m : Int
  e : Nat
deriving DecidableEq, Repr

def Dy.add (a b : Dy) : Dy :=
  let e := max a.e b.e
  { m := a.m * (2 ^ (e - a.e) : Nat) + b.m * (2 ^ (e - b.e) : Nat), e }

def Dy.mul (a b : Dy) : Dy := { m := a.m * b.m, e := a.e + b.e }

def Dy.neg (a : Dy) : Dy := { a with m := -a.m }

def Dy.ofInt (i : Int) : Dy := { m := i, e := 0 }

/-- The value over a common denominator 2^e. -/
def Dy.at' (a : Dy) (e : Nat) : Int := a.m * (2 ^ (e - a.e) : Nat)

/-- A finite code of a format as a dyadic. -/
def dyOf (f : FpFmt) (code : Nat) : Option Dy :=
  match fpDecode f code with
  | .fin neg a b => some { m := if neg then -(a : Int) else a, e := Nat.log2 b }
  | _ => none

/-- A vector of three dyadics. -/
abbrev Dy3 := Dy × Dy × Dy

def Dy3.dot (a b : Dy3) : Dy := ((a.1.mul b.1).add (a.2.1.mul b.2.1)).add (a.2.2.mul b.2.2)

/-- A rigid motion: three rows and a translation. -/
structure DyXf where
  r0 : Dy3
  r1 : Dy3
  r2 : Dy3
  t : Dy3
deriving DecidableEq, Repr

def DyXf.apply (x : DyXf) (p : Dy3) : Dy3 :=
  ((Dy3.dot x.r0 p).add x.t.1, (Dy3.dot x.r1 p).add x.t.2.1, (Dy3.dot x.r2 p).add x.t.2.2)

/-- The 3 × 4 FP32 transform at an offset. -/
def xfAt (b : List Byte) (o : Nat) : Option DyXf := do
  let v (k : Nat) : Option Dy := dyOf fp32 (fld b (o + 4 * k) 4)
  let row (k : Nat) : Option Dy3 := do some (← v k, ← v (k + 1), ← v (k + 2))
  some { r0 := ← row 0, r1 := ← row 4, r2 := ← row 8, t := (← v 3, ← v 7, ← v 11) }

/-- The motion of a pose: translation and unit quaternion w, x, y, z, FP64 (Table 9.10). -/
def poseXf (ws : List (BitVec 64)) : Option DyXf := do
  let v (k : Nat) : Option Dy := dyOf fp64 ((ws[k]?).getD 0).toNat
  let (w, x, y, z) := (← v 3, ← v 4, ← v 5, ← v 6)
  let two : Dy := Dy.ofInt 2
  let one : Dy := Dy.ofInt 1
  let diag (a b : Dy) : Dy := one.add (two.mul ((a.mul a).add (b.mul b))).neg
  let off (a b c d : Dy) : Dy := two.mul ((a.mul b).add (c.mul d))
  some { r0 := (diag y z, off x y w.neg z, off x z w y)
         r1 := (off x y w z, diag x z, off y z w.neg x)
         r2 := (off x z w.neg y, off y z w x, diag x y)
         t := (← v 0, ← v 1, ← v 2) }

/-- A lifted record: the ray's origin and end relative to the grid's corner in 10^-6 m over 2^e, and
|p|² over 2^k in m². -/
structure Lifted where
  o : Int × Int × Int
  q : Int × Int × Int
  e : Nat
  n2 : Dy
deriving DecidableEq, Repr

/-- Lifts a record's point, unless it has a non-finite value or lies beyond `RANGE_MAX` (R303). DEDUCED [70]. -/
def liftRecord (g : Grid) (cal : List Byte) (pose : List (BitVec 64)) (r : List Byte) : Option Lifted := do
  let v (o : Nat) : Option Dy := dyOf fp32 (fld r o 4)
  let p : Dy3 := (← v 0, ← v 4, ← v 8)
  if !fpFinite (f16At r 12) || !((List.range g.channels).all fun c => fpFinite (f16At r (16 + 2 * c))) then none
  let mount ← xfAt cal 40
  let far ← dyOf fp32 (fld cal 36 4)
  let n2 := Dy3.dot p p
  if 0 < (n2.add (far.mul far).neg).m then none
  let xf ← poseXf pose
  let q := xf.apply (mount.apply p)
  let c := xf.apply mount.t
  let og (x : Nat) : Option Dy := (dyOf fp32 x).map Dy.neg
  let (gx, gy, gz) := (← og g.origin.1, ← og g.origin.2.1, ← og g.origin.2.2)
  let shift (a : Dy3) : Dy3 := (a.1.add gx, a.2.1.add gy, a.2.2.add gz)
  let q := shift q
  let c := shift c
  let e := [q.1.e, q.2.1.e, q.2.2.e, c.1.e, c.2.1.e, c.2.2.e].foldl max 0
  let ints (a : Dy3) : Int × Int × Int := (a.1.at' e * 1000000, a.2.1.at' e * 1000000, a.2.2.at' e * 1000000)
  some { o := ints c, q := ints q, e, n2 }

/-- The voxel that holds a coordinate along one axis (R291). -/
def axisVoxel (g : Grid) (l : Lifted) (x : Int) : Int := x / ((g.edgeUm * 2 ^ l.e : Nat) : Int)

/-- The index of a voxel inside the grid. -/
def gridVoxel (g : Grid) (i j k : Int) : Option Nat :=
  if 0 ≤ i ∧ i < g.dims.1 ∧ 0 ≤ j ∧ j < g.dims.2.1 ∧ 0 ≤ k ∧ k < g.dims.2.2 then
    some (voxelIndex g i.toNat j.toNat k.toNat)
  else none

/-- A fraction with a positive denominator. -/
abbrev Frac := Int × Int

def Frac.lt (a b : Frac) : Bool := decide (a.1 * b.2 < b.1 * a.2)
def Frac.max (a b : Frac) : Frac := if Frac.lt a b then b else a
def Frac.min (a b : Frac) : Frac := if Frac.lt b a then b else a

/-- Where a ray from `o` to `x` runs inside a slab of voxels: parameters of entry and exit, none when it
never does. -/
def slab (o x size : Int) (i : Int) : Option (Frac × Frac) :=
  let d := x - o
  if d = 0 then
    if i * size ≤ o ∧ o < (i + 1) * size then some ((0, 1), (1, 0)) else none
  else if 0 < d then some ((i * size - o, d), ((i + 1) * size - o, d))
  else some ((o - (i + 1) * size, -d), (o - i * size, -d))

/-- The parameter at which the ray enters a voxel, 0 being the optical centre and 1 the surface. -/
def rayEntry (l : Lifted) (size : Int) (i j k : Int) : Option Frac := do
  let (a0, a1) ← slab l.o.1 l.q.1 size i
  let (b0, b1) ← slab l.o.2.1 l.q.2.1 size j
  let (c0, c1) ← slab l.o.2.2 l.q.2.2 size k
  let t0 := Frac.max (Frac.max (Frac.max a0 b0) c0) (0, 1)
  let t1 := Frac.min (Frac.min a1 b1) c1
  if Frac.lt t0 t1 then some t0 else none

/-- R304: the entry lies between |p| - (`FREE_SPAN` + 1) × e and |p| - e from the optical centre. -/
def inSpan (g : Grid) (l : Lifted) (t : Frac) : Bool :=
  let r := t.2 - t.1
  let lhs := r * r * l.n2.m * 1000000000000
  let unit := t.2 * t.2 * ((g.edgeUm * g.edgeUm * 2 ^ l.n2.e : Nat) : Int)
  decide (0 ≤ r) && decide (unit ≤ lhs) && decide (lhs ≤ unit * (((g.freeSpan + 1) * (g.freeSpan + 1) : Nat) : Int))

/-- Indexes along one axis that a ray can pass near its end. -/
def nearEnd (g : Grid) (i : Int) : List Int :=
  let n := g.freeSpan + 2
  (List.range (2 * n + 1)).map fun (k : Nat) => i - (n : Int) + (k : Int)

/-- The voxel of a lifted record and the voxels its ray labels free (R304); none outside the grid. DEDUCED [70]. -/
def liftVoxels (g : Grid) (l : Lifted) : Option (Nat × List Nat) := do
  let size : Int := ((g.edgeUm * 2 ^ l.e : Nat) : Int)
  let (i, j, k) := (axisVoxel g l l.q.1, axisVoxel g l l.q.2.1, axisVoxel g l l.q.2.2)
  let at' ← gridVoxel g i j k
  let free := (nearEnd g k).flatMap fun c => (nearEnd g j).flatMap fun b => (nearEnd g i).filterMap fun a =>
    if a = i ∧ b = j ∧ c = k then none
    else match rayEntry l size a b c with
      | some t => if inSpan g l t then gridVoxel g a b c else none
      | none => none
  some (at', free)

/-! ### Scratch entries (R304, R305) -/

/-- A scratch entry: labels by sensor (1 free, 2 surface), the weight sum and the feature sums, FP32. -/
structure Scratch where
  i : Nat
  labels : List (Nat × Nat)
  c : Nat
  sum : List Nat
deriving DecidableEq, Repr

/-- The lifting of an epoch so far: entries, and records dropped by R303 and by R305. -/
structure Lifting where
  entries : List Scratch
  lost : Nat
  full : Nat
deriving DecidableEq, Repr

/-- A sensor's label in an entry; surface stands against free. -/
def putLabel (sensor lab : Nat) (x : Scratch) : Scratch :=
  if x.labels.any fun (n, v) => n == sensor && v == 2 then x
  else { x with labels := (sensor, lab) :: x.labels.filter fun (n, _) => n != sensor }

/-- Changes the entry of a voxel, which a new voxel takes while fewer than `TOUCH_MAX` are in use. -/
def touch (g : Grid) (i : Nat) (f : Scratch → Scratch) (l : Lifting) : Lifting :=
  if l.entries.any fun x => x.i == i then { l with entries := updIf (fun x => x.i == i) f l.entries }
  else if l.entries.length < g.touchMax then
    { l with entries := l.entries ++ [f { i, labels := [], c := 0, sum := List.replicate g.channels 0 }] }
  else { l with full := l.full + 1 }

/-- A rational as an FP32 code. -/
def f32Rat (a b : Nat) : Nat := fpIeee fp32 (.fin false a b)

/-- Confidence of a record clamped to 0 to 1 (R303), times k (R305), FP32. -/
def recWeight (g : Grid) (y : GSensor) (r : List Byte) : Nat :=
  let c := f16At r 12
  let c := if fpLt c (.fin false 0 1) then .fin false 0 1 else if fpLt (.fin false 1 1) c then .fin false 1 1 else c
  let c := fpIeee fp32 c
  if y.suspect then f32Mul c (f32Rat g.votes.suspect 1000) else c

/-- A surface record enters its voxel (R305). -/
def addRecord (g : Grid) (y : GSensor) (sensor : Nat) (r : List Byte) (x : Scratch) : Scratch :=
  let w := recWeight g y r
  let feat (c : Nat) : Nat := fpIeee fp32 (f16At r (16 + 2 * c))
  { putLabel sensor 2 x with
    c := f32Add x.c w
    sum := (x.sum.zipIdx).map fun (v, c) => f32Add v (f32Mul w (feat c)) }

/-- A record as the engine lifts it: its sensor, the pose, the sensor's calibration set and the record. -/
structure LiftRec where
  sensor : Nat
  pose : List W64
  cal : List Byte
  bytes : List Byte
deriving DecidableEq, Repr

/-- Lifts one record into the scratch area. -/
def liftOne (g : Grid) (l : Lifting) (x : LiftRec) : Lifting :=
  match g.sensors[x.sensor]? with
  | none => l
  | some y =>
    match (liftRecord g x.cal x.pose x.bytes).bind (liftVoxels g) with
    | none => { l with lost := l.lost + 1 }
    | some (at', free) =>
      let l := touch g at' (addRecord g y x.sensor x.bytes) l
      free.foldl (fun l i => touch g i (putLabel x.sensor 1) l) l

/-- Puts records into the order in which the engine met them: arrival order varies with stealing (R306,
R287), so it is a free choice among all orders. [11] DESIGN CHOICE [71]. -/
def arrivalOrder (xs : List α) (k : Nat) : List α :=
  let keyed := xs.zipIdx.map fun (x, i) => (Config.freeNat (k + i), x)
  (sortBy (fun a b => decide (a.1 ≤ b.1)) keyed).map (·.2)

/-! ### Decisions (R306, R314, R315, Table 9.6) -/

/-- A decision: the label written (none: unchanged), whether the voxel is a contradiction, its counting
labels, and the sensors judged with whether they were outvoted. -/
structure Decision where
  label : Option Nat
  pair : Option (Nat × Nat)
  voters : Nat
  judged : List (Nat × Bool)
deriving DecidableEq, Repr

/-- Table 9.6 for one voxel. -/
def decideVoxel (g : Grid) (labels : List (Nat × Nat)) : Decision :=
  let susp (n : Nat) : Bool := (g.sensors[n]?).any (·.suspect)
  let counting := labels.filter fun (n, _) => !susp n
  let n := counting.length
  let frees := (counting.filter fun (_, v) => v == 1).length
  let judge (xs : List (Nat × Nat)) (v : Nat) : List (Nat × Bool) := xs.map fun (k, w) => (k, w != v)
  if 3 ≤ n then
    if n < 2 * frees then { label := some 1, pair := none, voters := n, judged := judge labels 1 }
    else if 2 * frees < n then { label := some 2, pair := none, voters := n, judged := judge labels 2 }
    else { label := none, pair := none, voters := n, judged := [] }
  else if n = 2 then
    if frees = 1 then
      let a := natAt (counting.map (·.1)) 0
      let b := natAt (counting.map (·.1)) 1
      { label := none, pair := some (min a b, max a b), voters := 2, judged := [] }
    else
      let v := if frees = 2 then 1 else 2
      { label := some v, pair := none, voters := 2, judged := judge (labels.filter fun (k, _) => susp k) v }
  else { label := (counting.head?).map (·.2), pair := none, voters := n, judged := [] }

/-- An FP32 value of a code. -/
def f32Val (c : Nat) : Fp := fpDecode fp32 c

/-- The update of a voxel at close (R306): FP32, one rounding for each operation as the formulas are
written, results rounded and saturated to FP16. DEDUCED [75]. -/
def updateVoxel (g : Grid) (no : Nat) (d : Decision) (x : Scratch) (v : Voxel) : Voxel :=
  let dec := f32Rat g.decay 1000
  let wd := f32Mul (fpIeee fp32 (fpDecode fp16 v.w)) dec
  let gain := if d.pair.isSome then f32Rat g.votes.contra 1000 else f32Rat 1 1
  let div := f32Add wd (f32Mul gain x.c)
  let zero := match f32Val div with
    | .fin _ a _ => a == 0
    | _ => false
  let top := fpDecode fp16 g.wMax
  let w := if fpLt (f32Val div) top then fpEncode fp16 .nearest false (f32Val div) else g.wMax
  let chan (f c : Nat) : Nat :=
    if zero then f
    else
      let num := f32Add (f32Mul wd (fpIeee fp32 (fpDecode fp16 f))) (f32Mul gain (natAt x.sum c))
      fpEncode fp16 .nearest false (f32Val (f32Div num div))
  { v with
    w, label := d.label.getD v.label, conflict := d.pair.isSome, voters := d.voters, epoch := no
    feat := (v.feat.zipIdx).map fun (f, c) => chan f c }

/-- Counts of pairs. DEDUCED [76]. -/
def countPairs (ps : List (Nat × Nat)) : List (Nat × Nat × Nat) :=
  (ps.eraseDups).map fun (a, b) => (a, b, (ps.filter fun p => p == (a, b)).length)

/-! ### Suspicion (R312, R313) -/

/-- Sums of a window. -/
def winSum (w : List (Nat × Nat)) : Nat × Nat := ((w.map (·.1)).sum, (w.map (·.2)).sum)

/-- Window share in per mille; none while nothing has been judged. -/
def winShare (w : List (Nat × Nat)) : Option Nat :=
  let (j, o) := winSum w
  if j = 0 then none else some (1000 * o / j)

/-- A sensor after a close: its window, and the event of a change. -/
def judgeSensor (v : Votes) (j o : Nat) (y : GSensor) : GSensor × Option Nat :=
  let win := ((j, o) :: y.win).take v.window
  let (sj, so) := winSum win
  let above := decide (v.share * sj < 1000 * so)
  let y := { y with win, lastJ := j, lastO := o }
  if !y.suspect then
    if 0 < sj ∧ above then ({ y with suspect := true, since := 0 }, some 0x0501) else (y, none)
  else
    let y := { y with since := y.since + 1 }
    if v.window ≤ y.since ∧ 0 < sj ∧ !above then ({ y with suspect := false, since := 0 }, some 0x0502) else (y, none)

/-- Judges every sensor after a close, raising the events. -/
def judgeSensors (slot : Nat) (judged : List (Nat × Bool)) (s : State) : State :=
  match getGrid slot s with
  | none => s
  | some g =>
    let res : List (GSensor × Option Nat) := (g.sensors.zipIdx).map fun (y, i) =>
      let mine := judged.filter fun (n, _) => n == i
      judgeSensor g.votes mine.length (mine.filter fun x => x.2).length y
    let s := updGrid slot (fun g => { g with sensors := res.map (·.1) }) s
    (res.zipIdx).foldl (fun s (r, i) => match r.2 with
      | some ev => raise ev (i + (winShare r.1.win).getD 0 % 65536 * 256) (some (7, slot)) s
      | none => s) s

/-! ### Ego-motion (R309, R310, R318) -/

/-- Counts a rejection of the gate. -/
def gateReject (slot i source : Nat) (s : State) : State :=
  let s := updGrid slot (fun g => { g with sensors := g.sensors.modify i fun y => { y with rejects := y.rejects + 1 } }) s
  raise 0x0505 (i + source * 256) (some (7, slot)) s

/-- Adds measurements to the estimator window. -/
def addMeas (slot : Nat) (ms : List EgoMeas) (s : State) : State := updGrid slot (fun g => { g with meas := g.meas ++ ms }) s

/-- Where and when a moving sensor is measured at a close: the epoch, the frame time, its calibration set, the previous
window pose, and what stands for the package's program. -/
structure EgoAt where
  slot : Nat
  tu : Nat
  ftime : Nat
  i : Nat
  cal : List Byte
  prev : Option Nat
  prog : Nat
  gate : Fp
deriving DecidableEq, Repr

/-- A measured pose through the gate (R310): a rejection is counted and raises event 0x0505, else it enters the window
as a prior factor. -/
def gatePose (m : EgoAt) (y : GSensor) (source no t : Nat) (pose : List Fp) (cov : Mat) (s : State) : State :=
  let a := egoAr m.prog
  let (pp, pc) := predicted s.fresh y m.cal t s
  let ((bad, w), n) := egoRunG (s.fresh + 1) (do
    let bad ← gGate a m.gate pose pp cov pc
    let w ← gPoseMeas a pose cov
    pure (bad, w))
  let s := { s with fresh := s.fresh + 1 + n }
  if bad then gateReject m.slot m.i source s
  else addMeas m.slot [{ tu := m.tu, kind := 1, sensor := m.i, no, words := w }] s

/-- The joint measurement of a moving sensor, where its joints have samples. -/
def measureJoints (m : EgoAt) (y : GSensor) (s : State) : State :=
  let a := egoAr m.prog
  let (fk, n) := egoRunG s.fresh (do
    match ← gForward a m.cal m.ftime s with
    | none => pure none
    | some (p, fs) => do
      let c ← gJointCov a m.cal fs
      pure (some (p, c)))
  let s := { s with fresh := s.fresh + n }
  fk.elim s fun (p, c) => gatePose m y 0 0 m.ftime p c s

/-- A host pose that the window holds (R318); with `HOST_SCALE` 0 it is only counted (R310). DEDUCED [266]. -/
def measureHost (m : EgoAt) (y : GSensor) (scale no t : Nat) (b : List Byte) (s : State) : State :=
  let s := updGrid m.slot (fun g => { g with sensors := g.sensors.modify m.i fun y => { y with hosts := y.hosts + 1 } }) s
  if scale = 0 then s else
  let (c, n) := egoRunG s.fresh (gHostCov (egoAr m.prog) scale b)
  gatePose m y 1 (no + 1) t ((List.range 7).map fun k => f64At b (24 + 8 * k)) c { s with fresh := s.fresh + n }

/-- The measurements without a gate: tracks, the IMU and the motion prior. -/
def measureRest (m : EgoAt) (y : GSensor) (s : State) : State :=
  let (tr, n) := egoRunG (s.fresh + 1) (gTracks (egoAr m.prog) m.prog y m.cal s)
  let of (kind no : Nat) (words : List W64) : EgoMeas := { tu := m.tu, kind, sensor := m.i, no, words }
  let between : List EgoMeas := match m.prev with
    | none => []
    | some t0 =>
      (if (imuHandles m.cal).isEmpty then [] else [of 4 0 (imuMeas s.fresh m.cal t0 m.tu s)]) ++ [of 5 0 (priorMeas m.prog t0 m.tu)]
  addMeas m.slot (tr.zipIdx.map (fun (w, k) => of 3 k w) ++ between) { s with fresh := s.fresh + 1 + n }

/-- The measurements of a moving sensor at the close of an epoch (R309, R310, R318, Table 9.5). -/
def measureSensor (slot : Nat) (e : Epoch) (i : Nat) (s : State) : State :=
  match getGrid slot s with
  | none => s
  | some g => match g.sensors[i]? with
    | none => s
    | some y =>
      if !y.moving then s else
      let m : EgoAt :=
        { slot, tu := e.tu, ftime := ((e.batches.filter fun b => b.sensor == i).getLast?).elim e.tu (·.ftime), i
          cal := (epochCal e i s).elim [] (·.bytes), prev := g.poseTimes[1]?
          prog := (getProb (egoSlot slot) s).elim 0 (·.prog), gate := fpDecode fp32 g.gate }
      let oldest := g.poseTimes.getLastD e.tu
      let due := (y.pending.filter fun (t, _) => decide (oldest ≤ t ∧ t ≤ e.tu)).zipIdx
      let s := updGrid slot (fun g => { g with sensors := g.sensors.modify i fun y => { y with
        pending := y.pending.filter fun (t, _) => decide (e.tu < t) } }) s
      let s := measureJoints m y s
      let s := due.foldl (fun s ((t, b), n) => measureHost m y g.hostScale n t b s) s
      measureRest m y s

/-- The estimator window after a close, put into the grid's problem as one batch (R309, R335): the measurements of the
last `WINDOW` epochs, and the newest lift poses as starting values. DEDUCED [264]. -/
def loadWindow (slot tu : Nat) (s : State) : State :=
  match getGrid slot s with
  | none => s
  | some g =>
    let ms := g.meas.filter fun m => g.poseTimes.contains m.tu
    let starts := (g.sensors.zipIdx.filter fun (y, _) => y.moving).map fun (y, i) => (i, tu, y.lift)
    let s := updGrid slot (fun g => { g with meas := ms }) s
    updProb (egoSlot slot) (fun p => (egoDeltas p ms starts).foldl applyDelta p) s

/-- The run of a grid's ego-motion problem after the close of an epoch (R309); it has no request. -/
def egoRun (slot tu : Nat) (s : State) : State :=
  match getGrid slot s with
  | none => s
  | some g =>
    let run : SolveRun :=
      { req := { src := .callboard, cid := egoSlot slot }, dl := monoOf tu s + g.egoUs * usT, warm := 0
        source := none, tRef := tu, at' := s.time.mono, start := none, flags := 0, base := [], vals := [], sats := [] }
    updProb (egoSlot slot) (fun p => { p with runs := p.runs ++ [run] }) s

/-! ### EPOCH_CLOSE -/

/-- The status of an epoch (R301, R302, R305, R308, R311, R19). DEDUCED [72]. -/
def epochStatus (e : Epoch) (full : Nat) (stale rebuilt : Bool) : Nat :=
  if e.errored || rebuilt then stDegraded
  else if stale then stStale
  else if 0 < full ∨ !e.absent.isEmpty then stPartial else stOk

/-- The batches that are lifted at the close or were before, with their poses; a batch whose set is unusable ends its
run (R296), and those of excluded sensors count for nothing (R302). DESIGN CHOICE [258]. DEDUCED [267]. -/
def liftBatches (g : Grid) (e : Epoch) (s : State) : List (Batch9 × List W64 × Bool × List Byte) × State :=
  (e.batches.filter fun b => !e.excluded.contains b.sensor).foldl (fun (l, s) b =>
    let bytes := ((e.cals[b.sensor]?.bind id).bind (getCal · s)).elim [] (·.bytes)
    match b.lifted, g.sensors[b.sensor]? with
    | some (p, st), _ => (l ++ [(b, p, st, bytes)], s)
    | none, some y =>
      if (epochCal e b.sensor s).isNone then
        (l, ((getInst b.inst s).bind (runOf · b.run)).elim s fun r => endRun b.inst r stIntegrity s)
      else
        let (x, s) := liftPose y bytes b.ftime s
        (l ++ [(b, x.1, x.2, bytes)], s)
    | none, none => (l, s)) ([], s)

/-- The lift poses at t_u of a closing epoch (Table 9.9). -/
def closeLifts (slot : Nat) (e : Epoch) (s : State) : State :=
  match getGrid slot s with
  | none => s
  | some g =>
    (List.range g.sensors.length).foldl (fun s i => match g.sensors[i]? with
      | none => s
      | some y =>
        let cal := ((e.cals[i]?.bind id).bind (getCal · s)).elim [] (·.bytes)
        let (x, s) := liftPose y cal e.tu s
        let set (y : GSensor) : GSensor := { y with lift := x.1, liftSt := if x.2 then stStale else stOk }
        updGrid slot (fun g => { g with sensors := g.sensors.modify i set }) s) s

/-- Lifts, decides and closes the first epoch by t_u. DEDUCED [267]. -/
def closeEpoch (g : Grid) (e : Epoch) (s : State) : State :=
  let slot := g.slot
  let (bs, s) := liftBatches g e s
  let recs := bs.flatMap fun (b, p, _, cal) => b.records.map fun r => ({ sensor := b.sensor, pose := p, cal, bytes := r } : LiftRec)
  let l := (arrivalOrder recs s.fresh).foldl (liftOne g) { entries := [], lost := 0, full := 0 }
  let s := { s with fresh := s.fresh + recs.length }
  let lifted := (bs.filter fun (b, _) => !b.records.isEmpty)
  let moving (i : Nat) : Bool := (g.sensors[i]?).any (·.moving)
  let stale := lifted.any fun (_, _, st, _) => st
  let rebuilt := lifted.any fun (b, _) => moving b.sensor && (g.sensors[b.sensor]?).any (·.rebuilt)
  let ds := l.entries.map fun x => (x, decideVoxel g x.labels)
  let pairs := countPairs (ds.filterMap fun (_, d) => d.pair)
  let voxels := ds.foldl (fun vs (x, d) =>
    putVoxel (updateVoxel g e.no d x ((vs.find? fun v => v.i == x.i).getD (blankVoxel g x.i))) vs) g.voxels
  let s := closeLifts slot e s
  let sens (y : GSensor) (i : Nat) : GSensor := { y with rebuilt := y.rebuilt && !(lifted.any fun (b, _) => b.sensor == i) }
  let s := updGrid slot (fun g => { g with
    voxels, epochs := g.epochs.filter (fun x => x.no != e.no)
    sensors := (g.sensors.zipIdx).map fun (y, i) => sens y i
    closed := some (e.no, e.tu, epochStatus e l.full stale rebuilt), closedTus := e.tu :: g.closedTus
    lastAbsent := maskOf e.absent, lastDesync := maskOf e.desync, lastDropped := l.full
    dropLift := g.dropLift + l.lost, pairs, poseTimes := (e.tu :: g.poseTimes).take g.window }) s
  let s := pairs.foldl (fun s (x : Nat × Nat × Nat) => let (a, b, n) := x; if g.votes.conflictMin ≤ n
    then raise 0x0503 (a + b * 256 + min n (2 ^ 32 - 1) * 65536) (some (7, slot)) s else s) s
  let out (i : Nat) : Bool := e.absent.contains i || e.desync.contains i || e.excluded.contains i
  let s := judgeSensors slot ((ds.flatMap fun (_, d) => d.judged).filter fun x => !out x.1) s
  let s := (List.range g.sensors.length).foldl (fun s i => measureSensor slot e i s) s
  let s := applyPend slot (egoRun slot e.tu (loadWindow slot e.tu s))
  (e.batches.map fun b => (b.inst, b.run)).eraseDups.foldl (fun s (i, n) => advanceInst i (endLayer i n s)) s

/-- EPOCH_CLOSE (R301, R306, R309, R312 to R316): epochs close in order of t_u. -/
def execEpochClose (slot : Nat) (s : State) : Result :=
  .next (match getGrid slot s with
    | none => s
    | some g => match g.epochs.head? with
      | none => s
      | some e => if e.accepting then s else settle (closeEpoch g e s))

/-! ### GRID_POSE_SUBMIT and GRID_STATUS -/

def iGridPoseSubmit : CmdInfo :=
  { gridCmd 0x0507 100 0 with pay := .required, range := fun c _ => c.plen == 112 }

/-- Range checks of a pose submission (R318, Table 9.10). -/
def poseRange (g : Grid) (b : List Byte) : Bool :=
  decide (fld b 4 4 < 1000000000) && decide (fld b 16 1 < g.sensors.length) && zeroAt b 17 7
    && unitNorm ((List.range 4).map fun k => f64At b (48 + 8 * k)) 1 1000000
    && (List.range 6).all (fun k => f32Pos b (80 + 4 * k)) && zeroAt b 104 8

/-- GRID_POSE_SUBMIT (R318). DEDUCED [79]. -/
def bodyGridPoseSubmit : Body := fun c s => do
  let g ← gridArg c s
  let b := c.pay
  need (poseRange g b) (err stRange)
  let i := fld b 16 1
  let some y := g.sensors[i]? | .error (err stRange)
  need y.moving (err stState)
  let t := wordTime b 0
  need (g.poseTimes.isEmpty || decide (g.poseTimes.getLastD 0 ≤ t)) (err stPoseWindow)
  need (decide (t ≤ s.time.now + 10 * msT)) (err stPoseWindow)
  need (decide (y.pending.length < 64)) (err stLimit)
  .ok (updGrid g.slot (fun g => { g with
    sensors := g.sensors.modify i fun y => { y with pending := y.pending ++ [(t, b)] } }) s, okR 0 0)

def execGridPoseSubmit (r : ReqRef) (io : Io) (s : State) : Result := serve iGridPoseSubmit bodyGridPoseSubmit r io s

def iGridStatus : CmdInfo :=
  { gridCmd 0x0508 100 13 with
    res := fun q s => some (320 + 128 * (reqGrid q s).elim 0 (·.sensors.length))
    range := fun c _ => decide (prm c 12 1 ≤ 1) }

/-- The state of a sensor (Table 9.9). DEDUCED [77]. -/
def sensorState (g : Grid) (i : Nat) (y : GSensor) (s : State) : Nat :=
  if (sensorCal y s).isNone then 4
  else if g.lastAbsent.testBit i then 3
  else if g.lastDesync.testBit i then 2
  else if y.suspect then 1 else 0

/-- A sensor's 128 bytes of GRID_STATUS. DEDUCED [77]. -/
def sensorRecord (g : Grid) (kind i : Nat) (y : GSensor) (s : State) : List Byte :=
  let tu := g.closed.elim 0 fun (_, t, _) => t
  let ws := if kind = 0 then y.pose else y.lift
  tbWord (if kind = 0 ∧ y.moving then y.poseAt else tu) ++ leBytes 2 (if kind = 0 then y.poseSt else y.liftSt)
    ++ leBytes 1 (sensorState g i y s) ++ [0] ++ leBytes 4 ((winShare y.win).getD 0xFFFFFFFF)
    ++ ((List.range 7).flatMap fun n => leBytes 8 ((ws[n]?).getD 0).toNat)
    ++ ((List.range 6).flatMap fun n => leBytes 4 (natAt y.sigma6 n))
    ++ leBytes 4 y.rejects ++ leBytes 4 y.lastJ ++ leBytes 4 y.lastO ++ zeros 12

/-- The pairs with the most contradictions, at most 32 (R314). DEDUCED [76]. -/
def topPairs (g : Grid) : List (Nat × Nat × Nat) :=
  let before (x y : Nat × Nat × Nat) : Bool :=
    decide (y.2.2 < x.2.2) || (x.2.2 == y.2.2 && (decide (x.1 < y.1) || (x.1 == y.1 && decide (x.2.1 ≤ y.2.1))))
  (sortBy before g.pairs).take 32

/-- The GRID_STATUS record (Table 9.9). -/
def gridRecord (g : Grid) (kind : Nat) (s : State) : List Byte :=
  let (n, tu, st) := g.closed.getD (0, 0, 0)
  let suspects := maskOf ((g.sensors.zipIdx.filter fun (y, _) => y.suspect).map (·.2))
  let pair (x : Nat × Nat × Nat) : List Byte := leBytes 1 x.1 ++ leBytes 1 x.2.1 ++ zeros 2 ++ leBytes 4 x.2.2
  leBytes 4 n ++ tbWord tu ++ leBytes 2 st ++ zeros 2 ++ leBytes 8 g.lastAbsent ++ leBytes 8 suspects
    ++ leBytes 8 g.lastDesync ++ leBytes 4 g.lastDropped ++ leBytes 4 g.dropLift ++ leBytes 4 g.dropBatch
    ++ leBytes 4 g.pairs.length ++ ((g.sensors.zipIdx).flatMap fun (y, i) => sensorRecord g kind i y s)
    ++ padTo 256 ((topPairs g).flatMap pair)

/-- GRID_STATUS (R314, Table 9.9). -/
def bodyGridStatus : Body := fun c s => do
  let g ← gridArg c s
  .ok (s, okD 0 0 (gridRecord g (prm c 12 1) s))

def execGridStatus (r : ReqRef) (io : Io) (s : State) : Result := serve iGridStatus bodyGridStatus r io s

end Sys2Proof.Machine
end

