-- ==== Sys2Proof/Machine/Journal.lean ====
section
/-! DEFINITION. The journal of long operations (R505, Table 15.6). -/
namespace Sys2Proof.Machine

/-- Operation numbers with a record and no `END` (R505). A recasting in probation is open. -/
def openOps (s : State) : List Nat :=
  (s.boot.journal.map (·.number)).eraseDups.filter fun n =>
    !(s.boot.journal.any fun r => r.number == n && r.step == 4)

/-- R505: one more operation may be open. -/
def journalRoom (s : State) : Except Fail Unit := need (decide ((openOps s).length < 64)) (err stLimit)

/-- Takes the oldest record that belongs to no open operation away when the ring is full. -/
def journalTrim (l : List JRec) (opens : List Nat) : List JRec :=
  if l.length < 65536 then l
  else match l.reverse.find? fun r => !opens.contains r.number with
    | some r => l.filter fun x => x.seqNo != r.seqNo
    | none => l

/-- Writes one record of an operation. -/
def journalPut (r : JRec) (s : State) : State :=
  { s with boot := { s.boot with
    journal := { r with seqNo := s.boot.nextSeq, at' := s.time.now } :: journalTrim s.boot.journal (openOps s)
    nextSeq := s.boot.nextSeq + 1 } }

/-- Opens an operation: writes its `BEGIN` and answers its number. -/
def journalBegin (op : Nat) (src : ReqRef) (opcode : Nat) (handle : W64) (detail : Nat) (s : State) : Nat × State :=
  let n := s.boot.nextOp
  let r : JRec :=
    { seqNo := 0, op, step := 1, src, opcode, number := n, handle, progress := 0
      detail, at' := 0, bad := 0, outcome := none }
  (n, journalPut r { s with boot.nextOp := n + 1 })

/-- The latest record of an operation. -/
def journalLast (n : Nat) (s : State) : Option JRec := s.boot.journal.find? fun r => r.number == n

/-- Writes a further record of an operation: 2 `PROGRESS`, 3 `COMMIT`, 4 `END`. -/
def journalStep (n step progress : Nat) (s : State) : State :=
  match journalLast n s with
  | none => s
  | some r => journalPut { r with step, progress, bad := 0, outcome := none } s

/-- A replayed operation ends (R506, R507): its outcome stays readable, and its completion is posted on the
recorded pair while that pair is live. -/
def repost (n st r0 outcome : Nat) (s : State) : State :=
  match journalLast n s with
  | none => s
  | some l =>
    let mark (r : JRec) : JRec := if r.seqNo = l.seqNo then { r with outcome := some outcome } else r
    let s := { s with boot.journal := s.boot.journal.map mark }
    match l.src.src with
    | .queue fn q => postCq fn q l.src.cid st r0 outcome false false s
    | .callboard => s

/-- Writes the `PROGRESS` records of a copy: one after every `per` of `total`. -/
def journalProgress (n per total : Nat) (s : State) : State :=
  (List.range (total / per)).foldl (fun s i => journalStep n 2 ((i + 1) * per) s) s

end Sys2Proof.Machine
end

