-- ==== Sys2Proof/Machine/MapStore.lean ====
section
/-! DEFINITION. The map store (spec/11, R363 to R378): identifiers, cells, edge halves, shards, and the
records of a MAP_INSERT batch, checked and applied. -/
namespace Sys2Proof.Machine

def stMapFull : Nat := 0x8701
def stMapImage : Nat := 0x8702

def getMap (slot : Nat) (s : State) : Option MapO := s.map.maps.find? fun m => m.slot == slot

def updMap (slot : Nat) (f : MapO → MapO) (s : State) : State :=
  { s with map.maps := updIf (fun m => m.slot == slot) f s.map.maps }

/-! ### Identifiers (R367 to R369) -/

/-- The identifier of a slot at a generation (Table 11.1). -/
def mkId (gen slot : Nat) : W64 := BitVec.ofNat 64 (gen * 2 ^ 48 + slot)

def idGen (i : W64) : Nat := i.toNat / 2 ^ 48
def idSlot (i : W64) : Nat := i.toNat % 2 ^ 48

/-- The marker of an empty result slot (R368). -/
def emptyId : W64 := 0xFFFFFFFFFFFFFFFF

def getSlot (m : MapO) (n : Nat) : Option MSlot := m.slots.find? fun x => x.n == n

/-- The live object an identifier names (R367, R369). -/
def liveCell (m : MapO) (i : W64) : Option MCell :=
  (getSlot m (idSlot i)).bind fun x => if x.gen == idGen i && !x.retired then x.cell else none

def isLive (m : MapO) (i : W64) : Bool := (liveCell m i).isSome

/-- Puts a slot in its place, slots rising. -/
def putSlot (x : MSlot) : List MSlot → List MSlot
  | [] => [x]
  | y :: ys => if x.n < y.n then x :: y :: ys else if x.n = y.n then x :: ys else y :: putSlot x ys

/-- Changes the cell of a live object. -/
def updCell (i : W64) (f : MCell → MCell) (m : MapO) : MapO :=
  { m with slots := updIf (fun x => x.n == idSlot i && x.gen == idGen i) (fun x => { x with cell := x.cell.map f }) m.slots }

/-- The slot of a new object and its generation (R369): the free slot tombstoned longest ago; with
none, a slot never used, which one being Stage Manager's choice (`x`). [11] DESIGN CHOICE [90]. -/
def allocSlot (m : MapO) (x : Nat) : Nat × Nat :=
  let free := m.slots.filter fun y => y.cell.isNone && !y.retired
  match free.foldl (fun (b : Option MSlot) y => match b with
      | none => some y
      | some z => if y.tomb < z.tomb then some y else some z) none with
  | some y => (y.n, y.gen)
  | none =>
    let used := m.slots.map (·.n)
    let c := x % max 1 m.slotsMax
    (if used.contains c then firstFree used else c, 1)

/-- Slots that a new object can take. -/
def freeSlots (m : MapO) : Nat := m.slotsMax - (m.slots.filter fun y => y.cell.isSome || y.retired).length

/-! ### Cells (Tables 11.2, 11.3) -/

/-- The cell size of an object kind (Table 11.3). -/
def cellSize (kind : Nat) : Nat := natAt [0, 256, 128, 128, 64, 1024] kind

/-- The bytes of a record's body that stand for a cell: its bytes from 16 on. -/
def bodySize (kind : Nat) : Nat := cellSize kind - 16

def MCell.edges (x : MCell) : List Edge := x.blocks.flatten

/-- Heap bytes of a cell and its edge blocks (R363, "Edges"). -/
def cellBytes (x : MCell) : Nat := cellSize x.kind + 512 * x.blocks.length

/-- Cells and edge blocks in use. DEDUCED [91]. -/
def liveBytes (m : MapO) : Nat := (m.slots.map fun y => y.cell.elim 0 cellBytes).sum

/-- Cells and edge blocks in use in a shard. -/
def shardBytes (m : MapO) (sh : Nat) : Nat :=
  (m.slots.map fun y => y.cell.elim 0 fun x => if x.shard = sh then cellBytes x else 0).sum

/-- Heap bytes that a repotting's target holds. DEDUCED [92]. -/
def repotClaim (m : MapO) : Nat := m.repot.elim 0 fun r => if r.mode = 0 then roundUp r.bytes (2 ^ 20) else 0

/-- Heap bytes left. DEDUCED [91]. -/
def heapFree (m : MapO) : Nat := m.heap - liveBytes m - repotClaim m

/-- Replaces bytes of a body. DEDUCED [84]. -/
def patch (b : List Byte) (off : Nat) (x : List Byte) : List Byte := b.take off ++ x ++ b.drop (off + x.length)

/-- Where the observations of an object lie in its body (Table 11.3). -/
def obsOff (kind : Nat) : Option Nat := if kind = 1 then some 104 else if kind = 2 then some 36 else none

/-- A body as stored: the fields the K9 writes are taken from no host (R370). -/
def clearK9 (kind : Nat) (b : List Byte) : List Byte := (obsOff kind).elim b fun o => patch b o (zeros 4)

/-- The bytes of a live cell (Tables 11.2, 11.3). -/
def cellImage (i : W64) (x : MCell) : List Byte :=
  leBytes 8 i.toNat ++ leBytes 1 x.kind ++ [0] ++ leBytes 2 x.edges.length ++ leBytes 1 x.shard ++ zeros 3
    ++ (obsOff x.kind).elim x.body fun o => patch x.body o (leBytes 4 x.obs)

/-! ### Shards (R365) -/

/-- One axis of R365: min(max(floor((x − origin) / size), 0), n − 1). -/
def shardAxis (x origin size : Fp) (n : Nat) : Nat :=
  match fpDiv (fpAdd x (fpNeg origin)) size with
  | .fin neg a b => if neg then 0 else min (a / b) (n - 1)
  | .inf neg => if neg then 0 else n - 1
  | .nan => 0

/-- The shard of a position. -/
def shardOf (m : MapO) (x y z : Fp) : Nat :=
  let (nx, ny, nz) := m.shards
  let ax (k n : Nat) (v : Fp) : Nat := shardAxis v (f32At m.desc (20 + 4 * k)) (f32At m.desc (32 + 4 * k)) n
  ax 0 nx x + nx * (ax 1 ny y + ny * ax 2 nz z)

def shardCount (m : MapO) : Nat := m.shards.1 * m.shards.2.1 * m.shards.2.2

/-- Positions of three values in a body. -/
def pos64 (b : List Byte) (o : Nat) : Fp × Fp × Fp := (f64At b o, f64At b (o + 8), f64At b (o + 16))
def pos32 (b : List Byte) (o : Nat) : Fp × Fp × Fp := (f32At b o, f32At b (o + 4), f32At b (o + 8))

/-- The shard of an object by its kind (R365); a pose constraint's is that of its keyframe a. -/
def objShard (m : MapO) (kind : Nat) (b : List Byte) : Nat :=
  let at' (p : Fp × Fp × Fp) : Nat := shardOf m p.1 p.2.1 p.2.2
  match kind with
  | 1 => at' (pos64 b 16)
  | 2 => at' (pos64 b 0)
  | 4 => at' (pos32 b 0)
  | 5 => at' (pos64 b 16)
  | _ => (liveCell m (BitVec.ofNat 64 (fld b 0 8))).elim 0 (·.shard)

/-! ### Edges (R371 to R373) -/

/-- The same half: target, kind and side. DEDUCED [86]. -/
def sameHalf (e f : Edge) : Bool := e.target == f.target && e.kind == f.kind && e.reverse == f.reverse

/-- A half joins the first block with room, or a new block. -/
def pushHalf (e : Edge) : List (List Edge) → List (List Edge)
  | [] => [[e]]
  | b :: bs => if b.length < 15 then (b ++ [e]) :: bs else b :: pushHalf e bs

/-- Adds a half, or replaces the fields of the one that is there (R373); an observation counts (R371).
 DEDUCED [82]. -/
def addHalf (e : Edge) (x : MCell) : MCell :=
  if x.edges.any (sameHalf e) then { x with blocks := x.blocks.map (updIf (sameHalf e) fun _ => e) }
  else { x with blocks := pushHalf e x.blocks, obs := x.obs + (if e.kind = 2 then 1 else 0) }

/-- Takes halves away, closing the gaps in their blocks; an empty block goes back to the heap (R379). -/
def dropHalves (p : Edge → Bool) (x : MCell) : MCell :=
  let gone := x.edges.filter p
  { x with
    blocks := (x.blocks.map fun b => b.filter fun e => !p e).filter fun b => !b.isEmpty
    obs := x.obs - (gone.filter fun e => e.kind == 2).length }

/-- A half is dead when its target is not live at the identifier's generation (R378). -/
def deadHalf (m : MapO) (e : Edge) : Bool := !isLive m e.target

/-- Two-sided edge kinds (R371). -/
def twoSided (kind : Nat) : Bool := kind == 1 || kind == 2

/-- The object kinds an edge kind joins (R371). DEDUCED [86]. -/
def edgeJoins (kind src tgt : Nat) : Bool :=
  match kind with
  | 1 => src == 1 && tgt == 1
  | 2 => src == 1 && tgt == 2
  | 4 => src == 5 && (tgt == 2 || tgt == 4)
  | _ => false

/-! ### Transforms through the anchor (R364, R402) -/

/-- A sum of exact values. -/
def fpSumOf (l : List Fp) : Fp := l.foldl fpAdd (fpNat 0)

/-- Value `i` of a list. -/
def fpGet (l : List Fp) (i : Nat) : Fp := l[i]?.getD (fpNat 0)

/-- The rows of the rotation of a quaternion, of any length, exactly. -/
def rotRows (q : List Fp) : List (List Fp) :=
  let e (i j : Nat) : Fp := fpMul (fpGet q i) (fpGet q j)
  let n := fpSumOf ((List.range 4).map fun i => e i i)
  let two (v : Fp) : Fp := fpMul (fpNat 2) v
  let diag (a b : Nat) : Fp := fpAdd n (fpNeg (two (fpAdd (e a a) (e b b))))
  let off (a b c : Nat) (neg : Bool) : Fp := two (fpAdd (e a b) (if neg then fpNeg (e 0 c) else e 0 c))
  [ [diag 2 3, off 1 2 3 true, off 1 3 2 false], [off 1 2 3 false, diag 1 3, off 2 3 1 true]
  , [off 1 3 2 true, off 2 3 1 false, diag 1 2] ].map fun r => r.map fun v => fpDiv v n

/-- The anchor as a rotation (rows) and its translation, for a direction: 0 into the map frame, 1 into the workspace. -/
structure Anchor where
  dir : Nat
  rows : List (List Fp)
  t : List Fp
  q : List Fp
deriving DecidableEq, Repr

/-- The anchor that seven FP64 words give, for a direction. DEDUCED [268]. -/
def anchorOf (dir : Nat) (ws : List W64) : Anchor :=
  let v := ws.map fun w => fpDecode fp64 w.toNat
  let q := v.drop 3
  let r := rotRows q
  let conj := fpGet q 0 :: (q.drop 1).map fpNeg
  if dir = 1 then { dir, rows := r, t := v.take 3, q }
  else { dir, rows := (List.range 3).map fun i => r.map fun x => fpGet x i, t := v.take 3, q := conj }

/-- A direction through the anchor, exactly. -/
def Anchor.turn (a : Anchor) (v : List Fp) : List Fp := a.rows.map fun r => fpSumOf ((r.zip v).map fun (x, y) => fpMul x y)

/-- A position through the anchor, exactly. -/
def Anchor.move (a : Anchor) (v : List Fp) : List Fp :=
  let add (x y : List Fp) : List Fp := (x.zip y).map fun (p, q) => fpAdd p q
  if a.dir = 1 then add (a.turn v) a.t else a.turn (add v (a.t.map fpNeg))

/-- A product of quaternions, exactly. -/
def quatProd (p q : List Fp) : List Fp :=
  let row (s : List (Bool × Nat)) : Fp :=
    fpSumOf (s.zipIdx.map fun ((neg, i), j) => let v := fpMul (fpGet p i) (fpGet q j); if neg then fpNeg v else v)
  [ row [(false, 0), (true, 1), (true, 2), (true, 3)], row [(false, 1), (false, 0), (true, 3), (false, 2)]
  , row [(false, 2), (false, 3), (false, 0), (true, 1)], row [(false, 3), (true, 2), (false, 1), (false, 0)] ]

/-- A field's values through the anchor: 0 a pose, 1 a position, 2 a direction, 3 a 3 × 4 frame by rows. -/
def xfValues (a : Anchor) (what : Nat) (v : List Fp) : List Fp :=
  match what with
  | 0 => a.move (v.take 3) ++ quatProd a.q (v.drop 3)
  | 1 => a.move v
  | 2 => a.turn v
  | _ =>
    let col (j : Nat) : List Fp := (List.range 3).map fun i => fpGet v (4 * i + j)
    let cols := [a.turn (col 0), a.turn (col 1), a.turn (col 2), a.move (col 3)]
    (List.range 3).flatMap fun i => cols.map fun c => fpGet c i

/-- The bytes of a transformed field: exact results, each rounded once by R278. DEDUCED [268]. -/
def xfWords (dir what w : Nat) (anchor : List W64) (b : List Byte) (off n : Nat) : List Byte :=
  let f := if w = 8 then fp64 else fp32
  let xs := (List.range n).map fun i => fpDecode f (fld b (off + w * i) w)
  (xfValues (anchorOf dir anchor) what xs).flatMap fun v => leBytes w (fpIeee f v)

/-- Transforms a body's fields (R402): `dir` 0 into the map frame, 1 into the workspace frame; 0 full
pose, 1 position, 2 rotation only, 3 grasp frame. DEDUCED [268]. -/
def xfBody (dir : Nat) (anchor : List W64) (kind : Nat) (b : List Byte) : List Byte :=
  let put (what w off n : Nat) (b : List Byte) : List Byte := patch b off (xfWords dir what w anchor b off n)
  match kind with
  | 1 => put 0 8 16 7 b
  | 2 => put 2 4 24 3 (put 1 8 0 3 b)
  | 4 => put 2 4 12 3 (put 1 4 0 3 b)
  | 5 => (List.range (min 16 (fld b 80 1))).foldl (fun b g => put 3 4 (112 + 56 * g) 12 b) (put 0 8 16 7 b)
  | _ => b

/-! ### The records of a batch (Table 11.13) -/

structure MRec where
  op : Nat
  kind : Nat
  zero : Bool          -- bytes 4 to 7 are zero
  body : List Byte
deriving DecidableEq, Repr

/-- Walks the records of a batch; with the number of the first that does not lie in the payload, or of
the place after the last where bytes are left. -/
def parseRecs : Nat → Nat → List Byte → List MRec × Option Nat
  | 0, i, b => ([], if b.isEmpty then none else some i)
  | n + 1, i, b =>
    let len := fld b 2 2
    if b.length < 8 + len then ([], some i) else
    let r : MRec := { op := fld b 0 1, kind := fld b 1 1, zero := fld b 4 4 == 0, body := slice b 8 len }
    let (rs, e) := parseRecs n (i + 1) (b.drop (8 + len))
    (r :: rs, e)

/-- The body length that an operation and kind require; none for a reserved one. -/
def recSize (op kind : Nat) : Option Nat :=
  let obj := decide (1 ≤ kind ∧ kind ≤ 5)
  let edge := decide (kind = 1 ∨ kind = 2 ∨ kind = 4)
  match op with
  | 1 => if obj then some (bodySize kind) else none
  | 2 => if obj then some (8 + bodySize kind) else none
  | 3 => if edge then some 40 else none
  | 4 => if edge then some 16 else none
  | 5 => if kind = 0 then some 56 else none
  | _ => none

def MRec.obj (r : MRec) : List Byte := if r.op = 2 then r.body.drop 8 else r.body

def idAt (b : List Byte) (o : Nat) : W64 := BitVec.ofNat 64 (fld b o 8)

/-- The identifiers a record refers to. -/
def recRefs (r : MRec) : List W64 :=
  let two (b : List Byte) : List W64 := if r.kind = 3 then [idAt b 0, idAt b 8] else []
  match r.op with
  | 1 => two r.body
  | 2 => idAt r.body 0 :: two (r.body.drop 8)
  | 3 => [idAt r.body 0, idAt r.body 8]
  | 4 => [idAt r.body 0, idAt r.body 8]
  | _ => []

/-- A reference that R368 allows in record `i`. -/
def idRefOk (rs : List MRec) (i : Nat) (x : W64) : Bool :=
  if idGen x = 0xFFFF then decide (idSlot x < i) && (rs[idSlot x]?).any fun r => r.op == 1
  else x == 0 || idGen x != 0

def zeroIn (b : List Byte) (o n : Nat) : Bool := (slice b o n).all fun v => v == 0
def fin32 (b : List Byte) (o n : Nat) : Bool := (List.range n).all fun i => fpFinite (f32At b (o + 4 * i))
def fin64 (b : List Byte) (o n : Nat) : Bool := (List.range n).all fun i => fpFinite (f64At b (o + 8 * i))
def pos32s (b : List Byte) (o n : Nat) : Bool := (List.range n).all fun i => fpPos (f32At b (o + 4 * i))
def unitIn (v : Fp) : Bool := fpNonneg v && fpLe v (fpNat 1)
def unit64 (b : List Byte) (o n : Nat) : Bool := unitNorm ((List.range n).map fun i => f64At b (o + 8 * i)) 1 1000000
def unit32 (b : List Byte) (o n : Nat) : Bool := unitNorm ((List.range n).map fun i => f32At b (o + 4 * i)) 1 1000000

/-- A pose: translation and unit quaternion, FP64. -/
def poseOk (b : List Byte) (o : Nat) : Bool := fin64 b o 7 && unit64 b (o + 24) 4

/-- The checks of R370 on a body (offsets of Table 11.3 less 16). -/
def bodyOk (kind : Nat) (b : List Byte) : Bool :=
  match kind with
  | 1 => poseOk b 16 && fin32 b 72 6 && pos32s b 72 6 && zeroIn b 108 4 && zeroIn b 152 88
  | 2 => fin64 b 0 3 && fin32 b 24 3 && unit32 b 24 3 && fin32 b 72 1 && pos32s b 72 1 && zeroIn b 76 36
  | 3 => poseOk b 16 && fin32 b 72 6 && pos32s b 72 6 && decide (fld b 96 1 ≤ 2) && zeroIn b 97 15
  | 4 => fin32 b 0 7 && unit32 b 12 3 && pos32s b 24 1 && unitIn (f16At b 28) && zeroIn b 30 2
  | 5 =>
    let n := fld b 80 1
    poseOk b 16 && unitIn (f32At b 76) && decide (n ≤ 16) && zeroIn b 81 31
      && (List.range (min n 16)).all (fun g => fin32 b (112 + 56 * g) 14 && unitIn (f32At b (112 + 56 * g + 52)))
      && zeroIn b (112 + 56 * min n 16) (896 - 56 * min n 16)
  | _ => true

/-- The checks of R370 on an edge record (Table 11.4). -/
def edgeOk (kind : Nat) (b : List Byte) : Bool :=
  fld b 8 1 == kind && decide (fld b 9 1 < 2) && zeroIn b 10 2 && zeroIn b 24 8
    && (if kind = 2 then decide (fld b 16 4 < 2 ^ 20) && decide (fld b 20 4 < 2 ^ 20) else zeroIn b 16 8)
    && (kind != 4 || unitIn (f32At b 12))

/-- A record that passes R368 and R370; a record of the wrong length is judged by its length alone. DEDUCED [87]. -/
def recRange (rs : List MRec) (i : Nat) (r : MRec) : Bool :=
  match recSize r.op r.kind with
  | none => false
  | some n =>
    r.zero && (r.body.length != n || ((recRefs r).all (idRefOk rs i) && (match r.op with
      | 1 => bodyOk r.kind r.body
      | 2 => bodyOk r.kind r.obj
      | 3 => edgeOk r.kind (r.body.drop 8)
      | 5 => poseOk r.body 0
      | _ => true)))

/-- The kind of the object a reference means, where it is known at validation. -/
def refKind (rs : List MRec) (m : MapO) (x : W64) : Option Nat :=
  if idGen x = 0xFFFF then (rs[idSlot x]?).map (·.kind) else (liveCell m x).map (·.kind)

/-- The structure checks of a record (R371, R582, Table 11.13). DEDUCED [88]. -/
def recStructure (rs : List MRec) (m : MapO) (r : MRec) : Bool :=
  let kinds := (recRefs r).map (refKind rs m)
  let ends (k : Nat) : Bool :=
    ((kinds[0]?).bind id).all (fun a => (List.range 6).any fun b => edgeJoins k a b)
      && ((kinds[1]?).bind id).all fun b => (List.range 6).any fun a => edgeJoins k a b
  let frames (ks : List (Option Nat)) : Bool := ks.all fun k => k.all fun n => n == 1
  recSize r.op r.kind == some r.body.length && (match r.op with
    | 1 => frames kinds
    | 2 => (kinds.head?.bind id).all (· == r.kind) && frames kinds.tail
    | 3 => ends r.kind
    | 4 => ends r.kind
    | _ => true)

/-! ### Applying a batch (R375) -/

/-- A batch being applied: the map, the result word of every record so far (0 for a skipped one), the
records applied, the identifiers they made, and what the checks need. -/
structure MApply where
  m : MapO
  results : List W64
  made : List W64      -- identifier each record created, 0 for none; one per record
  applied : Nat
  above : Option Nat    -- first record that takes an object past 4,096 halves; R372
  slots : Nat          -- slots taken
  peak : Nat           -- most heap bytes in use
  shards : List Nat    -- shards written

/-- The identifier a reference means while the batch is applied. -/
def MApply.ref (a : MApply) (x : W64) : W64 := if idGen x = 0xFFFF then (a.made[idSlot x]?).getD 0 else x

/-- A tied-up identifier's shard. -/
def shardsOf (m : MapO) (is : List W64) : List Nat := is.filterMap fun i => (liveCell m i).map (·.shard)

/-- Finishes a record that was applied. DEDUCED [83]. -/
def MApply.ok (a : MApply) (i : Nat) (m : MapO) (word new : W64) (touched : List W64) (slot : Nat) : MApply :=
  let above := touched.any fun t => (liveCell m t).any fun x => decide (4096 < x.edges.length)
  { a with
    m, results := a.results ++ [word], made := a.made ++ [new], applied := a.applied + 1
    above := a.above.orElse fun _ => if above then some i else none
    slots := a.slots + slot, peak := max a.peak (liveBytes m)
    shards := a.shards ++ shardsOf m touched }

/-- Finishes a record that was skipped (R375). DEDUCED [85]. -/
def MApply.skip (a : MApply) : MApply := { a with results := a.results ++ [0], made := a.made ++ [0] }

/-- A half of an edge record (Table 11.4). -/
def halfOf (target : W64) (kind : Nat) (reverse : Bool) (b : List Byte) : Edge :=
  { target, kind, reverse, weight := fld b 12 4, x := fld b 16 4, y := fld b 20 4 }

/-- Inserts an edge, on both its objects where it is two-sided (R371, R373). DEDUCED [82]. -/
def insertEdge (src tgt : W64) (kind : Nat) (b : List Byte) (m : MapO) : MapO :=
  let m := updCell src (addHalf (halfOf tgt kind false b)) m
  if twoSided kind then updCell tgt (addHalf (halfOf src kind true b)) m else m

/-- Takes an edge's halves away. DEDUCED [85]. -/
def deleteEdge (src tgt : W64) (kind : Nat) (m : MapO) : MapO :=
  let at' (t : W64) (rev : Bool) (e : Edge) : Bool := e.target == t && e.kind == kind && e.reverse == rev
  let m := updCell src (dropHalves (at' tgt false)) m
  if twoSided kind then updCell tgt (dropHalves (at' src true)) m else m

/-- Stores a new object in a slot (R365, R369). DEDUCED [84]. -/
def storeObj (m : MapO) (x kind : Nat) (b : List Byte) : W64 × MapO :=
  let (n, g) := allocSlot m x
  let old := (getSlot m n).elim 0 (·.tomb)
  let cell : MCell := { kind, shard := objShard m kind b, body := clearK9 kind b, blocks := [], obs := 0 }
  (mkId g n, { m with poison := m.poison.filter (· != n), slots := putSlot { n, gen := g, cell := some cell, retired := false, tomb := old } m.slots })

/-- Applies one record. `frame` is `FRAME`; `x` chooses a slot. [11] DEDUCED [83]. -/
def applyRec (frame : Nat) (x i : Nat) (a : MApply) (r : MRec) : MApply :=
  let conv (b : List Byte) : List Byte := if frame = 1 then xfBody 0 a.m.anchor r.kind b else b
  let at2 (b : List Byte) : W64 × W64 := (a.ref (idAt b 0), a.ref (idAt b 8))
  match r.op with
  | 1 =>
    if r.kind = 3 then
      let (ka, kb) := at2 r.body
      if !(isLive a.m ka && isLive a.m kb) then a.skip else
      let b := leBytes 8 ka.toNat ++ leBytes 8 kb.toNat ++ r.body.drop 16
      let (new, m) := storeObj a.m x 3 b
      let half : Edge := { target := new, kind := 3, reverse := false, weight := 0, x := 0, y := 0 }
      a.ok i (updCell kb (addHalf half) (updCell ka (addHalf half) m)) new new [new, ka, kb] 1
    else
      let (new, m) := storeObj a.m x r.kind (conv r.body)
      a.ok i m new new [new] 1
  | 2 =>
    let o := a.ref (idAt r.body 0)
    match liveCell a.m o with
    | none => a.skip
    | some c =>
      if c.kind ≠ r.kind then a.skip else
      let b := clearK9 r.kind (conv r.obj)
      let (ka, kb) := at2 b
      let b := if r.kind = 3 then leBytes 8 ka.toNat ++ leBytes 8 kb.toNat ++ b.drop 16 else b
      let sh := if r.kind = 3 then c.shard else objShard a.m r.kind b
      a.ok i (updCell o (fun y => { y with body := b, shard := sh }) a.m) o 0 [o] 0
  | 3 =>
    let (p, q) := at2 r.body
    if !(isLive a.m p && isLive a.m q) then a.skip
    else a.ok i (insertEdge p q r.kind (r.body.drop 8) a.m) p 0 [p, q] 0
  | 4 =>
    let (p, q) := at2 r.body
    let there := (liveCell a.m p).any fun y => y.edges.any fun e => e.target == q && e.kind == r.kind && !e.reverse
    if !(isLive a.m p && isLive a.m q && there) then a.skip
    else a.ok i (deleteEdge p q r.kind a.m) p 0 [p, q] 0
  | _ =>
    let ws := (List.range 7).map fun k => idAt r.body (8 * k)
    a.ok i { a.m with anchor := ws, anchorBad := false, desc := patch a.m.desc 64 r.body } (BitVec.ofNat 64 x) 0 [] 0

/-- Applies the records of a batch in order; `k` numbers the free values they may take. -/
def applyRecs (frame k : Nat) (m : MapO) (rs : List MRec) : MApply :=
  rs.zipIdx.foldl (fun a (x : MRec × Nat) => applyRec frame (Config.freeNat (k + x.2)) x.2 a x.1)
    { m, results := [], made := [], applied := 0, above := none, slots := 0, peak := liveBytes m, shards := [] }

/-- The slots that a batch reads before it writes them: the ends of its edges and constraints. DEDUCED [269]. -/
def batchReads (rs : List MRec) : List Nat :=
  (rs.flatMap fun r => if r.op = 3 ∨ r.op = 4 ∨ (r.op = 1 ∧ r.kind = 3) then recRefs r else []).map idSlot

/-- What a batch lacks in a map: heap bytes and slots (R375). DEDUCED [91]. -/
def mapShort (m : MapO) (a : MApply) : Nat × Nat :=
  (a.peak + repotClaim m - m.heap, a.slots - freeSlots m)

/-! ### Deleting (R369, R377) -/

/-- Tombstones a live object's slot; past generation 0xFFFE the slot is retired (R369). -/
def deleteObj (m : MapO) (i : W64) : MapO :=
  let retire := decide (0xFFFE ≤ idGen i)
  let gone (x : MSlot) : MSlot :=
    { x with cell := none, gen := if retire then x.gen else x.gen + 1, retired := retire, tomb := m.tombs + 1 }
  { m with
    slots := updIf (fun x => x.n == idSlot i) gone m.slots, tombs := m.tombs + 1
    retired := m.retired + (if retire then 1 else 0) }

/-- Deletes the identifiers that are live; with the numbers deleted and not live (R377). -/
def deleteObjs (m : MapO) (is : List W64) : MapO × Nat × Nat :=
  is.foldl (fun (m, d, n) i => if isLive m i then (deleteObj m i, d + 1, n) else (m, d, n + 1)) (m, 0, 0)

/-! ### Traversing (R376, R378) -/

/-- One object of a traversal. -/
structure Node where
  id : W64
  hop : Nat
  kind : Nat
  weight : Nat
deriving DecidableEq, Repr

/-- The identifiers in ascending order, each once. -/
def insertId (i : W64) : List W64 → List W64
  | [] => [i]
  | j :: js => if i.toNat < j.toNat then i :: j :: js else if i = j then j :: js else j :: insertId i js

/-- An edge half a traversal follows. -/
def followed (kinds minWeight : Nat) (e : Edge) : Bool :=
  kinds.testBit e.kind && (e.kind != 1 || decide (minWeight ≤ e.weight))

/-- One hop: the halves of the frontier, the dead ones counted, and the objects they reach first, in
ascending identifier; which of several halves reached an object is free. [11] DESIGN CHOICE [96]. -/
def hopFrom (m : MapO) (kinds minW hop k : Nat) (seen : List W64) (front : List W64) : List Node × Nat :=
  let halves := front.flatMap fun i => (liveCell m i).elim [] fun x => x.edges.filter (followed kinds minW)
  let dead := (halves.filter (deadHalf m)).length
  let alive := halves.filter fun e => !deadHalf m e && !seen.contains e.target
  let ids := alive.foldl (fun l e => insertId e.target l) []
  (ids.map fun i =>
    let es := alive.filter fun e => e.target == i
    let e := es[Config.freeNat (k + hop + idSlot i) % max 1 es.length]?
    { id := i, hop, kind := e.elim 0 (·.kind), weight := e.elim 0 (·.weight) }, dead)

/-- Breadth-first hops while nodes are left to visit. DEDUCED [94]. -/
def walk (m : MapO) (kinds minW k maxN : Nat) : Nat → Nat → List Node → List W64 → Nat → List Node × Nat
  | 0, _, seen, _, dead => (seen, dead)
  | n + 1, hop, seen, front, dead =>
    if maxN ≤ seen.length then (seen, dead) else
    let (new, d) := hopFrom m kinds minW hop k (seen.map (·.id)) front
    let new := new.take (maxN - seen.length)
    walk m kinds minW k maxN n (hop + 1) (seen ++ new) (new.map (·.id)) (dead + d)

/-- A traversal: its records, the dead halves it skipped, whether it reached `MAX_NODES`. DEDUCED [94]. -/
def traverse (m : MapO) (starts : List W64) (kinds depth minW maxN k : Nat) : List Node × Nat × Bool :=
  let ids := starts.foldl (fun l i => insertId i l) []
  let (alive, dead) := (ids.filter (isLive m), ids.filter fun i => !isLive m i)
  let node (h : Nat) (i : W64) : Node := { id := i, hop := h, kind := 0, weight := 0 }
  let (ns, d) := walk m kinds minW k (maxN - dead.length) depth 1 ((alive.map (node 0)).take (maxN - dead.length)) alive 0
  let all := (ns ++ dead.map (node 0xFF)).take maxN
  (all, d, decide (maxN ≤ all.length))

/-- The record of a node (R376). DESIGN CHOICE [96]. -/
def nodeBytes (n : Node) : List Byte :=
  leBytes 8 n.id.toNat ++ leBytes 1 n.hop ++ leBytes 1 n.kind ++ zeros 2 ++ leBytes 4 n.weight

end Sys2Proof.Machine
end

