-- ==== Sys2Proof/Machine/Map.lean ====
section
/-! DEFINITION. Map commands (spec/11, R363 to R386) and what runs on the search engines' contexts. -/
namespace Sys2Proof.Machine

/-! ### Members and shards of an ensemble map (R446 to R450) -/

/-- This device keeps quorum, or is in no ensemble (R440). -/
def keepsQuorum (s : State) : Bool := s.ens.ens.all fun e => e.state != 2

/-- A member is present. -/
def memberHere (k : Nat) (s : State) : Bool := s.ens.ens.any fun e => e.present.testBit k

/-- The port that faces a member (R431). -/
def portTo (k : Nat) (s : State) : Nat := (k + 7 - ownMember s) % 8

def getPort (p : Nat) (s : State) : TPort := s.ens.ports[p]?.getD TPort.reset

def updPort (p : Nat) (f : TPort → TPort) (s : State) : State := { s with ens.ports := s.ens.ports.modify p f }

/-- The direct link to a member is up. -/
def linkUp (k : Nat) (s : State) : Bool := k != ownMember s && (getPort (portTo k s) s).state == 3

/-- The port by which frames reach a member: the direct one, or that of the lowest-numbered present member
with an up link (R439). -/
def route (k : Nat) (s : State) : Nat :=
  if linkUp k s then portTo k s else
  match (List.range 8).find? fun r => r != k && memberHere r s && linkUp r s with
  | some r => portTo r s
  | none => portTo k s

/-- An uncorrectable error of an engine's search contexts, at an address and with a syndrome (Table 12.2).
 DESIGN CHOICE [273]. -/
def contextMet (engine : Nat) (bad : Option (Nat × Nat)) (s : State) : State :=
  match bad with
  | none => s
  | some (addr, syndrome) => addFault (mkFault 2 6 engine addr syndrome 2 0 1 0 s) s

/-- Sends a frame to a member; each is counted and sealed under the link's keys (R434, R435). -/
def sendTo (k : Nat) (what : String) (s : State) : State :=
  let p := route k s
  emit (.trellis p what) (updPort p (fun x => { x with frames := x.frames + 1, keyFrames := x.keyFrames + 1 }) s)

/-- The copies of a shard: none listed for a shard of a local map (R385: all local). -/
def shardCopies (m : MapO) (sh : Nat) : List Nat :=
  (m.ens[sh]?).elim [] fun e => e.primary.toList ++ e.understudy.toList

/-- A shard both of whose copies are lost (R450). -/
def shardLost (m : MapO) (sh : Nat) : Bool := (m.ens[sh]?).any (·.lost)

/-- The map of a command, usable (R506). -/
def mapOf (c : Ctx) (s : State) : Except Fail MapO :=
  match getMap (objSlot c) s with
  | none => .error (err stState)
  | some m => if m.broken then .error (err stIntegrity) else .ok m

/-- A map that needs an ensemble has its quorum (R440). -/
def mapQuorum (m : MapO) (s : State) : Except Fail Unit := need (m.ens.isEmpty || keepsQuorum s) (err stState)

/-- A map the command may work on: usable (R506), and with quorum where it needs an ensemble (R440). -/
def mapArg (c : Ctx) (s : State) : Except Fail MapO := do
  let m ← mapOf c s
  mapQuorum m s
  .ok m

/-- What a mismatched anchor leaves (R364, R421). -/
def anchorMet (slot : Nat) (s : State) : State :=
  let (x, s) := draw s
  mismatch 0 (x / 2 ^ 38 % 32) (x % 2 ^ 38) (9, slot) 1 s

/-- `FRAME` 1 needs the anchor (R364). -/
def anchorCheck (m : MapO) (frame : Nat) : Except Fail Unit :=
  need (frame != 1 || !m.anchorBad) { err stIntegrity with fx := anchorMet m.slot }

/-- The search-engine groups: one that serves, or one to bring back (R397, R470). -/
def searchDoms (s : State) : List Nat :=
  let gs := [84, 85, 86, 87]
  if gs.any (domOn · s) then [] else ((gs.find? fun d => !domBarred d s).getD 84) :: []

/-! ### MAP_CREATE, MAP_DESTROY -/

/-- Range checks of a map descriptor (Table 11.12). -/
def mapDescOk (b : List Byte) : Bool :=
  let sh := [fld b 16 1, fld b 17 1, fld b 18 1]
  decide (1024 ≤ fld b 0 4) && zeroIn b 4 4
    && decide (2 ^ 20 ≤ fld b 8 8) && decide (fld b 8 8 ≤ 128 * 2 ^ 30) && fld b 8 8 % 2 ^ 20 == 0
    && sh.all (fun n => decide (1 ≤ n ∧ n ≤ 64)) && decide (sh.foldl (· * ·) 1 ≤ 64) && zeroIn b 19 1
    && fin32 b 20 3 && fin32 b 32 3 && pos32s b 32 3 && zeroIn b 44 20 && poseOk b 64 && zeroIn b 120 8

/-- An empty map of a descriptor. -/
def newMap (slot : Nat) (b : List Byte) (s : State) : MapO :=
  { slot, desc := b, slotsMax := fld b 0 4, heap := fld b 8 8, shards := (fld b 16 1, fld b 17 1, fld b 18 1)
    anchor := (List.range 7).map fun k => idAt b (64 + 8 * k), anchorBad := false, slots := [], tombs := 0
    retired := 0, rate := 1000000, indexes := false, pos := (0, 0), dhAt := s.time.mono, removed := 0
    repot := none, broken := false, poison := [], homeAt := ownMember s, ens := [], resharding := none }

/-- What a map claims (R363). -/
def mapBytes (b : List Byte) : Nat := 16 * fld b 0 4 + fld b 8 8

def iMapCreate : CmdInfo :=
  { opcode := 0x0700, handle := .obj [1], inline := 0, dl := dlMs 1000, pay := .required
    range := fun c _ => c.plen == 128 }

/-- Adds a map under the session of the command (R363). -/
def addMap (c : Ctx) (m : MapO) (n : Nat) (s : State) : State × Done :=
  let (slot, g, s) := newObj 9 (2 ^ 32) c.fn c.sess [] false 0 n s
  ({ charge c.fn 1 n s with map.maps := s.map.maps ++ [{ m with slot }] }, okR slot g)

/-- The claim of a map fits (R363, R90, R24). -/
def mapFit (fn n : Nat) (s : State) : Except Fail Unit := do
  quotaPair fn 1 n s
  limitCheck 9 s
  fitsQuota fn 1 n s
  fits 0x009 (n - stackedFree s)

/-- MAP_CREATE (R363). -/
def bodyMapCreate : Body := fun c s => do
  need (mapDescOk c.pay) (err stRange)
  mapFit c.fn (mapBytes c.pay) s
  .ok (addMap c (newMap 0 c.pay s) (mapBytes c.pay) s)

def execMapCreate (r : ReqRef) (io : Io) (s : State) : Result := serve iMapCreate bodyMapCreate r io s

/-- A command on a map. -/
def mapCmd (opcode ms inline : Nat) : CmdInfo := { opcode, handle := .obj [9], inline, dl := dlMs ms }

/-- The entries of a local map's shards when it becomes an ensemble map: all primary here (R385, R446). -/
def localShards (m : MapO) (self : Nat) : List EShard :=
  if m.ens.isEmpty then List.replicate (shardCount m) { primary := some self, understudy := none, seqNo := 0, acked := 0, lost := false }
  else m.ens

/-- The next shard whose members a plan changes (R458). -/
def nextMove (m : MapO) (plan : List (Nat × Nat)) (from' : Nat) : Option Nat :=
  (List.range (shardCount m)).find? fun sh => decide (from' ≤ sh) &&
    !((m.ens[sh]?).any fun e => (plan[sh]?).any fun p => e.primary == some p.1 && e.understudy == some p.2)

/-- Starts the move of one shard of a re-sharding (R458, Table 11.6). -/
def startMove (slot sh : Nat) (s : State) : State :=
  match getMap slot s with
  | none => s
  | some m => match m.resharding with
    | none => s
    | some (r, plan, _, done) =>
      let target := (plan[sh]?).elim 0 (·.1)
      let (op, s) := journalBegin 3 r 0x0A04 (handleOf 9 slot s) (sh + 2 * 256 + target * 65536) s
      let p : Repot :=
        { req := none, shard := sh, mode := 2, target, pauseUs := 5000, step := 2, drainAt := 0, attempts := 0
          flight := [], op, bytes := shardBytes m sh }
      updMap slot (fun m => { m with repot := some p, resharding := some (r, plan, sh + 1, done) }) s

/-- A re-sharding goes on with its next changed shard, or completes (R458). -/
def advanceReshard (slot : Nat) (s : State) : State :=
  match getMap slot s with
  | none => s
  | some m => match m.resharding with
    | none => s
    | some (r, plan, next, done) => match nextMove m plan next with
      | some sh => startMove slot sh s
      | none => postRef r stOk done 0 none (updMap slot (fun m => { m with resharding := none }) s)

/-- Ends a re-sharding before its end: shards committed stay moved (R458). -/
def stopReshard (slot st : Nat) (s : State) : State :=
  match (getMap slot s).bind (·.resharding) with
  | none => s
  | some (r, _, _, done) => postRef r st done 2 none (updMap slot (fun m => { m with resharding := none }) s)

/-- Ends a repotting: its journal, its event, its completion (R381 to R384, Table 11.6). A shard move of a
re-sharding counts towards its command (R458). DEDUCED [99]. -/
def endRepot (slot st r0 outcome : Nat) (s : State) : State :=
  match (getMap slot s).bind (·.repot) with
  | none => s
  | some p =>
    let s := journalStep p.op 4 0 s
    let s := updMap slot (fun m => { m with repot := none }) s
    let s := raise 0x0702 (p.shard + outcome * 256) (some (9, slot)) s
    if p.mode = 2 ∧ ((getMap slot s).bind (·.resharding)).isSome then
      if isErr st then stopReshard slot st s else
      let count (x : ReqRef × List (Nat × Nat) × Nat × Nat) : ReqRef × List (Nat × Nat) × Nat × Nat := (x.1, x.2.1, x.2.2.1, x.2.2.2 + 1)
      advanceReshard slot (updMap slot (fun m => { m with resharding := m.resharding.map count }) s)
    else match p.req with
      | some r => postRef r st r0 outcome none s
      | none => repost p.op st r0 outcome s

/-- A repotting that has not committed is rolled back (R382). DEDUCED [99]. -/
def rollBack (slot st : Nat) (s : State) : State :=
  match (getMap slot s).bind (·.repot) with
  | none => s
  | some p => if p.step = 5 then s else endRepot slot st 0 2 s

/-- A request ends its repotting before its time: it rolls back before `COMMIT`; after it the deadline no longer
applies (R382), and an abort or a release posts its status as step 5 completes (R78, R97). DEDUCED [270]. -/
def stopRepot (slot st : Nat) (s : State) : State :=
  match (getMap slot s).bind (·.repot) with
  | none => s
  | some p =>
    if p.step ≠ 5 then endRepot slot st 0 2 s
    else if st = stTimeout then s else endRepot slot st (ceilDiv p.bytes 4096) 0 s

def iMapDestroy : CmdInfo := mapCmd 0x0701 10000 0

/-- MAP_DESTROY (R384, R77, R78). A map left unusable by the journal may be destroyed (R506). -/
def bodyMapDestroy : Body := fun c s => do
  let (s, d) ← releaseBody c s
  .ok (rollBack (objSlot c) stAborted s, d)

def execMapDestroy (r : ReqRef) (io : Io) (s : State) : Result := serve iMapDestroy bodyMapDestroy r io s

/-! ### Contexts (R374, R397) -/

/-- A map command joins those that wait for a context. -/
def admitCtx (c : Ctx) (map : Nat) (write : Bool) (s : State) : State :=
  let x : CtxCmd :=
    { req := reqRef c.q, map, write, dl := c.q.dl.getD s.time.mono, order := s.map.nextOrder, engine := none
      pay := c.pay, acks := [], result := none, data := [] }
  { s with map := { s.map with ctx := s.map.ctx ++ [x], nextOrder := s.map.nextOrder + 1 } }

def dropCtx (r : ReqRef) (s : State) : State :=
  { s with map.ctx := s.map.ctx.filter fun x => !(x.req == r) }

/-- The identifiers that a map command names: in its payload, or in `PARAM` from `off`. -/
def cmdIds (q : Req) (pay : List Byte) (off n : Nat) : List W64 :=
  let b := if q.pref || q.cbdata then pay else q.param.drop off
  (List.range n).map fun i => idAt b (8 * i)

/-- The batch of a MAP_INSERT. -/
def insertRecs (pay : List Byte) : List MRec := (parseRecs (fld pay 0 4) 0 (pay.drop 16)).1

/-- `FRAME` of MAP_INSERT and MAP_READ. -/
def insertFrame (q : Req) : Nat := fld q.param 12 1
/-- -/
def readFrame (q : Req) : Nat := fld q.param 16 1

/-- The map as the writes admitted before will leave it (R374). -/
def mapAhead (m : MapO) (s : State) : MapO :=
  s.map.ctx.foldl (fun m (x : CtxCmd) =>
    if x.map = m.slot && x.write && x.result.isNone then
      match findReq x.req s with
      | none => m
      | some q =>
        if q.opcode = 0x0702 then (applyRecs (insertFrame q) s.fresh m (insertRecs x.pay)).m
        else (deleteObjs m (cmdIds q x.pay 8 (fld q.param 0 4))).1
    else m) m

/-! ### MAP_INSERT, MAP_DELETE -/

def iMapInsert : CmdInfo :=
  { mapCmd 0x0702 100 13 with
    pay := .required, range := fun c _ => decide (prm c 12 1 ≤ 1), doms := fun _ s => searchDoms s }

/-- The first number that fails a check. DEDUCED [89]. -/
def firstFalse (l : List Bool) : Option Nat := (l.zipIdx.find? fun (b, _) => !b).map (·.2)

/-- A check over records: the batch ends with the record's number in `RESULT0`. -/
def recCheck (st : Nat) (i : Option Nat) : Except Fail Unit :=
  match i with
  | some i => .error { st, r0 := i, r1 := 0 }
  | none => .ok ()

/-- The smaller of two places. -/
def earlier : Option Nat → Option Nat → Option Nat
  | some a, some b => some (min a b)
  | some a, none => some a
  | none, b => b

/-- MAP_INSERT is validated whole and then waits for a context (R368, R370 to R375, R582, R450). DEDUCED [89]. -/
def bodyMapInsert : Body := fun c s => do
  let n := fld c.pay 0 4
  need (inR 1 n 4194304 && zeroIn c.pay 4 12) (err stRange)
  resCheck (8 * n) c.q
  let m ← mapOf c s
  anchorCheck m (prm c 12 1)
  let (rs, cut) := parseRecs n 0 (c.pay.drop 16)
  recCheck stRange (firstFalse (rs.zipIdx.map fun (r, i) => recRange rs i r))
  mapQuorum m s
  let m' := mapAhead m s
  recCheck stStructure (earlier cut (firstFalse (rs.map (recStructure rs m'))))
  let a := applyRecs (prm c 12 1) s.fresh m' rs
  need (!a.shards.any (shardLost m)) (err stState)
  recCheck stLimit a.above
  let (heap, slots) := mapShort m' a
  need (heap == 0 && slots == 0) { st := stMapFull, r0 := ceilDiv heap 1024, r1 := sat16 slots }
  .ok (admitCtx c m.slot true s, .wait)

def execMapInsert (r : ReqRef) (io : Io) (s : State) : Result := serve iMapInsert bodyMapInsert r io s

/-- The bytes of `PARAM` used by a command whose identifiers stand inline without a payload. -/
def inlineIds (off most : Nat) (q : Req) : Nat :=
  if q.pref || q.cbdata then 4 else off + 8 * min most (fld q.param 0 4)

def iMapDelete : CmdInfo :=
  { mapCmd 0x0703 100 4 with
    inlineOf := inlineIds 8 4, pay := .optional, doms := fun _ s => searchDoms s
    range := fun c _ =>
      let n := prm c 0 4
      if c.q.pref || c.q.cbdata then inR 1 n 1048576 && c.plen == 8 * n else inR 1 n 4 }

/-- MAP_DELETE waits for a context (R374, R377, R450). -/
def bodyMapDelete : Body := fun c s => do
  let m ← mapArg c s
  need (!(shardsOf m (cmdIds c.q c.pay 8 (prm c 0 4))).any (shardLost m)) (err stState)
  .ok (admitCtx c m.slot true s, .wait)

def execMapDelete (r : ReqRef) (io : Io) (s : State) : Result := serve iMapDelete bodyMapDelete r io s

/-! ### MAP_READ, MAP_TRAVERSE -/

def iMapRead : CmdInfo :=
  { mapCmd 0x0704 100 17 with
    inlineOf := fun q => if q.pref || q.cbdata then 17 else 32
    res := fun q _ => some (1024 * fld q.param 12 4), pay := .optional, doms := fun _ s => searchDoms s
    range := fun c _ =>
      let n := prm c 12 4
      decide (prm c 16 1 ≤ 1)
        && (if c.q.pref || c.q.cbdata then inR 1 n 1048576 && c.plen == 8 * n else n == 1) }

/-- MAP_READ waits for a context (R402, R450). -/
def bodyMapRead : Body := fun c s => do
  let m ← mapOf c s
  anchorCheck m (prm c 16 1)
  mapQuorum m s
  need (!(shardsOf m (cmdIds c.q c.pay 24 (prm c 12 4))).any (shardLost m)) (err stState)
  .ok (admitCtx c m.slot false s, .wait)

def execMapRead (r : ReqRef) (io : Io) (s : State) : Result := serve iMapRead bodyMapRead r io s

def iMapTraverse : CmdInfo :=
  { mapCmd 0x0705 100 22 with
    res := fun q _ => some (16 * fld q.param 12 4), pay := .required, doms := fun _ s => searchDoms s
    range := fun c _ => inR 1 (prm c 12 4) 1048576 && (prm c 16 1).land 0xE1 == 0 && inR 1 (prm c 17 1) 4
      && c.plen % 8 == 0 && inR 1 (c.plen / 8) 1024 }

/-- MAP_TRAVERSE waits for a context (R376). -/
def bodyMapTraverse : Body := fun c s => do
  let m ← mapArg c s
  .ok (admitCtx c m.slot false s, .wait)

def execMapTraverse (r : ReqRef) (io : Io) (s : State) : Result := serve iMapTraverse bodyMapTraverse r io s

/-! ### MAP_COMMAND_DONE -/

/-- Posts what a command in a context gives, and frees its context. -/
def endCtx (x : CtxCmd) (st r0 r1 : Nat) (data : Option (List Byte)) (s : State) : State :=
  postRef x.req st r0 r1 data (dropCtx x.req s)

/-- Raises event 0x0703 for slots retired (R369). -/
def raiseRetired (slot n : Nat) (s : State) : State :=
  raiseOnceN n 0x0703 (9, slot) (fun k => k) s

/-- A write to a shard of an ensemble map takes the shard's next sequence number and goes to its
copies on other members (R447); the copies it waits for. -/
def sendShard (slot : Nat) (b : State × List (Nat × Nat × Nat)) (sh : Nat) : State × List (Nat × Nat × Nat) :=
  let (s, l) := b
  match (getMap slot s).bind fun m => m.ens[sh]? with
  | none => (s, l)
  | some e =>
    let n := e.seqNo + 1
    let s := updMap slot (fun m => { m with ens := m.ens.modify sh fun e => { e with seqNo := n } }) s
    let others := (e.primary.toList ++ e.understudy.toList).filter fun k => k != ownMember s
    let s := others.foldl (fun s k => sendTo k "SHARD_WRITE" s) s
    (s, l ++ others.map fun k => (sh, k, n))

/-- A write that was applied: it completes once every copy has applied it (R447). DEDUCED [93]. -/
def finishWrite (x : CtxCmd) (shards : List Nat) (r0 r1 : Nat) (data : List Byte) (s : State) : State :=
  let (s, acks) := shards.eraseDups.foldl (sendShard x.map) (s, [])
  let full := if data.isEmpty then none else some data
  if acks.isEmpty then endCtx x stOk r0 r1 full s
  else
    { s with map.ctx := updIf (fun y => y.order == x.order) (fun (y : CtxCmd) =>
        { y with acks, result := some (r0, r1), data }) s.map.ctx }

/-- A write to the shard being drained is held unless it was in flight (R381). -/
def heldWrite (m : MapO) (x : CtxCmd) (shards : List Nat) : Bool :=
  m.repot.any fun p => p.step == 3 && shards.contains p.shard && !p.flight.contains x.order

/-- What a poisoned cell leaves with the command that reads it (R409, R427). DEDUCED [269]. -/
def mapPoisonMet (slot : Nat) (s : State) : State := objectPoison 9 slot 1 s

/-- A MAP_INSERT in a context is applied (R374, R375). -/
def doneInsert (x : CtxCmd) (q : Req) (m : MapO) (s : State) : State :=
  let rs := insertRecs x.pay
  let frame := insertFrame q
  if frame = 1 && m.anchorBad then endCtx x stIntegrity 0 0 none (anchorMet m.slot s) else
  if (batchReads rs).any m.poison.contains then endCtx x stMedia 0 0 none (mapPoisonMet m.slot s) else
  let a := applyRecs frame s.fresh m rs
  let s := { s with fresh := s.fresh + rs.length }
  if heldWrite m x a.shards then s else
  let (heap, slots) := mapShort m a
  if heap ≠ 0 ∨ slots ≠ 0 then endCtx x stMapFull (ceilDiv heap 1024) (sat16 slots) none s else
  finishWrite x a.shards a.applied (sat16 (rs.length - a.applied)) (a.results.flatMap fun i => leBytes 8 i.toNat)
    (updMap m.slot (fun _ => a.m) s)

/-- A MAP_DELETE in a context is applied (R377). -/
def doneDelete (x : CtxCmd) (q : Req) (m : MapO) (s : State) : State :=
  let is := cmdIds q x.pay 8 (fld q.param 0 4)
  let shards := shardsOf m is
  if heldWrite m x shards then s else
  let (m', d, n) := deleteObjs m is
  let s := raiseRetired m.slot (m'.retired - m.retired) (updMap m.slot (fun _ => m') s)
  finishWrite x shards d (sat16 n) [] s

/-- The bytes MAP_READ gives for one identifier (R402, Table 11.14). DEDUCED [95]. -/
def readCell (m : MapO) (frame : Nat) (i : W64) : List Byte :=
  match liveCell m i with
  | some x => cellImage i (if frame = 1 then { x with body := xfBody 1 m.anchor x.kind x.body } else x)
  | none => leBytes 8 i.toNat ++ zeros 8

/-- A MAP_READ in a context (R402). DEDUCED [95]. -/
def doneRead (x : CtxCmd) (q : Req) (m : MapO) (s : State) : State :=
  let is := cmdIds q x.pay 24 (fld q.param 12 4)
  if readFrame q = 1 && m.anchorBad then endCtx x stIntegrity 0 0 none (anchorMet m.slot s)
  else if (shardsOf m is).any (shardLost m) then endCtx x stState 0 0 none s
  else if is.any fun i => isLive m i && m.poison.contains (idSlot i) then endCtx x stMedia 0 0 none (mapPoisonMet m.slot s)
  else endCtx x stOk (is.filter (isLive m)).length 0 (some (is.flatMap (readCell m (readFrame q)))) s

/-- A MAP_TRAVERSE in a context (R376, R378). DEDUCED [94]. -/
def doneTraverse (x : CtxCmd) (q : Req) (m : MapO) (s : State) : State :=
  let p (o n : Nat) : Nat := fld q.param o n
  let starts := (List.range (x.pay.length / 8)).map fun i => idAt x.pay (8 * i)
  let (ns, dead, full) := traverse m starts (p 16 1) (p 17 1) (p 18 4) (p 12 4) s.fresh
  let s := { s with fresh := s.fresh + 1 }
  let live := ns.map (·.id)
  if (shardsOf m live).any (shardLost m) then endCtx x stState 0 0 none s
  else if live.any fun i => isLive m i && m.poison.contains (idSlot i) then endCtx x stMedia 0 0 none (mapPoisonMet m.slot s)
  else endCtx x (if full then stPartial else stOk) ns.length (sat16 dead) (some (ns.flatMap nodeBytes)) s

/-- A write admitted earlier on the same map is still to be applied (R374). -/
def writeBefore (x : CtxCmd) (s : State) : Bool :=
  s.map.ctx.any fun y => y.map == x.map && y.write && y.result.isNone && decide (y.order < x.order)

/-- MAP_COMMAND_DONE (R374, R375, R376, R402): a map command in a context ends on its engine.
 DEDUCED [93]. DESIGN CHOICE [273]. -/
def execMapCommandDone (r : ReqRef) (s : State) (bad : Option (Nat × Nat) := none) : Result :=
  .next (match s.map.ctx.find? fun x => x.req == r && x.engine.isSome && x.result.isNone with
    | none => s
    | some x =>
      if x.write && writeBefore x s then s else
      match findReq r s, getMap x.map s with
      | some q, some m => if bad.isSome then settle (endCtx x stMedia 0 0 none (contextMet (x.engine.getD 0) bad s)) else settle (match q.opcode with
        | 0x0702 => doneInsert x q m s
        | 0x0703 => doneDelete x q m s
        | 0x0704 => doneRead x q m s
        | _ => doneTraverse x q m s)
      | _, _ => s)

/-- A copy has applied a shard's writes up to a sequence number: the commands that waited for it
complete (R447). -/
def shardAcked (map sh member n : Nat) (s : State) : State :=
  let hit (a : Nat × Nat × Nat) : Bool := a.1 == sh && a.2.1 == member && decide (a.2.2 ≤ n)
  let s := { s with map.ctx := updIf (fun (x : CtxCmd) => x.map == map) (fun (x : CtxCmd) =>
      { x with acks := x.acks.filter fun a => !hit a }) s.map.ctx }
  (s.map.ctx.filter fun x => x.acks.isEmpty && x.result.isSome).foldl (fun s (x : CtxCmd) =>
    let (r0, r1) := x.result.getD (0, 0)
    endCtx x stOk r0 r1 (if x.data.isEmpty then none else some x.data) s) s

/-! ### Deadheading (R379) -/

def iMapDeadheadSet : CmdInfo :=
  { mapCmd 0x0706 100 5 with
    range := fun c _ => (decide (prm c 0 4 ≤ 100000000) || prm c 0 4 == 0xFFFFFFFF) && decide (prm c 4 1 ≤ 1) }

/-- MAP_DEADHEAD_SET (R379). -/
def bodyMapDeadheadSet : Body := fun c s => do
  let m ← mapArg c s
  let s := updMap m.slot (fun m => { m with
    rate := if prm c 0 4 = 0xFFFFFFFF then m.rate else prm c 0 4, indexes := prm c 4 1 == 1, dhAt := s.time.mono }) s
  .ok (s, okR m.removed 0)

def execMapDeadheadSet (r : ReqRef) (io : Io) (s : State) : Result := serve iMapDeadheadSet bodyMapDeadheadSet r io s

/-- A shard whose deadheading runs: not being repotted, and primary here (R379, R448). -/
def dhShard (m : MapO) (self sh : Nat) : Bool :=
  !(m.repot.any fun p => p.shard == sh) && (m.ens[sh]?).all fun e => e.primary == some self

/-- The next object of the pass: shard by shard, in slot order. -/
def dhNext (m : MapO) (self : Nat) : Option (Nat × Nat × MCell) :=
  let cand := m.slots.filterMap fun x => x.cell.bind fun c =>
    if dhShard m self c.shard && (decide (m.pos.1 < c.shard) || (m.pos.1 == c.shard && decide (m.pos.2 ≤ x.n)))
    then some (c.shard, x.n, c) else none
  cand.foldl (fun (b : Option (Nat × Nat × MCell)) (x : Nat × Nat × MCell) => match b with
    | none => some x
    | some y => if x.1 < y.1 ∨ (x.1 = y.1 ∧ x.2.1 < y.2.1) then some x else b) none

/-- The rate lets the pass examine `n` more now. -/
def dhMay (m : MapO) (n : Nat) (s : State) : Bool :=
  decide (0 < m.rate) && decide (n * secT ≤ (s.time.mono - m.dhAt) * m.rate)

/-- A dead entry becomes free (R379). -/
def freeDead (m : MapO) (b : Bucket) : Bucket × Nat :=
  let dead (e : IEntry) : Bool := e.id != 0 && !isLive m e.id
  ({ b with pages := b.pages.map (updIf dead fun e => { e with id := 0 }) }, (b.pages.flatten.filter dead).length)

/-- The index part of the pass: one bucket. DESIGN CHOICE [97]. -/
def dhIndex (m : MapO) (s : State) : State :=
  let go (p : Nat × Nat) (s : State) : State := updMap m.slot (fun m => { m with pos := p }) s
  match (s.map.idxs.filter fun x => x.map == m.slot)[m.pos.1 - 64]? with
  | none => go (0, 0) s
  | some x => match x.buckets[m.pos.2]? with
    | none => go (m.pos.1 + 1, 0) s
    | some b =>
      if !dhMay m b.pages.flatten.length s then s else
      let (b', n) := freeDead m b
      let upd (y : IdxO) : IdxO := { y with buckets := y.buckets.set m.pos.2 b', removed := y.removed + n }
      let s := { s with map.idxs := updIf (fun y => y.slot == x.slot) upd s.map.idxs }
      updMap m.slot (fun m => { m with pos := (m.pos.1, m.pos.2 + 1), dhAt := s.time.mono }) s

/-- DEADHEAD_PASS (R379): the pass examines the next object, or the next bucket of an index. DESIGN CHOICE [97]. -/
def execDeadheadPass (slot : Nat) (s : State) : Result :=
  ended (match getMap slot s with
    | none => s
    | some m =>
      if !ready s || m.rate == 0 || m.broken then s
      else if 64 ≤ m.pos.1 then dhIndex m s
      else match dhNext m (ownMember s) with
        | none => updMap slot (fun m => { m with pos := if m.indexes then (64, 0) else (0, 0) }) s
        | some (sh, n, c) =>
          if !dhMay m c.edges.length s then s else
          let dead := (c.edges.filter (deadHalf m)).length
          let upd (x : MSlot) : MSlot := { x with cell := x.cell.map (dropHalves (deadHalf m)) }
          updMap slot (fun m => { m with
            slots := updIf (fun x => x.n == n) upd m.slots, pos := (sh, n + 1)
            removed := m.removed + dead, dhAt := s.time.mono }) s)

/-! ### Repotting (R380 to R383) -/

def iMapRepot : CmdInfo :=
  { mapCmd 0x0707 600000 8 with
    range := fun c s =>
      decide (prm c 1 1 ≤ 1) && (if prm c 1 1 = 1 then decide (prm c 2 1 ≤ 7) else prm c 2 1 == 0)
        && (prm c 4 4 == 0 || inR 100 (prm c 4 4) 50000)
        && (getMap (objSlot c) s).all fun m => decide (prm c 0 1 < shardCount m) }

/-- Repottings that run in the device (R380): a shard move of a re-sharding is one. -/
def repottings (s : State) : Nat := (s.map.maps.filter fun m => m.repot.isSome).length

/-- What a shard's storage lacks on a target member (R452): its own free memory is known here, another
member's is not. [11] DESIGN CHOICE [103]. -/
def targetShort (target n : Nat) (s : State) : Nat × State :=
  if target = ownMember s then (n - stackedFree s, s)
  else let (x, s) := draw s; (x % (n + 1), s)

/-- Room on a target member (R452); whether another member lacks quota (0x005) or capacity (0x009) is not known here:
a free value. DESIGN CHOICE [278]. -/
def targetFits (short : Nat) (s : State) : Except Fail State := do
  let (x, s) := draw s
  fits (if x % 2 = 0 then 0x009 else 0x005) short
  pure s

/-- Starts a repotting of a shard: `BEGIN` is durable and copying begins (Table 11.6). DEDUCED [92]. DEDUCED [102]. -/
def startRepot (slot shard mode target pauseUs : Nat) (q : Req) (s : State) : State :=
  match getMap slot s with
  | none => s
  | some m =>
    let (op, s) := journalBegin 1 (reqRef q) q.opcode (handleOf 9 slot s) (shard + mode * 256 + target * 65536) s
    let p : Repot :=
      { req := some (reqRef q), shard, mode, target, pauseUs, step := 2, drainAt := 0, attempts := 0, flight := []
        op, bytes := shardBytes m shard }
    updMap slot (fun m => { m with repot := some p }) s

/-- MAP_REPOT (R380, R448, R452, R505). DEDUCED [102]. -/
def bodyMapRepot : Body := fun c s => do
  let m ← mapArg c s
  let sh := prm c 0 1
  let mode := prm c 1 1
  let t := prm c 2 1
  need m.repot.isNone (err stState)
  need (mode == 1 || decide (roundUp (shardBytes m sh) (2 ^ 20) ≤ heapFree m / 2 ^ 20 * 2 ^ 20)) (err stState)
  need (mode == 0 || (memberHere t s && keepsQuorum s && (m.ens[sh]?).all fun e => e.understudy != some t)) (err stState)
  need (!shardLost m sh) (err stState)
  need (decide (repottings s < 4)) (err stLimit)
  journalRoom s
  let (short, s) := if mode = 1 then targetShort t (shardBytes m sh) s else (0, s)
  let s ← targetFits short s
  .ok (startRepot m.slot sh mode t (if prm c 4 4 = 0 then 5000 else prm c 4 4) c.q s, .wait)

def execMapRepot (r : ReqRef) (io : Io) (s : State) : Result := serve iMapRepot bodyMapRepot r io s

/-- REPOT_COPY_DONE (R380, R381): the copy ends, its progress is journalled, and the drain begins: new writes
to the shard are held. -/
def execRepotCopyDone (slot : Nat) (s : State) : Result :=
  ended (match getMap slot s with
    | none => s
    | some m => match m.repot with
      | none => s
      | some p =>
        if p.step ≠ 2 then s else
        let s := journalProgress p.op 65536 m.slots.length s
        let flight := (s.map.ctx.filter fun x => x.map == slot && x.write && x.engine.isSome && x.result.isNone).map (·.order)
        let upd (p : Repot) : Repot := { p with step := 3, drainAt := s.time.mono, flight }
        updMap slot (fun m => { m with repot := m.repot.map upd }) s)

/-- The shard is served from its new place (step 4 of Table 11.6); a move makes the target its primary (R448). -/
def commitRepot (slot : Nat) (p : Repot) (s : State) : State :=
  let s := journalStep p.op 3 0 s
  let under (m : MapO) (e : EShard) : Option Nat :=
    if p.mode = 2 then m.resharding.bind fun x => (x.2.1[p.shard]?).map (·.2) else e.understudy
  let moved (m : MapO) : MapO := if p.mode = 0 then m else
    { m with ens := (localShards m (ownMember s)).modify p.shard fun e => { e with primary := some p.target, understudy := under m e } }
  let s := updMap slot (fun m => moved { m with repot := some { p with step := 5 } }) s
  let s := raise 0x0701 (p.shard + (p.attempts + 1) * 256) (some (9, slot)) s
  if p.mode ≠ 0 then
    match s.ens.ens with
    | some e => raise 0x0A04 (p.shard + p.target * 256) (some (12, e.slot)) s
    | none => s
  else s

/-- Step 5 of Table 11.6: the old storage is freed, `END` is journalled, the completion is posted. -/
def releaseRepot (slot : Nat) (p : Repot) (outcome : Nat) (s : State) : State :=
  endRepot slot stOk (ceilDiv p.bytes 4096) outcome s

/-- A repotting whose command a reset has taken away (R506). -/
def replayed (slot : Nat) (p : Repot) (s : State) : Bool :=
  if p.mode = 2 then ((getMap slot s).bind (·.resharding)).isNone else p.req.isNone

/-- REPOT_COMMIT (R381, R382): with the writes in flight complete and within `PAUSE_US`, `COMMIT` becomes
durable, and the old storage is released with it. A repotting that stands past its `COMMIT` (after a reset)
releases its old storage. DESIGN CHOICE [98]. -/
def execRepotCommit (slot : Nat) (s : State) : Result :=
  .next (match (getMap slot s).bind (·.repot) with
    | none => s
    | some p =>
      if p.step = 5 then settle (releaseRepot slot p (if replayed slot p s then 1 else 0) s)
      else if p.step ≠ 3 ∨ s.time.mono > p.drainAt + p.pauseUs * usT then s
      else if s.map.ctx.any fun x => p.flight.contains x.order && x.result.isNone then s
      else
        -- whether a reset may yet fall between the two steps is open: [11]
        let (x, s) := draw s
        let s := commitRepot slot p s
        settle (if x % 2 = 0 then releaseRepot slot p 0 s else s))

/-- REPOT_PAUSE_EXPIRY (R381): the held writes go to the old copy and the copy is made again; after the
eighth failed attempt the repotting rolls back. -/
def execRepotPauseExpiry (slot : Nat) (s : State) : Result :=
  .next (match (getMap slot s).bind (·.repot) with
    | none => s
    | some p =>
      if p.step ≠ 3 ∨ s.time.mono < p.drainAt + p.pauseUs * usT then s
      else if 8 ≤ p.attempts + 1 then settle (rollBack slot stTimeout s)
      else
        let upd (p : Repot) : Repot := { p with step := 2, attempts := p.attempts + 1, flight := [] }
        updMap slot (fun m => { m with repot := m.repot.map upd }) s)

/-! ### Checkpoints (R385, R386) -/

/-- The step 4 check of the allocation that a checkpoint command names. -/
def ckptHands (c : Ctx) (s : State) : Except Fail Unit := (lookupHandle [13] c.fn false (prm c 0 8) s).map fun _ => ()

/-- The allocation a checkpoint command names: stacked, neither compressed nor critical (R385). -/
def ckptAlloc (c : Ctx) (s : State) : Except Fail Alloc :=
  match getAlloc (prm c 0 8 % 2 ^ 32) s with
  | none => .error (err stState)
  | some a => if a.tierStacked && !a.compress && !a.critical then .ok a else .error (err stState)

def iMapCheckpoint : CmdInfo :=
  { mapCmd 0x0708 60000 16 with
    hands := ckptHands
    range := fun c s => prm c 8 8 % 4096 == 0 && (getAlloc (prm c 0 8 % 2 ^ 32) s).all fun a => decide (prm c 8 8 ≤ a.size) }

/-- The header of an image (Table 11.7) with a digest. DESIGN CHOICE [100]. -/
def imageHeader (m : MapO) (len : Nat) (digest : List Byte) (s : State) : List Byte :=
  leBytes 4 0x4D415031 ++ leBytes 2 1 ++ zeros 2 ++ leBytes 8 len ++ timeWord (stampNow 0 s) ++ digest ++ m.desc ++ zeros 32

/-- MAP_CHECKPOINT (R385, R448, R450). The image after its header is no user interface: free bytes, which
stand for the map as it is. [11] DESIGN CHOICE [100]. -/
def bodyMapCheckpoint : Body := fun c s => do
  let m ← mapArg c s
  let a ← ckptAlloc c s
  need (!m.ens.any (·.lost)) (err stState)
  need m.poison.isEmpty { err stMedia with fx := mapPoisonMet m.slot }
  let len := 256 + liveBytes m
  let off := prm c 8 8
  fits 0x00C (len - (a.size - off))
  let (rest, s) := drawBytes (len - 256) s
  let digest := Config.sha3 (imageHeader m len (zeros 64) s ++ rest)
  let image := imageHeader m len digest s ++ rest
  let s := updAlloc a.slot (Alloc.write off image) s
  let kept : Ckpt := { image, slots := m.slots, tombs := m.tombs, retired := m.retired }
  .ok ({ s with map.ckpts := kept :: s.map.ckpts }, okR (ceilDiv len 4096) 0)

def execMapCheckpoint (r : ReqRef) (io : Io) (s : State) : Result := serve iMapCheckpoint bodyMapCheckpoint r io s

/-- An image that MAP_RESTORE takes (R386). DEDUCED [101]. -/
def imageOk (b : List Byte) (room : Nat) : Bool :=
  let len := fld b 8 8
  fld b 0 4 == 0x4D415031 && fld b 4 2 == 1 && decide (256 ≤ len ∧ len ≤ room)
    && Config.sha3 (patch (b.take len) 32 (zeros 64)) == slice b 32 64

/-- The slots that an image of another device stands for: its content after the header is no user interface,
so they are free. [11] DESIGN CHOICE [100]. DESIGN CHOICE [115]. -/
def foreignSlots (image : List Byte) (slotsMax : Nat) : List MSlot :=
  let w (i : Nat) : Nat := Config.imageWord image i
  (List.range (w 0 % (slotsMax + 1))).map fun i =>
    let o := 1 + 2048 * i
    let kind := w (o + 1) % 6
    let cell : MCell :=
      { kind, shard := w (o + 2) % 64, body := (List.range (bodySize kind)).map fun k => BitVec.ofNat 8 (w (o + 8 + k))
        blocks := [], obs := w (o + 3) % 2 ^ 32 }
    { n := i, gen := w o % 0xFFFE + 1, cell := if kind = 0 then none else some cell
      retired := kind == 0 && w (o + 4) % 2 == 1, tomb := w (o + 5) }

/-- The slots of an image: those of the map it was written from (R386). -/
def imageSlots (image : List Byte) (slotsMax : Nat) (s : State) : List MSlot × Nat × Nat :=
  match s.map.ckpts.find? fun k => k.image == image with
  | some k => (k.slots, k.tombs, k.retired)
  | none =>
    let l := foreignSlots image slotsMax
    (l, l.foldl (fun n x => max n x.tomb) 0, (l.filter (·.retired)).length)

def iMapRestore : CmdInfo :=
  { opcode := 0x0709, handle := .obj [1], inline := 16, dl := dlMs 60000, hands := ckptHands
    range := fun c s => (getAlloc (prm c 0 8 % 2 ^ 32) s).all fun a => decide (prm c 8 8 ≤ a.size) }

/-- MAP_RESTORE (R386). DEDUCED [101]. -/
def bodyMapRestore : Body := fun c s => do
  let some a := getAlloc (prm c 0 8 % 2 ^ 32) s | .error (err stState)
  let off := prm c 8 8
  let b ← allocRead a.slot off (a.size - off) s
  need (imageOk b (a.size - off) && mapDescOk (slice b 96 128)) (err stMapImage)
  let desc := slice b 96 128
  mapFit c.fn (mapBytes desc) s
  let m := newMap 0 desc s
  let (slots, tombs, retired) := imageSlots (b.take (fld b 8 8)) m.slotsMax s
  .ok (addMap c { m with slots, tombs, retired } (mapBytes desc) s)

def execMapRestore (r : ReqRef) (io : Io) (s : State) : Result := serve iMapRestore bodyMapRestore r io s

end Sys2Proof.Machine
end

