-- ==== Sys2Proof/Machine/Search.lean ====
section
/-! DEFINITION. Descriptor indexes, query batches and index rebuilds (spec/11, R387 to R403). -/
namespace Sys2Proof.Machine

def stIndexFull : Nat := 0x8801

def getIdx (slot : Nat) (s : State) : Option IdxO := s.map.idxs.find? fun x => x.slot == slot

def updIdx (slot : Nat) (f : IdxO → IdxO) (s : State) : State :=
  { s with map.idxs := updIf (fun x => x.slot == slot) f s.map.idxs }

/-! ### Keys, pages and entries (R388, R390, Tables 11.8, 11.9) -/

/-- Bit i of a code: bit (i mod 8) of byte floor(i/8) (R388). -/
def codeBit (code : List Byte) (i : Nat) : Bool := ((code[i / 8]?).getD 0).toNat.testBit (i % 8)

/-- The key of a code in a table: the selected bits, the first listed becoming bit 0 (R388). -/
def keyOf (sel : List Nat) (code : List Byte) : Nat :=
  (sel.zipIdx.map fun (p, i) => if codeBit code p then 2 ^ i else 0).sum

/-- Entries in use, over all tables. -/
def entriesOf (x : IdxO) : Nat := (x.buckets.map fun b => (b.pages.flatten.filter fun e => e.id != 0).length).sum

/-- Pages in use. -/
def pagesUsed (x : IdxO) : Nat := (x.buckets.map fun b => b.pages.length).sum

/-- The chain of a bucket. -/
def chain (x : IdxO) (t n : Nat) : List (List IEntry) :=
  (x.buckets.find? fun b => b.table == t && b.n == n).elim [] (·.pages)

/-- An entry joins the first free place of a chain; a full chain gets a page (R390). -/
def placeEntry (e : IEntry) : List (List IEntry) → List (List IEntry)
  | [] => [[e]]
  | p :: ps => match p.findIdx? fun y => y.id == 0 with
    | some i => p.set i e :: ps
    | none => if p.length < 85 then (p ++ [e]) :: ps else p :: placeEntry e ps

/-- Changes a bucket's chain, making the bucket where it is new. -/
def updBucket (t n : Nat) (f : List (List IEntry) → List (List IEntry)) (bs : List Bucket) : List Bucket :=
  if bs.any fun b => b.table == t && b.n == n then
    updIf (fun b => b.table == t && b.n == n) (fun b => { b with pages := f b.pages }) bs
  else bs ++ [{ table := t, n, pages := f [] }]

/-- Places an item in every table (R390). -/
def insertItem (x : IdxO) (e : IEntry) : IdxO :=
  { x with buckets := x.sels.zipIdx.foldl (fun bs (y : List Nat × Nat) =>
      updBucket y.2 (keyOf y.1 e.code) (placeEntry e) bs) x.buckets }

/-- Frees the entries that hold an item's identifier in the bucket of its code, in each table (R391). -/
def deleteItem (x : IdxO) (e : IEntry) : IdxO :=
  let free (p : List IEntry) : List IEntry := updIf (fun y => y.id == e.id && y.id != 0) (fun y => { y with id := 0 }) p
  { x with buckets := x.sels.zipIdx.foldl (fun bs (y : List Nat × Nat) =>
      updIf (fun b => b.table == y.2 && b.n == keyOf y.1 e.code) (fun b => { b with pages := b.pages.map free }) bs) x.buckets }

/-- The items of a payload (Table 11.9). -/
def itemsOf (b : List Byte) : List IEntry :=
  (records 48 b).map fun r => { code := r.take 32, attr := idAt r 32, id := idAt r 40 }

/-! ### IDX_CREATE, IDX_DESTROY -/

/-- A key selection: positions that differ, then zeros (R388, R403). -/
def selOk (keyBits : Nat) (b : List Byte) : Bool :=
  let ps := (b.take keyBits).map (·.toNat)
  ps.eraseDups.length == ps.length && zeroIn b keyBits (32 - keyBits)

/-- The key selections at an offset of a payload. -/
def selsAt (b : List Byte) (off tables keyBits : Nat) : List (List Nat) :=
  (List.range tables).map fun t => ((slice b (off + 32 * t) 32).take keyBits).map (·.toNat)

def selsOk (b : List Byte) (off tables keyBits : Nat) : Bool :=
  (List.range tables).all fun t => selOk keyBits (slice b (off + 32 * t) 32)

/-- Stacked memory of an index (R389). -/
def idxBytes (tables keyBits pages kind : Nat) : Nat :=
  4096 * pages + 8 * 2 ^ keyBits * tables + (if kind = 1 then 2097152 else 0)

def iIdxCreate : CmdInfo :=
  { opcode := 0x0800, handle := .obj [1], inline := 0, dl := dlMs 1000, pay := .required
    range := fun c _ => decide (64 ≤ c.plen) }

/-- The descriptor of an index in range, and a payload of its length (Table 11.15, R388, R403). -/
def idxDescOk (b : List Byte) (plen : Nat) : Bool :=
  let tables := fld b 8 1
  let kb := fld b 10 1
  inR 1 tables 32 && decide (fld b 9 1 ≤ 1) && inR 8 kb 24 && zeroIn b 11 1 && inR 1 (fld b 12 4) 33554432
    && zeroIn b 16 48 && plen == 64 + 32 * tables + (if fld b 9 1 = 1 then 2097152 else 0) && selsOk b 64 tables kb

/-- IDX_CREATE (R387 to R389). -/
def bodyIdxCreate : Body := fun c s => do
  let b := c.pay
  need (idxDescOk b c.plen) (err stRange)
  let o ← lookupHandle [9] c.fn false (fld b 0 8) s
  need ((getMap o.slot s).any fun m => !m.broken) (err stIntegrity)
  let (tables, kind, kb, pages) := (fld b 8 1, fld b 9 1, fld b 10 1, fld b 12 4)
  let n := idxBytes tables kb pages kind
  quotaPair c.fn 1 n s
  limitCheck 10 s
  fitsQuota c.fn 1 n s
  fits 0x009 (n - stackedFree s)
  let (slot, g, s) := newObj 10 (2 ^ 32) c.fn c.sess [(9, o.slot)] false 0 n s
  let x : IdxO :=
    { slot, map := o.slot, tables, kind, keyBits := kb, pages, sels := selsAt b 64 tables kb
      dist := if kind = 1 then b.drop (64 + 32 * tables) else [], buckets := [], removed := 0, queries := 0, stale := 0
      rebuild := none, broken := false, poison := [] }
  .ok ({ charge c.fn 1 n s with map.idxs := s.map.idxs ++ [x] }, okR slot g)

def execIdxCreate (r : ReqRef) (io : Io) (s : State) : Result := serve iIdxCreate bodyIdxCreate r io s

/-- A command on an index. -/
def idxCmd (opcode ms inline : Nat) : CmdInfo := { opcode, handle := .obj [10], inline, dl := dlMs ms }

/-- The index a command names, and its map: both usable (R506), with quorum for an ensemble map (R440). -/
def idxArgOf (slot : Nat) (s : State) : Except Fail (IdxO × MapO) :=
  match getIdx slot s with
  | none => .error (err stState)
  | some x => match getMap x.map s with
    | none => .error (err stState)
    | some m =>
      if x.broken || m.broken then .error (err stIntegrity)
      else if !m.ens.isEmpty && !keepsQuorum s then .error (err stState)
      else .ok (x, m)

/-- Items of an index: its entries over its tables. DEDUCED [104]. -/
def itemCount (x : IdxO) : Nat := entriesOf x / max 1 x.tables

/-- Ends an index rebuild: its second pool is given back, its journal ends, event 0x0801 (R401). -/
def endRebuild (slot st r0 outcome : Nat) (s : State) : State :=
  match getIdx slot s with
  | none => s
  | some x => match x.rebuild with
    | none => s
    | some p =>
      let s := journalStep p.op 4 0 s
      let s := updIdx slot (fun x => { x with rebuild := none }) s
      let s := recharge 10 slot 0 (idxBytes x.tables x.keyBits x.pages x.kind) s
      let s := raise 0x0801 outcome (some (10, slot)) s
      match p.req with
      | some r => postRef r st r0 outcome none s
      | none => repost p.op st r0 outcome s

/-- A request ends its rebuild before its time (R78, R97, R401), as R382 has a repotting. DEDUCED [270]. -/
def stopRebuild (x : IdxO) (st : Nat) (s : State) : State :=
  if !x.rebuild.any (·.committed) then endRebuild x.slot st 0 2 s
  else if st = stTimeout then s else endRebuild x.slot st (itemCount x % 2 ^ 32) 0 s

def iIdxDestroy : CmdInfo := idxCmd 0x0801 10000 0

/-- IDX_DESTROY (R403, R77, R78): a rebuild that runs is rolled back as R384 does a repotting. -/
def bodyIdxDestroy : Body := fun c s => do
  let (s, d) ← releaseBody c s
  .ok (endRebuild (objSlot c) stAborted 0 2 s, d)

def execIdxDestroy (r : ReqRef) (io : Io) (s : State) : Result := serve iIdxDestroy bodyIdxDestroy r io s

/-! ### IDX_INSERT, IDX_DELETE -/

/-- A payload of items. -/
def itemRange (c : Ctx) : Bool := c.plen % 48 == 0 && inR 1 (c.plen / 48) 1048576

def iIdxInsert : CmdInfo := { idxCmd 0x0802 100 0 with pay := .required, range := fun c _ => itemRange c }

/-- Entries in use over all indexes of the device (R389, R453). -/
def allEntries (s : State) : Nat := (s.map.idxs.map entriesOf).sum

/-- Changes the present layout of an index; a rebuild in progress takes the items over at its commit, so
that they stand in both layouts (R401). -/
def withItems (x : IdxO) (f : IdxO → IEntry → IdxO) (es : List IEntry) : IdxO := es.foldl f x

/-- What a poisoned index page leaves (R409, R427). -/
def idxPoisonMet (slot : Nat) (s : State) : State := objectPoison 10 slot 1 s

/-- An item lies in a bucket with a poisoned page, which its insertion or deletion reads (R411). -/
def meetsPoison (x : IdxO) (es : List IEntry) : Bool :=
  es.any fun e => x.sels.zipIdx.any fun (sel, t) => x.poison.contains (t, keyOf sel e.code)

/-- A command on items that meets no poisoned page. -/
def itemsRead (x : IdxO) (es : List IEntry) : Except Fail Unit :=
  need (!meetsPoison x es) { err stMedia with fx := idxPoisonMet x.slot }

/-- IDX_INSERT (R389, R390). DEDUCED [110]. -/
def bodyIdxInsert : Body := fun c s => do
  let (x, m) ← idxArgOf (objSlot c) s
  let es := itemsOf c.pay
  let good := es.filter fun e => isLive m e.id
  need (decide (allEntries s + good.length * x.tables ≤ 2147483648)) (err stLimit)
  itemsRead x good
  let x' := withItems x insertItem good
  need (decide (pagesUsed x' ≤ x.pages)) { st := stIndexFull, r0 := pagesUsed x' - x.pages, r1 := 0 }
  .ok (updIdx x.slot (fun _ => x') s, okR good.length (sat16 (es.length - good.length)))

def execIdxInsert (r : ReqRef) (io : Io) (s : State) : Result := serve iIdxInsert bodyIdxInsert r io s

def iIdxDelete : CmdInfo := { idxCmd 0x0803 100 0 with pay := .required, range := fun c _ => itemRange c }

/-- IDX_DELETE (R391). DEDUCED [110]. -/
def bodyIdxDelete : Body := fun c s => do
  let (x, _) ← idxArgOf (objSlot c) s
  itemsRead x (itemsOf c.pay)
  let x' := withItems x deleteItem (itemsOf c.pay)
  .ok (updIdx x.slot (fun _ => x') s, okR (entriesOf x - entriesOf x') 0)

def execIdxDelete (r : ReqRef) (io : Io) (s : State) : Result := serve iIdxDelete bodyIdxDelete r io s

/-! ### IDX_REBUILD (R401) -/

/-- `NEW_KEYS`. -/
def newKeys (c : Ctx) : Bool := prm c 0 1 == 1

def iIdxRebuild : CmdInfo :=
  { idxCmd 0x0804 600000 1 with
    pay := .optional
    range := fun c s => decide (prm c 0 1 ≤ 1)
      && (!newKeys c || ((c.q.pref || c.q.cbdata) && (getIdx (objSlot c) s).all fun x => c.plen == 32 * x.tables)) }

/-- IDX_REBUILD (R401, R505). -/
def bodyIdxRebuild : Body := fun c s => do
  need ((getIdx (objSlot c) s).all fun x => !newKeys c || selsOk c.pay 0 x.tables x.keyBits) (err stRange)
  let (x, _) ← idxArgOf (objSlot c) s
  need x.rebuild.isNone (err stState)
  let n := 4096 * x.pages
  quotaPair c.fn 1 n s
  journalRoom s
  fitsQuota c.fn 1 n s
  fits 0x009 (n - stackedFree s)
  let (op, s) := journalBegin 2 (reqRef c.q) c.q.opcode (handleOf 10 x.slot s) 0 s
  let p : Rebuild :=
    { req := some (reqRef c.q), sels := if newKeys c then selsAt c.pay 0 x.tables x.keyBits else x.sels, op, committed := false }
  let s := updIdx x.slot (fun x => { x with rebuild := some p }) s
  .ok (recharge 10 x.slot 0 (idxBytes x.tables x.keyBits x.pages x.kind + n) s, .wait)

def execIdxRebuild (r : ReqRef) (io : Io) (s : State) : Result := serve iIdxRebuild bodyIdxRebuild r io s

/-- The index laid out again: each table's live entries in fresh pages, under the new keys. DEDUCED [109]. -/
def rebuilt (m : MapO) (sels : List (List Nat)) (x : IdxO) : IdxO :=
  let es (t : Nat) : List IEntry :=
    ((x.buckets.filter fun b => b.table == t).flatMap fun b => b.pages.flatten).filter fun e => isLive m e.id
  let add (bs : List Bucket) (y : List Nat × Nat) : List Bucket :=
    (es y.2).foldl (fun bs e => updBucket y.2 (keyOf y.1 e.code) (placeEntry e) bs) bs
  { x with sels, buckets := sels.zipIdx.foldl add [] }

/-- IDX_REBUILD_DONE (R401): the progress and `COMMIT` are journalled, the new layout serves, and the old pool
is given back with `END`; a rebuild that stands past its `COMMIT` (after a reset) gives it back.
 DESIGN CHOICE [98]. DEDUCED [109]. -/
def execIdxRebuildDone (slot : Nat) (s : State) : Result :=
  .next (match idxArgOf slot s with
    | .error _ => s
    | .ok (x, m) => match x.rebuild with
      | none => s
      | some p =>
        if p.committed then settle (endRebuild slot stOk (itemCount x % 2 ^ 32) (if p.req.isNone then 1 else 0) s) else
        if !x.poison.isEmpty then settle (endRebuild slot stMedia 0 2 (idxPoisonMet slot s)) else
        let x' := rebuilt m p.sels x
        let s := journalProgress p.op 1048576 (itemCount x) s
        if x.pages < pagesUsed x' then settle (endRebuild slot stIndexFull (pagesUsed x' - x.pages) 2 s) else
        let s := journalStep p.op 3 (itemCount x) s
        let s := updIdx slot (fun _ => { x' with rebuild := some { p with committed := true } }) s
        -- whether a reset may yet fall between the two steps is open: [11]
        let (d, s) := draw s
        settle (if d % 2 = 0 then endRebuild slot stOk (itemCount x' % 2 ^ 32) 0 s else s))

/-! ### Query batches (R392 to R400, R454) -/

/-- Range checks of a query record (Table 11.10). -/
def queryOk (b : List Byte) : Bool :=
  let terms := fld b 35 1
  inR 1 (fld b 32 1) 64 && inR (fld b 32 1) (fld b 33 1) 64 && decide (fld b 34 1 < 4) && decide (terms ≤ 4)
    && (decide (fld b 36 2 ≤ 8160) || fld b 36 2 == 0xFFFF) && zeroIn b 38 2
    && (List.range 4).all (fun i => if i < terms then inR 1 (fld b (40 + i) 1) 4 else fld b (40 + i) 1 == 0)
    && zeroIn b 44 4 && zeroIn b 112 16

/-- A query record. -/
def parseQuery (b : List Byte) : Query :=
  { code := b.take 32, probes := fld b 32 1, limit := fld b 33 1, widen := (fld b 34 1).testBit 0
    any := (fld b 34 1).testBit 1, maxDist := fld b 36 2
    terms := (List.range (fld b 35 1)).map fun i => (fld b (40 + i) 1, idAt b (48 + 16 * i), idAt b (56 + 16 * i))
    engine := none, done := false, status := stOk, found := [], made := 0, stale := 0, scanned := 0, excluded := 0
    widened := false, answers := [] }

/-- The members that hold a primary shard of the map: each answers a query (R454). -/
def shardHolders (m : MapO) (s : State) : List Nat :=
  if m.ens.isEmpty then [ownMember s] else (m.ens.filterMap fun e => if e.lost then none else e.primary).eraseDups

def iSrchBatch : CmdInfo :=
  { opcode := 0x0805, handle := .obj [1], inline := 24, dl := dlMs 100, pay := .required, doms := fun _ s => searchDoms s
    hands := fun c s => (lookupHandle [10] c.fn false (prm c 16 8) s).map fun _ => ()
    range := fun c _ => inR 1 (prm c 12 4) 65536 && c.plen == 16 + 128 * prm c 12 4 }

/-- SRCH_BATCH (R86, R397, R403, Table 11.10). DEDUCED [107]. -/
def bodySrchBatch : Body := fun c s => do
  let n := prm c 12 4
  let k := fld c.pay 0 2
  need (inR 1 k 256 && zeroIn c.pay 2 14) (err stRange)
  resCheck (64 + n * (16 + 16 * k)) c.q
  let rs := (List.range n).map fun i => slice c.pay (16 + 128 * i) 128
  need (rs.all queryOk) (err stRange)
  let (x, m) ← idxArgOf (prm c 16 8 % 2 ^ 32) s
  limitCheck 11 s
  let (slot, _, s) := newObj 11 (2 ^ 32) c.fn c.sess [(10, x.slot)] false 0 0 s
  let b : BatchO :=
    { slot, req := reqRef c.q, idx := x.slot, k, dl := c.q.dl.getD s.time.mono, order := s.map.nextOrder
      at' := s.time.mono, queries := rs.map parseQuery }
  let s := { s with map := { s.map with batches := s.map.batches ++ [b], nextOrder := s.map.nextOrder + 1 } }
  .ok ((shardHolders m s).foldl (fun s k => if k = ownMember s then s else sendTo k "QUERY" s) s, .wait)

def execSrchBatch (r : ReqRef) (io : Io) (s : State) : Result := serve iSrchBatch bodySrchBatch r io s

def getBatch (slot : Nat) (s : State) : Option BatchO := s.map.batches.find? fun b => b.slot == slot

def updBatch (slot : Nat) (f : BatchO → BatchO) (s : State) : State :=
  { s with map.batches := updIf (fun b => b.slot == slot) f s.map.batches }

/-- Changes one query of a batch. -/
def updQuery (slot i : Nat) (f : Query → Query) (s : State) : State :=
  updBatch slot (fun b => { b with queries := b.queries.modify i f }) s

/-! ### QUERY_START (R397) -/

/-- An engine in service: its group answers, and neither is fenced. -/
def engineUp (e : Nat) (s : State) : Bool :=
  let d := getDom (84 + e / 4) s
  decide (e < 16) && domOn (84 + e / 4) s && d.test != 2 && !d.fenced.testBit (e % 4)

/-- Contexts in use on an engine: a query holds its one until its delivery. -/
def contextsUsed (e : Nat) (s : State) : Nat :=
  (s.map.ctx.filter fun x => x.engine == some e).length
    + (s.map.batches.map fun b => (b.queries.filter fun q => q.engine == some e && !q.done).length).sum

/-- What waits first for a context: deadline, admission, and the query's number (R397). -/
def firstWaiting (s : State) : Option ((Nat × Nat) × Option (Nat × Nat)) :=
  let cmds := (s.map.ctx.filter fun x => x.engine.isNone && x.result.isNone).map fun x => ((x.dl, x.order), none)
  let qs := s.map.batches.filterMap fun b =>
    (b.queries.findIdx? fun q => q.engine.isNone && !q.done).map fun i => ((b.dl, b.order), some (b.slot, i))
  (cmds ++ qs).foldl (fun (best : Option ((Nat × Nat) × Option (Nat × Nat))) x => match best with
    | none => some x
    | some y => if x.1.1 < y.1.1 ∨ (x.1.1 = y.1.1 ∧ x.1.2 < y.1.2) then some x else best) none

/-- QUERY_START (R397): the first query or map command that waits takes a context of an engine in service. -/
def execQueryStart (engine : Nat) (s : State) : Result :=
  .next (if !ready s || !engineUp engine s || decide (256 ≤ contextsUsed engine s) then s else
    match firstWaiting s with
    | none => s
    | some ((_, order), none) =>
      { s with map.ctx := updIf (fun x => x.order == order) (fun (x : CtxCmd) => { x with engine := some engine }) s.map.ctx }
    | some (_, some (slot, i)) => updQuery slot i (fun q => { q with engine := some engine }) s)

/-! ### Probing, filtering, keeping (R387, R392 to R395) -/

/-- The numbers of bits that differ in two bytes. -/
def byteDiff (a b : Byte) : Nat := ((List.range 8).filter fun i => (a ^^^ b).toNat.testBit i).length

/-- The distance of two codes (R387). -/
def distance (x : IdxO) (a b : List Byte) : Nat :=
  ((a.zip b).zipIdx.map fun ((p, q), i) =>
    if x.kind = 0 then byteDiff p q else ((x.dist[65536 * i + 256 * p.toNat + q.toNat]?).getD 0).toNat).sum

/-- The key changes of a probe sequence: none, each bit, each two, each three, in listed order (R392). With
8 key bits or more, 93 steps at least, beyond the 64 that a query makes. -/
def probeMasks (keyBits : Nat) : List Nat :=
  let ns := List.range keyBits
  let two := ns.flatMap fun i => (ns.filter fun j => decide (i < j)).map fun j => 2 ^ i + 2 ^ j
  let three := ns.flatMap fun i => (ns.filter fun j => decide (i < j)).flatMap fun j =>
    (ns.filter fun k => decide (j < k)).map fun k => 2 ^ i + 2 ^ j + 2 ^ k
  0 :: ns.map (2 ^ ·) ++ two ++ three

/-- Table and bucket of probe j (R392). -/
def probeAt (x : IdxO) (code : List Byte) (masks : List Nat) (j : Nat) : Nat × Nat :=
  let t := j % max 1 x.tables
  (t, (keyOf ((x.sels[t]?).getD []) code) ^^^ natAt masks (j / max 1 x.tables))

/-- A term of the filter holds (R393). -/
def termHolds (attr : W64) (t : Nat × W64 × W64) : Bool :=
  let v := attr &&& t.2.1
  match t.1 with
  | 1 => v == t.2.2
  | 2 => v != t.2.2
  | 3 => decide (v.toNat ≤ t.2.2.toNat)
  | _ => decide (t.2.2.toNat ≤ v.toNat)

/-- A candidate passes (R393). -/
def passes (q : Query) (e : IEntry) (d : Nat) : Bool :=
  (q.maxDist == 0xFFFF || decide (d ≤ q.maxDist))
    && (q.terms.isEmpty || (if q.any then q.terms.any (termHolds e.attr) else q.terms.all (termHolds e.attr)))

/-- R394's order: distance, then identifier. -/
def nearer (a b : Nat × W64) : Bool := decide (a.1 < b.1) || (a.1 == b.1 && decide (a.2.toNat < b.2.toNat))

/-- A candidate in its place. DEDUCED [106]. -/
def insertCand (c : Nat × W64) : List (Nat × W64) → List (Nat × W64)
  | [] => [c]
  | d :: ds => if nearer c d then c :: d :: ds else d :: insertCand c ds

/-- A passing candidate is kept once, at its smallest distance (R394). DEDUCED [106]. -/
def keep (kept : List (Nat × W64)) (c : Nat × W64) : List (Nat × W64) :=
  match kept.find? fun d => d.2 == c.2 with
  | none => insertCand c kept
  | some d => if c.1 < d.1 then insertCand c (kept.filter fun y => y.2 != c.2) else kept

/-- What a query's probes have found. -/
structure Scan where
  kept : List (Nat × W64)
  made : Nat
  scanned : Nat
  excluded : Nat
  bad : Bool           -- a probed bucket holds a poisoned word
deriving DecidableEq, Repr

/-- Entries that a member scans: its own, those of the shards it is primary of (R446, R454). -/
def ownEntry (m : MapO) (self : Nat) (e : IEntry) : Bool :=
  m.ens.isEmpty || (match liveCell m e.id with
    | some x => (m.ens[x.shard]?).any fun y => y.primary == some self && !y.lost
    | none => m.homeAt == self)

/-- One probe: its chain is scanned whole (R392, R393). DEDUCED [108]. -/
def probe (x : IdxO) (m : MapO) (self : Nat) (q : Query) (masks : List Nat) (a : Scan) (j : Nat) : Scan :=
  let (t, n) := probeAt x q.code masks j
  let es := (chain x t n).flatten.filter fun e => e.id != 0 && ownEntry m self e
  let cs := es.map fun e => (distance x q.code e.code, e)
  let good := cs.filter fun (d, e) => passes q e d
  { kept := good.foldl (fun k (c : Nat × IEntry) => keep k (c.1, c.2.id)) a.kept
    made := a.made + 1, scanned := a.scanned + es.length, excluded := a.excluded + (es.length - good.length)
    bad := a.bad || x.poison.contains (t, n) }

/-- Goes on probing while fewer than k pass (R396). -/
def widen (x : IdxO) (m : MapO) (self k : Nat) (q : Query) (masks : List Nat) : Nat → Scan → Scan
  | 0, a => a
  | n + 1, a => if k ≤ a.kept.length then a else widen x m self k q masks n (probe x m self q masks a a.made)

/-- All probes of a query on this device. DESIGN CHOICE [105]. -/
def scan (x : IdxO) (m : MapO) (self k : Nat) (q : Query) : Scan :=
  let masks := (probeMasks x.keyBits).take 65
  let a := (List.range q.probes).foldl (probe x m self q masks)
    { kept := [], made := 0, scanned := 0, excluded := 0, bad := false }
  if q.widen then widen x m self k q masks (q.limit - q.probes) a else a

/-! ### Delivering (R395, R396, R399, R454) -/

/-- A query's bytes of the result buffer (Table 11.11). DEDUCED [108]. -/
def queryBytes (k : Nat) (q : Query) : List Byte :=
  let rs := q.found.flatMap fun (d, i) => leBytes 8 i.toNat ++ leBytes 2 d ++ zeros 6
  let empty := (List.range (k - q.found.length)).flatMap fun _ => leBytes 8 emptyId.toNat ++ leBytes 2 0xFFFF ++ zeros 6
  leBytes 2 q.status ++ leBytes 2 q.found.length ++ leBytes 1 (min 255 q.made) ++ leBytes 1 (min 255 q.stale) ++ zeros 2
    ++ leBytes 4 q.scanned ++ leBytes 4 q.excluded ++ rs ++ empty

/-- The result buffer of a batch (Table 11.11). -/
def batchBytes (b : BatchO) (s : State) : List Byte :=
  let n (p : Query → Bool) : Nat := (b.queries.filter p).length
  leBytes 4 (n fun q => !isErr q.status) ++ leBytes 4 (n fun q => q.status == stPartial)
    ++ leBytes 4 (n fun q => q.status == stTimeout) ++ leBytes 4 (n (·.widened))
    ++ leBytes 8 (b.queries.map (·.scanned)).sum ++ leBytes 8 (usOf (s.time.mono - b.at')) ++ zeros 36
    |>.take 64 |> (· ++ b.queries.flatMap (queryBytes b.k))

/-- The status of a batch from its queries' (R19, R399). The error detected first is that of a query that
met bad data; time-outs come at the deadline. -/
def batchStatus' (b : BatchO) : Nat :=
  let errs := (b.queries.map (·.status)).filter isErr
  if errs.contains stMedia then stMedia
  else match errs with
    | e :: _ => e
    | [] => (b.queries.map (·.status)).foldl max stOk

/-- A batch whose queries have all been delivered completes and is released (R403). -/
def endBatch (slot : Nat) (s : State) : State :=
  match getBatch slot s with
  | none => s
  | some b =>
    if !b.queries.all (·.done) then s else
    match getObj 11 slot s with
    | none => s
    | some o => releaseObj o (postRef b.req (batchStatus' b) slot o.gen (some (batchBytes b s)) s)

/-- Delivers a query: its kept results, its status (R396, R450, R454). DEDUCED [120]. -/
def deliverQuery (slot i : Nat) (s : State) : State :=
  match getBatch slot s with
  | none => s
  | some b => match b.queries[i]?, getIdx b.idx s with
    | some q, some x =>
      let found := q.found.take b.k
      let lost := (getMap x.map s).any fun m => m.ens.any (·.lost)
      let st := if isErr q.status then q.status else if lost then stDegraded
        else if found.length < b.k then stPartial else stOk
      let s := updIdx x.slot (fun x => { x with queries := x.queries + 1, stale := x.stale + q.stale }) s
      let found := if isErr st then [] else found
      endBatch slot (updQuery slot i (fun q => { q with done := true, status := st, found }) s)
    | _, _ => s

/-- Takes one member's answer to a query; with the last one it is delivered (R454). DESIGN CHOICE [105]. -/
def answer (slot i member : Nat) (a : Scan) (stale : Nat) (s : State) : State :=
  match getBatch slot s with
  | none => s
  | some b => match b.queries[i]?, (getIdx b.idx s).bind fun x => getMap x.map s with
    | some q, some m =>
      if q.done || q.answers.contains member then s else
      let upd (q : Query) : Query := { q with
        found := (a.kept.foldl keep q.found).take b.k, made := q.made + a.made, stale := q.stale + stale
        scanned := q.scanned + a.scanned, excluded := q.excluded + a.excluded
        status := if a.bad then stMedia else q.status
        widened := q.widened || decide (q.probes < a.made), answers := q.answers ++ [member] }
      let s := updQuery slot i upd s
      if (shardHolders m s).all fun k => k == member || q.answers.contains k then deliverQuery slot i s else s
    | _, _ => s

/-- QUERY_COMPLETE (R392 to R396, R400): a query in a context has made its probes on this device; its kept
identifiers are checked against the slot table, and it is delivered once every shard-holding member has
answered. DESIGN CHOICE [105]. DESIGN CHOICE [273]. -/
def execQueryComplete (batch query : Nat) (s : State) (bad : Option (Nat × Nat) := none) : Result :=
  .next (match getBatch batch s with
    | none => s
    | some b => match b.queries[query]?, getIdx b.idx s, (getIdx b.idx s).bind fun x => getMap x.map s with
      | some q, some x, some m =>
        let self := ownMember s
        if q.engine.isNone || q.done || q.answers.contains self then s else
        let a := scan x m self b.k q
        let kept := a.kept.take b.k
        let good := kept.filter fun c => isLive m c.2
        let s := if a.bad then idxPoisonMet x.slot s else contextMet (q.engine.getD 0) bad s
        let a := { a with bad := a.bad || bad.isSome }
        settle (answer batch query self { a with kept := good } (kept.length - good.length) s)
      | _, _, _ => s)

/-- Ends every query of a batch that has not delivered (R399, R455). -/
def cutBatch (slot st : Nat) (s : State) : State :=
  let cut (q : Query) : Query := if q.done then q else { q with done := true, status := if isErr q.status then q.status else st, found := [] }
  endBatch slot (updBatch slot (fun b => { b with queries := b.queries.map cut }) s)

/-- SRCH_BATCH_DEADLINE (R399, R455). -/
def execSrchBatchDeadline (batch : Nat) (s : State) : Result :=
  .next (match getBatch batch s with
    | none => s
    | some b => if due b.dl s then settle (cutBatch batch stTimeout s) else s)

/-! ### IDX_QUERY -/

def iIdxQuery : CmdInfo := { idxCmd 0x0806 100 12 with res := resMin 64 }

/-- The statistics of an index (Table 11.15). DEDUCED [104]. DEDUCED [271]. -/
def idxRecord (x : IdxO) (m : MapO) (s : State) : List Byte :=
  leBytes 8 (itemCount x) ++ leBytes 8 (entriesOf x) ++ leBytes 4 (pagesUsed x) ++ leBytes 4 x.pages
    ++ leBytes 4 ((x.buckets.map fun b => b.pages.length).foldl max 0)
    ++ leBytes 4 (s.map.batches.filter fun b => b.idx == x.slot).length
    ++ leBytes 8 x.removed ++ leBytes 8 x.queries ++ leBytes 4 x.stale ++ leBytes 4 m.retired ++ zeros 8

/-- IDX_QUERY (R389, Table 11.15). -/
def bodyIdxQuery : Body := fun c s => do
  let (x, m) ← idxArgOf (objSlot c) s
  .ok (s, okD 0 0 (idxRecord x m s))

def execIdxQuery (r : ReqRef) (io : Io) (s : State) : Result := serve iIdxQuery bodyIdxQuery r io s

/-! ### Ending what a request runs -/

/-- Ends a map or search request before its time (R15, R78, R382, R384, R399): a command in a context
changes nothing more, a repotting or rebuild before its `COMMIT` rolls back, a batch ends its queries. -/
def cancelMap (q : Req) (st : Nat) (s : State) : State :=
  let r := reqRef q
  match s.map.ctx.find? fun x => x.req == r with
  | some x => endCtx x st 0 0 none s
  | none => match s.map.maps.find? fun m => m.repot.any fun p => p.req == some r with
    | some m => stopRepot m.slot st s
    | none => match s.map.idxs.find? fun x => x.rebuild.any fun p => p.req == some r with
      | some x => stopRebuild x st s
      | none => match s.map.batches.find? fun b => b.req == r with
        | some b => cutBatch b.slot st s
        | none => post q st 0 0 none s

end Sys2Proof.Machine
end

