-- ==== Sys2Proof/Machine/Ensembles.lean ====
section
/-! DEFINITION. Trellis links and ensembles (spec/13, R429 to R458). -/
namespace Sys2Proof.Machine

def stEnsMismatch : Nat := 0x8A01
def stNoQuorum : Nat := 0x8A02
def stMemberAbsent : Nat := 0x8A03

/-! ### The descriptor (Table 13.2) and the present set -/

def bitsIn (mask : Nat) : List Nat := (List.range 8).filter mask.testBit

def ensLossUs (e : Ens) : Nat := if fld e.desc 8 4 = 0 then 10000 else fld e.desc 8 4
def ensRekeyS (e : Ens) : Nat := if fld e.desc 16 4 = 0 then 3600 else fld e.desc 16 4
def ensHoldS (e : Ens) : Nat := fld e.desc 12 4
def ensTimeRef (e : Ens) : Nat := fld e.desc 7 1

/-- Range checks of a descriptor (Table 13.2, R433). -/
def ensDescOk (b : List Byte) : Bool :=
  let opt (o lo hi : Nat) : Bool := fld b o 4 == 0 || inR lo (fld b o 4) hi
  fld b 0 4 == 0x454E5331 && fld b 4 2 == 1 && fld b 6 1 != 0 && decide (fld b 7 1 < 8) && (fld b 6 1).testBit (fld b 7 1)
    && opt 8 1000 1000000 && decide (fld b 12 4 ≤ 86400) && opt 16 60 86400 && zeroIn b 20 44 && zeroIn b 576 64
    && (List.range 8).all (fun k => (fld b 6 1).testBit k || zeroIn b (64 + 64 * k) 64)

/-- The identity digest of a member (Table 13.2). -/
def memberDigest (b : List Byte) (k : Nat) : List Byte := slice b (64 + 64 * k) 64

/-- The ensemble identifier: bytes 0 to 7 of the descriptor's digest. -/
def ensIdOf (b : List Byte) : W64 := BitVec.ofNat 64 (unle ((Config.sha3 b).take 8))

def updEns (f : Ens → Ens) (s : State) : State := { s with ens.ens := s.ens.ens.map f }

/-- Raises an event of the ensemble object (Table 13.7). -/
def raiseEns (ev detail : Nat) (s : State) : State :=
  raise ev detail (s.ens.ens.map fun e => (12, e.slot)) s

/-- The time reference of a present set (R443, R445): the named member while it is present. When it returns
the acting reference goes on until the next agreement; on the returning member, until it has locked. -/
def nextRef (e : Ens) (present self : Nat) (locked : Bool) : Nat :=
  let named := ensTimeRef e
  if present.testBit named && (e.timeRef == named || (e.present.testBit named && (self != named || locked))) then named
  else if present.testBit e.timeRef then e.timeRef
  else if present.testBit named then named
  else (bitsIn present).headD self

/-- A change of the reference raises event 0x0A05; a new reference runs on in holdover (R445, R146). -/
def changeRef (new : Nat) (s : State) : State :=
  match s.ens.ens with
  | none => s
  | some e =>
    if e.timeRef = new then s else
    let s := raiseEns 0x0A05 new (updEns (fun e => { e with timeRef := new }) s)
    let s := { s with time := { s.time with good := 0, ensLocked := false } }
    if new = ownMember s ∧ s.time.ptp.role = 0 then enterHoldover s else s

/-- Gives up shards and replicas of other members' maps (R452). DEDUCED [277]. -/
def dropHeld (p : Nat → Bool) (s : State) : State :=
  let n := (s.ens.held.filter fun h => p h.1).map (·.2.2) |>.sum
  refund 0 1 n { s with ens.held := s.ens.held.filter fun h => !p h.1 }

/-! ### ENS_FORM, ENS_JOIN -/

def iEnsForm : CmdInfo :=
  { opcode := 0x0A00, handle := .admin, inline := 0, dl := dlMs 1000, pay := .required, range := fun c _ => c.plen == 640 }

/-- The checks that both commands make (R433, R437, R473, R74). -/
def ensCheck (c : Ctx) (s : State) : Except Fail Unit := do
  need (ensDescOk c.pay) (err stRange)
  need ((fld c.pay 6 1).testBit (ownMember s)) (err stMemberAbsent)
  need (lifecycle s == 2 || lifecycle s == 3) (err stAuth)
  need (s.sec.identity && Config.sha3 s.sec.pubKey == memberDigest c.pay (ownMember s)) (err stAuth)
  need s.ens.ens.isNone (err stLimit)

/-- An ensemble record of a descriptor. -/
def newEns (b : List Byte) (state present : Nat) (self : Nat) (join : Option ReqRef) : Ens :=
  { desc := b, id := ensIdOf b, state, present, agreed := present, lost := 0
    timeRef := if present.testBit (fld b 7 1) then fld b 7 1 else self
    stepped := false, join, leave := none, broken := false, slot := 0 }

/-- ENS_FORM (R433, R437). -/
def bodyEnsForm : Body := fun c s => do
  ensCheck c s
  let self := ownMember s
  let (slot, g, s) := newObj 12 (2 ^ 32) 0 c.sess [] false 0 0 s
  let e := newEns c.pay 1 (2 ^ self) self none
  .ok ({ s with ens.ens := some { e with slot } }, okR slot g)

def execEnsForm (r : ReqRef) (io : Io) (s : State) : Result := serve iEnsForm bodyEnsForm r io s

def iEnsJoin : CmdInfo := { iEnsForm with opcode := 0x0A01, dl := dlMs 10000, doms := fun _ _ => [95] }

/-- ENS_JOIN waits for up links to every present member (R433, R437, R473). -/
def bodyEnsJoin : Body := fun c s => do
  need (!(getDom 95 s).pads) (err stState)
  ensCheck c s
  .ok ({ s with ens.ens := some (newEns c.pay 0 0 (ownMember s) (some (reqRef c.q))) }, .wait)

def execEnsJoin (r : ReqRef) (io : Io) (s : State) : Result := serve iEnsJoin bodyEnsJoin r io s

/-- A join that can complete: up links to every present member, one at least (R437). DEDUCED [119]. -/
def finishJoin (s : State) : State :=
  match s.ens.ens with
  | none => s
  | some e => match e.join with
    | none => s
    | some r =>
      let self := ownMember s
      let others := (bitsIn e.present).filter (· != self)
      if others.isEmpty || !others.all (linkUp · s) then s else
      let (slot, g, s) := newObj 12 (2 ^ 32) 0 ((adminSession s).map (·.slot)) [] false 0 0 s
      let mask := e.present ||| 2 ^ self
      let s := updEns (fun e => { e with state := 1, present := mask, agreed := mask, join := none, slot }) s
      let s := raiseEns 0x0A07 self s
      postRef r stOk slot g none (others.foldl (fun s k => sendTo k "PRESENT" s) s)

/-- A join that ends without completing creates nothing (R437). -/
def dropJoin (st : Nat) (s : State) : State :=
  match s.ens.ens.bind (·.join) with
  | none => s
  | some r => postRef r st 0 0 none { s with ens.ens := none }

/-! ### Shards when a member goes (R449 to R451) -/

/-- The next present member after the primary in ascending order, wrapping, that does not hold the shard
(R449). -/
def nextUnderstudy (e : EShard) (present : Nat) : Option Nat :=
  e.primary.bind fun p => ((List.range 7).map fun i => (p + i + 1) % 8).find? fun k =>
    present.testBit k && e.primary != some k && e.understudy != some k

/-- Starts a replica of a shard with one copy (R449): journalled as ensemble re-sharding (R505). -/
def startReplica (map sh : Nat) (s : State) : State :=
  match s.ens.ens, (getMap map s).bind fun m => m.ens[sh]? with
  | some e, some x =>
    if x.lost || x.understudy.isSome || 64 ≤ (openOps s).length
        || s.ens.replicas.any (fun r => r.1 == map && r.2.1 == sh) then s else
    match nextUnderstudy x e.present with
    | none => s
    | some k =>
      let (op, s) := journalBegin 3 { src := .callboard, cid := 0 } 0 (handleOf 9 map s) (sh + k * 65536) s
      { s with ens.replicas := s.ens.replicas ++ [(map, sh, k, op)] }
  | _, _ => s

/-- A shard after the loss of a member: the understudy becomes primary; with no copy left it is lost. -/
def shardAfter (k : Nat) (e : EShard) : EShard :=
  let under := if e.understudy = some k then none else e.understudy
  if e.primary = some k then { e with primary := under, understudy := none, lost := e.lost || under.isNone }
  else { e with understudy := under }

/-- Commands and queries that waited for a lost member (R447, R454, R458): its acknowledgements are no longer
waited for, and a member that took a shard over answers again. -/
def unwait (m m' : MapO) (k : Nat) (s : State) : State :=
  let s := { s with map.ctx := updIf (fun (x : CtxCmd) => x.map == m.slot) (fun (x : CtxCmd) =>
      { x with acks := x.acks.filter fun a => a.2.1 != k }) s.map.ctx }
  let s := shardAcked m.slot 64 k 0 s
  let took := (m.ens.zip m'.ens).filterMap fun (a, b) => if a.primary == some k then b.primary else none
  let again (q : Query) : Query :=
    if q.done || q.answers.contains k then q else { q with answers := q.answers.filter fun j => !took.contains j }
  let on (b : BatchO) : Bool := (getIdx b.idx s).any fun x => x.map == m.slot
  let s := { s with map.batches := updIf on (fun b => { b with queries := b.queries.map again }) s.map.batches }
  let holders := shardHolders m' s
  let ready' (q : Query) : Bool := !q.done && !q.answers.isEmpty && holders.all fun j => q.answers.contains j
  (s.map.batches.filter on).foldl (fun s (b : BatchO) =>
    (b.queries.zipIdx.filter fun (q, _) => ready' q).foldl (fun s (x : Query × Nat) => deliverQuery b.slot x.2 s) s) s

/-- One map homed here after the loss of a member (R449, R450, R458). -/
def mapAfter (k : Nat) (s : State) (m : MapO) : State :=
  let m' := { m with ens := m.ens.map (shardAfter k) }
  let s := updMap m.slot (fun _ => m') s
  let newly := ((m.ens.zip m'.ens).zipIdx.filter fun ((a, b), _) => b.lost && !a.lost).map (·.2)
  let s := newly.foldl (fun s sh => raiseEns 0x0A08 (sh + m.slot % 2 ^ 32 * 256) s) s
  let s := unwait m m' k s
  let hit := m.resharding.any fun (_, plan, _, _) => plan.any fun p => p.1 == k || p.2 == k
  let s := if hit || m.repot.any (fun p => p.target == k && p.mode == 1) then rollBack m.slot stMemberAbsent s else s
  let s := if hit then stopReshard m.slot stMemberAbsent s else s
  (List.range m.ens.length).foldl (fun s sh => startReplica m.slot sh s) s

/-- R451: a map homed on the member that went. Whether this member is the lowest-numbered present holder of
one of its primary shards is known to the members together: a free value. [11] DESIGN CHOICE [114]. -/
def rehome (k : Nat) (s : State) (m : MapO) : State :=
  match s.ens.ens with
  | none => s
  | some e =>
    if m.homeAt ≠ k then s else
    let (x, s) := draw s
    if x % 2 = 1 then s else
    let n := (s.ens.held.filter fun h => h.1 == m.slot).map (·.2.2) |>.sum
    let (slot, g, s) := newObj 9 (2 ^ 32) 0 none [] false 0 n { s with ens.held := s.ens.held.filter fun h => h.1 != m.slot }
    let until' := s.time.mono + ensHoldS e * secT
    let s := updObj 9 slot (fun o => { o with st := .orphan, holdS := ensHoldS e, holdAt := some until' }) s
    let s := { s with map.maps := updIf (fun y => y.slot == m.slot) (fun y => { y with slot, homeAt := ownMember s }) s.map.maps }
    queueEvent ((adminSession s).map (·.slot))
      { at' := stampNow 0 s, ev := 0x0A09, detail := (g * 2 ^ 32 + slot) % 2 ^ 48, handle := handleOf 12 e.slot s } s

/-- A member is declared lost or removed (R438, R449 to R451, R457). DEDUCED [120]. -/
def loseMember (k : Nat) (s : State) : State :=
  match s.ens.ens with
  | none => s
  | some e =>
    let mask := (bitsIn e.present).foldl (fun n j => if j = k then n else n + 2 ^ j) 0
    let s := updEns (fun e => { e with present := mask, agreed := mask, lost := e.lost ||| 2 ^ k }) s
    let s := raiseEns 0x0A03 (k + mask * 256) s
    let s := { s with ens.replicas := s.ens.replicas.filter fun r => r.2.2.1 != k }
    let s := s.map.maps.foldl (fun s (m : MapO) => if m.homeAt == ownMember s && !m.ens.isEmpty then mapAfter k s m else s) s
    let s := s.map.maps.foldl (rehome k) s
    changeRef (nextRef e mask (ownMember s) s.time.ensLocked) s

/-! ### Quorum (R438, R440) -/

/-- A member reached directly or through a relay (R438, R439). -/
def reached (k : Nat) (s : State) : Bool :=
  k == ownMember s || (getPort (portTo k s) s).state == 3 || (getPort (portTo k s) s).state == 5

/-- The members that can still reach one another. -/
def reachSet (e : Ens) (s : State) : List Nat := (bitsIn e.present).filter (reached · s)

/-- The quorum rule (R438). -/
def hasQuorum (e : Ens) (s : State) : Bool :=
  let r := reachSet e s
  let n := (bitsIn e.agreed).length
  decide (n < 2 * r.length) || (decide (n = 2 * r.length) && (bitsIn e.agreed).head?.any r.contains)

/-- A member without quorum, or removed, stops serving every ensemble map (R440, R457). -/
def loseQuorum (s : State) : State :=
  match s.ens.ens with
  | none => s
  | some e =>
    if e.state = 2 then s else
    let s := raiseEns 0x0A06 ((reachSet e s).foldl (fun n k => n + 2 ^ k) 0) (updEns (fun e => { e with state := 2 }) s)
    let mine (m : MapO) : Bool := !m.ens.isEmpty
    let s := (s.map.maps.filter mine).foldl (fun s (m : MapO) => stopReshard m.slot stState (rollBack m.slot stState s)) s
    let on (slot : Nat) : Bool := (getMap slot s).any mine
    let s := (s.map.ctx.filter fun x => on x.map).foldl (fun s (x : CtxCmd) => endCtx x stState 0 0 none s) s
    let s := (s.map.batches.filter fun b => (getIdx b.idx s).any fun x => on x.map).foldl
      (fun s (b : BatchO) => cutBatch b.slot stState s) s
    if followsMember s ∨ s.time.ptp.role ≠ 0 then enterHoldover s else s

/-- A member that comes back to the quorum discards its copies of shards (R440): its ensemble maps have their
homes elsewhere now. DEDUCED [113]. -/
def rejoin (mask : Nat) (s : State) : State :=
  let gone := (s.map.maps.filter fun m => !m.ens.isEmpty).map (·.slot)
  let os := s.obj.objs.filter fun o => (o.ty == 9 && gone.contains o.slot)
    || (o.ty == 10 && (getIdx o.slot s).any fun x => gone.contains x.map)
  let s := releaseAll os.reverse s
  let s := dropHeld (fun _ => true) { s with map.maps := s.map.maps.filter fun m => m.ens.isEmpty && m.homeAt == ownMember s }
  updEns (fun e => { e with state := 1, present := mask, agreed := mask, lost := 0 }) s

/-- An agreement on the present set (R438, R440, R442, R445, R457). DEDUCED [117]. -/
def agree (mask : Nat) (s : State) : State :=
  match s.ens.ens with
  | none => s
  | some e =>
    let self := ownMember s
    if e.state = 0 then finishJoin (updEns (fun e => { e with present := mask }) s)
    else if !mask.testBit self then loseQuorum s
    else if e.state = 2 then rejoin mask s
    else
      let gone := (bitsIn e.present).filter fun k => !mask.testBit k
      let come := (bitsIn mask).filter fun k => !e.present.testBit k
      let ref := nextRef e mask self s.time.ensLocked
      let s := gone.foldl (fun s k => loseMember k s) s
      let s := updEns (fun e => { e with present := mask, agreed := mask, lost := 0 }) s
      let s := come.foldl (fun s k => raiseEns 0x0A07 k s) s
      let s := changeRef ref s
      s.map.maps.foldl (fun s (m : MapO) => (List.range m.ens.length).foldl (fun s sh => startReplica m.slot sh s) s) s

/-- MEMBER_LOSS (R438 to R440, R449 to R451). -/
def execMemberLoss (k : Nat) (s : State) : Result :=
  .next (match s.ens.ens with
    | none => s
    | some e =>
      let p := getPort (portTo k s) s
      if e.state ≠ 1 && e.state ≠ 3 || k == ownMember s || !e.present.testBit k || reached k s
          || decide (s.time.mono < p.downAt + ensLossUs e * usT) then s
      else settle (if hasQuorum e s then loseMember k s else loseQuorum s))

/-- REPLICA_COMMIT (R449, R456): a copy of a shard commits; the last one of an ENS_LEAVE lets it complete. -/
def commitReplica (map sh k op : Nat) (s : State) : State :=
  let s := { s with ens.replicas := s.ens.replicas.filter fun r => !(r.1 == map && r.2.1 == sh && r.2.2.1 == k) }
  let leaving := s.ens.ens.any fun e => e.leave.any fun l => l.2 == op
  let s := if leaving then journalStep op 2 1 s else journalStep op 4 0 (journalStep op 3 0 s)
  let place (e : EShard) : EShard := if leaving then { e with primary := some k, understudy := none } else { e with understudy := some k }
  raiseEns 0x0A04 (sh + k * 256) (updMap map (fun m => { m with ens := m.ens.modify sh place }) s)

/-- Takes every link down (R456). DEDUCED [159]. -/
def linksDown (s : State) : State :=
  { s with ens.ports := s.ens.ports.map fun p => { p with state := 0, step := 0, keys := [], downAt := s.time.mono } }

/-- An ENS_LEAVE whose shards have all moved: maps homed here leave the ensemble with no replicas, the links go
down, the object is released (R456). DEDUCED [116]. -/
def finishLeave (s : State) : State :=
  match s.ens.ens with
  | none => s
  | some e => match e.leave with
    | none => s
    | some (r, op) =>
      if s.ens.replicas.any fun x => x.2.2.2 == op then s else
      let moved := (s.boot.journal.filter fun x => x.number == op && x.step == 2).length
      let s := journalStep op 4 0 (journalStep op 3 moved s)
      let own := ownMember s
      let s := { s with map.maps := (s.map.maps.filter fun (m : MapO) => m.homeAt == own).map fun (m : MapO) => { m with ens := [] } }
      let s := linksDown (dropHeld (fun _ => true) { s with ens.replicas := [] })
      let s := match getObj 12 e.slot s with
        | some o => releaseObj o s
        | none => { s with ens.ens := none }
      postRef r stOk moved 0 none s

/-- DEDUCED [116]. -/
def execReplicaCommit (map sh : Nat) (s : State) : Result :=
  .next (match s.ens.replicas.find? fun r => r.1 == map && r.2.1 == sh with
    | none => s
    | some (_, _, k, op) => settle (finishLeave (commitReplica map sh k op s)))

/-! ### ENS_LEAVE, ENS_REMOVE, ENS_RESHARD, ENS_STATUS -/

/-- A command on the ensemble object. -/
def ensCmd (opcode ms inline : Nat) : CmdInfo := { opcode, handle := .obj [12], inline, dl := dlMs ms }

/-- The ensemble, for a command that names it: lost records leave it unusable. DEDUCED [280]. -/
def ensArg (s : State) : Except Fail Ens :=
  match s.ens.ens with
  | some e => if e.broken then .error (err stIntegrity) else .ok e
  | none => .error (err stState)

def iEnsLeave : CmdInfo := ensCmd 0x0A02 3600000 0

/-- What leaving moves (R456): the shards of maps homed here that lie elsewhere come back, the shards of other
members' maps go to the member that R449 names. -/
def leaveMoves (s : State) : List (Nat × Nat × Nat) :=
  let self := ownMember s
  let present := s.ens.ens.elim 0 (·.present)
  s.map.maps.flatMap fun m => (m.ens.zipIdx).filterMap fun (e, sh) =>
    if m.homeAt = self then (if e.lost || e.primary == some self then none else some (m.slot, sh, self))
    else if e.primary == some self || e.understudy == some self then
      (nextUnderstudy { e with primary := some self } present).map fun k => (m.slot, sh, k)
    else none

/-- ENS_LEAVE (R456, R452, R505). -/
def bodyEnsLeave : Body := fun c s => do
  let e ← ensArg s
  need e.leave.isNone (err stState)
  journalRoom s
  let moves := leaveMoves s
  let others := moves.filter fun m => m.2.2 != ownMember s
  let (short, s) := others.foldl (fun (x : Nat × State) (m : Nat × Nat × Nat) =>
    let n := (getMap m.1 x.2).elim 0 fun y => shardBytes y m.2.1
    let (d, s) := targetShort m.2.2 n x.2
    (max x.1 d, s)) (0, s)
  let s ← targetFits short s
  let (op, s) := journalBegin 4 (reqRef c.q) c.q.opcode (handleOf 12 e.slot s) 0 s
  let s := updEns (fun e => { e with state := 3, leave := some (reqRef c.q, op) }) s
  .ok ({ s with ens.replicas := s.ens.replicas ++ moves.map fun m => (m.1, m.2.1, m.2.2, op) }, .wait)

/-- With nothing to move, a leave completes at once. -/
def execEnsLeave (r : ReqRef) (io : Io) (s : State) : Result :=
  match serve iEnsLeave bodyEnsLeave r io s with
  | .next s => .next (settle (finishLeave s))
  | o => o

/-- A leave that ends before its end: shards already moved stay moved, and the member stays. -/
def dropLeave (st : Nat) (s : State) : State :=
  match s.ens.ens.bind (·.leave) with
  | none => s
  | some (r, op) =>
    let s := journalStep op 4 0 { s with ens.replicas := s.ens.replicas.filter fun x => x.2.2.2 != op }
    postRef r st 0 2 none (updEns (fun e => { e with state := 1, leave := none }) s)

def iEnsRemove : CmdInfo := { ensCmd 0x0A03 1000 1 with range := fun c _ => decide (prm c 0 1 ≤ 7) }

/-- ENS_REMOVE (R440, R457). -/
def bodyEnsRemove : Body := fun c s => do
  let e ← ensArg s
  let k := prm c 0 1
  need (e.state != 2) (err stNoQuorum)
  need (k != ownMember s && e.present.testBit k) (err stMemberAbsent)
  let s := (bitsIn e.present).foldl (fun s j => if j = ownMember s then s else sendTo j "PRESENT" s) s
  .ok (loseMember k s, okR 0 0)

def execEnsRemove (r : ReqRef) (io : Io) (s : State) : Result := serve iEnsRemove bodyEnsRemove r io s

def iEnsReshard : CmdInfo :=
  { ensCmd 0x0A04 3600000 8 with
    pay := .required, range := fun c _ => c.plen == 128
    hands := fun c s => (lookupHandle [9] c.fn false (prm c 0 8) s).map fun _ => () }

/-- The pairs of a plan. -/
def planOf (b : List Byte) : List (Nat × Nat) := (List.range 64).map fun i => (fld b (2 * i) 1, fld b (2 * i + 1) 1)

/-- A pair that ENS_RESHARD takes (R458). -/
def pairOk (n present i : Nat) (p : Nat × Nat) : Bool :=
  if i < n then p.1 != p.2 && decide (p.1 < 8) && decide (p.2 < 8) && present.testBit p.1 && present.testBit p.2
  else p.1 == 0xFF && p.2 == 0xFF

/-- ENS_RESHARD (R380, R440, R446, R452, R458, R505). -/
def bodyEnsReshard : Body := fun c s => do
  let e ← ensArg s
  let some m := getMap (prm c 0 8 % 2 ^ 32) s | .error (err stState)
  need (m.homeAt == ownMember s) (err stAuth)
  let plan := planOf c.pay
  let n := shardCount m
  recCheck stRange (firstFalse (plan.zipIdx.map fun (p, i) => pairOk n e.present i p))
  need (!m.broken) (err stIntegrity)
  need (m.repot.isNone && m.resharding.isNone) (err stState)
  need (e.state != 2) (err stNoQuorum)
  need (decide (repottings s < 4)) (err stLimit)
  journalRoom s
  let ens := localShards m (ownMember s)
  let gains := (ens.zip plan).zipIdx.flatMap fun ((x, p), sh) =>
    ([p.1, p.2].filter fun k => x.primary != some k && x.understudy != some k).map fun k => (k, shardBytes m sh)
  let (short, s) := gains.foldl (fun (x : Nat × State) (g : Nat × Nat) =>
    let (d, s) := targetShort g.1 g.2 x.2
    (max x.1 d, s)) (0, s)
  let s ← targetFits short s
  let s := updMap m.slot (fun m => { m with ens, resharding := some (reqRef c.q, plan, 0, 0) }) s
  .ok (s, .wait)

/-- The first changed shard starts to move; with none the command completes. -/
def execEnsReshard (r : ReqRef) (io : Io) (s : State) : Result :=
  match serve iEnsReshard bodyEnsReshard r io s with
  | .next s => .next (settle ((s.map.maps.filter fun m => m.repot.isNone).foldl (fun s (m : MapO) => advanceReshard m.slot s) s))
  | o => o

def iEnsStatus : CmdInfo := { ensCmd 0x0A05 100 12 with res := resMin 320 }

/-- The 32 bytes of a port (Table 13.5). -/
def portBytes (p : TPort) : List Byte :=
  leBytes 1 p.state ++ leBytes 1 p.reason ++ leBytes 1 p.peer ++ [0] ++ leBytes 4 (codeOf 32 p.offset)
    ++ leBytes 8 p.frames ++ leBytes 4 p.tagFails ++ leBytes 4 p.rekeys ++ leBytes 4 p.refusals ++ zeros 4

/-- The ENS_STATUS record (Table 13.5). -/
def ensRecord (e : Ens) (s : State) : List Byte :=
  let shards := s.map.maps.flatMap (·.ens)
  let one := (shards.filter fun x => !x.lost && x.understudy.isNone).length
  leBytes 1 e.state ++ leBytes 1 (ownMember s) ++ leBytes 1 e.present ++ leBytes 1 e.lost ++ leBytes 1 e.timeRef
    ++ leBytes 1 s.time.servo ++ zeros 2 ++ leBytes 8 e.id.toNat ++ leBytes 4 one
    ++ leBytes 4 (shards.filter (·.lost)).length ++ zeros 40 ++ s.ens.ports.flatMap portBytes ++ zeros 32

/-- ENS_STATUS (R449, Table 13.5). -/
def bodyEnsStatus : Body := fun _ s => do
  let e ← ensArg s
  .ok (s, okD 0 0 (ensRecord e s))

def execEnsStatus (r : ReqRef) (io : Io) (s : State) : Result := serve iEnsStatus bodyEnsStatus r io s

/-! ### Links (R431 to R436, R439) -/

/-- A Trellis port that can work: its domain on, pads free, its clock present (R472, R570). -/
def trellisLive (p : Nat) (s : State) : Bool :=
  decide (p < 7) && domOn 95 s && !(getDom 95 s).pads && !s.link.ethDown.contains (16 + p)

/-- Refuses a port with a reason of Table 13.3 (R432). DEDUCED [111]. -/
def refusePort (p reason : Nat) (s : State) : State :=
  let peer := (getPort p s).peer
  raiseEns 0x0A02 (p + peer * 256 + reason * 65536)
    (updPort p (fun x => { x with state := 4, step := 0, reason, keys := [], downAt := s.time.mono }) s)

/-- TRELLIS_LINK_TRAINED (R431, R432). -/
def execTrellisLinkTrained (p peer : Nat) (s : State) : Result :=
  ended (if !trellisLive p s || decide (2 ≤ (getPort p s).state && (getPort p s).state ≤ 3) || !ready s then s else
    let s := updPort p (fun x => { x with state := 2, step := 1, peer }) s
    if peer ≠ (ownMember s + p + 1) % 8 then refusePort p 1 s else
    if s.ens.ens.isSome then emit (.trellis p "ENSEMBLE_ID") s else s)

/-- A link comes up under new keys (R434): event 0x0A01, and the present set is exchanged (R437, R438). -/
def portUp (p : Nat) (secret : List Byte) (s : State) : State :=
  let keys := Config.sha3 secret
  let s := updPort p (fun x => { x with state := 3, step := 5, keys, keyed := s.time.mono, keyFrames := 0, oldUntil := none }) s
  let s := raiseEns 0x0A01 (p + (getPort p s).peer * 256) s
  finishJoin (if s.ens.ens.any fun e => e.state != 0 then emit (.trellis p "PRESENT") s else s)

/-- A new key exchange on a link that is up (R435): the old keys are accepted for 1 ms. -/
def rekeyed (p : Nat) (secret : List Byte) (s : State) : State :=
  updPort p (fun x => { x with
    step := 5, keys := Config.sha3 secret, keyed := s.time.mono, keyFrames := 0, rekeys := x.rekeys + 1
    oldUntil := some (s.time.mono + msT) }) s

/-- The checks of step 4 of Table 13.3: the reason of the first that fails. -/
def handshakeFault (e : Ens) (peer : Nat) (identity : List Byte) (sigOk : Bool) (life : Nat) : Option Nat :=
  if Config.sha3 identity != memberDigest e.desc peer || !(fld e.desc 6 1).testBit peer then some 3
  else if !sigOk then some 4
  else if life ≠ 2 ∧ life ≠ 3 then some 5
  else none

/-- TRELLIS_HANDSHAKE_MESSAGE (Table 13.3, R433 to R438). DEDUCED [117]. -/
def execTrellisHandshakeMessage (p : Nat) (m : Handshake) (s : State) : Result :=
  .next (match s.ens.ens with
    | none => s
    | some e =>
      let x := getPort p s
      settle (match m with
        | .ensembleId id =>
          if x.state ≠ 2 ∨ x.step ≠ 1 then s
          else if id = e.id then
            let s := updPort p (fun x => { x with step := 2 }) s
            if ownMember s < x.peer then emit (.trellis p "KEY_EXCHANGE") s else s
          else dropJoin stEnsMismatch (refusePort p 2 s)
        | .keyExchange identity sigOk life secret =>
          if (x.state = 2 ∨ x.state = 3) ∧ x.step = 2 then
            match handshakeFault e x.peer identity sigOk life with
            | some reason => refusePort p reason s
            | none =>
              let s := if x.peer < ownMember s then emit (.trellis p "KEY_REPLY") s else s
              if x.state = 2 then portUp p secret s else rekeyed p secret s
          else s
        | .present mask => if x.state = 3 then agree mask s else s))

/-- TRELLIS_REFUSAL_RETRY (R432): every second. DEDUCED [111]. -/
def execTrellisRefusalRetry (p : Nat) (s : State) : Result :=
  ended (if (getPort p s).state ≠ 4 || !trellisLive p s || decide (s.time.mono < (getPort p s).downAt + secT) then s else
    emit (.trellis p "TRAIN") (updPort p (fun x => { x with state := 1, step := 0, refusals := x.refusals + 1 }) s))

/-- TRELLIS_REKEY (R435): due after `REKEY_S` or 2^40 frames. -/
def execTrellisRekey (p : Nat) (s : State) : Result :=
  ended (match s.ens.ens with
    | none => s
    | some e =>
      let x := getPort p s
      if x.state = 3 ∧ x.step = 5 ∧ (x.keyed + ensRekeyS e * secT ≤ s.time.mono ∨ 2 ^ 40 ≤ x.keyFrames) then
        let s := updPort p (fun x => { x with step := 2 }) s
        if ownMember s < x.peer then emit (.trellis p "KEY_EXCHANGE") s else s
      else s)

/-- A foreign map's record, made at its first frame: what its replica holds here is the home's to say, so it is
free. [11] DESIGN CHOICE [115]. -/
def foreignMap (key home : Nat) (s : State) : State :=
  if (getMap key s).isSome then s else
  let (b, s) := drawBytes 128 s
  let m := newMap key b s
  let shard : EShard := { primary := none, understudy := none, seqNo := 0, acked := 0, lost := false }
  { s with map.maps := s.map.maps ++ [{ m with
      slots := foreignSlots b m.slotsMax, homeAt := home, ens := List.replicate (shardCount m) shard }] }

/-- The key of another member's map, beyond every slot of this device. DESIGN CHOICE [115]. -/
def foreignKey (home map : Nat) : Nat := (home + 1) * 2 ^ 32 + map

/-- The first write of a shard finds its replica here: its memory is charged to the physical function (R452).
 DEDUCED [277]. -/
def holdShard (key sh : Nat) (s : State) : State :=
  match getMap key s with
  | none => s
  | some m =>
    if s.ens.held.any fun h => h.1 == key && h.2.1 == sh then s else
    let n := granSt (shardBytes m sh)
    let here (e : EShard) : EShard := { e with understudy := some (ownMember s) }
    charge 0 1 n (updMap key (fun m => { m with ens := m.ens.modify sh here }) { s with ens.held := s.ens.held ++ [(key, sh, n)] })

/-- What a good frame carries (R438, R447, R454). DEDUCED [276]. -/
def frameIn (p : Nat) (m : TrellisMsg) (s : State) : State :=
  let peer := (getPort p s).peer
  match m with
  | .data => s
  | .relay k =>
    -- the relaying member raises the event too, as it does for a relayed link of its own
    if k != ownMember s && memberHere k s && linkUp k s then raiseEns 0x0A02 (p + peer * 256) s else s
  | .presentSet mask => agree mask s
  | .shardWrite map sh n =>
    -- each copy applies a sequence number at most once
    let key := foreignKey peer map
    let s := holdShard key sh (foreignMap key peer s)
    let s := updMap key (fun m => { m with ens := m.ens.modify sh fun e => { e with seqNo := max e.seqNo n } }) s
    sendTo peer "SHARD_ACK" s
  | .shardAck map sh n =>
    let s := updMap map (fun m => { m with ens := m.ens.modify sh fun e => { e with acked := max e.acked n } }) s
    shardAcked map sh peer n s
  | .queryAnswer batch query member rs probes scanned excluded stale =>
    let cands := rs.map fun (d, i) => (d, BitVec.ofNat 64 i)
    answer batch query member { kept := cands.foldl keep [], made := probes, scanned, excluded, bad := false } stale s

/-- A frame's tag holds: under the present keys, or under the old ones within 1 ms of a rekey (R435).
 DESIGN CHOICE [279]. -/
def tagTaken (tag : FrameTag) (x : TPort) (s : State) : Bool :=
  match tag with
  | .present => true
  | .old => x.oldUntil.any fun t => decide (s.time.mono ≤ t)
  | .bad => false

/-- TRELLIS_FRAME_RECEIVED (R434, R436, R438, R447, R454). DESIGN CHOICE [279]. -/
def execTrellisFrameReceived (p : Nat) (tag : FrameTag) (m : TrellisMsg) (s : State) : Result :=
  .next (let x := getPort p s
    if x.state ≠ 3 then s else
    if tagTaken tag x s then settle (frameIn p m s) else
    let recent := s.time.mono :: x.recent.filter fun t => decide (s.time.mono < t + secT)
    let s := updPort p (fun x => { x with tagFails := x.tagFails + 1, recent }) s
    if recent.length < 16 then s else
    settle (emit (.trellis p "ENSEMBLE_ID") (raiseEns 0x0A02 (p + x.peer * 256 + 6 * 65536)
      (updPort p (fun x => { x with state := 2, step := 1, reason := 6, recent := [], keys := [], oldUntil := none, downAt := s.time.mono }) s))))

/-- TRELLIS_LINK_LOST (R439): the traffic of two present members goes through a third with links to both;
whether that one reaches the peer is not seen here. [11] DESIGN CHOICE [112]. DEDUCED [118]. -/
def execTrellisLinkLost (p : Nat) (s : State) : Result :=
  ended (let x := getPort p s
    if x.state ≠ 3 then s else
    let s := updPort p (fun x => { x with state := 0, step := 0, keys := [], downAt := s.time.mono }) s
    let relays := (List.range 8).filter fun k => k != x.peer && memberHere k s && linkUp k s
    let (d, s) := draw s
    let s := if memberHere x.peer s && !relays.isEmpty && d % 2 == 0
      then updPort p (fun x => { x with state := 5 }) s else s
    raiseEns 0x0A02 (p + x.peer * 256) s)

/-! ### Time (R443 to R445) -/

/-- ENS_TIME_SYNC (R444, R445): the first exchange steps the time base, later ones slew it; sixteen in a row
within 10 ns lock it. DEDUCED [24]. DEDUCED [119]. -/
def execEnsTimeSync (offset : Int) (s : State) : Result :=
  .next (match s.ens.ens with
    | none => s
    | some e =>
      if !followsMember s || e.state ≠ 1 || !reached e.timeRef s then s else
      let good := if offset.natAbs ≤ 10 then s.time.good + 1 else 0
      let s := updPort (portTo e.timeRef s) (fun x => { x with offset }) s
      let s := if s.time.servo = 3 then leaveHoldover 1 s else s
      let s := { s with time := { s.time with offset, good, servo := if s.time.servo = 2 then 2 else 1 } }
      let s := if e.stepped then addSlew (-offset) s
        else updEns (fun e => { e with stepped := true }) (stepTime (-(offset * 65536)) s)
      settle (if s.time.servo = 1 ∧ 16 ≤ good then
        raise 0x0C01 (codeOf 48 offset) none { s with time := { s.time with servo := 2, ensLocked := true } } else s))

/-! ### Ending what a request runs -/

/-- Ends an ensemble request before its time (R437, R456, R458). -/
def cancelEns (q : Req) (st : Nat) (s : State) : State :=
  let r := reqRef q
  if s.ens.ens.any fun e => e.join == some r then dropJoin st s
  else if s.ens.ens.any fun e => e.leave.any fun l => l.1 == r then dropLeave st s
  else match s.map.maps.find? fun m => m.resharding.any fun x => x.1 == r with
    | none => post q st 0 0 none s
    | some m => match m.repot with
      | some p =>
        if p.step = 5 then stopReshard m.slot st (journalStep p.op 4 0 (updMap m.slot (fun m => { m with
            repot := none, resharding := m.resharding.map fun (x : ReqRef × List (Nat × Nat) × Nat × Nat) => (x.1, x.2.1, x.2.2.1, x.2.2.2 + 1) }) s))
        else rollBack m.slot st s
      | none => stopReshard m.slot st s

end Sys2Proof.Machine
end

