-- ==== Sys2Proof/Machine/Filters.lean ====
section
/-! DEFINITION. The sensor filter chain (R131 to R134, R158 to R183): its exact integer data path, the
commands of group 0x02 and the SPI events. -/
namespace Sys2Proof.Machine

/-- Group 0x02 status codes (Table 5.6). -/
def stFiltRate : Nat := 0x8201
def stMacBudget : Nat := 0x8202

/-! ### Coefficients and group delay (R171, R180) -/

/-- The coefficients of a payload: 18-bit codes in 32-bit words; none when a word is not
sign-extended from bit 17 (R171). -/
def coeffs (n : Nat) (bs : List Byte) : Option (List Int) :=
  let ws := (List.range n).map fun i => fld bs (4 * i) 4
  if ws.all fun w => bitsOf w 31 17 == 0 || bitsOf w 31 17 == 0x7FFF then some (ws.map (signedOf 18))
  else none

/-- The symmetry class of a bank (R180). -/
def symClass (h : List Int) : Nat :=
  if h = h.reverse then 0 else if h = h.reverse.map (- ·) then 1 else if h.sum ≠ 0 then 2 else 3

/-- G in 2^-16 input samples (R180): (N − 1)/2, or the centroid rounded to nearest, ties to even. -/
def groupDelay (h : List Int) : Int :=
  if symClass h = 2 then
    let num := (h.zipIdx.map fun (c, k) => c * (k : Int)).sum * 65536
    let den := h.sum
    let neg := decide (num < 0) != decide (den < 0)
    let q : Int := roundDiv .nearest neg num.natAbs den.natAbs
    if neg then -q else q
  else ((h.length - 1 : Nat) : Int) * 32768

/-- A loaded bank. -/
def mkBank (h : List Int) : Bank := { taps := h, cls := symClass h, g := groupDelay h }

/-- The bank a channel calls A (0) or B (1). -/
def bankOf (c : Chan) (i : Nat) : Option Bank := if i = 0 then c.bankA else c.bankB

/-- The inactive bank's number. -/
def otherBank (c : Chan) : Nat := 1 - c.active

/-- Taps of a bank, 0 when it is empty. -/
def tapsOf (b : Option Bank) : Nat := b.elim 0 fun b => b.taps.length

/-! ### The data path (R162 to R168, R173) -/

/-- The exact sum of products at phase P, modulo 2^56 (R164, R166). -/
def firSum (p : Nat) (h : List Int) (hist : List Tap) : Int :=
  signedOf 56 (codeOf 56 ((h.zip (hist.drop p)).map fun (c, t) => c * t.d).sum)

/-- Reduction by `n` bits: truncation, or convergent rounding on FC0 to FC7 (R165). -/
def reduceBy (n : Nat) (precise : Bool) (a : Int) : Int :=
  let q := a / (2 ^ n : Nat)
  let r := a % (2 ^ n : Nat)
  let half : Int := (2 ^ (n - 1) : Nat)
  if precise && (decide (half < r) || (decide (r = half) && decide (q % 2 = 1))) then q + 1 else q

/-- Fade weight a_i (R173). DESIGN CHOICE [16]. -/
def fadeWeight (i f : Nat) : Nat := ((i + 1) * 65536 + f / 2) / f

/-- The value of an output before saturation (R165, R173). -/
def outValue (c : Chan) : Int :=
  let acc (i : Nat) : Int := (bankOf c i).elim 0 fun b => firSum c.phase b.taps c.hist
  match c.fade with
  | none => reduceBy 10 (decide (c.slot < 8)) (acc c.active)
  | some (i, f) =>
    let a : Int := fadeWeight i f
    reduceBy 26 (decide (c.slot < 8)) (acc c.active * (65536 - a) + acc (otherBank c) * a)

/-- Taps that an output reaches over: the larger bank's during a fade (R167). -/
def reach (c : Chan) : Nat :=
  match c.fade with
  | none => tapsOf (bankOf c c.active)
  | some _ => max (tapsOf c.bankA) (tapsOf c.bankB)

/-- (P + G) × PERIOD in 2^-16 ns (R168), with the faded G of a cross-fade. [16] -/
def delayT (c : Chan) : Int :=
  let g (i : Nat) : Int := (bankOf c i).elim 0 (·.g)
  let p : Int := (c.phase * 65536 : Nat)
  match c.fade with
  | none => (p + g c.active) * (c.period : Int)
  | some (i, f) =>
    let a : Int := fadeWeight i f
    ((p + g c.active) * 65536 + a * (g (otherBank c) - g c.active)) * (c.period : Int) / 65536

/-- The bank that rules at an emission: the incoming one during a fade (Table 5.2). -/
def rulingBank (c : Chan) : Nat := if c.fade.isSome then otherBank c else c.active

/-- The output record at the emission of input n with this stamp (Table 5.2, R166 to R168). -/
def outRecord (c : Chan) (stamp : Stamp) : FiltRec :=
  let v := outValue c
  let sat := satSigned 32 v ≠ v
  let gap := ((c.hist.drop c.phase).take (reach c)).any (·.heldIn)
  let warm := c.n + 1 < c.phase + reach c
  let flags := (if warm then 1 else 0) + (if sat then 2 else 0) + (if gap then 4 else 0)
    + (if c.fade.isSome then 8 else 0) + 16 * rulingBank c + (if c.step then 32 else 0)
    + (if c.frozen then 64 else 0)
  { t := (stamp.t : Int) - delayT c, tag := stamp.tag, value := satSigned 32 v, degraded := sat || gap
    flags, j := c.j % 2 ^ 32, a := c.fade.elim 0 fun (i, f) => fadeWeight i f }

/-- The 32 bytes of an output record (Table 5.2). -/
def filtBytes (r : FiltRec) : List Byte :=
  timeWord { t := timeAt r.t, tag := r.tag } ++ leBytes 4 (codeOf 32 r.value)
    ++ leBytes 2 (if r.degraded then stDegraded else stOk) ++ leBytes 2 r.flags ++ leBytes 4 r.j ++ leBytes 4 r.a

/-- Writes a record to the channel's ring (R169). -/
def pushOut (r : FiltRec) (c : Chan) : Chan :=
  { c with
    ring := filtBytes r :: c.ring.take (2 ^ c.ringLog2 - 1)
    written := c.written + 1
    overwritten := c.overwritten + (if 2 ^ c.ringLog2 ≤ c.ring.length then 1 else 0)
    step := false }

/-- The DC stage (R163): d, and the estimate after it. -/
def dcStage (c : Chan) (x : Int) : Int × Int :=
  if c.dcShift = 0 then (x, c.m) else
  let d := x - c.m / 16777216
  (d, if c.frozen then c.m else c.m + (x * 16777216 - c.m) / (2 ^ c.dcShift : Nat))

/-- One mode of FILT_DC_FREEZE takes effect (R177). -/
def setFreeze (c : Chan) (x : Nat × Int) : Chan :=
  { c with frozen := x.1 != 0, m := if x.1 = 2 then x.2 else c.m }

/-- Changes that take effect at an input boundary (R176, R177). -/
def atBoundary (c : Chan) : Chan :=
  let c := match c.newPhase with
    | some p => { c with phase := p, newPhase := none, step := true }
    | none => c
  c.newFreeze.foldl setFreeze { c with newFreeze := [] }

/-- A swap or start point at this input (R172, R173): the pending command it completes. -/
def swapPoint (stamp : Stamp) (c : Chan) : Chan × Option ReqRef :=
  match c.pend with
  | none => (c, none)
  | some p =>
    if p.at' ≠ 0 ∧ stamp.t < p.at' then (c, none)
    else if p.fade = 0 then
      ({ c with pend := none, active := otherBank c, swapped := true, step := true }, some p.req)
    else ({ c with pend := none, fade := some (0, p.fade) }, some p.req)

/-- What one input makes a channel do: the channel after it, the command it completes, and whether
an output saturated or a fade ended (with its output index). -/
structure InputResult where
  c : Chan
  done : Option ReqRef
  sat : Bool
  fadeEnd : Option Nat
deriving DecidableEq, Repr

/-- The emission of an output (R166, R169, R173): written while the ruling bank is loaded; j counts
always. -/
def emission (stamp : Stamp) (c : Chan) : Chan × Bool × Option Nat :=
  if (bankOf c c.active).isNone then ({ c with j := c.j + 1 }, false, none) else
  let r := outRecord c stamp
  let sat := r.flags.testBit 1
  let c' := pushOut r c
  match c.fade with
  | none => ({ c' with j := c.j + 1 }, sat, none)
  | some (i, f) =>
    if i + 1 = f then ({ c' with j := c.j + 1, fade := none, active := otherBank c }, sat, some r.j)
    else ({ c' with j := c.j + 1, fade := some (i + 1, f) }, sat, none)

/-- One input sample through the data path (Table 5.1). -/
def inputSample (x : Int) (stamp : Stamp) (heldIn : Bool) (c : Chan) : InputResult :=
  let (c, done) := swapPoint stamp (atBoundary c)
  let (d, m) := dcStage c x
  let c := { c with m, hist := ({ d, heldIn } : Tap) :: c.hist.take 4478, lastX := x
                    lastStamp := if heldIn then c.lastStamp else stamp
                    heldRun := if heldIn then c.heldRun + 1 else 0 }
  let (c, sat, fe) := if (c.n + 1) % c.decim = 0 then emission stamp c else (c, false, none)
  { c := { c with n := c.n + 1 }, done, sat, fadeEnd := fe }

/-! ### Channels in the state -/

/-- A filter channel. -/
def getChan (slot : Nat) (s : State) : Option Chan := s.filt.chans.find? fun c => c.slot == slot

/-- Changes a filter channel. -/
def updChan (slot : Nat) (f : Chan → Chan) (s : State) : State :=
  { s with filt.chans := updIf (fun c => c.slot == slot) f s.filt.chans }

/-- Feeds one input to a channel and gives its completions and events (R172, R173, Table 5.7). -/
def feed (slot : Nat) (x : Int) (stamp : Stamp) (heldIn : Bool) (s : State) : State :=
  match getChan slot s with
  | none => s
  | some c =>
    if c.stalled then s else
    let r := inputSample x stamp heldIn c
    let s := updChan slot (fun _ => r.c) s
    let s := match r.done with
      | some q => postRef q stOk 0 0 none s
      | none => s
    let s := if r.sat then raiseOnce 0x0204 (3, slot) (fun n => n) s else s
    match r.fadeEnd with
    | some j => raise 0x0203 j (some (3, slot)) s
    | none => s

/-- A stalled channel resumes (R179): delay line cleared, numbering from n = 0, estimate and j kept. -/
def resume (slot : Nat) (s : State) : State :=
  match getChan slot s with
  | none => s
  | some c =>
    if !c.stalled then s else
    raise 0x0202 c.heldRun (some (3, slot)) (updChan slot (fun c => { c with
      stalled := false, offStall := false, hist := [], n := 0, heldRun := 0 }) s)

/-- A held copy of the last input (R178), and the stall after 1,024 of them (R179). DEDUCED [28]. -/
def heldInput (slot : Nat) (s : State) : State :=
  match getChan slot s with
  | none => s
  | some c =>
    if c.stalled || c.hist.isEmpty then s else
    let k := c.heldRun + 1
    let stamp : Stamp := { c.lastStamp with t := c.lastStamp.t + k * c.period * 65536 }
    let s := feed slot c.lastX stamp true s
    if k < 1024 then s
    else raise 0x0201 slot (some (3, slot)) (updChan slot (fun c => { c with stalled := true }) s)

/-! ### SPI (R131 to R134) -/

/-- A chip select in use. -/
def getSel (ctrl cs : Nat) (s : State) : Option ChipSel :=
  s.filt.sels.find? fun x => x.ctrl == ctrl && x.cs == cs

/-- Changes a chip select. -/
def updSel (ctrl cs : Nat) (f : ChipSel → ChipSel) (s : State) : State :=
  { s with filt.sels := updIf (fun x => x.ctrl == ctrl && x.cs == cs) f s.filt.sels }

/-- Channels of a chip select. -/
def chansOf (ctrl cs : Nat) (s : State) : List Chan :=
  s.filt.chans.filter fun c => c.ctrl == ctrl && c.cs == cs

/-- Word width in bits (Table 5.4, MODE [3:2]). -/
def spiWidth (mode : Nat) : Nat := natAt [16, 18, 20, 24] (bitsOf mode 3 2)

/-- Transaction time in ns as a fraction (R133): words × width / SCLK + 200 ns. -/
def txnTime (x : ChipSel) : Nat × Nat := (x.words * spiWidth x.mode * 10000 + 200 * x.sclk, x.sclk)

/-- A controller is serving a transaction. -/
def spiBusy (ctrl : Nat) (s : State) : Bool := s.filt.busy.any fun (c, _, _) => c == ctrl

/-- Starts a transaction on a chip select for a strobe with its number. -/
def spiStart (ctrl cs : Nat) (strobe : Stamp × Nat) (s : State) : State :=
  emit (.spiStart ctrl cs) { s with filt.busy := (ctrl, cs, strobe) :: s.filt.busy }

/-- A strobe starts a transaction, or queues while one runs (R134). -/
def strobe (ctrl cs : Nat) (s : State) : State :=
  let st := (stampNow (0x3000 + ctrl * 4 + cs) s, s.filt.strobes)
  let s := { s with filt.strobes := s.filt.strobes + 1 }
  let s := updSel ctrl cs (fun x => { x with lastStrobe := some s.time.mono, gap := false }) s
  if spiBusy ctrl s then updSel ctrl cs (fun x => { x with queue := x.queue ++ [st] }) s
  else spiStart ctrl cs st s

/-- The SPI controllers run while domain 90 is on and its pads are free (R472). -/
def spiLive (s : State) : Bool := domOn 90 s && !(getDom 90 s).pads

/-- The programmed period of a chip select's strobe has passed since the last one (R131). -/
def strobeDue (x : ChipSel) (s : State) : Bool :=
  x.lastStrobe.elim true fun t => due (t + x.period * 65536) s

/-- SPI_CNV_STROBE: the K9 drives the strobe at its programmed rate (R131, R132). -/
def execSpiCnvStrobe (ctrl cs : Nat) (s : State) : Result :=
  .next (match getSel ctrl cs s with
    | some x => if spiLive s && !x.mode.testBit 4 && strobeDue x s then strobe ctrl cs s else s
    | none => s)

/-- SPI_DRDY_EDGE: a falling edge of `SPIn_DRDY` (R132); a stalled channel resumes (R179). -/
def execSpiDrdyEdge (ctrl cs : Nat) (s : State) (ns : Nat := 20) : Result :=
  pinPulse 10 20 ns (fun s =>
  .next (match getSel ctrl cs s with
    | some x =>
      if spiLive s && x.mode.testBit 4 then
        settle (strobe ctrl cs ((chansOf ctrl cs s).foldl (fun s c => resume c.slot s) s))
      else s
    | none => s)) s

/-- The queued strobe that a free controller serves next: the oldest. -/
def nextQueued (ctrl : Nat) (s : State) : Option (Nat × Stamp × Nat) :=
  let heads := s.filt.sels.filterMap fun x =>
    if x.ctrl = ctrl then x.queue.head?.map fun st => (x.cs, st) else none
  heads.foldl (fun best h => match best with
    | none => some h
    | some b => if h.2.2 < b.2.2 then some h else some b) none

/-- SPI_TRANSACTION_DONE: each word is an input of its channel (R133), where the channel was open at the strobe
(R161); the next queued strobe starts. -/
def execSpiTransactionDone (ctrl : Nat) (words : List Nat) (s : State) : Result :=
  .next (match s.filt.busy.find? fun (c, _, _) => c == ctrl with
    | none => s
    | some (_, cs, stamp, k) =>
      let w := (getSel ctrl cs s).elim 24 fun x => spiWidth x.mode
      let chans := (chansOf ctrl cs s).filter fun c => decide (c.first ≤ k)
      let s := { s with filt.busy := s.filt.busy.filter fun (c, _, _) => !(c == ctrl) }
      let s := chans.foldl (fun s c => match words[c.word]? with
        | some v => feed c.slot (signedOf w v) stamp false s
        | none => s) s
      settle (match nextQueued ctrl s with
        | none => s
        | some (k, st) => spiStart ctrl k st (updSel ctrl k (fun x => { x with queue := x.queue.tail }) s)))

/-- SPI_DRDY_GAP: no strobe for two declared periods (R134); the periods since the last input are
filled with held copies (R178). DEDUCED [28]. -/
def execSpiDrdyGap (ctrl cs : Nat) (s : State) : Result :=
  .next (match getSel ctrl cs s with
    | none => s
    | some x =>
      let late := x.lastStrobe.any fun t => due (t + 2 * x.period * 65536) s
      if !(spiLive s && x.mode.testBit 4 && late && !x.gap) then s else
      let s := updSel ctrl cs (fun x => { x with gap := true }) s
      settle ((chansOf ctrl cs s).foldl (fun s c =>
        heldInput c.slot (heldInput c.slot (raise 0x0104 (ctrl * 4 + cs) (some (3, c.slot)) s))) s))

/-- FILT_HELD_INPUT: one more declared period of a gap (R178). -/
def execFiltHeldInput (ctrl cs : Nat) (s : State) : Result :=
  .next (match getSel ctrl cs s with
    | none => s
    | some x =>
      if !(spiLive s && x.gap) then s else
      settle ((chansOf ctrl cs s).foldl (fun s c =>
        if x.lastStrobe.any fun t => due (t + (c.heldRun + 1) * x.period * 65536) s then
          heldInput c.slot s else s) s))

/-! ### Commands (Table 5.4) -/

/-- The settings of a chip select that FILT_OPEN names (R182). -/
def openSel (c : Ctx) : ChipSel :=
  { ctrl := prm c 1 1, cs := prm c 2 1, mode := prm c 4 1, words := prm c 5 1, sclk := prm c 6 2
    period := prm c 8 4, queue := [], lastStrobe := none, gap := false }

/-- R133: the controller's transactions take at most 0.9 of its time. -/
def spiFits (x : ChipSel) (s : State) : Bool :=
  let all := x :: s.filt.sels.filter fun y => y.ctrl == x.ctrl && y.cs != x.cs
  let (a, b) := ratSum (all.map fun y => ((txnTime y).1, (txnTime y).2 * y.period))
  decide (a * 10 ≤ b * 9)

/-- Field ranges of FILT_OPEN (Tables 4.6, 5.4; R182). -/
def filtOpenRange (c : Ctx) (s : State) : Bool :=
  let x := openSel c
  (inR 0 (prm c 0 1) 127 || prm c 0 1 == 0xFF) && decide (x.ctrl ≤ 7) && decide (x.cs ≤ 3)
    && decide (x.mode < 32) && inR 1 x.words 8 && decide (prm c 3 1 < x.words) && inR 10 x.sclk 500
    && inR 625 x.period 1000000000 && inR 1 (prm c 12 2) 4096 && decide (prm c 14 2 ≤ 4095)
    && (prm c 16 1 == 0 || inR 4 (prm c 16 1) 20) && inR 8 (prm c 17 1) 16 && prm c 18 6 == 0
    && prm c 32 8 == 0 && spiFits x s

def iFiltOpen : CmdInfo :=
  { opcode := 0x0200, handle := .obj [1], inline := 40, dl := dlMs 100
    hands := fun c s => if prm c 24 8 = 0 then .ok () else
      (lookupHandle [14] c.fn false (prm c 24 8) s).map fun _ => ()
    range := filtOpenRange, doms := fun _ _ => [90] }

/-- The channel that an open takes (R159). -/
def pickChan (ch : Nat) (s : State) : Option Nat :=
  if ch ≠ 0xFF then some ch
  else ((List.range 120).map (· + 8)).find? fun n => (getChan n s).isNone

/-- A channel just opened, before the strobe with this number (R161). -/
def newChan (slot first : Nat) (c : Ctx) : Chan :=
  { slot, ctrl := prm c 1 1, cs := prm c 2 1, word := prm c 3 1, period := prm c 8 4
    decim := prm c 12 2, phase := prm c 14 2, newPhase := none, dcShift := prm c 16 1
    ringLog2 := prm c 17 1, cal := BitVec.ofNat 64 (prm c 24 8), m := 0, frozen := false
    newFreeze := [], first, hist := [], n := 0, j := 0, bankA := none, bankB := none, active := 1
    swapped := false, pend := none, fade := none, step := false, lastX := 0
    lastStamp := { t := 0, tag := 0 }, heldRun := 0, stalled := false, offStall := false, ring := []
    written := 0, overwritten := 0 }

/-- FILT_OPEN (R131, R158 to R161, R169, R473). -/
def bodyFiltOpen : Body := fun c s => do
  let x := openSel c
  quotaPair c.fn 1 1 s
  let wordUsed := (chansOf x.ctrl x.cs s).any fun k => k.word == prm c 3 1
  let chUsed := (getChan (prm c 0 1) s).isSome
  let differs := (getSel x.ctrl x.cs s).any fun y =>
    y.mode != x.mode || y.words != x.words || y.sclk != x.sclk || y.period != x.period
  need (!wordUsed && !chUsed && !differs && !(getDom 90 s).pads) (err stState)
  let some ch := pickChan (prm c 0 1) s | .error (err stLimit)
  let ex := excess ((x.period :: s.filt.chans.map (·.period)).map fun p => (1000000000, p)) 64000000 1 1
  need (ex == 0) { st := stFiltRate, r0 := ex, r1 := 0 }
  let n := 2 ^ prm c 17 1 * 32
  fitsQuota c.fn 1 n s
  fits 0x009 (n - stackedFree s)
  let deps := if prm c 24 8 = 0 then [] else [(14, prm c 24 4)]
  let (g, s) := addObj 3 ch c.fn c.sess deps false 0 n s
  let s := charge c.fn 1 n s
  let s := { s with filt := { s.filt with
    chans := s.filt.chans ++ [newChan ch s.filt.strobes c]
    sels := if (getSel x.ctrl x.cs s).isSome then s.filt.sels else s.filt.sels ++ [x] } }
  .ok (s, okR ch g)

def execFiltOpen (r : ReqRef) (io : Io) (s : State) : Result := serve iFiltOpen bodyFiltOpen r io s

/-- Commands on a filter channel. -/
def filtCmd (opcode ms inline : Nat) : CmdInfo := { opcode, handle := .obj [3], inline, dl := dlMs ms }

def iFiltClose : CmdInfo := filtCmd 0x0201 100 0

def execFiltClose (r : ReqRef) (io : Io) (s : State) : Result := serve iFiltClose releaseBody r io s

/-- The channel a command names. -/
def chanOf (c : Ctx) (s : State) : Except Fail Chan :=
  match getChan (objSlot c) s with
  | some x => .ok x
  | none => .error (err stState)

def iFiltLoadBank : CmdInfo :=
  { filtCmd 0x0202 100 4 with
    inlineOf := fun q => if q.pref || q.cbdata then 4 else 4 + 4 * fld q.param 2 2
    pay := .optional
    range := fun c _ => decide (prm c 0 1 ≤ 1) && prm c 1 1 == 0 && inR 1 (prm c 2 2) 384
      && (!(c.q.pref || c.q.cbdata) || c.plen == 4 * prm c 2 2) }

/-- FILT_LOAD_BANK (R171, R174, R182). -/
def bodyFiltLoadBank : Body := fun c s => do
  let x ← chanOf c s
  let n := prm c 2 2
  let bs := if c.q.pref || c.q.cbdata then c.pay else c.q.param.drop 4
  let some h := coeffs n bs | .error (err stRange)
  need (prm c 0 1 != x.active && x.fade.isNone) (err stState)
  let b := mkBank h
  let s := updChan x.slot (fun x => if prm c 0 1 = 0 then { x with bankA := some b } else { x with bankB := some b }) s
  .ok (s, okR 0 b.cls)

def execFiltLoadBank (r : ReqRef) (io : Io) (s : State) : Result := serve iFiltLoadBank bodyFiltLoadBank r io s

/-- The instant `AT` of a swap or fade, 0 for the next input. -/
def swapAt (c : Ctx) : Nat := (prm c 0 8 * 1000000000 + prm c 8 4) * 65536

/-- R175: an `AT` that is not zero lies after the present time. -/
def swapRange (c : Ctx) (s : State) : Bool :=
  nsOk (prm c 8 4) && (swapAt c == 0 || decide (s.time.now < swapAt c))

/-- MAC load of a channel that computes `n` taps (R170), in MAC/s. -/
def macLoad (c : Chan) (n : Nat) : Nat × Nat := (1000000000 * n, c.period * c.decim)

/-- Taps a channel computes at present: both banks during a fade. -/
def tapsNow (c : Chan) : Nat :=
  if c.fade.isSome then tapsOf c.bankA + tapsOf c.bankB else tapsOf (bankOf c c.active)

/-- R170: the load with `n` taps on one channel. -/
def macCheck (x : Chan) (n : Nat) (s : State) : Except Fail Unit :=
  let others := (s.filt.chans.filter fun y => y.slot != x.slot).map fun y => macLoad y (tapsNow y)
  let ex := excess (macLoad x n :: others) 24576000000 1 1000
  need (ex == 0) { st := stMacBudget, r0 := ex, r1 := 0 }

def iFiltSwap : CmdInfo := { filtCmd 0x0203 1000 12 with range := swapRange }

/-- FILT_SWAP (R170, R172, R174): it completes at its swap point. -/
def bodyFiltSwap : Body := fun c s => do
  let x ← chanOf c s
  need (x.fade.isNone && x.pend.isNone && (bankOf x (otherBank x)).isSome) (err stState)
  macCheck x (tapsOf (bankOf x (otherBank x))) s
  .ok (updChan x.slot (fun x => { x with pend := some { req := reqRef c.q, at' := swapAt c, fade := 0 } }) s, .wait)

def execFiltSwap (r : ReqRef) (io : Io) (s : State) : Result := serve iFiltSwap bodyFiltSwap r io s

def iFiltCrossfade : CmdInfo :=
  { filtCmd 0x0204 1000 14 with range := fun c s => swapRange c s && inR 16 (prm c 12 2) 4096 }

/-- FILT_CROSSFADE (R170, R173, R174): it completes at its start point. -/
def bodyFiltCrossfade : Body := fun c s => do
  let x ← chanOf c s
  need (x.fade.isNone && x.pend.isNone && x.swapped && (bankOf x (otherBank x)).isSome) (err stState)
  macCheck x (tapsOf x.bankA + tapsOf x.bankB) s
  .ok (updChan x.slot (fun x => { x with
    pend := some { req := reqRef c.q, at' := swapAt c, fade := prm c 12 2 } }) s, .wait)

def execFiltCrossfade (r : ReqRef) (io : Io) (s : State) : Result := serve iFiltCrossfade bodyFiltCrossfade r io s

def iFiltSetPhase : CmdInfo := { filtCmd 0x0205 100 2 with range := fun c _ => decide (prm c 0 2 ≤ 4095) }

/-- FILT_SET_PHASE (R176). -/
def bodyFiltSetPhase : Body := fun c s =>
  .ok (updChan (objSlot c) (fun x => { x with newPhase := some (prm c 0 2) }) s, okR 0 0)

def execFiltSetPhase (r : ReqRef) (io : Io) (s : State) : Result := serve iFiltSetPhase bodyFiltSetPhase r io s

/-- ESTIMATE of FILT_DC_FREEZE. -/
def dcEstimate (c : Ctx) : Int := signedOf 64 (prm c 8 8)

def iFiltDcFreeze : CmdInfo :=
  { filtCmd 0x0206 100 16 with
    range := fun c _ => decide (prm c 0 1 ≤ 2) && decide (satSigned 48 (dcEstimate c) = dcEstimate c) }

/-- FILT_DC_FREEZE (R177). -/
def bodyFiltDcFreeze : Body := fun c s => do
  let x ← chanOf c s
  need (x.dcShift != 0) (err stState)
  .ok (updChan x.slot (fun x => { x with newFreeze := x.newFreeze ++ [(prm c 0 1, dcEstimate c)] }) s, okR 0 0)

def execFiltDcFreeze (r : ReqRef) (io : Io) (s : State) : Result := serve iFiltDcFreeze bodyFiltDcFreeze r io s

/-- L_p in ns by tap band and decimation class (Table 5.3). -/
def procLatency (taps m : Nat) : Nat :=
  let row := if taps ≤ 96 then [1200, 1000, 900, 900] else if taps ≤ 192 then [1600, 1100, 950, 900]
    else if taps ≤ 288 then [2000, 1200, 1000, 900] else [2400, 1300, 1050, 950]
  natAt row (if m ≤ 1 then 0 else if m ≤ 16 then 1 else if m ≤ 256 then 2 else 3)

/-- SPI transaction time of a channel in whole ns, rounded up (R183). -/
def txnNs (x : Chan) (s : State) : Nat :=
  (getSel x.ctrl x.cs s).elim 0 fun y => ceilDiv (txnTime y).1 (txnTime y).2

/-- G, L_p and total latency of a bank (R180, R183); zeros for an empty bank. -/
def bankDelay (x : Chan) (b : Option Bank) (txn : Nat) : List Byte :=
  match b with
  | none => zeros 16
  | some b =>
    let lp := procLatency b.taps.length x.decim
    let total : Int := ((x.phase * 65536 : Nat) + b.g) * (x.period : Int) + ((txn + lp) * 65536 : Nat)
    leBytes 4 (codeOf 32 b.g) ++ leBytes 4 lp ++ leBytes 8 (codeOf 64 total)

/-- The delay record (Table 5.5). -/
def delayRecord (x : Chan) (txn : Nat) : List Byte :=
  let a := bankOf x x.active
  let b := bankOf x (otherBank x)
  let cls (b : Option Bank) : Nat := b.elim 0 (·.cls)
  leBytes 2 x.phase ++ leBytes 2 x.decim ++ leBytes 4 x.period ++ leBytes 4 txn ++ leBytes 2 (tapsOf a)
    ++ leBytes 1 (cls a) ++ leBytes 1 (if x.fade.isSome then 1 else 0) ++ bankDelay x a txn
    ++ leBytes 2 (tapsOf b) ++ leBytes 1 (cls b) ++ [0] ++ bankDelay x b txn ++ zeros 12

def iFiltDelayQuery : CmdInfo := { filtCmd 0x0207 100 12 with res := resMin 64 }

/-- FILT_DELAY_QUERY (R183). -/
def bodyFiltDelayQuery : Body := fun c s => do
  let x ← chanOf c s
  .ok (s, okD 0 0 (delayRecord x (txnNs x s)))

def execFiltDelayQuery (r : ReqRef) (io : Io) (s : State) : Result :=
  serve iFiltDelayQuery bodyFiltDelayQuery r io s

end Sys2Proof.Machine
end

