-- ==== Sys2Proof/Machine/Power.lean ====
section
/-! DEFINITION. Performance levels, the hardware backstop, switched domains, parking, pad hold, self-tests and
the group 0x0B commands but PWR_STATE_ENTER (R459 to R474, R490, R491, R512 to R515). -/
namespace Sys2Proof.Machine

def stPwrRefused : Nat := 0x8B01
def stPwrAborted : Nat := 0x8B02

/-! ### Safety limits (R459, R460, R541) -/

/-- A safety limit set to its default: the mismatch record of R421 and the record of kind 8 (R427, R541).
 DEDUCED [121]. -/
def limitFault (addr : Nat) (s : State) : State :=
  let s := mismatch 7 0 addr (0, addr) 0 s
  addFault (mkFault 8 7 0 addr 0 7 0 0 0 s) s

/-- Every unusable limit pair takes its safe default (R459, R460, R541). DEDUCED [121]. -/
def limFix (s : State) : State :=
  let s := if s.pwr.cap.ok then s else
    limitFault 0x20010 { s with pwr := { s.pwr with cap := Comp.of 150, capDefault := true } }
  if s.pwr.tj.ok then s else
    limitFault 0x20018 { s with pwr := { s.pwr with tj := Comp.of 85, tjDefault := true } }

/-! ### Levels (R461 to R464, R566) -/

/-- Device power of a level at full load, in 0.1 W (Table 14.1). DEDUCED [123]. -/
def levelPower (l : Nat) : Nat := natAt [580, 488, 409, 343, 284, 237, 200, 172] l

/-- The bounds of an effective value (Table 15.3), in units of 2^-46. -/
def ucalBounds (n : Nat) : Int × Int :=
  let f := Config.factory n * 2 ^ 30
  let near (k : Int) : Int × Int := (f - k * 2 ^ 46, f + k * 2 ^ 46)
  if n < 0x200 then near 3 else if n < 0x300 then near 15 else if n < 0x400 then (0, 10 * 2 ^ 46)
  else if n < 0x500 then near 8 else if n < 0x600 then (-200 * 2 ^ 46, 200 * 2 ^ 46) else if n < 0x700 then near 2
  else if n < 0x800 then near 8 else (-20 * 2 ^ 46, 20 * 2 ^ 46)

/-- The effective value of a parameter under a user set (R496), in units of 2^-46: factory × `SCALE` + `OFFSET`,
clamped; the factory value without an entry. -/
def effective (n : Nat) (set' : List Byte) : Int :=
  match (records 16 (set'.drop 128)).find? fun e => fld e 0 2 == n with
  | none => Config.factory n * 2 ^ 30
  | some e =>
    let b := ucalBounds n
    max b.1 (min b.2 (Config.factory n * signedOf 32 (fld e 8 4) + signedOf 32 (fld e 4 4) * 2 ^ 30))

/-- The voltage code of a level (R566, Table 18.4): 2.5 mV each from 0.2 V. A user trim moves it by at most
15 mV, rounded to the nearest code with ties towards the higher voltage, and never below code 94 or above 246.
DEDUCED [129]. DEDUCED [127]. -/
def vidCode (l : Nat) (s : State) : Nat :=
  let n := 0x200 + l
  let moved := effective n s.boot.ucal - Config.factory n * 2 ^ 30
  -- 2.5 mV a code
  let steps : Int := (4 * moved + 5 * 2 ^ 46) / (10 * 2 ^ 46)
  (max 94 (min 246 (((240 - 20 * l : Nat) : Int) + steps))).toNat

/-- A change of level (R462): the core voltage moves with it. DESIGN CHOICE [128]. -/
def setLevel (l : Nat) (s : State) : State :=
  if l = s.pwr.level then s else
  emit (.vid (vidCode l s)) { s with pwr.level := l }

/-- What holds the level against Stage Manager's choice (R463, R464, R533). DEDUCED [126]. -/
def levelForced (s : State) : Bool :=
  s.pwr.backstop || s.pwr.thermal || s.pwr.trip || !s.pwr.throttle.isEmpty

/-- The predicted power at a level stays at or below 95 % of the cap (R461). DEDUCED [123]. -/
def levelFits (l : Nat) (s : State) : Bool :=
  decide (s.pwr.power * levelPower l ≤ 95 * s.pwr.cap.n * levelPower s.pwr.level)

/-- The fastest level that fits between `FASTEST` and `SLOWEST`, or beyond `SLOWEST` where the cap prevails
(R461). -/
def chooseLevel (s : State) : Nat :=
  ((List.range 8).find? fun l => decide (s.pwr.fastest ≤ l) && levelFits l s).getD 7

/-- LEVEL_CHOICE_TICK (R461, R464): every 10 ms. At the throttle limit one level slower, or slower still where the cap
asks for it. DEDUCED [122]. DEDUCED [124]. -/
def execLevelChoiceTick (powerMw : Nat) (tj : Int) (s : State) : Result :=
  ended (if !ready s || decide (s.time.mono < s.pwr.choiceAt + 10 * msT) then s else
    let s := limFix s
    let s := { s with pwr := { s.pwr with power := powerMw, temp := tj, choiceAt := s.time.mono } }
    if levelForced s then s
    else if (s.pwr.tj.n : Int) * 10 ≤ tj then setLevel (max (min 7 (s.pwr.level + 1)) (chooseLevel s)) s
    else
      let l := chooseLevel s
      let below := decide (s.pwr.slowest < l)
      let news := below && (!s.pwr.belowFloor || l != s.pwr.level)
      let s := setLevel l { s with pwr.belowFloor := below }
      if news then raise 0x0B01 (l + sat16 (powerMw / 100) * 256) none s else s)

/-- One forced step (R463, R464): one level slower, and below P7 one eighth of the pace less. Nothing is left
to force at one eighth of the P7 pace. -/
def forceSlower (cause : Nat) (s : State) : State :=
  if s.pwr.level < 7 ∨ s.pwr.eighths < 7 then
    let s := if s.pwr.level < 7 then setLevel (s.pwr.level + 1) s
      else { s with pwr.eighths := s.pwr.eighths + 1 }
    let s := if cause = 0 then { s with pwr.actPower := sat32 s.pwr.actPower 1 }
      else { s with pwr.actThermal := sat32 s.pwr.actThermal 1 }
    raise 0x0B04 (cause + s.pwr.level * 256 + s.pwr.eighths * 65536) none s
  else s

/-- The fixed trip at 115 °C (R464): P7 at one eighth of its pace, and `THERMTRIP_N`. -/
def thermTrip (s : State) : State :=
  let s := setLevel 7 { s with pwr := { s.pwr with trip := true, actTrip := sat32 s.pwr.actTrip 1 } }
  let s := emit (.pin "THERMTRIP_N" false) { s with pwr.eighths := 7 }
  raise 0x0B04 (2 + 7 * 256 + 7 * 65536) none s

/-- The core supply is on and the backstop works: not in a cold reset, not in S2 to S4. -/
def backstopLive (s : State) : Bool :=
  decide (s.pwr.state ≤ 1) && s.boot.phase != .off && s.boot.phase != .waitRails && s.boot.phase != .held

/-- The power part of a backstop millisecond (R463). DEDUCED [125]. -/
def backstopPower (powerMw : Nat) (s : State) : State :=
  let cap := s.pwr.cap.n * 100
  let above := if cap * 11 < powerMw * 10 then s.pwr.overMs + 1 else 0
  let s := { s with pwr.overMs := min above 6 }
  if s.pwr.backstop then
    if cap ≤ powerMw then forceSlower 0 { s with pwr.underMs := 0 }
    else if 10 ≤ s.pwr.underMs + 1 then { s with pwr := { s.pwr with backstop := false, underMs := 0 } }
    else { s with pwr.underMs := s.pwr.underMs + 1 }
  else if 6 ≤ above then forceSlower 0 { s with pwr := { s.pwr with backstop := true, underMs := 0 } }
  else s

/-- The temperature part (R464). DEDUCED [125]. -/
def backstopThermal (tj : Int) (s : State) : State :=
  let s := if s.pwr.trip && decide (tj < 1000) then emit (.pin "THERMTRIP_N" true) { s with pwr.trip := false } else s
  if ((s.pwr.tj.n : Int) + 5) * 10 ≤ tj then forceSlower 1 { s with pwr.thermal := true }
  else { s with pwr.thermal := false }

/-- POWER_BACKSTOP_TICK (R463, R464). The pace is whole again once nothing forces it. DEDUCED [125]. -/
def execPowerBackstopTick (powerMw : Nat) (tj : Int) (s : State) : Result :=
  ended (if !backstopLive s || decide (s.time.mono < s.pwr.stopAt + msT) then s else
    let s := backstopPower powerMw (backstopThermal tj (limFix { s with pwr := { s.pwr with temp := tj, stopAt := s.time.mono } }))
    if s.pwr.backstop || s.pwr.thermal || s.pwr.trip then s else { s with pwr.eighths := 0 })

/-! ### Who uses a domain (R468, R469) -/

/-- Refuser identities (Table 14.5). -/
def refDom (d : Nat) : Nat := 0x1000 + d
def refFn (f : Nat) : Nat := 0x2000 + f
def refFw (r : Nat) : Nat := 0x3000 + r

/-- The least of some numbers. -/
def least (l : List Nat) : Option Nat := l.foldl (fun a x => some (a.elim x (min x))) none

/-- The function of an object. -/
def fnOf (ty slot : Nat) (s : State) : Nat := (getObj ty slot s).elim 0 (·.fn)

/-- The functions whose runs have work in a cluster: queued or running tasks, and runs of packages placed
there. -/
def runFns (c q : Nat) (s : State) : List Nat :=
  let onTiles := (s.tile.tiles.filter fun t => t.id / 4 == 4 * c + q).flatMap fun t =>
    (t.queue ++ (t.running.map (·.1)).toList).map (·.inst)
  let placed := (s.tile.insts.filter fun (x : Inst) =>
    !x.runs.isEmpty && (getPkg x.pkg s).any fun p => p.place.contains c).map (·.slot)
  (onTiles ++ placed).map fun i => fnOf 6 i s

/-- The functions whose objects lie in a stage memory (R469). -/
def stageFns (c : Nat) (s : State) : List Nat :=
  ((s.mem.allocs.filter fun a => a.onchip && a.cluster == c).map fun a => fnOf 13 a.slot s)
    ++ ((s.tile.pkgs.filter fun p => p.place.contains c).map fun p => fnOf 5 p.slot s)
    ++ ((s.sheets.filter fun x => x.img.stageIn c != 0 || x.img.flagsIn c != 0).map fun x => fnOf 4 x.slot s)

/-- The functions whose work waits for or runs on a search-engine group (R397). DEDUCED [133]. -/
def searchFns (g : Nat) (s : State) : List Nat :=
  let mine (e : Option Nat) : Bool := e.elim true fun e => e / 4 == g
  ((s.map.ctx.filter fun x => mine x.engine).map fun x => srcFn x.req.src)
    ++ ((s.map.batches.filter fun b => b.queries.any fun q => !q.done && mine q.engine).map fun b => srcFn b.req.src)

/-- The functions with an open stream, low-rate channel or filter channel in a domain. -/
def portFns (d : Nat) (s : State) : List Nat :=
  ((s.sens.streams.filter fun x => portDomain x.kind x.port == d).map fun x => fnOf 2 x.slot s)
    ++ ((s.sens.lows.filter fun x => portDomain x.kind x.port == d).map fun x => fnOf 1 x.sess s)
    ++ (if d = 90 then s.filt.chans.map fun x => fnOf 3 x.slot s else [])

/-- The first domain of a cluster's quadrants that is not off. -/
def quadrantOn (c : Nat) (s : State) : Option Nat :=
  ((List.range 4).map fun q => 4 * c + q).find? fun d => (getDom d s).on || (getDom d s).returning

/-- What keeps a domain from parking: its refuser (R468, R469, R188, R323, R397, R441). DEDUCED [133]. -/
def domWork (d : Nat) (s : State) : Option Nat :=
  let owner (l : List Nat) : Option Nat := (least l).map refFn
  if d < 64 then owner (runFns (d / 4) (d % 4) s)
  else if d < 80 then
    match quadrantOn (d - 64) s with
    | some q => some (refDom q)
    | none => owner (stageFns (d - 64) s)
  else if d < 84 then owner ((s.sheets.filter fun x => x.started && x.group == d - 80).map fun x => fnOf 4 x.slot s)
  else if d < 88 then
    owner (searchFns (d - 84) s ++ (s.ens.ens.toList.map fun e => fnOf 12 e.slot s))
  else if d < 90 then
    owner ((s.probs.filter fun p => p.gsus.any fun g => 88 + g / 4 == d).map fun p =>
      (probSrc p.slot).elim 0 fun (t, n) => fnOf t n s)
  else if d = 91 then some (refFw 8)
  else if d = 95 then owner (s.ens.ens.toList.map fun e => fnOf 12 e.slot s)
  else owner (portFns d s)

/-! ### Parking and pads (R466 to R474) -/

/-- Domains whose pads are held while they are off (R472). -/
def padDoms : List Nat := [90, 92, 93, 94, 95]

/-- Slices of a domain's self-test (Table 15.8). -/
def testSlices (d : Nat) : Nat :=
  if d < 64 then 6 else if d < 80 then 3 else if d < 84 then 5 else if d < 88 then 3
  else if d < 90 then 5 else if d = 90 then 2 else 1

/-- Units of a domain that are fenced one by one: tiles, engines, GSUs. -/
def unitsOf (d : Nat) : Nat := if d < 64 then 4 else if 84 ≤ d ∧ d < 90 then 4 else 0

/-- The switched domain of a slack monitor; monitor 16 lies in the management domain (R547). -/
def monitorDom (n : Nat) : Option Nat := if n < 16 then some (64 + n) else if n = 16 then none else some (63 + n)

/-- A monitor at its reset value. -/
def Slack.zero : Slack := { slack := 0, neg := false, seen := false, min := 0, restart := true, at' := 0 }

/-- A domain loses its supply: what it held is lost (R466), its pads are latched (R472), its channels stall
(R474), its slack monitor starts anew (R549). -/
def gateDom (d : Nat) (s : State) : State :=
  let s := updDom d (fun x => { x with on := false, returning := false, pads := x.pads || padDoms.contains d }) s
  let s := { s with pwr.slack := s.pwr.slack.mapIdx fun n (x : Slack) => if monitorDom n = some d then Slack.zero else x }
  if d < 64 then { s with tile.badImgs := s.tile.badImgs.filter fun b => b.1 / 4 != d }
  else if d = 90 then
    { s with filt := { s.filt with
      chans := s.filt.chans.map fun (c : Chan) => { c with offStall := c.offStall || !c.stalled, stalled := true }
      sels := s.filt.sels.map fun (x : ChipSel) => { x with queue := [] }
      busy := [] } }
  else if d = 95 then linksDown s
  else s

/-- A self-test begins (R512). -/
def startTest (d : Nat) (req : Option ReqRef) (s : State) : State :=
  updDom d (fun x => { x with test := 3, run := some { slice := 0, bad := 0, abandon := false, req } }) s

/-- A domain parks and its self-test begins (R467, R512). A fence is judged anew only at a cold start or by
DIAG_SELFTEST_RECORD (R514), so a domain fenced whole is not tested here. DEDUCED [129]. DEDUCED [130]. -/
def parkDom (d : Nat) (req : Option ReqRef) (s : State) : State :=
  let s := gateDom d (updDom d (fun x => { x with hold := x.hold || x.pads }) s)
  if (getDom d s).test == 2 && req.isNone then s else startTest d req s

/-- The pads of a domain are released; its stalled channels resume (R473, R474). -/
def releasePads (d : Nat) (s : State) : State :=
  if !(getDom d s).pads then s else
  let s := updDom d (fun x => { x with pads := false }) s
  if d = 90 then
    (s.filt.chans.filter (·.offStall)).foldl (fun s (c : Chan) => resume c.slot s) s
  else s

/-- A domain is powered again (R470). -/
def domBack (d : Nat) (s : State) : State :=
  updDom d (fun x => { x with on := true, returning := false, idleAt := s.time.mono }) s

/-- DOMAIN_RETURN_DONE (R469, R470, R473): after the return delay of Table 14.2; a stage memory comes before its quadrants; a self-test under way
lets its slice finish first (R513). -/
def execDomainReturnDone (d : Nat) (s : State) : Result :=
  ended (let x := getDom d s
    if !decide (d < 96) || !x.returning || decide (s.time.mono < x.backAt) || x.run.isSome || (decide (d < 64) && !domOn (64 + d / 4) s) then s else
    let s := domBack d s
    if x.hold then s else releasePads d s)

/-- Every domain that holds work is in use at this instant (R467). DESIGN CHOICE [1]. -/
def markBusy (s : State) : State :=
  { s with pwr.doms := s.pwr.doms.mapIdx fun d (x : Dom) =>
      if (domWork d s).isSome then { x with idleAt := s.time.mono } else x }

/-- DOMAIN_IDLE_PARK (R467, R469): mode 0, in S0, and no use for `IDLE_MS`. -/
def execDomainIdlePark (d : Nat) (s : State) : Result :=
  .next (let x := getDom d s
    if decide (d < 96) && ready s && domOn d s && x.mode == 0 && (domWork d s).isNone
      && decide (x.idleAt + x.idleMs * msT ≤ s.time.mono) then parkDom d none s else s)

/-! ### Self-tests (R512 to R515) -/

/-- A fence of a domain, whole or in part (R514). -/
def fence (d mask : Nat) (whole : Bool) (s : State) : State :=
  let s := updDom d (fun x => { x with
    test := if whole then 2 else 1, fenced := if unitsOf d = 0 then 0 else mask, endAt := s.time.now }) s
  let s := { s with boot.cntFences := s.boot.cntFences + 1 }
  raise 0x0E01 (d + (if unitsOf d = 0 then 0 else mask) * 256) none s

/-- R244: packages placed on a cluster that falls below their `TILES_MIN`; one that has them again can fall anew. -/
def belowMin (c : Nat) (s : State) : State :=
  let n := (tilesIn c s).length
  let again (p : Pkg) : Pkg := { p with below := p.below.filter fun d => d != c || decide (n < p.rs.tilesMin) }
  let s := { s with tile.pkgs := s.tile.pkgs.map again }
  (s.tile.pkgs.filter fun (p : Pkg) => p.place.contains c && decide (n < p.rs.tilesMin) && !p.below.contains c).foldl
    (fun s (p : Pkg) => raise 0x0402 (c + n * 256) (some (5, p.slot))
      (updPkg p.slot (fun p => { p with below := p.below ++ [c] }) s)) s

/-- The result of a finished test: pass, or the fence of Table 15.8. -/
def judgeTest (d bad : Nat) (s : State) : State :=
  let full := 2 ^ unitsOf d - 1
  let whole := unitsOf d = 0 || bad % (full + 1) == full
  if bad = 0 then
    let s := updDom d (fun x => { x with test := 1, fenced := 0, endAt := s.time.now }) s
    if d < 64 then belowMin (d / 4) s else s
  else
    let s := updDom d (fun x => { x with failed := sat32 x.failed 1 }) (fence d (if whole then full else bad % (full + 1)) whole s)
    if d < 64 then belowMin (d / 4) s
    else if d < 80 then
      belowMin (d - 64) (((List.range 4).map fun q => 4 * (d - 64) + q).foldl (fun s q => fence q 15 true s) s)
    else s

/-- Counts a test that ran to its end. -/
def countTest (d n : Nat) (s : State) : State :=
  updDom d (fun x => { x with run := none, slices := n, tests := sat32 x.tests 1 }) s

/-- A self-test record (Table 15.10). -/
def testRecord (x : Dom) : List Byte :=
  let st := if x.run.isSome then 3 else if x.fenced != 0 then 2 else x.test
  [BitVec.ofNat 8 st, BitVec.ofNat 8 x.slices, BitVec.ofNat 8 x.fenced, 0] ++ leBytes 4 x.tests
    ++ leBytes 4 x.failed ++ leBytes 4 x.abandoned
    ++ (if x.endAt = 0 then zeros 16 else timeWord { t := x.endAt, tag := 0 })

/-- The results of DIAG_SELFTEST_RECORD (Table 15.9): its header is not laid out, so it is zero.
 DESIGN CHOICE [132]. -/
def testBytes (s : State) : List Byte := zeros 64 ++ s.pwr.doms.flatMap testRecord

/-- Ends the command that asked for a test (R515). DEDUCED [131]. -/
def endTestReq (req : Option ReqRef) (st r0 : Nat) (s : State) : State :=
  match req with
  | none => s
  | some r => postRef r st r0 0 (if st = stOk then some (testBytes s) else none) s

/-- SELFTEST_SLICE_DONE (R512 to R514): `bad` holds the units that the slice found bad, bit 0 for a domain
without units of its own. A test that work waits for is abandoned. DEDUCED [131]. -/
def execSelftestSliceDone (d bad : Nat) (s : State) : Result :=
  .next (match (getDom d s).run with
    | none => s
    | some t =>
      let x := getDom d s
      let n := t.slice + 1
      if x.returning || t.abandon then
        let s := updDom d (fun x => { x with
          run := none, test := 0, slices := n, abandoned := sat32 x.abandoned 1, endAt := s.time.now }) s
        settle (endTestReq t.req stAborted 0 s)
      else if n < testSlices d then
        updDom d (fun x => { x with run := some { t with slice := n, bad := t.bad ||| bad } }) s
      else
        let found := t.bad ||| bad
        let all := if t.req.isSome then found else found ||| x.fenced
        let s := countTest d n s
        let s := if found = 0 && t.req.isNone && x.fenced != 0 then
            updDom d (fun x => { x with test := 1, endAt := s.time.now }) s
          else judgeTest d all s
        settle (endTestReq t.req stOk (if found = 0 then 0 else 1) s))

/-! ### Commands (Table 14.9) -/

/-- A group 0x0B command of the administrator. -/
def pwrCmd (opcode ms inline : Nat) : CmdInfo := { opcode, handle := .admin, inline, dl := dlMs ms }

def iPwrCapSet : CmdInfo :=
  { pwrCmd 0x0B00 100 3 with
    range := fun c _ => (inR 150 (prm c 0 2) 600 || prm c 0 2 == 0xFFFF) && (inR 60 (prm c 2 1) 105 || prm c 2 1 == 0xFF) }

/-- PWR_CAP_SET (R459, R460, R491, R541): a write of a pair clears its `LIM_STATUS` bit. -/
def bodyPwrCapSet : Body := fun c s =>
  let cap := prm c 0 2
  let tj := prm c 2 1
  let p := s.pwr
  let p := if cap = 0xFFFF then p else { p with cap := Comp.of cap, capDefault := false }
  let p := if tj = 0xFF then p else { p with tj := Comp.of tj, tjDefault := false }
  .ok ({ s with pwr := p }, okR 0 0)

def execPwrCapSet (r : ReqRef) (io : Io) (s : State) : Result := serve iPwrCapSet bodyPwrCapSet r io s

/-- `FASTEST` and `SLOWEST` after a PWR_LEVEL_SET. -/
def newRange (c : Ctx) (s : State) : Nat × Nat :=
  (if prm c 0 1 = 0xFF then s.pwr.fastest else prm c 0 1, if prm c 1 1 = 0xFF then s.pwr.slowest else prm c 1 1)

def iPwrLevelSet : CmdInfo :=
  { pwrCmd 0x0B01 100 2 with
    range := fun c s =>
      let (f, l) := newRange c s
      decide (f ≤ 7) && decide (l ≤ 7) && decide (f ≤ l) }

/-- PWR_LEVEL_SET (R491): the present level moves into the new range at once, unless the hardware holds it.
 DEDUCED [126]. -/
def bodyPwrLevelSet : Body := fun c s =>
  let (f, l) := newRange c s
  let s := { s with pwr := { s.pwr with fastest := f, slowest := l } }
  let s := if levelForced s then s
    else { setLevel (max f (min l s.pwr.level)) s with pwr.belowFloor := false }
  .ok (s, okR s.pwr.level 0)

def execPwrLevelSet (r : ReqRef) (io : Io) (s : State) : Result := serve iPwrLevelSet bodyPwrLevelSet r io s

/-- Keeps a refusal or an abort, newest first (Table 14.11). -/
def logPower (kind target refuser step : Nat) (s : State) : State :=
  { s with pwr.log := ({ at' := s.time.now, kind, target, refuser, step } :: s.pwr.log).take 16 }

/-- A park refused (R468). -/
def refusePark (d refuser : Nat) (s : State) : State :=
  logPower 2 d refuser 0 { s with pwr.parksRefused := sat32 s.pwr.parksRefused 1 }

def iPwrDomainPark : CmdInfo :=
  { pwrCmd 0x0B03 1000 8 with
    range := fun c _ => decide (prm c 0 1 ≤ 95) && decide (prm c 1 1 ≤ 3) && decide (prm c 2 1 ≤ 1)
      && decide (prm c 4 4 ≤ 60000) }

/-- PWR_DOMAIN_PARK (R467, R468). DEDUCED [129]. -/
def bodyPwrDomainPark : Body := fun c s => do
  let d := prm c 0 1
  let mode := prm c 1 1
  let off := !(getDom d s).on
  let set (m : Nat) (s : State) : State :=
    updDom d (fun x => { x with
      mode := m, hold := (prm c 2 1).testBit 0, idleMs := if prm c 4 4 = 0 then 100 else prm c 4 4
      idleAt := if x.mode = 0 then x.idleAt else s.time.mono }) s
  if mode < 2 then
    let s := set mode s
    .ok (if mode = 1 && off && !domBarred d s then startReturn [d] s else s, okR 0 0)
  else
    match domWork d s with
    | some f => .error { st := stPwrRefused, r0 := f, r1 := 0, fx := refusePark d f }
    | none =>
      let s := set (if mode = 2 then 0 else 3) s
      .ok (if off then updDom d (fun x => { x with returning := false }) s else parkDom d none s, okR 0 0)

def execPwrDomainPark (r : ReqRef) (io : Io) (s : State) : Result := serve iPwrDomainPark bodyPwrDomainPark r io s

def iPwrPadRelease : CmdInfo := { pwrCmd 0x0B04 100 1 with range := fun c _ => decide (prm c 0 1 < 32) }

/-- PWR_PAD_RELEASE (R473, R491). -/
def bodyPwrPadRelease : Body := fun c s => do
  let named := (padDoms.zipIdx.filter fun (_, i) => (prm c 0 1).testBit i)
  need (named.all fun (d, _) => domOn d s) (err stState)
  let released := ((named.filter fun (d, _) => (getDom d s).pads).map fun (_, i) => 2 ^ i).sum
  .ok (named.foldl (fun s (x : Nat × Nat) => releasePads x.1 s) s, okR released 0)

def execPwrPadRelease (r : ReqRef) (io : Io) (s : State) : Result := serve iPwrPadRelease bodyPwrPadRelease r io s

/-- The bits of a list, bit n for entry n. -/
def maskBits (l : List Bool) : Nat := ((l.zipIdx.filter (·.1)).map fun x => 2 ^ x.2).sum

/-- The PWR_STATUS record (Table 14.10). -/
def pwrRecord (s : State) : List Byte :=
  let p := s.pwr
  let flags := maskBits [p.belowFloor, p.backstop, p.thermal, p.trip, p.capDefault, p.tjDefault]
  let doms (f : Dom → Bool) : List Byte := leBytes 12 (maskBits (p.doms.map f))
  padTo 128 (leBytes 1 p.level ++ leBytes 1 p.fastest ++ leBytes 1 p.slowest ++ leBytes 1 flags
    ++ leBytes 2 p.cap.n ++ leBytes 1 p.tj.n ++ leBytes 1 p.eighths ++ leBytes 4 p.power
    ++ leBytes 2 (codeOf 16 p.temp) ++ zeros 2 ++ doms (fun x => x.on && !x.returning)
    ++ doms (fun x => x.test == 2 || x.fenced != 0) ++ doms (fun x => x.mode == 3)
    ++ leBytes 1 (maskBits (padDoms.map fun d => (getDom d s).pads)))

def iPwrStatus : CmdInfo := { opcode := 0x0B05, handle := .zero, inline := 12, dl := dlMs 100, res := resMin 128 }

/-- PWR_STATUS (Table 14.10). -/
def bodyPwrStatus : Body := fun _ s =>
  let s := limFix s
  .ok (s, okD 0 0 (pwrRecord s))

def execPwrStatus (r : ReqRef) (io : Io) (s : State) : Result := serve iPwrStatus bodyPwrStatus r io s

/-- A kept refusal or abort (Table 14.11). -/
def logBytes (l : PwrLog) : List Byte :=
  timeWord { t := l.at', tag := 0 } ++ leBytes 1 l.kind ++ leBytes 1 l.target ++ leBytes 2 l.refuser
    ++ leBytes 1 l.step ++ zeros 3

/-- The PWR_COUNTERS record (Table 14.11). -/
def countersRecord (s : State) : List Byte :=
  let p := s.pwr
  let w (ns : List Nat) : List Byte := ns.flatMap (leBytes 4)
  let head := w (p.entries.drop 1) ++ w (p.returns.drop 1)
    ++ w [p.replayed, p.resampled, p.refused, p.aborted, p.parksRefused, p.brownouts, p.actPower, p.actThermal, p.actTrip]
    ++ w p.wakes
  padTo 512 (padTo 128 head ++ p.log.flatMap logBytes)

def iPwrCounters : CmdInfo := { opcode := 0x0B06, handle := .zero, inline := 12, dl := dlMs 100, res := resMin 512 }

/-- PWR_COUNTERS (R490). -/
def bodyPwrCounters : Body := fun _ s => .ok (s, okD 0 0 (countersRecord s))

def execPwrCounters (r : ReqRef) (io : Io) (s : State) : Result := serve iPwrCounters bodyPwrCounters r io s

/-! ### Entry and return (R476 to R486) -/

/-- `READY` rises and every live pair fetches again (R477, R494, R495). -/
def raiseReady (s : State) : State :=
  { s with boot := { s.boot with readyAt := some s.time.mono, dataBad := false }, link := { s.link with fetchStopped := false } }

/-- The domains powered at entry are powered again; those parked before it stay parked (R484). A self-test
under way in one of them is abandoned (R513). -/
def restoreDoms (s : State) : State :=
  let back (x : Dom) : Dom :=
    if !x.wakeUp then x
    else { x with
      on := x.test != 2, returning := false, wakeUp := false, idleAt := s.time.mono
      run := none, test := if x.run.isSome then 0 else x.test
      abandoned := if x.run.isSome then sat32 x.abandoned 1 else x.abandoned }
  { s with pwr.doms := s.pwr.doms.map back }

/-- How long the return order takes (R484, Table 14.8), in µs: from its first step for the state left; after an abort
from PCIe, or from the port domains where PCIe was not gated. DEDUCED [282]. -/
def returnUs (left src : Nat) (inL2 : Bool) : Nat :=
  if src = 8 then (if inL2 then 2070 else 1770)
  else if left = 3 then 7070 else if left = 2 then 2270 else 1520

/-- When the last steps of an entry into S2 or S3 are over: 0.10 ms, and 0.50 ms, after the link reached L2
(Table 14.6). -/
def tailEnd (s : State) : Nat :=
  if s.pwr.state = 2 ∨ s.pwr.state = 3 then
    s.pwr.sleep.elim 0 fun e => e.at' + (if s.pwr.state = 2 then 100 else 500) * usT
  else 0

/-- A wake or an abort starts the return (R484 to R486): the pending bits are cleared once the source is
recorded (R542). From S3 the regulator takes its full mode and the main supplies are asked for. With the link in
L2 the K9 drives `WAKE_N`, unless source 1 woke it (R482). DEDUCED [134]. DEDUCED [135]. -/
def beginReturn (left src flags : Nat) (s : State) : State :=
  let s := { s with pwr := { s.pwr with
    retAt := max s.time.mono (tailEnd s) + returnUs left src s.link.inL2 * usT
    sleep := none, returning := some (left, src, flags), pending := 0, latch := 0, regLow := false } }
  let s := if s.link.inL2 && src != 1 then
      emit (.pin "WAKE_N" false) { s with pwr.wakeDrive := some s.time.mono } else s
  if left = 3 && !s.boot.mainEn then emit (.pin "MAIN_PWR_EN" true) { s with boot := { s.boot with mainEn := true, mainEnAt := s.time.mono } }
  else s

/-- Counts an abort of an entry (R480, Table 14.11). -/
def countAbort (target refuser step : Nat) (s : State) : State :=
  logPower 1 target refuser step { s with pwr.aborted := sat32 s.pwr.aborted 1 }

/-- An entry that ends before its completion: the K9 is in S0 again (R480). DEDUCED [134]. -/
def abortEntry (st refuser : Nat) (s : State) : State :=
  match s.pwr.sleep with
  | none => s
  | some e =>
    let s := countAbort e.target refuser e.step { s with pwr := { s.pwr with sleep := none, latch := 0 } }
    let s := raiseReady (restoreDoms s)
    match e.req with
    | some r => postRef r st refuser 0 none s
    | none => s

end Sys2Proof.Machine
end

