-- ==== Sys2Proof/Machine/Cancel.lean ====
section
/-! DEFINITION. How an open request ends before its time: aborts, deadlines, and the ending of requests
without completions (R15, R40, R78, R80, R88, R95, R97, R98). -/
namespace Sys2Proof.Machine

/-! ### Ending one request -/

/-- A closing object whose release is aborted is live again. DEDUCED [136]. -/
def reopen (r : ReqRef) (s : State) : State :=
  { s with obj := { s.obj with
    objs := s.obj.objs.map fun (o : Obj) => if o.st == .closing (some r) then { o with st := .live } else o
    sessions := s.obj.sessions.map fun (x : Session) => if x.close.any fun c => c.1 == r then { x with close := none } else x } }

/-- A recasting that waits for its handover point is given up (R509, R511); a probation that a fallback waited in
goes on. -/
def dropRecast (r : ReqRef) (s : State) : State :=
  match s.boot.recast with
  | none => s
  | some c =>
    if c.req == some r && c.took.isNone then
      let back : Option Recast := c.prior.map fun (op, took, n) => { c with req := none, fallback := false, op, took := some took, probationS := n, prior := none }
      let s := journalStep c.op 4 0 s
      { s with boot.recast := back }
    else s

/-- A request that runs, by the group of its opcode, ends with a status. DEDUCED [136]. -/
def cancelRunning (q : Req) (st : Nat) (s : State) : State :=
  let r := reqRef q
  if !(closingBy r s).isEmpty then post q st 0 0 none (reopen r s) else
  match q.opcode / 256 with
  | 0x02 =>
    let drop (c : Chan) : Chan := if c.pend.any fun p => p.req == r then { c with pend := none } else c
    post q st 0 0 none { s with filt.chans := s.filt.chans.map drop }
  | 0x03 =>
    let drop (x : Sheet) : Sheet := if x.stopping == some r then { x with stopping := none } else x
    post q st 0 0 none { s with sheets := s.sheets.map drop }
  | 0x04 => cancelRun q st s
  | 0x05 => post q st 0 0 none (dropPend r s)
  | 0x06 => cancelSolve q st s
  | 0x07 => cancelMap q st s
  | 0x08 => cancelMap q st s
  | 0x0A => cancelEns q st s
  | 0x0B => if s.pwr.sleep.any fun e => e.req == some r then abortEntry st 0 s else post q st 0 0 none s
  | 0x0E =>
    let drop (x : Dom) : Dom :=
      { x with run := x.run.map fun (t : Test) => if t.req == some r then { t with req := none } else t }
    post q st 0 0 none (dropRecast r { s with pwr.doms := s.pwr.doms.map drop })
  | _ => post q st 0 0 none s

/-- An open request ends with a status: at once while it is only fetched. -/
def cancel (q : Req) (st : Nat) (s : State) : State :=
  if q.phase == .fetched then post q st 0 0 none s else cancelRunning q st s

/-- A pair put out of reach of completions, and back (its number has 16 bits). -/
def hidePair (fn qid dest : Nat) (s : State) : State := updPair fn qid (fun p => { p with qid := dest }) s

/-- An open request is gone without a completion (R40, R95, R98): its pair, or the callboard's response, is
out of reach while its work ends. -/
def cancelSilent (q : Req) (s : State) : State :=
  let s := dropReq q.order s
  match q.src with
  | .queue fn i => hidePair fn (i + 65536) i (cancel q stAborted (hidePair fn i (i + 65536) s))
  | .callboard => { cancel q stAborted s with cb := s.cb }

/-- Every open request that meets a test is gone without a completion. -/
def cancelAll (p : Req → Bool) (s : State) : State :=
  (s.link.reqs.filter p).foldl (fun s (q : Req) => if (s.link.reqs.any fun x => x.order == q.order) then cancelSilent q s else s) s

/-! ### Deadlines (R15, R88) -/

/-- What a request that is unfinished at its deadline comes to (R15 and its chapter). DEDUCED [68]. -/
def timeOut (q : Req) (s : State) : State :=
  if q.phase == .fetched && q.opcode != 0x000E && q.opcode != 0x0603 then post q stTimeout 0 0 none s else
  match q.opcode with
  | 0x000E => post q stOk 0 0 none s
  | 0x0303 => stopDeadline q s
  | 0x0603 => solveTimeout q s
  | _ => cancelRunning q stTimeout s

/-- COMMAND_DEADLINE (R88). A release has its own rule (R78). -/
def execCommandDeadline (r : ReqRef) (s : State) : Result :=
  .next (match findReq r s with
    | none => s
    | some q =>
      let dl := if q.opcode = 0x0404 then runDeadline q s else if q.opcode = 0x0603 then solveDeadline q s else q.dl
      if dueOpt dl s && (closingBy r s).isEmpty then settle (timeOut q s) else s)

/-- RELEASE_DEADLINE (R78): the commands still running on the closing objects end with `ST_E_ABORTED`, and the
release completes. -/
def execReleaseDeadline (r : ReqRef) (s : State) : Result :=
  .next (match findReq r s with
    | none => s
    | some q =>
      let os := closingBy r s
      if !dueOpt q.dl s || os.isEmpty then s else
      let batch (x : Req) : Bool := os.any fun o => o.ty == 11 && s.map.batches.any fun b => b.slot == o.slot && b.req == reqRef x
      let names (x : Req) : Bool := holdsRelease q os x || (x.phase == .running && batch x)
      settle ((s.link.reqs.filter names).foldl (fun s (x : Req) => cancelRunning x stAborted s) s))

/-- An orphan whose hold has passed and whose dependants are all such orphans too (R80). -/
def holdOver (o : Obj) (s : State) : Bool := o.st == .orphan && dueOpt o.holdAt s

/-- ORPHAN_HOLD_EXPIRY (R80): the orphan is released once every dependant is an orphan whose hold has passed
too; dependants go first. -/
def execOrphanHoldExpiry (ty slot : Nat) (s : State) : Result :=
  .next (match getObj ty slot s with
    | none => s
    | some o =>
      if !holdOver o s then s else
      let rec grow : Nat → List Obj → List Obj
        | 0, l => l
        | n + 1, l =>
          let more := s.obj.objs.filter fun x => !(l.any (isObj x.ty x.slot)) && l.any fun y => x.deps.contains (y.ty, y.slot)
          if more.isEmpty then l else grow n (l ++ more)
      let l := grow s.obj.objs.length [o]
      if !(l.all fun x => holdOver x s) then s else
      settle (releaseAll ((s.obj.objs.filter fun x => l.any (isObj x.ty x.slot)).reverse) s))

end Sys2Proof.Machine
end

