-- ==== Sys2Proof/Machine/Sessions.lean ====
section
/-! DEFINITION. Sessions: opening, closing, adoption, event waits, handle queries (R75 to R83, R92, R93, R100,
R504). -/
namespace Sys2Proof.Machine

/-! ### ADM_SESSION_OPEN -/

def iAdmSessionOpen : CmdInfo :=
  { opcode := 0x0001, handle := .zero, inline := 13, dl := dlMs 100
    auth := fun c _ => !(prm c 12 1).testBit 0 || c.fn == 0
    range := fun c _ => decide (prm c 8 4 ≤ 86400) && decide (prm c 12 1 ≤ 1) }

/-- ADM_SESSION_OPEN (R74, R92, R504): the first administrator session takes the device queue. -/
def bodyAdmSessionOpen : Body := fun c s => do
  let admin := (prm c 12 1).testBit 0
  need (!admin || (adminSession s).isNone) (err stState)
  limitCheck 1 s
  need (decide ((s.obj.objs.filter fun o => o.ty == 1 && o.fn == c.fn).length < 256)) (err stLimit)
  let (slot, g, s) := newObj 1 (2 ^ 32) c.fn none [] false 0 0 s
  let x : Session :=
    { slot, tag := prm c 0 8, holdS := prm c 8 4, admin, close := none
      events := if admin then s.obj.devEvents else [], lost := if admin then s.obj.devLost else 0 }
  let s := { s with obj.sessions := s.obj.sessions ++ [x] }
  let s := if admin then { s with obj := { s.obj with devEvents := [], devLost := 0 } } else s
  .ok (s, okR slot g)

def execAdmSessionOpen (r : ReqRef) (io : Io) (s : State) : Result :=
  serve iAdmSessionOpen bodyAdmSessionOpen r io s

/-! ### Closing (R79) -/

/-- Whether a list of objects holds an object. -/
def hasObj (l : List Obj) (o : Obj) : Bool := l.any (isObj o.ty o.slot)

/-- A session's objects with every object of the session that they depend on, directly or not. -/
def withDeps (own : List Obj) : Nat → List Obj → List Obj
  | 0, l => l
  | n + 1, l =>
    let more := own.filter fun o => !hasObj l o && l.any fun x => x.deps.contains (o.ty, o.slot)
    if more.isEmpty then l else withDeps own n (l ++ more)

/-- Objects held on session close (Table 3.3). -/
def heldType (o : Obj) : Bool := [7, 9, 10, 12, 14].contains o.ty || (o.ty == 13 && o.shared)

/-- Objects of a session that a close releases or orphans. -/
def closeOwn (slot : Nat) (s : State) : List Obj :=
  s.obj.objs.filter fun o => o.ty != 1 && o.sess == some slot && o.st == .live

/-- The objects that a close orphans: the held ones in mode 1, those on which an object of another session
depends, and what these depend on. -/
def closeOrphans (slot mode : Nat) (s : State) : List Obj :=
  let own := closeOwn slot s
  let others := s.obj.objs.filter fun o => !(o.sess == some slot)
  let first := own.filter fun o =>
    (mode == 1 && heldType o) || others.any fun x => x.deps.contains (o.ty, o.slot)
  let l := withDeps own own.length first
  own.filter (hasObj l)

/-- CUE_STOP mode 1 of a sheet that is started (R228). -/
def stopSheet (slot : Nat) (s : State) : State :=
  match getSheet slot s with
  | none => s
  | some sh =>
    if !sh.started then s else
    let s := match sh.stopping with
      | some r => postRef r stOk sh.lastSet 0 none s
      | none => s
    let s := sh.sets.foldl (fun s fs => abandon slot fs.n stAborted s) s
    giveWork sh.group (unbind slot (finishSets slot (releaseSetFrames slot s)))

/-- A stream or a started sheet is stopped (R154, R228). -/
def stopInput (o : Obj) (s : State) : State :=
  match o.ty with
  | 2 => stopStream o.slot s
  | 4 => stopSheet o.slot s
  | _ => s

/-- An object becomes an orphan (R79, R80). -/
def orphan (holdS : Nat) (o : Obj) (s : State) : State :=
  updObj o.ty o.slot (fun x => { x with
    sess := none, st := .orphan, holdS, holdAt := some (s.time.mono + holdS * secT) }) s

/-- What a release of an object ends first, as its own command does (R228, R268, R319, R362, R384, R401).
 DEDUCED [137]. -/
def endWork (o : Obj) (s : State) : State :=
  match o.ty with
  | 4 => stopSheet o.slot s
  | 6 =>
    let (n, s) := abortQueued o.slot s
    updInst o.slot (fun x => { x with aborted := n }) s
  | 7 => updGrid o.slot (fun g => { g with epochs := [] }) s
  | 8 =>
    let queued := (getProb o.slot s).elim [] fun p => p.runs.filter fun r => r.start.isNone
    let s := updProb o.slot (fun p => { p with runs := p.runs.filter fun r => r.start.isSome }) s
    queued.foldl (fun s (r : SolveRun) => postRef r.req stAborted 0 0 none s) s
  | 9 => rollBack o.slot stAborted s
  | 10 => endRebuild o.slot stAborted 0 2 s
  | 12 => linksDown { s with map.maps := s.map.maps.map fun (m : MapO) => { m with ens := [] } }
  | _ => s

/-- Orphans what a close orphans and prepares the rest for release; answers the objects to release. DEDUCED [137]. -/
def beginClose (x : Session) (mode : Nat) (s : State) : List Obj × Nat × State :=
  let orphans := closeOrphans x.slot mode s
  let rel := (closeOwn x.slot s).filter fun o => !hasObj orphans o
  -- under mode 1, what is orphaned with a grid is stopped (R79)
  let grids := if mode = 1 then orphans.filter fun o => o.ty == 7 else []
  let s := (withDeps orphans orphans.length grids).foldl (fun s o => stopInput o s) s
  let s := orphans.foldl (fun s o => orphan x.holdS o s) s
  (rel, orphans.length, rel.foldl (fun s o => endWork o s) s)

/-- Closes a session at once (R81, R82): its requests have ended. -/
def closeNow (mode : Nat) (x : Session) (s : State) : State :=
  let (rel, _, s) := beginClose x mode s
  let s := releaseAll rel.reverse s
  match getObj 1 x.slot s with
  | some o => releaseObj o s
  | none => s

/-- Closes every session that meets a test, in mode 1. -/
def closeSessions (p : Session → Bool) (s : State) : State :=
  (s.obj.sessions.filter p).foldl (fun s (x : Session) => closeNow 1 x s) s

def iAdmSessionClose : CmdInfo :=
  { opcode := 0x0002, handle := .obj [1], inline := 1, dl := dlMs 1000, range := fun c _ => decide (prm c 0 1 ≤ 1) }

/-- ADM_SESSION_CLOSE (R78, R79). -/
def bodyAdmSessionClose : Body := fun c s => do
  let some x := getSession (objSlot c) s | .error (err stState)
  let r := reqRef c.q
  let (rel, n, s) := beginClose x (prm c 0 1) s
  let closing (o : Obj) : Obj :=
    if hasObj rel o || isObj 1 x.slot o then { o with st := .closing (some r) } else o
  let s := { s with obj := { s.obj with
    objs := s.obj.objs.map closing
    sessions := updIf (fun y => y.slot == x.slot) (fun y => { y with close := some (r, n, (rel.filter fun o => o.ty == 11).length) }) s.obj.sessions } }
  .ok (s, .wait)

def execAdmSessionClose (r : ReqRef) (io : Io) (s : State) : Result :=
  serve iAdmSessionClose bodyAdmSessionClose r io s

/-! ### ADM_SESSION_ADOPT -/

/-- The orphan that an adoption names. -/
def adoptArg (c : Ctx) (s : State) : Except Fail Obj := lookupHandle allTypes c.fn false (prm c 0 8) s

def iAdmSessionAdopt : CmdInfo :=
  { opcode := 0x0003, handle := .obj [1], inline := 8, dl := dlMs 100, hands := fun c s => (adoptArg c s).map fun _ => () }

/-- ADM_SESSION_ADOPT (R80): the orphan and every orphan it depends on. -/
def bodyAdmSessionAdopt : Body := fun c s => do
  let o ← adoptArg c s
  need (o.st == .orphan) (err stState)
  let pool := s.obj.objs.filter fun x => x.st == .orphan
  let l := withDeps pool pool.length [o]
  let take (x : Obj) : Obj := if hasObj l x then { x with sess := some (objSlot c), st := .live, holdAt := none } else x
  .ok ({ s with obj.objs := s.obj.objs.map take }, okR l.length 0)

def execAdmSessionAdopt (r : ReqRef) (io : Io) (s : State) : Result :=
  serve iAdmSessionAdopt bodyAdmSessionAdopt r io s

/-! ### ADM_HANDLE_QUERY, ADM_EVENT_WAIT -/

def iAdmHandleQuery : CmdInfo := { opcode := 0x0009, handle := .any, inline := 0, dl := dlMs 100 }

/-- ADM_HANDLE_QUERY (R77, R78). -/
def bodyAdmHandleQuery : Body := fun c s => do
  let some o := c.obj | .error (err stRange)
  let st := match o.st with
    | .live => 1
    | .closing _ => 2
    | .orphan => 3
  .ok (s, okR (dependants o.ty o.slot s).length st)

def execAdmHandleQuery (r : ReqRef) (io : Io) (s : State) : Result := serve iAdmHandleQuery bodyAdmHandleQuery r io s

def iAdmEventWait : CmdInfo :=
  { opcode := 0x000E, handle := .obj [1], inline := 12, dl := dlMs 1000
    range := fun c _ => inR 32 (prm c 8 4) 32768 && prm c 8 4 % 32 == 0 }

/-- ADM_EVENT_WAIT (R100): it waits until its session has an event; at most 16 waits of a session are open. -/
def bodyAdmEventWait : Body := fun c s => do
  let open' := s.link.reqs.filter fun q => q.opcode == 0x000E && q.phase == .running && q.handle == c.q.handle
  need (decide (open'.length < 16)) (err stLimit)
  .ok (s, .wait)

def execAdmEventWait (r : ReqRef) (io : Io) (s : State) : Result := serve iAdmEventWait bodyAdmEventWait r io s

end Sys2Proof.Machine
end

