-- ==== Sys2Proof/Machine/Security.lean ====
section
/-! DEFINITION. Security and life cycle: identity, image checks, quotes, tokens, alarms and the group 0x0D
commands (R516 to R536). -/
namespace Sys2Proof.Machine

def stTransition : Nat := 0x8D01
def stTokenStale : Nat := 0x8D02
def stKeysErased : Nat := 0x8D03

/-! ### Boot log and images -/

/-- Writes a boot log record (R499, R532). DEDUCED [155]. DESIGN CHOICE [285]. -/
def pushBoot (kind reason detail : Nat) (s : State) : State :=
  let full := decide (Config.bootLogSize ≤ s.boot.bootLog.length)
  { s with boot := { s.boot with
    bootLog := ({ at' := s.time.now, kind, reason, detail } :: s.boot.bootLog).take Config.bootLogSize
    bootLost := s.boot.bootLost + (if full then 1 else 0) } }

/-- The 64 bytes of a boot log record, whose layout the manual leaves open. -/
def bootBytes (r : BootRec) : List Byte :=
  (List.range 64).map (Config.bootRecordByte [r.at', r.kind, r.reason, r.detail])

/-- `RELEASE` of an image (Table 16.4). -/
def imgRelease (b : List Byte) : Nat := fld b 8 4
def imgSecVersion (b : List Byte) : Nat := fld b 12 1
def imgFormat (b : List Byte) : Nat := fld b 13 1
def imgAcceptMin (b : List Byte) : Nat := fld b 14 1

/-- Check 1 of R523: the header fields within Table 16.4, and the length. -/
def imgHeaderOk (b : List Byte) : Bool :=
  fld b 0 4 == 0x534D4931 && fld b 4 2 == 1 && fld b 6 2 == 0 && decide (imgSecVersion b ≤ 63)
    && inR 1 (imgFormat b) 255 && inR 1 (imgAcceptMin b) (imgFormat b) && fld b 15 1 == 0
    && inR 4096 (fld b 16 8) 8380416 && zeroAt b 88 40 && zeroAt b 7347 845 && b.length == 8192 + fld b 16 8

/-- The checks of R523 in order, as a code of Table 15.4: 0 when the image is accepted. -/
def checkImage (b : List Byte) (s : State) : Nat :=
  if !imgHeaderOk b then 2
  else if Config.sha3 (b.drop 8192) ≠ slice b 24 64 then 3
  else if Config.sha3 (slice b 128 2592) ≠ s.sec.fwDigest then 4
  else if !Config.mldsaVerify (slice b 128 2592) (Config.sha3 (b.take 2720)) (slice b 2720 4627) then 4
  else if imgSecVersion b < s.sec.floor then 5
  else 0

/-- `ID_FIRMWARE` (R2): the running release while Stage Manager serves. -/
def idFirmware (s : State) : Nat :=
  if s.cb.server = 2 then s.boot.active.elim 0 fun i => imgRelease i.bytes else 0

/-! ### Alarm policy (R534, Table 16.6) -/

/-- Default actions of the sensors in a life-cycle state. -/
def policyDefaults (life : Nat) : List Nat :=
  if life = 3 then [3, 3, 1, 1, 0] else if life = 4 then [2, 2, 1, 1, 0] else [0, 0, 0, 0, 0]

/-- The lowest action that a state allows a sensor. DEDUCED [166]. -/
def policyLowest (life : Nat) : List Nat :=
  if life = 3 ∨ life = 4 then [2, 2, 1, 1, 0] else [0, 0, 0, 0, 0]

/-- The policy word: three bits per sensor. -/
def packPolicy (l : List Nat) : Nat := (l.zipIdx.map fun (a, i) => a * 8 ^ i).sum

/-- The action of a sensor in a policy word. -/
def policyAction (w sensor : Nat) : Nat := bitsOf w (3 * sensor + 2) (3 * sensor)

/-- The policy takes the defaults of the present state. -/
def policyReset (s : State) : State :=
  { s with sec.policy := Comp.of (packPolicy (policyDefaults (lifecycle s))) }

/-- An unusable policy pair takes its safe default (R534, R541). -/
def policyFix (s : State) : State :=
  if s.sec.policy.ok then s else
    limitFault 0x20020 (policyReset { s with pwr := { s.pwr with polDefault := true } })

/-! ### Alarms (R531 to R535) -/

/-- Erases the keys (R535). DEDUCED [150]. -/
def eraseKeys (s : State) : State :=
  let s := linksDown s
  { s with sec := { s.sec with
    erased := true, identity := false, authority := [], port := false, portUntil := none } }

/-- Halts the K9 (R533): every open request ends without a completion, `READY` falls, every switched domain
but PCIe parks without a self-test, Stage Manager stays the server. DEDUCED [286]. -/
def haltAct (s : State) : State :=
  if s.sec.halted then s else
  let s := cancelAll (fun _ => true) s
  let s := { setServer 2 s with
    sec := { s.sec with halted := true }, boot := { s.boot with readyAt := none }
    link := { s.link with fetchStopped := true } }
  let drop (x : Dom) : Dom := { x with run := none, test := if x.run.isSome then 0 else x.test }
  ((List.range 96).filter fun d => d != 91).foldl (fun s d => gateDom d (updDom d drop s)) s

/-- Forces P7 until a condition has been absent for 1 s (R533). -/
def throttleAct (sensor : Nat) (s : State) : State :=
  let s := { s with
    pwr := { s.pwr with throttle := sensor :: s.pwr.throttle.filter fun x => x != sensor }
    sec := { s.sec with condAt := assocSet s.sec.condAt sensor s.time.mono } }
  setLevel 7 s

/-- What an alarm always does (R532): the boot log record, M4, the count, event 0x0D01. DESIGN CHOICE [154]. -/
def recordAlarm (sensor action detail : Nat) (s : State) : State :=
  let rec' : BootRec := { at' := s.time.now, kind := 0x80 + sensor, reason := action, detail }
  let s := measure 4 (bootBytes rec') (pushBoot (0x80 + sensor) action detail s)
  let s := { s with sec := { s.sec with alarms := sat32 s.sec.alarms 1, lastSensor := sensor, lastAction := action } }
  raise 0x0D01 (sensor + action * 256) none s

/-- An alarm and its action (R532, R533). -/
def alarm (sensor detail : Nat) (s : State) : State :=
  let s := policyFix s
  let action := policyAction s.sec.policy.n sensor
  let s := recordAlarm sensor action detail s
  match action with
  | 0 => s
  | 1 => throttleAct sensor s
  | 2 => haltAct s
  | _ => haltAct (eraseKeys s)

/-- Whether the security block runs: not while the K9 is without supply or held in reset. -/
def secLive (s : State) : Bool :=
  s.boot.phase != .off && s.boot.phase != .waitRails && s.boot.phase != .held && s.pwr.state != 4

/-- Sensors that stay sensed in S3 (Table 16.6). -/
def sensedInS3 (sensor : Nat) : Bool := [0, 2, 4].contains sensor

/-- TAMPER_ALARM (R531 to R535): in S3 the alarm is latched, and acts on the next return. -/
def execTamperAlarm (sensor detail : Nat) (s : State) : Result :=
  .next (if !secLive s || 4 < sensor then s
    else if s.pwr.state = 3 then
      if sensedInS3 sensor then { s with sec := { s.sec with latched := s.sec.latched ++ [(sensor, detail)] } } else s
    else settle (alarm sensor detail s))

/-- Alarms latched in S3 act, in the order sensed (R532). -/
def actLatched (s : State) : State :=
  s.sec.latched.foldl (fun s (x : Nat × Nat) => alarm x.1 x.2 s) { s with sec := { s.sec with latched := [] } }

/-- THROTTLE_RELEASE (R533): the conditions that have been absent for 1 s force nothing more. -/
def execThrottleRelease (s : State) : Result :=
  let above (n : Nat) : Bool := decide (assocGet s.sec.condAt n + secT ≤ s.time.mono)
  let gone := s.pwr.throttle.filter above
  .next { s with
    pwr := { s.pwr with throttle := s.pwr.throttle.filter fun n => !above n }
    sec := { s.sec with condAt := s.sec.condAt.filter fun (x : Nat × Nat) => !gone.contains x.1 } }

/-- THERMAL_TRIP (R464): the trip at 115 °C, and the temperature alarm. -/
def execThermalTrip (tj : Int) (s : State) : Result :=
  .next (if !backstopLive s || s.pwr.trip || tj < 1150 then s else
    settle (alarm 3 (codeOf 16 tj) (thermTrip { s with pwr := { s.pwr with temp := tj } })))

/-! ### Debug port and tokens (R528 to R530) -/

/-- States whose debug access port is open (Table 16.1). -/
def portByState (life : Nat) : Bool := [0, 1, 4, 5].contains life

/-- Closes a debug port that is open: event 0x0D04 with its cause. -/
def closePort (cause : Nat) (s : State) : State :=
  if !s.sec.port then s else
    raise 0x0D04 cause none { s with sec := { s.sec with port := false, portUntil := none } }

/-- CHALLENGE_EXPIRY (R529): 300 s after its issue. -/
def execChallengeExpiry (s : State) : Result :=
  .next (if past (s.sec.challenge.map (·.at')) (300 * secT) s then
    { s with sec := { s.sec with challenge := none } } else s)

/-- DEBUG_PORT_EXPIRY (R530). -/
def execDebugPortExpiry (s : State) : Result :=
  .next (if s.sec.port && dueOpt s.sec.portUntil s && s.sec.portUntil.isSome then settle (closePort 0 s) else s)

/-- The fields of a token within Table 16.9. DEDUCED [164]. -/
def tokenOk (b : List Byte) : Bool :=
  b.length == 7347 && fld b 0 4 == 0x554E4C31 && fld b 4 2 == 1 && decide (fld b 6 1 ≤ 7) && fld b 7 1 == 0
    && zeroAt b 76 52 && (!(fld b 6 1).testBit 0 || inR 60 (fld b 72 4) 86400)

/-- Use of an outstanding challenge ends it (R529). -/
def useChallenge (s : State) : State := { s with sec := { s.sec with challenge := none } }

/-- The checks of a token that must carry a scope bit (R529); `ok` when it is accepted.
 DEDUCED [163]. DEDUCED [164]. -/
def tokenCheck (b : List Byte) (bit : Nat) (s : State) : Except Fail Unit := do
  need (tokenOk b) (err stRange)
  let used (st : Nat) : Fail := { err st with fx := useChallenge }
  let live := s.sec.challenge.filter fun c => decide (s.time.mono < c.at' + 300 * secT)
  need (live.any fun c => slice b 8 64 == Config.sha3 c.bytes) (used stTokenStale)
  need ((fld b 6 1).testBit bit) (used stTokenStale)
  need (!s.sec.erased && Config.sha3 (slice b 128 2592) == s.sec.authority) (used stAuth)
  need (Config.mldsaVerify (slice b 128 2592) (Config.sha3 (b.take 2720)) (slice b 2720 4627)) (used stAuth)

/-- What an accepted token leaves: its challenge is used, M4 is extended (R529). DESIGN CHOICE [154]. -/
def acceptToken (b : List Byte) (s : State) : State := measure 4 (Config.sha3 b) (useChallenge s)

/-! ### Commands (Table 16.10) -/

/-- Bytes that a request carries beside `PARAM`. -/
def hasPay (q : Req) : Bool := q.pref || q.cbdata

def iSecQuote : CmdInfo :=
  { opcode := 0x0D00, handle := .obj [1], inline := 0, dl := dlMs 100, pay := .optional
    inlineOf := fun q => if fld q.param 12 1 = 1 then 14 else if hasPay q then 24 else 48
    res := fun q _ => if fld q.param 12 1 = 1 then none else some 5779
    range := fun c _ => decide (prm c 12 1 ≤ 1) && (prm c 12 1 == 0 || (inR 8 (prm c 13 1) 15 && hasPay c.q && c.plen == 64))
      && (prm c 12 1 == 1 || decide (24 ≤ c.plen)) }

/-- Bytes 0 to 1,151 of a quote (Table 16.7). DEDUCED [167]. -/
def quoteBody (mask : Nat) (nonce : List Byte) (s : State) : List Byte :=
  let regs := s.sec.m.zipIdx.flatMap fun (m, i) => if mask.testBit i then leBytes 64 m.toNat else zeros 64
  leBytes 4 0x51544531 ++ leBytes 2 1 ++ leBytes 1 (lifecycle s)
    ++ leBytes 1 ((if s.sec.port then 1 else 0) + (if s.sec.halted then 2 else 0)) ++ leBytes 2 mask
    ++ leBytes 2 s.sec.floor ++ leBytes 4 (idFirmware s) ++ s.sec.serial ++ timeWord (stampNow 0 s)
    ++ padTo 32 (nonce.take 32) ++ leBytes 4 s.sec.alarms ++ zeros 44 ++ regs

/-- SEC_QUOTE (R526, R527). A quote's parameters take 48 bytes and do not fit inline (R47); with a payload, the
parameters go on in it. DEDUCED [167]. -/
def bodySecQuote : Body := fun c s => do
  need (!s.sec.erased && (s.sec.identity || prm c 12 1 == 1)) (err stKeysErased)
  if prm c 12 1 = 1 then .ok (measure (prm c 13 1) c.pay s, okR 0 0)
  else
    let b := quoteBody (prm c 14 2) (slice c.q.param 16 8 ++ c.pay) s
    .ok (s, okD 0 0 (b ++ Config.mldsaSign s.sec.pubKey (Config.sha3 b)))

def execSecQuote (r : ReqRef) (io : Io) (s : State) : Result := serve iSecQuote bodySecQuote r io s

/-- `RESULT0` of SEC_LIFECYCLE. -/
def lifeWord (s : State) : Nat :=
  lifecycle s + s.sec.floor * 256 + (if s.sec.erased then 2 ^ 16 else 0) + (if s.sec.port then 2 ^ 17 else 0)

/-- What a transition of Table 16.2 needs: nothing, the authority digest, or a token with a scope bit. -/
inductive LifeNeed where
  | nothing
  | authority
  | token (bit : Nat)
deriving DecidableEq, Repr

/-- The transitions of Table 16.2, and after an erasure the one of R535. -/
def lifeNeed (old new : Nat) (erased : Bool) : Option LifeNeed :=
  if erased then (if new = 5 ∧ old ≠ 5 then some .nothing else none)
  else match old, new with
    | 1, 2 => some .authority
    | 2, 3 => some .nothing
    | 3, 4 => some (.token 1)
    | 4, 3 => some .nothing
    | 1, 5 => some .nothing
    | 2, 5 => some .nothing
    | 4, 5 => some .nothing
    | 3, 5 => some (.token 2)
    | _, _ => none

/-- The state bits that a transition burns or sets (R517, R521, R535). -/
def lifeBurn (old new : Nat) (pay : List Byte) (s : State) : State :=
  match new with
  | 2 =>
    let (pub, s) := drawBytes 2592 s
    { s with sec := { s.sec with base := 2, identity := true, pubKey := pub, authority := pay } }
  | 3 => { s with sec := { s.sec with base := 3, service := Comp.of 0 } }
  | 4 => { s with sec := { s.sec with service := Comp.of 1 } }
  | _ =>
    let s := eraseKeys s
    { s with sec := { s.sec with base := if old = new then s.sec.base else 5, service := Comp.of 0 } }

/-- Extends M3 with the state and the floor (R519, Table 16.5): how they make its digest is left open.
 DESIGN CHOICE [154]. -/
def measureLife (s : State) : State :=
  let (d, s) := drawBytes 64 s
  measure 3 d s

/-- A transition (R518, R519, R530). DEDUCED [287]. -/
def lifeMove (old new : Nat) (pay : List Byte) (s : State) : State :=
  let opened := s.sec.port && (s.sec.portUntil.isSome || !portByState new)
  let s := if opened then closePort 2 s else s
  let s := lifeBurn old new pay s
  let s := { s with sec := { s.sec with port := portByState new, portUntil := none } }
  let s := measureLife (policyReset { s with pwr := { s.pwr with polDefault := false } })
  raise 0x0D02 (old + new * 256) none s

def iSecLifecycle : CmdInfo :=
  { opcode := 0x0D01, handle := .admin, inline := 1, pay := .optional
    dl := fun q _ => if fld q.param 0 1 = 0xFF then 100000 else 10000000
    range := fun c s => (decide (prm c 0 1 ≤ 5) || prm c 0 1 == 0xFF)
      && !(lifecycle s == 1 && prm c 0 1 == 2 && !s.sec.erased && !(hasPay c.q && c.plen == 64)) }

/-- SEC_LIFECYCLE (R518 to R520, R535, R536). DEDUCED [162]. -/
def bodySecLifecycle : Body := fun c s => do
  let new := prm c 0 1
  if new = 0xFF then .ok (s, okR (lifeWord s) 0) else
  let old := lifecycle s
  let ens := s.link.reqs.any fun q => q.opcode / 256 == 0x0A
  need ((openOps s).isEmpty && s.boot.recast.isNone && !ens) (err stState)
  match lifeNeed old new s.sec.erased with
  | none => .error (err stTransition)
  | some (.token bit) =>
    need (hasPay c.q) (err stAuth)
    tokenCheck c.pay bit s
    let s := lifeMove old new [] (acceptToken c.pay s)
    .ok (s, okR (lifeWord s) 0)
  | some _ =>
    let s := lifeMove old new c.pay s
    .ok (s, okR (lifeWord s) 0)

def execSecLifecycle (r : ReqRef) (io : Io) (s : State) : Result := serve iSecLifecycle bodySecLifecycle r io s

def iSecUnlockChallenge : CmdInfo :=
  { opcode := 0x0D02, handle := .admin, inline := 13, dl := dlMs 100, res := resMin 128
    range := fun c _ => decide (prm c 12 1 ≤ 7) }

/-- SEC_UNLOCK_CHALLENGE (R528, R529): the new challenge replaces an outstanding one. -/
def bodySecUnlockChallenge : Body := fun c s =>
  let (nonce, s) := drawBytes 32 s
  let b := s.sec.serial ++ leBytes 1 (lifecycle s) ++ leBytes 1 (prm c 12 1) ++ zeros 2 ++ nonce
    ++ timeWord (stampNow 0 s) ++ leBytes 4 300 ++ zeros 56
  let x : Challenge := { bytes := b, scope := prm c 12 1, at' := s.time.mono }
  .ok ({ s with sec := { s.sec with challenge := some x } }, okD 0 0 b)

def execSecUnlockChallenge (r : ReqRef) (io : Io) (s : State) : Result :=
  serve iSecUnlockChallenge bodySecUnlockChallenge r io s

def iSecUnlock : CmdInfo :=
  { opcode := 0x0D03, handle := .admin, inline := 1, dl := dlMs 100, pay := .optional
    range := fun c _ => decide (prm c 0 1 ≤ 1) && (prm c 0 1 == 1 || (hasPay c.q && c.plen == 7347)) }

/-- SEC_UNLOCK (R528 to R530): a token with scope [0] opens the debug port for `DURATION_S`; in a state that
holds it open, the port stays as it is. DEDUCED [165]. -/
def bodySecUnlock : Body := fun c s => do
  if prm c 0 1 = 1 then
    .ok (if s.sec.portUntil.isSome then closePort 1 s else s, okR 0 0)
  else
    tokenCheck c.pay 0 s
    let n := fld c.pay 72 4
    let s := acceptToken c.pay s
    if portByState (lifecycle s) then .ok (s, okR n 0)
    else
      let s := { s with sec := { s.sec with port := true, portUntil := some (s.time.mono + n * secT) } }
      .ok (raise 0x0D03 n none s, okR n 0)

def execSecUnlock (r : ReqRef) (io : Io) (s : State) : Result := serve iSecUnlock bodySecUnlock r io s

/-- An action that SEC_ALARM_POLICY may set for a sensor (R68, R534). DEDUCED [166]. -/
def actionOk (life sensor a : Nat) : Bool :=
  a == 0xFF || (decide (natAt (policyLowest life) sensor ≤ a) && decide (a ≤ 3) && (life != 5 || a == 0))

def iSecAlarmPolicy : CmdInfo :=
  { opcode := 0x0D04, handle := .admin, inline := 5, dl := dlMs 100
    range := fun c s => (List.range 5).all fun i => actionOk (lifecycle s) i (prm c i 1) }

/-- SEC_ALARM_POLICY (R534, R541). -/
def bodySecAlarmPolicy : Body := fun c s =>
  let s := policyFix s
  let old := s.sec.policy.n
  let w := packPolicy ((List.range 5).map fun i => if prm c i 1 = 0xFF then policyAction old i else prm c i 1)
  .ok ({ s with sec := { s.sec with policy := Comp.of w }, pwr := { s.pwr with polDefault := false } }, okR w 0)

def execSecAlarmPolicy (r : ReqRef) (io : Io) (s : State) : Result := serve iSecAlarmPolicy bodySecAlarmPolicy r io s

def iSecIdentityRead : CmdInfo := { opcode := 0x0D05, handle := .zero, inline := 12, dl := dlMs 100, res := resMin 2720 }

/-- SEC_IDENTITY_READ (R522, Table 16.3). -/
def bodySecIdentityRead : Body := fun _ s => do
  need (s.sec.identity && !s.sec.erased) (err stKeysErased)
  .ok (s, okD 0 0 (s.sec.serial ++ leBytes 1 (lifecycle s) ++ zeros 47 ++ Config.sha3 s.sec.pubKey ++ s.sec.pubKey))

def execSecIdentityRead (r : ReqRef) (io : Io) (s : State) : Result := serve iSecIdentityRead bodySecIdentityRead r io s

end Sys2Proof.Machine
end

