-- ==== Sys2Proof/Machine/Boot.lean ====
section
/-! DEFINITION. Supplies, reset pins, cold start, failed starts, Understudy mode and warm reset (R489, R492 to
R507, R562 to R574). -/
namespace Sys2Proof.Machine

/-! ### What a reset leaves (Table 15.1) -/

/-- A domain after a cold reset: its test results, fence and fence counters stay (R492, R550); a test that was
under way is gone. -/
def coldDom (x : Dom) : Dom :=
  { Dom.reset with
    test := if x.test = 3 then 0 else x.test, slices := x.slices, fenced := x.fenced, tests := x.tests
    failed := x.failed, abandoned := x.abandoned, endAt := x.endAt, fenceRd := x.fenceRd, fenceWr := x.fenceWr }

/-- Power after a cold reset: the counters of R490 and the domain records stay. DESIGN CHOICE [4]. DEDUCED [147]. -/
def coldPower (p : Power) : Power :=
  { Power.reset with
    doms := p.doms.map coldDom, brownouts := p.brownouts, entries := p.entries, returns := p.returns
    replayed := p.replayed, resampled := p.resampled, refused := p.refused, aborted := p.aborted
    parksRefused := p.parksRefused, actPower := p.actPower, actThermal := p.actThermal, actTrip := p.actTrip
    wakes := p.wakes, log := p.log, polDefault := p.polDefault }

/-- The levels of the supplies, pins and clock, what flash holds, and the straps last given: no reset changes
them. -/
def keepPins (b z : Boot) : Boot :=
  { z with
    vaux := b.vaux, mainPg := b.mainPg, mainEn := b.mainEn, mainEnAt := 0, resetLow := b.resetLow
    perstLow := b.perstLow, clkLost := b.clkLost, straps := b.straps, qspiBoot := b.qspiBoot
    qspiFallback := b.qspiFallback, qspiUcal := b.qspiUcal }

/-- The start sequencer after a cold reset: the ghost-light records stay. -/
def coldBoot (b : Boot) : Boot :=
  { keepPins b Boot.reset with
    fsc := b.fsc, fscBad := b.fscBad, lastReason := b.lastReason, usReason := b.usReason, bank := b.bank
    ucal := b.ucal, ucalApplied := b.ucalApplied, lastReset := b.lastReset, readyMs := b.readyMs, bootLog := b.bootLog
    bootLost := b.bootLost, cntResets := b.cntResets, cntFailed := b.cntFailed, cntFences := b.cntFences
    cntRecasts := b.cntRecasts, cntFallbacks := b.cntFallbacks, cntForward := b.cntForward, cntBack := b.cntBack }

/-- One-time-programmable memory, which no reset changes. -/
def keepOtp (x z : Security) : Security :=
  { z with
    base := x.base, floor := x.floor, erased := x.erased, identity := x.identity, pubKey := x.pubKey
    authority := x.authority, fwDigest := x.fwDigest, serial := x.serial, macBase := x.macBase }

/-- The security block after a cold reset: the ghost-light flag, policy, alarm count and latched alarms stay
(R517, R532, R534). DEDUCED [150]. -/
def coldSec (x : Security) : Security :=
  { keepOtp x Security.reset with
    service := x.service, policy := x.policy, alarms := x.alarms, lastSensor := x.lastSensor
    lastAction := x.lastAction, latched := x.latched }

/-- Counts a reset by its type (Table 15.11). -/
def countReset (ty : Nat) (s : State) : State :=
  { s with boot.cntResets := s.boot.cntResets.modify ty fun n => sat32 n 1 }

/-- A reset with everything at its reset value but the block's own records (the queue, the outputs, the free
values drawn), one-time-programmable memory, flash and pin levels: a power-on reset (R492).
 DEDUCED [143]. DEDUCED [145]. -/
def powerReset (s : State) : State :=
  let z := State.reset
  let s' := { z with pending := s.pending, out := s.out, fresh := s.fresh
                     boot := keepPins s.boot z.boot, sec := keepOtp s.sec z.sec }
  let s' := policyReset s'
  { s' with sec := { s'.sec with port := portByState (lifecycle s') } }

/-- A cold reset (R492): beyond what a power-on reset leaves, the ghost-light records stay.
 DEDUCED [143]. DEDUCED [148]. -/
def coldReset (s : State) : State :=
  let z := powerReset s
  let s' := { z with
    pwr := coldPower s.pwr, boot := coldBoot s.boot, sec := coldSec s.sec
    mem := { z.mem with failUe := s.mem.failUe, failUeSeq := s.mem.failUeSeq, failCm := s.mem.failCm, failCmSeq := s.mem.failCmSeq }
    cb := { z.cb with failCount := s.cb.failCount, failTime := s.cb.failTime, failOpcode := s.cb.failOpcode }
    sb := { s.sb with temp := z.sb.temp, power := z.sb.power, level := 0, mirrorAt := 0 } }
  let s' := { s' with sec := { s'.sec with port := portByState (lifecycle s') }, boot.cause := 1 }
  emit (.vid 200) (countReset 1 s')

/-- Holds the K9 in a reset until its cause is gone. -/
def hold (s : State) : State := { s with boot.phase := if s.boot.mainPg then .held else .waitRails }

/-- The image of a bank (Table 17.4 `BANK`). DESIGN CHOICE [7]. -/
def bankImage (bank : Nat) (s : State) : Option Image :=
  match bank with
  | 0 => s.boot.qspiBoot
  | 1 => s.boot.qspiFallback
  | 2 => s.boot.sramImage
  | _ => none

/-- Whether a bank's image passes R523. -/
def bankOk (bank : Nat) (s : State) : Bool := (bankImage bank s).any fun i => checkImage i.bytes s == 0

/-- Entry into Understudy mode (R27, R501). DEDUCED [156]. -/
def enterUnderstudy (reason : Nat) (s : State) : State :=
  pushBoot s.boot.cause reason 3 { setServer 1 s with
    boot := { s.boot with phase := .understudy, usReason := reason, bank := 3, imageAt := none }
    link := { s.link with gen := min s.link.gen 1, width := min s.link.width 1 } }

/-- The service flag of a start (R517): one that mismatches is cleared. DEDUCED [157]. -/
def serviceFix (s : State) : State :=
  if s.sec.service.ok then s else
    mismatch 7 0 0x20000 (0, 0x20000) 0 { s with sec := { s.sec with service := Comp.of 0 } }

/-- Alarms latched in S3 when the reset fell: they are recorded and an erasure is made; a halt would end at this
cold reset (R532, R533). DEDUCED [149]. -/
def latchedAtStart (s : State) : State :=
  s.sec.latched.foldl (fun s (x : Nat × Nat) =>
    let a := policyAction s.sec.policy.n x.1
    let s := recordAlarm x.1 a x.2 s
    if a = 3 then eraseKeys s else s) { s with sec := { s.sec with latched := [] } }

/-- The boot source: 2 is taken as 3 (Table 18.9). DEDUCED [138]. -/
def bootSrc (s : State) : Nat := if s.boot.straps.bootSrc = 2 then 3 else s.boot.straps.bootSrc

/-- Step 2 of Table 15.2 (R498, R501, R512, R525): domain 91's slice, M0 and M3, the failed-start counter, the
boot source. With QSPI boot an image that passes step 5 is taken as accepted at once.
 DEDUCED [138]. DESIGN CHOICE [140]. DESIGN CHOICE [154]. -/
def startStep2 (s : State) : State :=
  let s := { s with boot := { s.boot with phase := .starting, releaseAt := s.time.mono, usReason := 0xFF, lastReset := s.boot.cause } }
  let s := emit (.pin "CLKREQ_N" false) (updDom 91 (fun x => { x with test := 1, endAt := s.time.now }) (countTest 91 1 s))
  let (d, s) := drawBytes 64 s
  let s := policyFix (serviceFix (measureLife (measure 0 d s)))
  let s := latchedAtStart s
  if !s.boot.fsc.ok then enterUnderstudy 0x0A { s with boot.fscBad := true }
  else if 3 ≤ s.boot.fsc.n then enterUnderstudy s.boot.lastReason s
  else
    let s := { s with boot := { s.boot with fsc := Comp.of (s.boot.fsc.n + 1), fscBad := false } }
    match bootSrc s with
    | 0 =>
      let bank := if s.boot.bank = 1 then 1 else 0
      let s := { s with boot.bank := bank }
      { s with boot.imageAt := if bankOk bank s then some s.time.mono else none }
    | 1 => { s with boot := { s.boot with bank := 2, imageAt := none } }
    | _ => enterUnderstudy 0x0B s

/-- The K9 leaves its reset (R573): a start begins with the boot bank. DEDUCED [151]. -/
def startCold (s : State) : State := startStep2 { s with boot.bank := 0 }

/-- Nothing holds the K9 in reset any more. -/
def freeToStart (s : State) : Bool :=
  s.boot.vaux && s.boot.mainEn && s.boot.mainPg && !s.boot.resetLow && !s.boot.perstLow && !s.boot.clkLost

/-- Leaves the held phase once nothing holds it. DESIGN CHOICE [144]. -/
def tryStart (s : State) : State :=
  if (s.boot.phase == .held || s.boot.phase == .waitRails) && freeToStart s then startCold s
  else if s.boot.phase == .waitRails && s.boot.mainPg then { s with boot.phase := .held } else s

/-- A start fails (R499): the reason is recorded; the next attempt begins at step 2, keeping the link, with the
other QSPI bank. After reason 0x0C it goes on as after a cold reset (R500). DEDUCED [151]. -/
def failStart (reason : Nat) (s : State) : State :=
  let s := pushBoot s.boot.cause reason s.boot.bank { s with boot := { s.boot with
    cntFailed := s.boot.cntFailed.modify reason fun n => sat32 n 1, lastReason := reason } }
  let bank := if reason = 0x0C then 0 else if s.boot.bank = 0 then 1 else 0
  let l := s.link
  let s := coldReset s
  let s := { s with link := { s.link with up := l.up, gen := l.gen, width := l.width } }
  startStep2 { s with boot.bank := bank }

/-! ### Supplies, pins and clocks -/

/-- `MAIN_PWR_EN` rises (R563, R572). -/
def raiseMain (s : State) : State :=
  emit (.pin "MAIN_PWR_EN" true) { s with boot := { s.boot with mainEn := true, mainEnAt := s.time.mono } }

/-- A power loss with VAUX present: the power-on reset waits for the main rails (R489, R565). -/
def powerLost (s : State) : State :=
  let s := powerReset s
  let s := emit (.vid 200) { s with boot := { s.boot with phase := .waitRails, mainPg := false } }
  if s.boot.mainEn then s else raiseMain s

/-- VAUX_RISE (Table 18.10 steps 1 and 2): the ghost-light power-on reset; `VID` presents code 200, the main rails
are asked for. DESIGN CHOICE [144]. -/
def execVauxRise (straps : Straps) (s : State) : Result :=
  .next (if s.boot.vaux then s else
    let s := powerReset s
    raiseMain (emit (.vid 200) { s with boot := { s.boot with vaux := true, mainPg := false, phase := .waitRails, straps } }))

/-- POWER_LOSS (R489, R565): VAUX, or with VAUX present another supply in S1 to S3. -/
def execPowerLoss (vaux : Bool) (s : State) : Result :=
  .next (if !s.boot.vaux then s
    else if vaux then
      let s := powerReset s
      { s with boot := { s.boot with vaux := false, mainPg := false, mainEn := false, phase := .off } }
    else if s.pwr.state = 1 ∨ s.pwr.state = 2 ∨ s.pwr.state = 3 then powerLost s
    else s)

/-- MAIN_PG_RISE (R562, R564): a power-on or cold reset that waited for the rails goes on; step 1 of a return from S3
ends, and every later step moves with it. -/
def execMainPgRise (s : State) (ns : Nat := 20000) : Result :=
  pinPulse 10000 20000 ns (fun s =>
  .next (if !s.boot.vaux || s.boot.mainPg then s else
    let s := if s.pwr.returning.any fun x => x.1 == 3 then { s with pwr.retAt := max s.pwr.retAt (s.time.mono + 6970 * usT) } else s
    tryStart { s with boot.mainPg := true })) s

/-- MAIN_PG_FALL (R565): a power loss while the rails are asked for; ignored otherwise (R563). -/
def execMainPgFall (s : State) (ns : Nat := 20000) : Result :=
  pinPulse 10000 20000 ns (fun s =>
  .next (if !s.boot.mainPg then s
    else if s.boot.vaux && s.boot.mainEn then powerLost s else { s with boot.mainPg := false })) s

/-- MAIN_PG_TIMEOUT (R572): `MAIN_PWR_EN` drops for 100 ms and rises again. DESIGN CHOICE [153]. -/
def execMainPgTimeout (s : State) : Result :=
  .next (if s.boot.phase == .waitRails && s.boot.mainEn && !s.boot.mainPg && decide (s.boot.mainEnAt + secT ≤ s.time.mono) then
    let s := emit (.pin "MAIN_PWR_EN" true) (emit (.pin "MAIN_PWR_EN" false) s)
    { s with boot.mainEnAt := s.time.mono + 100 * msT }
  else s)

/-- MAIN_PG_RETURN_TIMEOUT (R564): 100 ms after `MAIN_PWR_EN` rose, a return without the main rails is a power
loss. -/
def execMainPgReturnTimeout (s : State) : Result :=
  .next (if (s.pwr.returning.any fun x => x.1 == 3) && s.boot.mainEn && !s.boot.mainPg
      && decide (s.boot.mainEnAt + 100 * msT ≤ s.time.mono) then powerLost s else s)

/-- A cold reset by a pin or by the clock. -/
def pinReset (s : State) : State :=
  let s := coldReset s
  hold (if s.boot.mainEn then s else raiseMain s)

/-- Whether a cold reset can fall: VAUX is there and no power-on or cold reset is held already. -/
def resettable (s : State) : Bool := s.boot.vaux && s.boot.phase != .held && s.boot.phase != .waitRails

/-- RESET_N_ASSERT (R573): a cold reset at once, in any state. -/
def execResetNAssert (s : State) (ns : Nat := 2000) : Result :=
  pinPulse 1000 2000 ns (fun s =>
  .next (if s.boot.resetLow then s else
    let s := { s with boot.resetLow := true }
    if resettable s then pinReset s else s)) s

/-- RESET_N_RELEASE (R571, R573): with `PERST_N` high too, Table 15.2 begins; the straps are sampled. -/
def execResetNRelease (straps : Straps) (s : State) (ns : Nat := 2000) : Result :=
  pinPulse 1000 2000 ns (fun s =>
  .next (if !s.boot.resetLow then s else
    let s := { s with boot.resetLow := false }
    if s.boot.phase == .held || s.boot.phase == .waitRails then tryStart { s with boot.straps := straps } else s)) s

/-- `PERST_N` resets the PCIe domain alone in S2 and S3 and in an entry into them from step 4 on (R574). -/
def perstLocal (s : State) : Bool :=
  s.pwr.state == 2 || s.pwr.state == 3 || (s.pwr.sleep.any fun e => decide (4 ≤ e.step) && (e.target == 2 || e.target == 3))

/-- PERST_N_ASSERT (R573, R574). After an entry into S4 only a cold reset or the removal of power changes the
state (R475), and this pin starts none there. -/
def execPerstNAssert (s : State) (ns : Nat := 2000) : Result :=
  pinPulse 1000 2000 ns (fun s =>
  .next (if s.boot.perstLow then s else
    let local' := perstLocal s || s.boot.phase == .off
    let s := { s with boot.perstLow := true }
    if local' || !resettable s then s else pinReset s)) s

/-- CLK_REF_LOSS (R570): absent while `MAIN_PWR_EN` is high, it holds the K9 in cold reset. -/
def execClkRefLoss (s : State) : Result :=
  .next (if s.boot.clkLost || !s.boot.vaux || !s.boot.mainEn then s else
    let s := { s with boot.clkLost := true }
    if resettable s then pinReset s else s)

/-- CLK_REF_RETURN (R570, R571): the cold reset ends 1 ms later. -/
def execClkRefReturn (straps : Straps) (s : State) : Result :=
  .next (if !s.boot.clkLost then s else tryStart { s with boot := { s.boot with clkLost := false, straps } })

/-! ### The end of a start -/

/-- The user calibration set is well formed and its digest holds (R496). -/
def ucalOk (b : List Byte) : Bool :=
  fld b 0 4 == 0x55434131 && fld b 4 2 == 1 && inR 1 (fld b 6 2) 255 && zeroAt b 8 56
    && b.length == 128 + 16 * fld b 6 2 && Config.sha3 (b.drop 128) == slice b 64 64

/-- A parameter of Table 15.3. -/
def ucalParam (n : Nat) : Bool :=
  inR 0x100 n 0x13F || inR 0x200 n 0x207 || inR 0x300 n 0x307 || inR 0x400 n 0x40F || inR 0x500 n 0x57F
    || inR 0x600 n 0x61F || inR 0x700 n 0x71B || n == 0x800

/-- Step 6 of Table 15.2 (R497, R525): the user calibration set, when it holds; the boot log and a fault record say
that it does not, or that entries of it are ignored. DEDUCED [139]. DESIGN CHOICE [285]. -/
def applyUcal (s : State) : State :=
  match s.boot.qspiUcal with
  | some (b, false) =>
    if ucalOk b then
      let s := measure 2 (Config.sha3 b) { s with boot := { s.boot with ucal := b, ucalApplied := true } }
      if (records 16 (b.drop 128)).all fun e => ucalParam (fld e 0 2) then s
      else pushBoot s.boot.cause 0 3 (mismatch 8 0 0 (0, 0x51) 0 s)
    else
      let s := pushBoot s.boot.cause 0 2 (mismatch 8 0 0 (0, 0x51) 0 { s with boot := { s.boot with ucal := [], ucalApplied := false } })
      measure 2 (zeros 64) s
  | _ =>
    let s := pushBoot s.boot.cause 0 1 (mismatch 8 0 0 (0, 0x51) 0 { s with boot := { s.boot with ucal := [], ucalApplied := false } })
    measure 2 (zeros 64) s

/-- Whether a start tests a domain (R512). DEDUCED [130]. -/
def startTests (d : Nat) (s : State) : Bool :=
  d != 91 && (s.boot.cause == 0 || (getDom d s).test != 1 || (getDom d s).fenced != 0)

/-- The self-test of a domain at step 8 of a start: the units found bad are fenced (R512, R514). -/
def startTest8 (failed : List (Nat × Nat)) (s : State) (d : Nat) : State :=
  if startTests d s then judgeTest d ((failed.lookup d).getD 0) (countTest d (testSlices d) s) else s

/-- A domain fenced whole stays off. -/
def fencedOff (x : Dom) : Dom := if x.test = 2 then { x with on := false } else x

/-- What event 0x0D05 names as the cause of an erasure (R535). -/
def eraseCause (s : State) : Nat :=
  if s.sec.base = 5 then 0xFF
  else match s.boot.bootLog.find? fun r => decide (0x80 ≤ r.kind) && r.reason == 3 with
    | some r => r.kind - 0x80
    | none => 0xFE

/-- Stage Manager serves: `READY` rises unless the K9 is halted, event 0x0E05 (R494, R495, R533). -/
def serveAgain (ty code : Nat) (s : State) : State :=
  let ms := (s.time.mono - s.boot.releaseAt) / msT
  let s := { setServer 2 s with boot := { s.boot with phase := .running, readyMs := sat16 ms } }
  let s := if s.sec.halted then s else raiseReady s
  raise 0x0E05 (ty + code % 256 * 256 + sat16 ms * 65536) none s

/-- COLD_START_READY (Table 15.2 steps 5 to 9, R495 to R497, R512, R535): `failed` gives the units that the
self-tests of step 8 find bad. DESIGN CHOICE [144]. DEDUCED [148]. -/
def execColdStartReady (failed : List (Nat × Nat)) (s : State) : Result :=
  .next (match s.boot.phase, s.boot.imageAt, bankImage s.boot.bank s with
    | .starting, some _, some img =>
      let s := measure 1 (Config.sha3 (img.bytes.take 7347)) s
      let s := applyUcal s
      let s := { s with boot := { s.boot with
        active := some img, shadow := none, shadowLoaded := false, sramImage := none, lastReason := 0, keptStacked := true } }
      let s := (List.range 96).foldl (startTest8 failed) s
      let s := { s with pwr := { s.pwr with doms := s.pwr.doms.map fencedOff } }
      let s := emit (.vid (vidCode s.pwr.level s)) s
      let s := if s.sec.erased then raise 0x0D05 (eraseCause s) none s else s
      settle (serveAgain s.boot.cause (if s.boot.cause = 2 then s.boot.warmCause else 0) s)
    | _, _, _ => s)

/-- BOOT_WATCHDOG (R499): `READY` has not risen 2 s after the image was accepted. -/
def execBootWatchdog (s : State) : Result :=
  .next (if s.boot.phase == .starting && past s.boot.imageAt (2 * secT) s then failStart 7 s else s)

/-- The rollback floor rises to the version of an image, in the states of R524. -/
def raiseFloor (b : List Byte) (s : State) : State :=
  if inR 2 (lifecycle s) 4 then { s with sec := { s.sec with floor := max s.sec.floor (imgSecVersion b) } } else s

/-- FSC_CLEAR (R498, R524): `READY` has stayed risen for 10 s. -/
def execFscClear (s : State) : Result :=
  .next (match s.boot.readyAt with
    | none => s
    | some t =>
      if s.time.mono < t + 10 * secT ∨ (s.boot.fsc == Comp.of 0 && !s.boot.fscBad) then s else
      let s := { s with boot := { s.boot with fsc := Comp.of 0, fscBad := false } }
      match s.boot.active with
      | some i => if s.boot.bank ≤ 1 ∧ bankImage s.boot.bank s = some i then raiseFloor i.bytes s else s
      | none => s)

/-! ### Warm reset (Table 15.5) -/

/-- Requests that the journal carries over a warm reset (R505). -/
def journalled (q : Req) : Bool :=
  q.phase == .running && [0x0707, 0x0804, 0x0A02, 0x0A04, 0x0E04, 0x0E05].contains q.opcode

/-- Their requests are gone; their operations wait for the replay (R98, R506). DESIGN CHOICE [142]. -/
def dropJournalled (s : State) : State :=
  { s with
    link := { s.link with reqs := s.link.reqs.filter fun q => !journalled q }
    map := { s.map with
      maps := s.map.maps.map fun (m : MapO) => { m with
        resharding := none, repot := m.repot.map fun (p : Repot) => { p with req := none } }
      idxs := s.map.idxs.map fun (x : IdxO) => { x with rebuild := x.rebuild.map fun (p : Rebuild) => { p with req := none } } }
    boot := { s.boot with recast := s.boot.recast.map fun (c : Recast) => { c with req := none } } }

/-- What a warm reset takes from a grid (R311). -/
def warmGrid (g : Grid) : Grid :=
  { g with
    epochs := [], pend := [], poseTimes := [], meas := []
    sensors := g.sensors.map fun (y : GSensor) => { y with pending := [], rebuilt := y.rebuilt || y.moving } }

/-- The ego problem's estimator window is cleared (R311); every running solve has ended. -/
def warmProb (p : Problem) : Problem :=
  if 2 ^ 32 ≤ p.slot then { p with runs := [], resident := none, previous := none, delivered := none } else { p with runs := [] }

/-- A domain over a warm reset (R503): no test, no return delay; what was powered is untested, but PCIe, which the
reset does not touch (R494). DEDUCED [141]. -/
def warmDom (d : Nat) (x : Dom) : Dom :=
  let on := x.on || x.wakeUp
  { x with
    on, returning := false, wakeUp := false, run := none
    test := if x.run.isSome then 0 else if on && d != 91 && x.test != 2 && x.fenced == 0 then 0 else x.test }

/-- A warm reset begins (R492, R494, R98, R82, R578): `cause` 0 ADM_RESET_WARM, 1 watchdog, 2 lockstep,
3 management SRAM, 4 the end of Understudy mode.
 DESIGN CHOICE [6]. DEDUCED [141]. DESIGN CHOICE [142]. DEDUCED [158]. DEDUCED [159]. -/
def warmReset (cause : Nat) (s : State) : State :=
  let s := { s with boot := { s.boot with readyAt := none }, link := { s.link with fetchStopped := true } }
  let s := cancelAll (fun _ => true) (dropJournalled s)
  let s := linksDown (closeSessions (fun _ => true) s)
  let (d, s) := drawBytes 64 s
  let s := measure 5 d s
  let discard (f : Fn) : Fn := { f with hold := { value := none, low := none } }
  let wait (o : Obj) : Obj := if o.st == .orphan then { o with holdAt := none } else o
  countReset 2 { s with
    link := { s.link with fns := s.link.fns.map discard, reqs := [], inL2 := false }
    obj := { s.obj with objs := s.obj.objs.map wait }
    mem := { s.mem with scrubPaused := false }
    cb := { s.cb with state := 0, nextSeq := 0, server := 0, serverNext := none, limit := none }
    tile := { s.tile with tiles := [], pools := [] }
    fus := { s.fus with grids := s.fus.grids.map warmGrid }
    probs := s.probs.map warmProb
    pwr := { s.pwr with
      doms := s.pwr.doms.mapIdx warmDom, state := 0, sleep := none, returning := none, regLow := false, wakeDrive := none }
    sec := { s.sec with challenge := none }
    sb := { s.sb with temp := 0x8000, power := 0xFFFF }
    boot := { s.boot with
      phase := .warm, cause := 2, warmCause := Config.warmCode cause, lastReset := 2, releaseAt := s.time.mono, imageAt := none, dataBad := false } }

/-- The warm reset that follows an error of Stage Manager's own data (Table 12.2).
 DESIGN CHOICE [1]. DESIGN CHOICE [272]. -/
def dueReset (s : State) : State := if s.boot.dataBad then warmReset 3 s else s

/-- Understudy mode is left (R502): the image loaded there starts from step 3 of Table 15.2, keeping the link.
 DESIGN CHOICE [6]. -/
def leaveUnderstudy (s : State) : State :=
  let (d, s) := drawBytes 64 s
  let s := countReset 2 (measure 5 d s)
  let bank := if bootSrc s = 0 then 0 else 2
  let s := { s with
    cb := { s.cb with state := 0, nextSeq := 0, server := 0, serverNext := none, limit := none }
    boot := { s.boot with
      phase := .starting, cause := 2, warmCause := Config.warmCode 4, lastReset := 2, usReason := 0xFF, bank, releaseAt := s.time.mono } }
  { s with boot.imageAt := if bankOk bank s then some s.time.mono else none }

/-- A warm reset that Stage Manager's own failure starts, in service and not in S3 or S4. -/
def serviceReset (cause : Nat) (s : State) : State :=
  if s.boot.phase == .running && decide (s.pwr.state < 3) then warmReset cause s else s

/-- SM_WATCHDOG (Table 15.1). -/
def execSmWatchdog (s : State) : Result := .next (serviceReset 1 s)

/-- LOCKSTEP_MISMATCH (Table 15.1, Table 15.4): before `READY` a failed start, after it a warm reset. -/
def execLockstepMismatch (mp : Nat) (s : State) : Result :=
  .next (if 1 < mp then s
    else if s.boot.phase == .starting && s.boot.imageAt.isSome then failStart 9 s else serviceReset 2 s)

def iAdmResetWarm : CmdInfo := { opcode := 0x000C, handle := .admin, inline := 0, dl := dlMs 100 }

/-- ADM_RESET_WARM (R98, R494, R502): its completion is posted, then the reset begins; in Understudy mode it leaves
that mode. -/
def execAdmResetWarm (r : ReqRef) (io : Io) (s : State) : Result :=
  .next (match startable 0x000C r s with
    | none => s
    | some q => match validate iAdmResetWarm q io s with
      | .error f => settle (post q f.st f.r0 f.r1 none (f.fx s))
      | .ok _ =>
        let s := post q stOk 0 0 none { s with link := { s.link with fetchStopped := true } }
        if s.boot.phase == .understudy then leaveUnderstudy s else warmReset 0 s)

/-! ### The replay of the journal (R506, R507) -/

/-- A record of an operation at a step that passes R420 in one copy at least. -/
def usable (n step : Nat) (s : State) : Bool := s.boot.journal.any fun r => r.number == n && r.step == step && decide (r.bad < 2)

/-- An operation of which no record is usable. DEDUCED [161]. -/
def lostOp (n : Nat) (s : State) : Bool := !(s.boot.journal.any fun r => r.number == n && decide (r.bad < 2))

def countForward (s : State) : State := { s with boot.cntForward := s.boot.cntForward + 1 }
def countBack (s : State) : State := { s with boot.cntBack := s.boot.cntBack + 1 }

/-- A repotting is replayed: forward to its step 5, back, or its map is left unusable. DEDUCED [161]. -/
def replayMap (s : State) (m : MapO) : State :=
  match m.repot with
  | none => s
  | some p =>
    if lostOp p.op s then updMap m.slot (fun m => { m with repot := none, broken := true }) (journalStep p.op 4 0 s)
    else if usable p.op 3 s then countForward (updMap m.slot (fun m => { m with repot := some { p with step := 5 } }) s)
    else countBack (endRepot m.slot stAborted 0 2 s)

/-- An index rebuild is replayed. DEDUCED [161]. -/
def replayIdx (s : State) (x : IdxO) : State :=
  match x.rebuild with
  | none => s
  | some p =>
    if lostOp p.op s then updIdx x.slot (fun x => { x with rebuild := none, broken := true }) (journalStep p.op 4 0 s)
    else if usable p.op 3 s then countForward s
    else countBack (endRebuild x.slot stAborted 0 2 s)

/-- Replicas being built have no `COMMIT` yet, so they roll back (R449, R506). DEDUCED [281]. -/
def replayReplicas (s : State) : State :=
  let leaving (n : Nat) : Bool := s.ens.ens.any fun e => e.leave.any fun l => l.2 == n
  let back := s.ens.replicas.filter fun r => !leaving r.2.2.2
  back.foldl (fun s (r : Nat × Nat × Nat × Nat) => countBack (repost r.2.2.2 stAborted 0 2 (journalStep r.2.2.2 4 0 s)))
    { s with ens.replicas := s.ens.replicas.filter fun r => leaving r.2.2.2 }

/-- An ENS_LEAVE has no `COMMIT` before its end, so it rolls back; with no usable record its object is unusable.
 DEDUCED [160]. DEDUCED [280]. -/
def replayLeave (s : State) : State :=
  match s.ens.ens.bind (·.leave) with
  | none => s
  | some (_, op) =>
    if lostOp op s then updEns (fun e => { e with broken := true }) (dropLeave stAborted s)
    else countBack (repost op stAborted 0 2 (dropLeave stAborted s))

/-- Writes the `END` of a recasting. -/
def endRecast (op : Nat) (s : State) : State := journalStep op 4 0 { s with boot.recast := none }

/-- The banks change places: the fallback image runs, and event 0x0E02 says so (R510, R511). DEDUCED [169]. -/
def takeFallback (s : State) : State :=
  let s := { s with boot := { s.boot with
    active := s.boot.shadow, shadow := s.boot.active, shadowLoaded := false, cntFallbacks := s.boot.cntFallbacks + 1 } }
  raise 0x0E02 (s.boot.active.elim 0 fun i => imgRelease i.bytes) none s

/-- A recasting over a warm reset (R510, R511): one that waits rolls back; a probation, its own or the one a
fallback waited in, ends on the fallback image. -/
def replayRecast (s : State) : State :=
  match s.boot.recast with
  | none => s
  | some c =>
    if c.took.isSome then takeFallback (endRecast c.op s)
    else
      let s := countBack (repost c.op stAborted 0 2 (endRecast c.op s))
      match c.prior with
      | some (op, _, _) => takeFallback (journalStep op 4 0 s)
      | none => s

/-- The replay of every operation. -/
def replay (s : State) : State :=
  let s := s.map.maps.foldl replayMap s
  let s := s.map.idxs.foldl replayIdx s
  replayLeave (replayReplicas s)

/-- An orphan's hold restarts (R82). DEDUCED [158]. -/
def restartHold (now : Nat) (o : Obj) : Obj := if o.st == .orphan then { o with holdAt := some (now + o.holdS * secT) } else o

/-- WARM_RESET_COMPLETE (Table 15.5, R82, R494, R506, R507, R510): the active image is checked and measured, the
journal replayed, and Stage Manager serves. -/
def execWarmResetComplete (s : State) : Result :=
  .next (if s.boot.phase != .warm then s else
    let s' := replayRecast s
    match s'.boot.active with
    | none => s
    | some img =>
      if checkImage img.bytes s' ≠ 0 then s else
      let s := measure 1 (Config.sha3 (img.bytes.take 7347)) s'
      let s := replay s
      let s := { s with obj.objs := s.obj.objs.map (restartHold s.time.mono) }
      settle (serveAgain 2 s.boot.warmCause s))

/-- Whether a start can fail for a reason now (Table 15.4): an image reason holds of the bank's image; training, the
bank's reading and Stage Manager fail as the environment says; 0x0C is of a return from S3. -/
def canFail (reason : Nat) (s : State) : Bool :=
  let img := if s.boot.phase == .warm then (replayRecast s).boot.active else bankImage s.boot.bank s
  let starting := s.boot.phase == .starting && !(s.boot.bank == 2 && s.boot.imageAt.isNone)
  match reason with
  | 1 => (starting && s.boot.bank != 2) || (s.boot.phase == .warm && img.isNone)
  | 6 => s.boot.phase == .starting
  | 8 => starting || s.boot.phase == .warm
  | 12 => s.pwr.returning.any fun x => x.1 == 3
  | n => inR 2 n 5 && (starting || s.boot.phase == .warm) && img.any fun i => checkImage i.bytes s == n

/-- START_ATTEMPT_FAILURE (R499, R500). -/
def execStartAttemptFailure (reason : Nat) (s : State) : Result :=
  .next (if canFail reason s then failStart reason s else s)

end Sys2Proof.Machine
end

