-- ==== Sys2Proof/Machine/Recast.lean ====
section
/-! DEFINITION. Recasting, diagnostics and the domain reset: the group 0x0E commands and ADM_RESET_DOMAIN (R428,
R493, R502, R507 to R515). -/
namespace Sys2Proof.Machine

def stImageFormat : Nat := 0x8E01
def stRollback : Nat := 0x8E02
def stStateFormat : Nat := 0x8E03
def stNoFallback : Nat := 0x8E04

/-! ### RECAST_IMAGE_LOAD -/

/-- The status of an image that fails a check of R523 (R508). -/
def imageStatus (reason : Nat) : Nat :=
  if reason = 4 then stAuth else if reason = 5 then stRollback else stImageFormat

/-- The image takes over the running image's state format (R523). -/
def formatFits (b : List Byte) (s : State) : Bool :=
  s.boot.active.all fun i => inR (imgAcceptMin b) (imgFormat i.bytes) (imgFormat b)

/-- A recasting is in probation. -/
def inProbation (s : State) : Bool := s.boot.recast.any fun c => c.took.isSome || c.prior.isSome

def iRecastImageLoad : CmdInfo :=
  { opcode := 0x0E03, handle := .admin, inline := 2, dl := dlMs 10000, pay := .required
    auth := fun c s => prm c 0 1 != 1 || lifecycle s == 1 || lifecycle s == 4
    range := fun c _ => decide (prm c 0 1 ≤ 1) && decide (prm c 1 1 ≤ 1) }

/-- A user calibration set goes to flash (R497); it takes effect at the next cold start. Its `RESULT0` is not
stated. DESIGN CHOICE [168]. -/
def loadUcal (b : List Byte) (s : State) : Except Fail (State × Done) := do
  need (ucalOk b) (err stImageFormat)
  need ((records 16 (b.drop 128)).all fun e => ucalParam (fld e 0 2)) (err stRange)
  let (x, s) := draw s
  .ok ({ s with boot.qspiUcal := some (b, false) }, okR (x % 2 ^ 32) 0)

/-- Understudy mode takes an image (R502). -/
def loadUnderstudy (i : Image) (s : State) : State :=
  let s := { s with boot := { s.boot with fsc := Comp.of 0, fscBad := false } }
  if bootSrc s = 0 then { s with boot.qspiBoot := some { i with fromHost := false } } else { s with boot.sramImage := some i }

/-- RECAST_IMAGE_LOAD (R495, R497, R502, R508). Under the ROM it is taken while a host boot waits for its image.
 DEDUCED [152]. -/
def bodyRecastImageLoad : Body := fun c s => do
  if prm c 0 1 = 1 then loadUcal c.pay s else
  let i : Image := { bytes := c.pay, fromHost := true, persist := (prm c 1 1).testBit 0 }
  let bad := checkImage c.pay s
  let ok := okR (imgRelease c.pay) 0
  let fail (s : State) : Except Fail (State × Done) := .ok (s, .reply (imageStatus bad) 0 0 none)
  match s.boot.phase with
  | .understudy => if bad ≠ 0 then fail s else .ok (loadUnderstudy i s, ok)
  | .running =>
    need s.boot.recast.isNone (err stState)
    let empty := { s with boot := { s.boot with shadow := none, shadowLoaded := false } }
    if bad ≠ 0 then fail empty
    else if !formatFits c.pay s then .ok (empty, .reply stStateFormat 0 0 none)
    else .ok ({ s with boot := { s.boot with shadow := some i, shadowLoaded := true } }, ok)
  | _ =>
    need (s.boot.phase == .starting && s.boot.bank == 2 && s.boot.imageAt.isNone) (err stState)
    if bad ≠ 0 then fail s
    else .ok ({ s with boot := { s.boot with sramImage := some i, imageAt := some s.time.mono } }, ok)

def execRecastImageLoad (r : ReqRef) (io : Io) (s : State) : Result :=
  serve iRecastImageLoad bodyRecastImageLoad r io s

/-! ### RECAST_COMMIT, RECAST_FALLBACK, the handover, probation -/

/-- `WINDOW_US`, its zero resolved. -/
def windowUs (c : Ctx) (off : Nat) : Nat := if prm c off 4 = 0 then 2000 else prm c off 4

def iRecastCommit : CmdInfo :=
  { opcode := 0x0E04, handle := .admin, inline := 8, dl := dlMs 1000
    range := fun c _ => (prm c 0 4 == 0 || inR 60 (prm c 0 4) 86400) && inR 500 (windowUs c 4) 2000 }

/-- An image that the floor still accepts (R524). -/
def floorOk (i : Image) (s : State) : Except Fail Unit := need (decide (s.sec.floor ≤ imgSecVersion i.bytes)) (err stRollback)

/-- RECAST_COMMIT (R505, R509): `BEGIN` is journalled, and the command waits for its handover point. DEDUCED [169]. -/
def bodyRecastCommit : Body := fun c s => do
  need s.boot.recast.isNone (err stState)
  let some i := s.boot.shadow | .error (err stState)
  floorOk i s
  journalRoom s
  let (op, s) := journalBegin 5 (reqRef c.q) 0x0E04 0 0 s
  let x : Recast :=
    { req := some (reqRef c.q), fallback := false, probationS := if prm c 0 4 = 0 then 600 else prm c 0 4
      windowUs := windowUs c 4, op, took := none, prior := none }
  .ok ({ s with boot.recast := some x }, .wait)

def execRecastCommit (r : ReqRef) (io : Io) (s : State) : Result := serve iRecastCommit bodyRecastCommit r io s

def iRecastFallback : CmdInfo :=
  { opcode := 0x0E05, handle := .admin, inline := 4, dl := dlMs 1000, range := fun c _ => inR 500 (windowUs c 0) 2000 }

/-- RECAST_FALLBACK (R511): it may come in probation, which it ends. DEDUCED [169]. -/
def bodyRecastFallback : Body := fun c s => do
  need (s.boot.recast.all fun x => x.took.isSome) (err stState)
  let held := s.boot.shadow.filter fun _ => !s.boot.shadowLoaded
  let some i := held | .error (err stNoFallback)
  floorOk i s
  journalRoom s
  let prior := s.boot.recast.bind fun x => x.took.map fun t => (x.op, t, x.probationS)
  let (op, s) := journalBegin 5 (reqRef c.q) 0x0E05 0 0 s
  let x : Recast :=
    { req := some (reqRef c.q), fallback := true, probationS := 0, windowUs := windowUs c 0, op, took := none, prior }
  .ok ({ s with boot.recast := some x }, .wait)

def execRecastFallback (r : ReqRef) (io : Io) (s : State) : Result := serve iRecastFallback bodyRecastFallback r io s

/-- The image taken over is measured (R525). -/
def measureImage (s : State) : State :=
  match s.boot.active with
  | some i => measure 1 (Config.sha3 (i.bytes.take 7347)) s
  | none => s

/-- A started cue sheet opens a set within a time in µs (R509), as its trigger stream's period foretells.
 DEDUCED [283]. -/
def setWithin (us : Nat) (s : State) : Bool :=
  s.sheets.any fun (x : Sheet) => x.started && (x.t0s.head?.any fun t =>
    let period := ((x.streams[x.img.trigger]?).bind (getStream · s)).elim 0 fun y => y.period * 65536
    let past' := s.time.mono - t.2.2
    period != 0 && decide (period - past' % period ≤ us * usT))

/-- RECAST_HANDOVER (R509, R511): the handover point comes, no started sheet opening a set in its window; the time it takes lies within `WINDOW_US`. A fallback
ends at its takeover. DEDUCED [169]. -/
def execRecastHandover (s : State) : Result :=
  .next (match s.boot.recast, s.boot.phase with
    | some c, .running =>
      if c.took.isSome || c.req.isNone || !ready s || setWithin c.windowUs s then s else
      let (x, s) := draw s
      let us := x % (c.windowUs + 1)
      let s := journalStep c.op 3 0 s
      let s := if c.fallback then
          let s := endRecast c.op s
          takeFallback (match c.prior with
            | some (op, _, _) => journalStep op 4 0 s
            | none => s)
        else
          let s := { s with boot := { s.boot with
            active := s.boot.shadow, shadow := s.boot.active, shadowLoaded := false, cntRecasts := s.boot.cntRecasts + 1
            recast := some { c with req := none, took := some s.time.mono } } }
          raise 0x0E04 (s.boot.active.elim 0 (fun i => imgRelease i.bytes) + us * 2 ^ 32) none s
      let s := measureImage s
      settle (match c.req with
        | some r => postRef r stOk us 0 none s
        | none => s)
    | _, _ => s)

/-- PROBATION_END (R510, R524). -/
def execProbationEnd (s : State) : Result :=
  .next (match s.boot.recast, s.boot.active with
    | some c, some i =>
      if !past c.took (c.probationS * secT) s then s else
      let s := raise 0x0E03 (imgRelease i.bytes) none (endRecast c.op s)
      settle (if i.persist then
          raiseFloor i.bytes { s with boot := { s.boot with qspiBoot := some i, qspiFallback := s.boot.qspiBoot } }
        else s)
    | _, _ => s)

/-! ### Diagnostics -/

def iDiagLogRead : CmdInfo :=
  { opcode := 0x0E00, handle := .zero, inline := 24, dl := dlMs 100
    res := fun q _ => some (64 * fld q.param 20 4)
    range := fun c _ => decide (prm c 12 1 ≤ 1) && inR 1 (prm c 20 4) 16384 }

/-- DIAG_LOG_READ (R428, R501). -/
def bodyDiagLogRead : Body := fun c s => do
  let pick {α : Type} (l : List α) : List α := (l.drop (prm c 16 4)).take (prm c 20 4)
  if prm c 12 1 = 0 then
    need (s.boot.phase != .understudy || s.boot.keptStacked) (err stState)
    let l := pick s.mem.faults
    .ok (s, okD l.length (sat16 s.mem.faultsLost) (l.flatMap faultBytes))
  else
    let l := pick s.boot.bootLog
    .ok (s, okD l.length (sat16 s.boot.bootLost) (l.flatMap bootBytes))

def execDiagLogRead (r : ReqRef) (io : Io) (s : State) : Result := serve iDiagLogRead bodyDiagLogRead r io s

/-- The counters of a set (Table 15.11). DEDUCED [146]. -/
def diagSet (n : Nat) (s : State) : List Nat :=
  let corrected (p : Nat × Nat → Bool) : Nat := ((s.mem.corrected.filter fun x => p x.1).map (·.2)).sum
  match n with
  | 0 => ((List.range 32).map fun ch => corrected fun k => k == (0, ch))
      ++ (List.range 6).map fun u => corrected fun k => k.1 == u + 1
  | 1 => ((List.range 10).map fun i => ((s.link.regRefused.filter fun x => x.1 % 16 == i).map (·.2)).sum)
      ++ [s.link.dbTotal, s.cb.refTotal]
  | 2 => s.boot.cntResets ++ s.boot.cntFailed
  | _ => [s.boot.cntFences, s.boot.cntRecasts, s.boot.cntFallbacks, s.boot.cntForward, s.boot.cntBack]

/-- Clears a set. -/
def diagClear (n : Nat) (s : State) : State :=
  match n with
  | 0 => { s with mem.corrected := [] }
  | 1 => { s with link := { s.link with regRefused := [], dbTotal := 0 }, cb := { s.cb with refTotal := 0 } }
  | 2 => { s with boot := { s.boot with cntResets := List.replicate 5 0, cntFailed := List.replicate 13 0 } }
  | _ => { s with boot := { s.boot with cntFences := 0, cntRecasts := 0, cntFallbacks := 0, cntForward := 0, cntBack := 0 } }

/-- The session that a command's handle names is the administrator's. -/
def byAdmin (c : Ctx) (s : State) : Bool := c.q.src == .callboard || (getSession (objSlot c) s).any (·.admin)

def iDiagCounters : CmdInfo :=
  { opcode := 0x0E01, handle := .obj [1], inline := 14, dl := dlMs 100, res := resMin 1024
    auth := fun c s => !(prm c 13 1).testBit 0 || byAdmin c s
    range := fun c _ => decide (prm c 12 1 ≤ 3) && decide (prm c 13 1 ≤ 1) }

/-- DIAG_COUNTERS (Table 15.11). -/
def bodyDiagCounters : Body := fun c s =>
  let l := diagSet (prm c 12 1) s
  .ok (if (prm c 13 1).testBit 0 then diagClear (prm c 12 1) s else s, okD l.length 0 (l.flatMap (leBytes 8)))

def execDiagCounters (r : ReqRef) (io : Io) (s : State) : Result := serve iDiagCounters bodyDiagCounters r io s

def iDiagSelftestRecord : CmdInfo :=
  { opcode := 0x0E02, handle := .obj [1], inline := 14, res := resMin 3136
    dl := fun q _ => if fld q.param 12 1 = 0 then 100000 else 1000000
    auth := fun c s => prm c 12 1 == 0 || (byAdmin c s && (lifecycle s == 1 || lifecycle s == 4))
    range := fun c _ => decide (prm c 12 1 ≤ 2) && (prm c 12 1 == 0 || decide (prm c 13 1 ≤ 95)) }

/-- DIAG_SELFTEST_RECORD (R514, R515): mode 2 lifts the fence before the test. DEDUCED [170]. -/
def bodyDiagSelftestRecord : Body := fun c s => do
  if prm c 12 1 = 0 then .ok (s, okD 0 0 (testBytes s)) else
  let d := prm c 13 1
  need ((getDom d s).run.isNone && (domWork d s).isNone) (err stState)
  let lift (x : Dom) : Dom := { x with fenced := 0, test := 0 }
  let s := if prm c 12 1 = 2 then updDom d lift s else s
  .ok (parkDom d (some (reqRef c.q)) s, .wait)

def execDiagSelftestRecord (r : ReqRef) (io : Io) (s : State) : Result :=
  serve iDiagSelftestRecord bodyDiagSelftestRecord r io s

/-- The 64 bytes of a journal record (Table 15.6); an outcome given by a replay stands in the top byte of its
low detail word. DEDUCED [171]. -/
def journalBytes (r : JRec) : List Byte :=
  let src : Nat × Nat := match r.src.src with
    | .queue fn q => (fn, q)
    | .callboard => (0, 0)
  leBytes 8 r.seqNo ++ leBytes 1 r.op ++ leBytes 1 r.step ++ leBytes 2 src.1 ++ leBytes 2 src.2 ++ leBytes 2 r.src.cid
    ++ leBytes 2 r.opcode ++ zeros 2 ++ leBytes 4 r.number ++ leBytes 8 r.handle.toNat ++ leBytes 8 r.progress
    ++ leBytes 8 (r.detail % 2 ^ 24 + r.outcome.getD 0 * 2 ^ 24) ++ timeWord { t := r.at', tag := 0 }

def iDiagJournalRead : CmdInfo := { opcode := 0x0E06, handle := .obj [1], inline := 12, dl := dlMs 100, res := resMin 4096 }

/-- DIAG_JOURNAL_READ (R507): the latest record of each open operation and of each one ended by a replay, newest
first; as many as 4,096 bytes hold. -/
def bodyDiagJournalRead : Body := fun _ s =>
  let opens := openOps s
  let shown (r : JRec) : Bool := r.outcome.isSome || (opens.contains r.number && (journalLast r.number s).any fun l => l.seqNo == r.seqNo)
  let l := (s.boot.journal.filter shown).take 64
  .ok (s, okD l.length 0 (l.flatMap journalBytes))

def execDiagJournalRead (r : ReqRef) (io : Io) (s : State) : Result :=
  serve iDiagJournalRead bodyDiagJournalRead r io s

/-! ### ADM_RESET_DOMAIN (R493) -/

/-- Aborts the running runs that meet a test, one per instance. -/
def abortRuns (p : Inst → Bool) (s : State) : State :=
  (s.tile.insts.filter fun (x : Inst) => !x.runs.isEmpty && p x).foldl (fun s (x : Inst) => advanceInst x.slot (endHead x.slot stAborted s)) s

/-- A run has begun: its tasks, blocks or waits occupy the placement. -/
def headBegun (x : Inst) : Bool := x.runs.head?.any fun r => r.startAt.isSome

/-- The runs with tasks in a quadrant. -/
def quadRuns (d : Nat) (s : State) : List Nat :=
  (s.tile.tiles.filter fun t => t.id / 4 == d).flatMap fun t => (t.queue ++ (t.running.map (·.1)).toList).map (·.run)

/-- The tasks of a quadrant's tiles stop. -/
def stopQuad (d : Nat) (s : State) : State := { s with tile.tiles := s.tile.tiles.filter fun t => !(t.id / 4 == d) }

/-- Sets that a vision group works on are abandoned. -/
def abortSets (g : Nat) (s : State) : State :=
  let hit := s.vis.filter fun u => u.group == g
  giveWork g (hit.foldl (fun s (u : VUnit) => abandon u.sheet u.set stAborted s) s)

/-- The work of a search-engine group ends. -/
def abortSearch (g : Nat) (s : State) : State :=
  let mine (e : Option Nat) : Bool := e.any fun e => e / 4 == g
  let s := (s.map.ctx.filter fun x => mine x.engine).foldl (fun s (x : CtxCmd) => endCtx x stAborted 0 0 none s) s
  (s.map.batches.filter fun b => b.queries.any fun q => !q.done && mine q.engine).foldl
    (fun s (b : BatchO) => cutBatch b.slot stAborted s) s

/-- The filter chain starts over: pending swaps end, channels begin anew at n = 0, transactions are lost.
 DEDUCED [172]. -/
def restartChain (s : State) : State :=
  let reqs := s.filt.chans.filterMap fun (c : Chan) => c.pend.map (·.req)
  let s := reqs.foldl (fun s r => postRef r stAborted 0 0 none s) s
  let again (c : Chan) : Chan := { c with pend := none, fade := none, hist := [], n := 0, heldRun := 0 }
  { s with filt := { s.filt with
    chans := s.filt.chans.map again
    sels := s.filt.sels.map fun (x : ChipSel) => { x with queue := [] }
    busy := [] } }

/-- Frames in progress in a domain end incomplete. -/
def cutFrames (d : Nat) (s : State) : State :=
  let cut (b : Buf) : Buf := match b with
    | .claimed f => .claimed { f with incomplete := true }
    | b => b
  { s with sens.streams := s.sens.streams.map fun (x : Stream) =>
      if portDomain x.kind x.port == d then { x with ring := x.ring.map cut } else x }

/-- What a domain's work comes to when the domain is re-initialised (R493, R353). DEDUCED [172]. -/
def abortDomain (d : Nat) (s : State) : State :=
  if d < 64 then
    let hit := quadRuns d s
    let s := { s with tile.badImgs := s.tile.badImgs.filter fun b => b.1 / 4 != d }
    abortRuns (fun x => x.runs.head?.any fun r => hit.contains r.serial) (stopQuad d s)
  else if d < 80 then
    let s := abortRuns (fun x => headBegun x && (instPkg x s).any fun p => p.place.contains (d - 64)) s
    let clear (a : Alloc) : Alloc := if a.onchip && a.cluster == d - 64 then { a with mem := [], poison := [], badPair := [] } else a
    { s with mem.allocs := s.mem.allocs.map clear }
  else if d < 84 then abortSets (d - 80) s
  else if d < 88 then abortSearch (d - 84) s
  else if d < 90 then abortGroup (d - 88) s
  else if d = 90 then restartChain s
  else if d = 95 then linksDown s
  else cutFrames d s

/-- What every reset but one of a virtual function takes: the callboard's request, half-written base pairs, the
challenge (R63, R529, R578). DEDUCED [172]. -/
def resetCommon (s : State) : State :=
  let discard (f : Fn) : Fn := { f with hold := { value := none, low := none } }
  { s with
    cb := { s.cb with
      state := 0, nextSeq := 0, limit := none, server := s.cb.serverNext.getD s.cb.server, serverNext := none }
    link := { s.link with fns := s.link.fns.map discard, reqs := s.link.reqs.filter fun q => q.src != .callboard }
    sec := { s.sec with challenge := none } }

def iAdmResetDomain : CmdInfo :=
  { opcode := 0x000D, handle := .admin, inline := 1, dl := dlMs 1000, range := fun c _ => decide (prm c 0 1 ≤ 95) }

/-- ADM_RESET_DOMAIN (R493). DEDUCED [172]. -/
def bodyAdmResetDomain : Body := fun c s => do
  let d := prm c 0 1
  let x := getDom d s
  need (d != 91 && x.run.isNone && x.test != 2) (err stState)
  if !x.on || x.returning then .ok (s, okR 0 0)
  else .ok (countReset 4 (resetCommon (abortDomain d s)), okR 0 0)

def execAdmResetDomain (r : ReqRef) (io : Io) (s : State) : Result :=
  serve iAdmResetDomain bodyAdmResetDomain r io s

end Sys2Proof.Machine
end

