-- ==== Sys2Proof/Machine/Sleep.lean ====
section
/-! DEFINITION. Sleep states: PWR_STATE_ENTER, the entry of Table 14.6, wakes, the return of Table 14.8
(R475 to R489, R542, R555, R563, R574). -/
namespace Sys2Proof.Machine

/-! ### PWR_STATE_ENTER -/

/-- The least domain of some numbers, as a refuser. -/
def leastDom (l : List Nat) : Option Nat := (least l).map refDom

/-- A refuser that stands while a condition holds. -/
def refuseIf (b : Bool) (r : Nat) : Option Nat := if b then some r else none

/-- A journalled operation of condition 2 is in progress. DEDUCED [173]. -/
def journalBusy (s : State) : Bool :=
  (s.map.maps.any fun (m : MapO) => m.repot.isSome || m.resharding.isSome) || (s.map.idxs.any fun (x : IdxO) => x.rebuild.isSome)
    || s.boot.recast.isSome

/-- The domains of the search engines at work; a query or map command that waits holds group 0. DEDUCED [173]. -/
def busyGroups (s : State) : List Nat :=
  (s.map.ctx.map fun (x : CtxCmd) => 84 + x.engine.getD 0 / 4)
    ++ (s.map.batches.flatMap fun (b : BatchO) => (b.queries.filter fun q => !q.done).map fun q => 84 + q.engine.getD 0 / 4)

/-- The domains with a started stream or low-rate channel. -/
def startedPorts (s : State) : List Nat :=
  ((s.sens.streams.filter (·.started)).map fun (x : Stream) => portDomain x.kind x.port)
    ++ (s.sens.lows.filter (·.started)).map fun (x : LowRate) => portDomain x.kind x.port

/-- The first condition of Table 14.4 that refuses an entry into a state, as its lowest refuser (R476).
 DEDUCED [173]. -/
def entryRefuser (st : Nat) (s : State) : Option Nat :=
  (refuseIf (s.pwr.sleep.isSome || s.pwr.returning.isSome || s.pwr.state != 0) (refFw 1)).or <|
  (refuseIf (journalBusy s) (refFw 2)).or <|
  (refuseIf (decide (st ≤ 3) && s.ens.ens.isSome) (refFw 3)).or <|
  ((least ((s.tile.insts.filter fun (x : Inst) => !x.runs.isEmpty).map fun x => fnOf 6 x.slot s)).map refFn).or <|
  (leastDom ((s.sheets.filter (·.started)).map fun (x : Sheet) => 80 + x.group)).or <|
  (leastDom ((s.probs.filter fun (p : Problem) => !p.runs.isEmpty).flatMap fun p => p.gsus.map fun g => 88 + g / 4)).or <|
  (leastDom (busyGroups s)).or <|
  (refuseIf (s.fus.grids.any fun (g : Grid) => !g.epochs.isEmpty) (refFw 4)).or <|
  (if 2 ≤ st then leastDom (startedPorts s) else none)

/-- Counts a refused entry (R476). -/
def refuseEntry (st refuser : Nat) (s : State) : State :=
  logPower 0 st refuser 0 { s with pwr.refused := sat32 s.pwr.refused 1 }

/-- A domain is gated at an entry: an untested one is tested as it is gated (R512); it is powered again on the
return only if it was powered (R484). -/
def gateEntry (all : Bool) (s : State) (d : Nat) : State :=
  let x := getDom d s
  if !(x.on || x.returning) then s else
  let s := updDom d (fun x => { x with wakeUp := true }) s
  if x.test == 0 || (all && x.test != 2) then parkDom d none s else gateDom d s

/-- The order in which domains are gated: the reverse of Table 14.8. -/
def gateOrder (st : Nat) : List Nat := if st = 4 then (List.range 96).reverse.filter fun d => d != 91 else (List.range 90).reverse

/-- Steps 1 and 2 of Table 14.6: `READY` falls, fetching stops, the wake latch is armed, domains are gated. -/
def beginEntry (st wake edge waitMs : Nat) (r : ReqRef) (s : State) : State :=
  let s := { s with
    boot.readyAt := none
    link.fetchStopped := true
    pwr := { s.pwr with
      armed := wake + (if st = 1 then 4 else 0), gpioEdge := edge, pending := 0, latch := 0
      sleep := some { target := st, step := 1, req := some r, linkWaitMs := waitMs, at' := s.time.mono } } }
  (gateOrder st).foldl (gateEntry (st == 4)) s

def iPwrStateEnter : CmdInfo :=
  { pwrCmd 0x0B02 1000 6 with
    range := fun c _ => inR 1 (prm c 0 1) 4 && !(prm c 1 1).testBit 2 && decide (prm c 2 1 < 16)
      && (prm c 4 2 == 0 || inR 10 (prm c 4 2) 1000) && !(inR 2 (prm c 0 1) 3 && prm c 1 1 == 0) }

/-- PWR_STATE_ENTER (R475, R476, R482, R570). DEDUCED [173]. -/
def bodyPwrStateEnter : Body := fun c s => do
  let st := prm c 0 1
  need (st != 3 || s.boot.straps.crystal) (err stState)
  match entryRefuser st s with
  | some f => .error { st := stPwrRefused, r0 := f, r1 := 0, fx := refuseEntry st f }
  | none => .ok (beginEntry st (prm c 1 1) (prm c 2 1) (if prm c 4 2 = 0 then 100 else prm c 4 2) (reqRef c.q) s, .wait)

def execPwrStateEnter (r : ReqRef) (io : Io) (s : State) : Result := serve iPwrStateEnter bodyPwrStateEnter r io s

/-! ### Wakes (R481, R485, R486, R542, R555) -/

/-- Counts a wake by its source code (Table 14.11). DEDUCED [174]. -/
def countWake (src : Nat) (s : State) : State :=
  { s with pwr.wakes := s.pwr.wakes.modify src fun n => sat32 n 1 }

/-- Bit 8 of the latch: source 1 was the release of `PERST_N`. -/
def perstMark : Nat := 256

/-- The return starts for a source, with the flags of event 0x0B02. -/
def startWake (src flags : Nat) (s : State) : State :=
  let s := countWake src s
  let s := if flags.testBit 0 then { s with pwr.replayed := sat32 s.pwr.replayed 1 } else s
  let s := if flags.testBit 1 then { s with pwr.resampled := sat32 s.pwr.resampled 1 } else s
  beginReturn s.pwr.state src flags s

/-- At the end of an entry the latched wakes are replayed: the lowest code starts the return (R485, R486). -/
def replayLatch (s : State) : State :=
  match (List.range 8).find? fun n => s.pwr.latch.testBit n with
  | none => s
  | some n => startWake n (1 + (if n = 1 && s.pwr.latch.testBit 8 then 4 else 0)) s

/-- The last steps of an entry into S2 or S3 are still under way: 0.10 ms, and 0.50 ms, after the link reached L2
(Table 14.6). DESIGN CHOICE [176]. -/
def entryTail (s : State) : Bool :=
  (s.pwr.state == 2 || s.pwr.state == 3)
    && decide (s.time.mono < tailEnd s)

/-- A wake event (R485, R486, R542, R555): counted while it can change nothing, latched during an entry, and the
start of the return in S1 to S3. One that falls in the last steps of an entry is replayed or, where the latch is
mid-update, found by re-sampling: a free value says which. [11] DEDUCED [174]. DESIGN CHOICE [176]. -/
def wake (src : Nat) (perst : Bool) (s : State) : State :=
  let armed := s.pwr.armed.testBit src
  let flag := if perst then 4 else 0
  if s.pwr.state = 4 then s
  else if s.pwr.returning.isSome then (if src = 0 || armed then countWake src s else s)
  else if s.pwr.state = 0 && s.pwr.sleep.isNone then (if src = 0 then countWake 0 s else s)
  else if !armed then s
  else
    let s := { s with pwr.pending := s.pwr.pending ||| 2 ^ src }
    if s.pwr.state = 0 then
      { s with pwr.latch := s.pwr.latch ||| 2 ^ src ||| (if perst then perstMark else 0) }
    else if entryTail s then
      let (x, s) := draw s
      startWake src (flag + (if x % 2 = 0 then 1 else 2)) s
    else startWake src flag s

/-- A host write to BAR0 or BAR2 is wake source 2 (Table 14.7). -/
def inBand (s : State) : State := wake 2 false s

/-- `WAKE_N` is low because the K9 drives it. -/
def drivesWake (s : State) : Bool := s.pwr.wakeDrive.isSome

/-- The ghost-light domain senses wakes: it has its supply and no cold reset is held. -/
def wakeLive (s : State) : Bool := s.boot.vaux && s.boot.phase != .held && s.boot.phase != .waitRails

/-- WAKE_N_EDGE (Table 14.7). -/
def execWakeNEdge (s : State) (ns : Nat := 2000) : Result :=
  pinPulse 1000 2000 ns (fun s =>
  .next (if wakeLive s && !drivesWake s then wake 1 false s else s)) s

/-- GPIO_WAKE_EDGE: only the edge selected for the pin wakes (Table 14.9). -/
def execGpioWakeEdge (n : Nat) (rising : Bool) (s : State) (ns : Nat := 2000) : Result :=
  pinPulse 1000 2000 ns (fun s =>
  .next (if wakeLive s && decide (n < 4) && s.pwr.gpioEdge.testBit n == rising then wake (4 + n) false s else s)) s

/-- SB_WAKE_TRANSACTION (R481, R555): acknowledged always; a read is answered with 0xFF. -/
def execSbWakeTransaction (read : Bool) (s : State) : Result :=
  .next (if !s.boot.vaux then s else
    let s := if read then emit (.sideband 0xFF) s else s
    if wakeLive s then wake 0 false s else s)

/-- TIME_ALARM_FIRE (R157, R483): the alarm falls; one set with `WAKE` is wake source 3. -/
def execTimeAlarmFire (n : Nat) (s : State) : Result :=
  .next (match s.time.alarms.find? fun a => a.n == n with
    | none => s
    | some a =>
      if s.time.now < a.t then s else
      let s := alarmFall a s
      settle (if a.wake then wake 3 false s else s))

/-! ### The entry goes on (Table 14.6) -/

/-- The state is reached. -/
def reachState (st step : Nat) (s : State) : State :=
  { s with pwr := { s.pwr with
    state := st, brownNow := 0, entries := s.pwr.entries.modify st fun n => sat32 n 1
    sleep := s.pwr.sleep.map fun (e : Sleep) => { e with step, req := none, at' := s.time.mono } } }

/-- Posts the completion of the entry. -/
def entryDone (e : Sleep) (s : State) : State := e.req.elim s fun r => postRef r stOk 0 0 none s

/-- Step 3 of an entry into S2 or S3: the port domains are gated with their pads held, and a PTP servo enters
holdover (R479). DEDUCED [181]. -/
def gatePorts (s : State) : State :=
  let s := [95, 94, 93, 92, 90].foldl (fun s d =>
    if domOn d s then gateDom d (updDom d (fun x => { x with wakeUp := true }) s) else s) s
  if s.time.servo = 1 ∨ s.time.servo = 2 then enterHoldover s else s

/-- S4 (R475, R563): nothing is powered and `MAIN_PWR_EN` falls. DESIGN CHOICE [180]. -/
def enterS4 (s : State) : State :=
  let s := reachState 4 4 { s with pwr := { s.pwr with faultLogClosed := true, doms := s.pwr.doms.map fun (x : Dom) => { x with on := false, wakeUp := false } } }
  emit (.pin "MAIN_PWR_EN" false) { s with
    pwr.sleep := none
    link.up := false
    boot := { s.boot with phase := .off, mainEn := false, mainEnAt := s.time.mono } }

/-- SLEEP_ENTRY_GATED (R475, R477 to R479): every domain is gated and its test over. -/
def execSleepEntryGated (s : State) : Result :=
  .next (match s.pwr.sleep with
    | none => s
    | some e =>
      if s.pwr.state != 0 || 4 ≤ e.step || s.pwr.doms.any (·.run.isSome) then s
      else if e.target = 1 then settle (replayLatch (reachState 1 3 (entryDone e s)))
      else if e.target = 4 then settle (enterS4 (entryDone e s))
      else
        let s := entryDone e (gatePorts s)
        settle { s with pwr.sleep := some { e with step := 4, req := none, at' := s.time.mono } })

/-- An entry aborted after its completion (R480): event 0x0B03, and the return, which Table 14.11 counts as
source 8. DEDUCED [134]. -/
def abortLate (refuser : Nat) (s : State) : State :=
  match s.pwr.sleep with
  | none => s
  | some e =>
    let s := raise 0x0B03 (refuser + e.step * 65536) none (countAbort e.target refuser e.step s)
    beginReturn e.target 8 0 (countWake 8 s)

/-- ENTRY_LINK_TIMEOUT (R479, R480). -/
def execEntryLinkTimeout (s : State) : Result :=
  .next (match s.pwr.sleep with
    | none => s
    | some e => if s.pwr.state = 0 ∧ e.step = 4 ∧ e.at' + e.linkWaitMs * msT ≤ s.time.mono then settle (abortLate (refFw 5) s) else s)

/-- DOMAIN_GATE_TIMEOUT (R480): a domain being gated does not acknowledge within 1 ms. DEDUCED [179]. -/
def execDomainGateTimeout (d : Nat) (s : State) : Result :=
  .next (match s.pwr.sleep with
    | none => s
    | some e =>
      let late := decide (90 ≤ d) && e.target != 4
      let gating := if late then padDoms.contains d && decide (2 ≤ e.target) && domOn d s else (getDom d s).wakeUp
      if s.pwr.state = 0 ∧ e.step < 4 ∧ gating ∧ e.at' + msT ≤ s.time.mono then
        settle (abortEntry stPwrAborted (refDom d) { s with pwr.sleep := some { e with step := if late then 2 else 1 } })
      else s)

/-- The link reaches L2 and the PCIe domain is gated (Table 14.6 step 5). -/
def linkToL2 (s : State) : State :=
  let s := emit (.pin "CLKREQ_N" true) (emit .pmeToAck s)
  updDom 91 (fun x => { x with on := false, wakeUp := true }) { s with link := { s.link with up := false, inL2 := true } }

/-- Step 7 into S3: the measurement registers are copied (R525), the time base is carried by an oscillator with an error of at most 50 ppm, a free value (R483), the regulator
takes its low-power mode (R487),
`MAIN_PWR_EN` falls (R563), the mirrored sideband fields go stale (R557). DESIGN CHOICE [284]. -/
def enterS3 (s : State) : State :=
  let (x, s) := draw s
  emit (.pin "MAIN_PWR_EN" false) { s with
    time.sleepErr := ((x % 6553601 : Nat) : Int) - 3276800
    sec.glM := some (s.sec.m.map fun m => (m, ~~~m))
    pwr.regLow := true
    sb := { s.sb with temp := 0x8000, power := 0xFFFF }
    boot := { s.boot with mainEn := false, mainEnAt := s.time.mono } }

/-- PME_TURN_OFF (R479, R480, R485, R412): outside the link wait nothing happens. A free value says whether the
self-refresh and the regulator mode of step 7 are reached. [11] DESIGN CHOICE [177]. DESIGN CHOICE [178]. -/
def execPmeTurnOff (s : State) : Result :=
  .next (match s.pwr.sleep with
    | none => s
    | some e =>
      if s.pwr.state ≠ 0 ∨ e.step ≠ 4 then s else
      let (x, s) := draw (linkToL2 s)
      let s := { s with pwr.sleep := some { e with step := if x % 3 = 0 then 7 else 6 } }
      settle (if x % 3 = 1 then abortLate (refFw 6) s
        else if x % 3 = 2 && e.target == 3 then abortLate (refFw 7) s
        else
          let s := reachState e.target 7 { s with mem.scrubPaused := true }
          replayLatch (if e.target = 3 then enterS3 s else s)))

/-! ### The return (Table 14.8) -/

/-- The measurement registers are restored before step 4 (R525); false when a pair fails R420. -/
def restoreM (s : State) : Bool × State :=
  match s.sec.glM with
  | none => (true, s)
  | some l => (l.all fun p => p.2 == ~~~p.1, { s with sec := { s.sec with m := l.map (·.1), glM := none } })

/-- A halted K9 brings back PCIe alone (R533). DEDUCED [182]. -/
def haltedDoms (s : State) : State :=
  if !s.sec.halted then s else
    { s with pwr.doms := s.pwr.doms.mapIdx fun d (x : Dom) => if d = 91 then x else { x with wakeUp := false } }

/-- Step 12: `READY` rises unless the K9 is halted, and events 0x0B02 and 0x0B05 follow (R484, R488).
 DEDUCED [134]. DEDUCED [182]. -/
def endReturn (left src flags : Nat) (s : State) : State :=
  let brown := s.pwr.brownNow
  let inL2 := s.link.inL2
  let s := haltedDoms s
  let s := restoreDoms { s with
    pwr := { s.pwr with
      state := 0, returning := none, brownNow := 0
      returns := if src = 8 then s.pwr.returns else s.pwr.returns.modify left fun n => sat32 n 1 }
    link.inL2 := false
    time.sleepErr := 0
    mem.scrubPaused := false }
  let s := if inL2 then emit (.pin "CLKREQ_N" false) s else s
  let s := if s.sec.halted then s else raiseReady s
  let s := raise 0x0B02 (left + src * 256 + flags * 65536) none s
  if brown = 0 then s else raise 0x0B05 (sat16 brown) none s

/-- RETURN_COMPLETE (R483, R484, R532, R564): the delays of Table 14.8 have passed; from S3 the main rails must be in range; alarms latched in S3 act, and
a measurement copy that fails is a failed start. -/
def execReturnComplete (s : State) : Result :=
  .next (match s.pwr.returning with
    | none => s
    | some (left, src, flags) =>
      if (left = 3 && !s.boot.mainPg) || decide (s.time.mono < s.pwr.retAt) then s else
      let (ok, s') := restoreM s
      if !ok then failStart 0x0C s
      else settle (endReturn left src flags (actLatched s')))

/-- BROWN_OUT (R488): the regulator takes its full mode, the K9 stays in S3, the security block is told (sensor 4 of
Table 16.6). -/
def execBrownOut (s : State) : Result :=
  .next (if s.pwr.state != 3 || !s.pwr.regLow then s else
    { s with
      pwr := { s.pwr with regLow := false, brownouts := sat32 s.pwr.brownouts 1, brownNow := s.pwr.brownNow + 1 }
      sec := { s.sec with latched := s.sec.latched ++ [(4, 0)] } })

/-! ### The link and `PERST_N` -/

/-- `WAKE_N` is released. -/
def releaseWakeN (s : State) : State :=
  if drivesWake s then emit (.pin "WAKE_N" true) { s with pwr.wakeDrive := none } else s

/-- PCIE_LINK_TRAINED (R26, R27, R482): the link reaches L0 at the rate and width trained; Understudy mode trains
Gen1 x1. -/
def execPcieLinkTrained (gen width : Nat) (s : State) : Result :=
  .next (
    let able := s.boot.phase != .off && s.boot.phase != .held && s.boot.phase != .waitRails && !s.boot.perstLow
      && (s.pwr.returning.isSome || decide (s.pwr.state ≤ 1))
    let us := s.boot.phase == .understudy
    let shape := inR 1 gen 5 && [1, 2, 4, 8].contains width && (!us || (gen == 1 && width == 1))
    if able && shape then releaseWakeN { s with link := { s.link with up := true, gen, width } } else s)

/-- WAKE_N_DRIVE_EXPIRY (R482): 1 s without the link reaching L0. -/
def execWakeNDriveExpiry (s : State) : Result :=
  .next (if past s.pwr.wakeDrive secT s then releaseWakeN s else s)

/-- PERST_N_RELEASE (R573, R574): with `RESET_N` high a held cold start begins, its straps sampled; in S2 and S3 it
is wake source 1, unless a return has started. DEDUCED [175]. -/
def execPerstNRelease (straps : Straps) (s : State) (ns : Nat := 2000) : Result :=
  pinPulse 1000 2000 ns (fun s =>
  .next (if !s.boot.perstLow then s else
    let s := { s with boot.perstLow := false }
    if s.boot.phase == .held || s.boot.phase == .waitRails then tryStart { s with boot.straps := straps }
    else if perstLocal s && s.pwr.returning.isNone then wake 1 true s
    else s)) s

end Sys2Proof.Machine
end

