-- ==== Sys2Proof/Machine/Admin.lean ====
section
/-! DEFINITION. Identity, queue pairs, limits and aborts: the rest of the group 0x00 commands (R29, R30, R43, R44,
R93 to R97, R99), and the envelope of every command by opcode (Table 3.8). -/
namespace Sys2Proof.Machine

/-! ### ADM_IDENTIFY -/

/-- `ID_DEVICE` to `ID_LIMITS` (Table 0.1). -/
def idWords : List Nat := [0x4B470901, 0x00441010, 0x08200100, 0x08081004, 0x80108410, 0x00100080]

/-- Tiles in service (Table 3.10): a fenced stage memory takes the sixteen tiles of its cluster. -/
def tilesInService (s : State) : Nat :=
  ((List.range 16).map fun c => if (getDom (64 + c) s).test = 2 then 0 else (tilesIn c s).length).sum

/-- The fenced units of a group of four: all of them when the group is fenced whole. -/
def groupMask (d : Nat) (s : State) : Nat := if (getDom d s).test = 2 then 15 else (getDom d s).fenced % 16

/-- Fenced engines (Table 3.10). -/
def fencedEngines (s : State) : Nat :=
  maskBits ((List.range 4).map fun g => (getDom (80 + g) s).test == 2)
    + ((List.range 4).map fun g => groupMask (84 + g) s * 2 ^ (4 + 4 * g)).sum
    + ((List.range 2).map fun g => groupMask (88 + g) s * 2 ^ (20 + 4 * g)).sum

/-- The identity record (Table 3.10). DEDUCED [156]. -/
def identityRecord (s : State) : List Byte :=
  padTo 512 ((idWords ++ [idFirmware s]).flatMap (leBytes 4) ++ leBytes 2 (tilesInService s) ++ zeros 2
    ++ leBytes 4 (fencedEngines s) ++ leBytes 1 (lifecycle s) ++ leBytes 1 s.cb.server ++ zeros 10 ++ s.sec.serial)

def iAdmIdentify : CmdInfo := { opcode := 0x0000, handle := .zero, inline := 12, dl := dlMs 100, res := resMin 512 }

/-- ADM_IDENTIFY (Table 3.9). -/
def bodyAdmIdentify : Body := fun _ s => .ok (s, okD 512 0 (identityRecord s))

def execAdmIdentify (r : ReqRef) (io : Io) (s : State) : Result := serve iAdmIdentify bodyAdmIdentify r io s

/-! ### Queue pairs -/

/-- The flags byte of a pair's attributes, its classes in range (Table 2.6, R43, R44). -/
def attrsOk (fn vector coalTime coalCount flags weight : Nat) : Bool :=
  decide (vector < vectors fn) && decide (coalTime ≤ 4095) && decide (bitsOf flags 3 2 ≤ 2) && decide (flags < 16)
    && inR 1 weight 16 && !(flags.testBit 0 && coalCount == 0 && coalTime == 0)

/-- A pair with nothing in it (R50, R53). -/
def newPair (fn qid : Nat) (sq cq : Comp) (sqDepth cqDepth vector : Nat) (intEn : Bool) : QPair :=
  { fn, qid, fault := 0, sqBase := sq, cqBase := cq, sqDepth, cqDepth, vector, intEn, coalCount := 1, coalTime := 0
    errImm := true, arbClass := 0, arbWeight := 1, sqTail := 0, sqHead := 0, cqHead := 0, cqTail := 0, phase := true
    owed := false, heldCpl := 0, coalN := 0, coalAt := none, credit := 0 }

/-- A request of a pair. -/
def ofPair (fn qid : Nat) (q : Req) : Bool := q.src == .queue fn qid

/-- Deletes a pair: its requests end without completions (R40, R95); what was held for it is gone. DEDUCED [183]. -/
def deletePair (fn qid : Nat) (s : State) : State :=
  let s := cancelAll (ofPair fn qid) s
  let other (o : Output) : Bool := match o with
    | .completion f q .. => !(f == fn && q == qid)
    | _ => true
  updFn fn (fun f => { f with held := f.held.filter other }) { s with link.pairs := s.link.pairs.filter fun p => !isPair fn qid p }

/-- Takes the highest-numbered pairs of a function (R29, R30). DEDUCED [183]. -/
def giveUp (fn n : Nat) (s : State) : State :=
  let g := (getFn fn s).grant
  let s := (s.link.pairs.filter fun p => p.fn == fn && decide (g ≤ p.qid + n)).foldl (fun s (p : QPair) => deletePair fn p.qid s) s
  updFn fn (fun f => { f with grant := g - n }) s

def iAdmQueueCreate : CmdInfo :=
  { opcode := 0x0004, handle := .obj [1], inline := 29, dl := dlMs 100
    range := fun c _ => prm c 0 8 % 4096 == 0 && prm c 8 8 % 4096 == 0 && prm c 16 2 != 0 && prm c 18 2 != 0
      && prm c 20 2 != 0 && attrsOk c.fn (prm c 22 2) (prm c 24 2) (prm c 26 1) (prm c 27 1) (prm c 28 1) }

/-- ADM_QUEUE_CREATE (R43, R94). -/
def bodyAdmQueueCreate : Body := fun c s => do
  let qid := prm c 16 2
  need (getPair c.fn qid s).isNone (err stState)
  need (decide (qid < (getFn c.fn s).grant)) (err stLimit)
  let flags := prm c 27 1
  let p := newPair c.fn qid (Comp.of (prm c 0 8)) (Comp.of (prm c 8 8)) (prm c 18 2 + 1) (prm c 20 2 + 1) (prm c 22 2) (flags.testBit 0)
  let p := { p with
    coalTime := prm c 24 2, coalCount := prm c 26 1, errImm := flags.testBit 1, arbClass := bitsOf flags 3 2
    arbWeight := prm c 28 1 }
  .ok ({ s with link.pairs := s.link.pairs ++ [p] }, okR 0 0)

def execAdmQueueCreate (r : ReqRef) (io : Io) (s : State) : Result := serve iAdmQueueCreate bodyAdmQueueCreate r io s

def iAdmQueueDelete : CmdInfo :=
  { opcode := 0x0005, handle := .obj [1], inline := 2, dl := dlMs 1000
    range := fun c s => prm c 0 2 != 0 && decide (prm c 0 2 < (getFn c.fn s).grant) }

/-- ADM_QUEUE_DELETE (R95). -/
def bodyAdmQueueDelete : Body := fun c s => do
  let qid := prm c 0 2
  need ((getPair c.fn qid s).isSome && c.q.src != .queue c.fn qid) (err stState)
  .ok (deletePair c.fn qid s, okR (s.link.reqs.filter (ofPair c.fn qid)).length 0)

def execAdmQueueDelete (r : ReqRef) (io : Io) (s : State) : Result := serve iAdmQueueDelete bodyAdmQueueDelete r io s

def iAdmQueueModify : CmdInfo :=
  { opcode := 0x0006, handle := .obj [1], inline := 9, dl := dlMs 100
    range := fun c s => decide (prm c 0 2 < (getFn c.fn s).grant)
      && attrsOk c.fn (prm c 2 2) (prm c 4 2) (prm c 6 1) (prm c 7 1) (prm c 8 1) }

/-- ADM_QUEUE_MODIFY (R95): for pair 0, `QZ_CTRL` reads the new `VECTOR` and `INT_EN`. -/
def bodyAdmQueueModify : Body := fun c s => do
  let qid := prm c 0 2
  need (getPair c.fn qid s).isSome (err stState)
  let flags := prm c 7 1
  let set (p : QPair) : QPair := { p with
    vector := prm c 2 2, coalTime := prm c 4 2, coalCount := prm c 6 1, intEn := flags.testBit 0
    errImm := flags.testBit 1, arbClass := bitsOf flags 3 2, arbWeight := prm c 8 1 }
  let s := updPair c.fn qid set s
  let ctrl (f : Fn) : Fn := { f with vector := prm c 2 2, intEn := flags.testBit 0 }
  .ok (if qid = 0 then updFn c.fn ctrl s else s, okR 0 0)

def execAdmQueueModify (r : ReqRef) (io : Io) (s : State) : Result := serve iAdmQueueModify bodyAdmQueueModify r io s

def iAdmQueueQuery : CmdInfo :=
  { opcode := 0x0007, handle := .obj [1], inline := 2, dl := dlMs 100
    range := fun c s => decide (prm c 0 2 < (getFn c.fn s).grant) }

/-- ADM_QUEUE_QUERY (R95). -/
def bodyAdmQueueQuery : Body := fun c s =>
  .ok (s, match getPair c.fn (prm c 0 2) s with
    | none => okR 0 0
    | some p => okR (1 + (if p.fault = 0 then 0 else 2) + p.fault * 256) p.sqHead)

def execAdmQueueQuery (r : ReqRef) (io : Io) (s : State) : Result := serve iAdmQueueQuery bodyAdmQueueQuery r io s

def iAdmQueueGrant : CmdInfo :=
  { opcode := 0x0008, handle := .admin, inline := 8, dl := dlMs 100
    range := fun c s => decide (prm c 0 1 ≤ 31) && decide (prm c 1 1 ≤ 31) && prm c 2 2 == 0 && inR 1 (prm c 4 4) 65535
      && (getFn (prm c 0 1) s).enabled && (getFn (prm c 1 1) s).enabled && prm c 0 1 != prm c 1 1 }

/-- ADM_QUEUE_GRANT (R30, R96): the giver's highest-numbered pairs move. A grant that takes a created pair is
refused by the state check, before the limits (R579). DEDUCED [183]. -/
def bodyAdmQueueGrant : Body := fun c s => do
  let a := prm c 0 1
  let b := prm c 1 1
  let n := prm c 4 4
  let g := (getFn a s).grant
  let made := (s.link.pairs.filter fun p => p.fn == a).length
  need (!(s.link.pairs.any fun p => p.fn == a && decide (g ≤ p.qid + n))) (err stState)
  need (decide (n + made ≤ g) && (b == 0 || decide ((getFn b s).grant + n ≤ 4096))) (err stLimit)
  let s := updFn a (fun f => { f with grant := g - n }) (updFn b (fun f => { f with grant := f.grant + n }) s)
  .ok (s, okR (getFn b s).grant 0)

def execAdmQueueGrant (r : ReqRef) (io : Io) (s : State) : Result := serve iAdmQueueGrant bodyAdmQueueGrant r io s

/-! ### ADM_LIMITS_READ, ADM_ABORT -/

/-- The limits of Table 3.15, the stacked tier's capacity at its present value. -/
def limits (s : State) : List (Nat × Nat) :=
  (allTypes.map fun t => (t, typeLimit t)) ++
  [(0x0081, 256), (0x0082, 65536), (0x0083, 4096), (0x0084, 1024), (0x0085, 16), (0x0101, 128), (0x0102, 12000000000),
   (0x0201, 64000000), (0x0202, 24576000000), (0x0301, 4), (0x0302, 4096), (0x0401, 256), (0x0402, 64), (0x0403, 64),
   (0x0404, 4096), (0x0601, 8), (0x0602, 4194304), (0x0701, 4), (0x0801, 2147483648), (0x0802, 4096),
   (0x0901, onchipCap), (0x0902, s.mem.stackedCap), (0x0A01, 8), (0x0E01, 64)]

def iAdmLimitsRead : CmdInfo := { opcode := 0x000A, handle := .zero, inline := 12, dl := dlMs 100, res := resMin 4096 }

/-- ADM_LIMITS_READ (R99). -/
def bodyAdmLimitsRead : Body := fun _ s =>
  .ok (s, okD (limits s).length 0 ((limits s).flatMap fun x => leBytes 2 x.1 ++ zeros 6 ++ leBytes 8 x.2))

def execAdmLimitsRead (r : ReqRef) (io : Io) (s : State) : Result := serve iAdmLimitsRead bodyAdmLimitsRead r io s

def iAdmAbort : CmdInfo := { opcode := 0x000B, handle := .obj [1], inline := 4, dl := dlMs 100 }

/-- ADM_ABORT (R97). -/
def bodyAdmAbort : Body := fun c s =>
  let r : ReqRef := { src := .queue c.fn (prm c 0 2), cid := prm c 2 2 }
  .ok (if r = reqRef c.q then (s, okR 1 0) else
    match findReq r s with
    | none => (s, okR 1 0)
    | some q => (cancel q stAborted s, okR 0 0))

def execAdmAbort (r : ReqRef) (io : Io) (s : State) : Result := serve iAdmAbort bodyAdmAbort r io s

/-! ### Every command by opcode (Table 3.8) -/

/-- The envelopes of groups 0x00 to 0x06. -/
def cmdsLow : List CmdInfo :=
  [iAdmIdentify, iAdmSessionOpen, iAdmSessionClose, iAdmSessionAdopt, iAdmQueueCreate, iAdmQueueDelete, iAdmQueueModify,
   iAdmQueueQuery, iAdmQueueGrant, iAdmHandleQuery, iAdmLimitsRead, iAdmAbort, iAdmResetWarm, iAdmResetDomain, iAdmEventWait]
  ++ [iStreamOpen, iStreamClose, iStreamStart, iStreamStop, iStreamQuery, iStreamSetWindow, iStreamFrameRelease]
  ++ [iFiltOpen, iFiltClose, iFiltLoadBank, iFiltSwap, iFiltCrossfade, iFiltSetPhase, iFiltDcFreeze, iFiltDelayQuery]
  ++ [iCueLoad, iCueUnload, iCueStart, iCueStop, iCueQuery, iCueFlagRead]
  ++ [iPkgLoad, iPkgUnload, iInstCreate, iInstDestroy, iInferRun, iInstQuery, iPkgQuery]
  ++ [iGridCreate, iGridDestroy, iGridRead, iGridClear, iGridVoteSet, iGridPoseSubmit, iGridStatus, iCalCreate, iCalDestroy]
  ++ [iSolvLoad, iSolvDelta, iSolvRun, iSolvUnload, iSolvResult, iSolvQuery]

/-- The envelopes of groups 0x07 to 0x0E. -/
def cmdsHigh : List CmdInfo :=
  [iMapCreate, iMapDestroy, iMapInsert, iMapDelete, iMapRead, iMapTraverse, iMapDeadheadSet, iMapRepot, iMapCheckpoint, iMapRestore]
  ++ [iIdxCreate, iIdxDestroy, iIdxInsert, iIdxDelete, iIdxRebuild, iSrchBatch, iIdxQuery]
  ++ [iMemAlloc, iMemFree, iMemCopy, iMemSeal, iMemMapBar4, iMemUnmapBar4, iMemQuotaSet, iMemQuotaQuery, iMemStats]
  ++ [iEnsForm, iEnsJoin, iEnsLeave, iEnsRemove, iEnsReshard, iEnsStatus]
  ++ [iPwrCapSet, iPwrLevelSet, iPwrStateEnter, iPwrDomainPark, iPwrPadRelease, iPwrStatus, iPwrCounters]
  ++ [iTimeRead, iTimeSet, iTimeAdjust, iTimePtpConfig, iTimeAlarmSet, iTimeStatus]
  ++ [iSecQuote, iSecLifecycle, iSecUnlockChallenge, iSecUnlock, iSecAlarmPolicy, iSecIdentityRead]
  ++ [iDiagLogRead, iDiagCounters, iDiagSelftestRecord, iRecastImageLoad, iRecastCommit, iRecastFallback, iDiagJournalRead]

/-- The envelope of an opcode, none for one that does not exist. -/
def cmdOf (opcode : Nat) : Option CmdInfo := (cmdsLow ++ cmdsHigh).find? fun c => c.opcode == opcode

end Sys2Proof.Machine
end

