-- ==== Sys2Proof/Machine/Frames.lean ====
section
/-! DEFINITION. Reception on the CSI-2 and Ethernet ports (R116 to R130, R137, R148 to R150): frame
starts, packets and frame ends, GVSP, Svetveora Sensor Frames, PTP and the ports' own replies.
Reasons of the drop and error counters (per port; CSI-2 port p counts at p, Ethernet port p at 16 + p):
0 ECC corrected, 1 ECC lost, 2 embedded data, 3 other data type, 4 no open stream, 5 no frame in
progress, 6 GVSP payload type, 7 frame size or VLAN tags, 8 unknown protocol, 10 to 15 the SSF
conditions of R129 in their order. -/
namespace Sys2Proof.Machine

/-! ### Frames of a stream -/

/-- The extended frame number (Table 4.1): 16 bits carried on to 32. -/
def extendNumber (last n : Nat) : Nat :=
  let c := last / 65536 * 65536 + n % 65536
  (if c < last then c + 65536 else c) % 2 ^ 32

/-- A unit's times and judgement (R148 to R150, R155): the stream after it, its sensor time, its
divergence and the event that follows. -/
structure Judged where
  x : Stream
  sensor : Int
  e : Int
  ev : Option Nat
deriving DecidableEq, Repr

/-- Judges one unit with device time `d`, frame number `k` and, but for CSI-2, a sensor time. -/
def judgeUnit (x : Stream) (d : Int) (k : Nat) (sensor : Option Int) : Judged :=
  let period := x.newPeriod.getD x.period
  let fresh := x.ref.isNone || x.rebase
  let r : StreamRef := if fresh then { o := d - sensor.getD d, s0 := sensor.getD d, k0 := k }
    else x.ref.getD { o := 0, s0 := 0, k0 := 0 }
  let sk : Int := match sensor with
    | some t => t
    | none => r.s0 + ((k : Int) - r.k0) * ((period * 65536 : Nat) : Int)
  let e := d - sk - r.o
  let (ds, good, ev) := judge x.desync (if fresh then 0 else x.good) e.natAbs (period * 65536)
  { x := { x with period, newPeriod := none, ref := some r, rebase := false, desync := ds, good, lastE := eNs e }
    sensor := sk, e, ev }

/-- The first free ring buffer (R137). -/
def freeRing (x : Stream) : Option Nat := x.ring.findIdx? fun b => b == .free

/-- The event of a judgement (Table 4.17). -/
def judgeEvent (slot : Nat) (j : Judged) (k : Nat) (s : State) : State :=
  match j.ev with
  | some 0x0101 => raise 0x0101 (eDetail j.e) (some (2, slot)) s
  | some v => raise v k (some (2, slot)) s
  | none => s

/-- A frame start (R119, R126, R137, R148): it claims the lowest free buffer, or the frame is dropped.
 DEDUCED [46]. -/
def startFrame (x : Stream) (tag k : Nat) (sensor : Option Int) (gvsp : Nat) (rows : List (List Nat))
    (s : State) : State :=
  match freeRing x with
  | none =>
    let s := updStream x.slot (fun x => { x with frameExt := k, dropped := x.dropped + 1 }) (takeCal x.slot s)
    raiseOnce 0x0103 (2, x.slot) (fun n => n) s
  | some b =>
    let stamp := stampNow tag s
    let j := judgeUnit x stamp.t k sensor
    let f : Frame :=
      { stamp, sensor := j.sensor, number := k, desync := j.x.desync, incomplete := false, ecc := false
        crc := false, length := false, stepped := false, lines := 0, lead := 0, e := eNs j.e
        gvspFormat := gvsp, desc := [], rows, got := [] }
    let s := updStream x.slot (fun _ => { j.x with frameExt := k, ring := j.x.ring.set b (.claimed f) }) s
    cueFrameStart x.slot b stamp k (judgeEvent x.slot j k (takeCal x.slot s))

/-- Changes the frame in progress of a stream. -/
def updFrame (slot : Nat) (f : Frame → Frame) (s : State) : State :=
  updStream slot (fun x => { x with ring := x.ring.map fun b => match b with
    | .claimed g => .claimed (f g)
    | b => b }) s

/-- The 64 bytes of a frame descriptor (Table 4.7). -/
def frameDesc (f : Frame) : List Byte :=
  let sensor := timeAt f.sensor / 65536
  let flags := (if f.incomplete then 1 else 0) + (if f.ecc then 2 else 0) + (if f.crc then 4 else 0)
    + (if f.length then 8 else 0) + (if f.stepped then 16 else 0)
  timeWord f.stamp ++ leBytes 8 (sensor / 1000000000) ++ leBytes 4 (sensor % 1000000000)
    ++ leBytes 4 f.number ++ leBytes 2 (frameStatus f) ++ leBytes 2 flags ++ leBytes 4 f.lines
    ++ leBytes 8 (codeOf 64 f.e) ++ leBytes 4 f.gvspFormat ++ zeros 12

/-- Ends the frame in progress (R120, R137, R142, R154): it is delivered and held, or freed where the
cue engine has done with it. DEDUCED [45]. -/
def endFrame (slot : Nat) (incomplete : Bool) (s : State) : State :=
  match (getStream slot s).bind fun x => (claimedBuf x).map fun p => (x, p) with
  | none => s
  | some (x, b, f) =>
    let missing := x.height - f.rows.length
    let rows := f.rows ++ List.replicate missing (List.replicate x.width 0)
    let f := { f with incomplete := f.incomplete || incomplete || decide (0 < missing), stepped := x.stepped, rows }
    let f := { f with desc := frameDesc f }
    let buf : Buf := if x.relEnd.contains b then .free else .held f
    let s := updStream slot (fun x => { x with
      ring := x.ring.set b buf, relEnd := x.relEnd.filter (· != b), stepped := false, stopping := false
      delivered := x.delivered + 1, incomplete := x.incomplete + (if f.incomplete then 1 else 0)
      desynced := x.desynced + (if f.desync then 1 else 0) }) s
    cueFrameMoved slot s

/-- A stream takes units: started, or completing its last frame (R154). -/
def takesPackets (x : Stream) : Bool := x.started || x.stopping

/-! ### CSI-2 (R116 to R120) -/

/-- A CSI-2 port receives: its half is on and its pads are free (R472). -/
def csiLive (port : Nat) (s : State) : Bool :=
  let d := portDomain 0 port
  domOn d s && !(getDom d s).pads

/-- The open CSI-2 stream of a port and virtual channel (R125). -/
def csiStream (port vc : Nat) (s : State) : Option Stream :=
  s.sens.streams.find? fun x => x.kind == 0 && x.port == port && x.vc == vc

/-- CSI_FRAME_START (R119, Table 4.2): a frame still in progress is closed as incomplete. -/
def execCsiFrameStart (port vc n : Nat) (s : State) : Result :=
  .next (if !csiLive port s then s else
    match csiStream port vc s with
    | none => countPort 4 port s
    | some x =>
      let s := if (claimedBuf x).isSome then endFrame x.slot true s else s
      settle (match csiStream port vc s with
        | none => s
        | some x => if x.started then
            startFrame x (0x1000 + port * 32 + vc) (extendNumber x.frameExt n) none 0 [] s
          else s))

/-- One line into the frame in progress (Table 4.2). -/
def putLine (w h : Nat) (p : CsiPacket) (f : Frame) : Frame :=
  let f := { f with ecc := f.ecc || p.ecc == Ecc.corrected, crc := f.crc || !p.crcOk }
  if h ≤ f.rows.length then { f with length := true }
  else
    let row := p.pixels.take w
    let row := row ++ List.replicate (w - row.length) 0
    { f with rows := f.rows ++ [row], lines := f.lines + 1, lead := f.lead + 1
             length := f.length || p.pixels.length != w }

/-- CSI_PACKET (R120, Tables 4.1 and 4.2). Data types 0x02 and 0x03 are line start and end. DESIGN CHOICE [212]. -/
def execCsiPacket (port vc : Nat) (p : CsiPacket) (s : State) : Result :=
  .next (if !csiLive port s then s else
    if p.ecc = .lost then countPort 1 port s else
    let s := if p.ecc = .corrected then countPort 0 port s else s
    match csiStream port vc s with
    | none => countPort 4 port s
    | some x =>
      if p.dt = 2 ∨ p.dt = 3 then s
      else if p.dt = 0x12 then countPort 2 port s
      else if p.dt ≠ csiType x.format x.dt then countPort 3 port s
      else if (claimedBuf x).isNone then s
      else settle (cueFrameMoved x.slot (updFrame x.slot (putLine x.width x.height p) s)))

/-- CSI_FRAME_END (R120, R154). -/
def execCsiFrameEnd (port vc : Nat) (s : State) : Result :=
  .next (if !csiLive port s then s else
    match csiStream port vc s with
    | none => countPort 4 port s
    | some x => settle (endFrame x.slot false s))

/-! ### Bytes of an Ethernet image frame -/

/-- Adds a byte range to rising, disjoint ranges. -/
def addRange (a b : Nat) : List (Nat × Nat) → List (Nat × Nat)
  | [] => [(a, b)]
  | (x, y) :: rs =>
    if b < x then (a, b) :: (x, y) :: rs
    else if y < a then (x, y) :: addRange a b rs
    else addRange (min a x) (max b y) rs

/-- Sets byte `k` of a pixel's code. -/
def setByte (k v code : Nat) : Nat := code - code / 256 ^ k % 256 * 256 ^ k + v * 256 ^ k

/-- Writes one stored byte into the frame's rows. -/
def putByte (w pb off : Nat) (v : Nat) (rows : List (List Nat)) : List (List Nat) :=
  let px := off / pb
  rows.modify (px / w) fun row => row.modify (px % w) (setByte (off % pb) v)

/-- Writes stored bytes, each at its offset. -/
def putBytes (w pb : Nat) (bs : List (Nat × Nat)) (rows : List (List Nat)) : List (List Nat) :=
  bs.foldl (fun rows (off, v) => putByte w pb off v rows) rows

/-- Whether a range is covered. -/
def covered (got : List (Nat × Nat)) (a b : Nat) : Bool :=
  decide (b ≤ a) || got.any fun (x, y) => decide (x ≤ a) && decide (b ≤ y)

/-- Bytes of an image frame of a stream. -/
def frameBytes (x : Stream) : Nat := x.width * x.height * pixBytes x.format

/-- A payload byte as it is stored at an offset: the upper bits of a RAW10, RAW12 or RAW14 pixel are zero
(Table 4.3, R128). DESIGN CHOICE [213]. -/
def storedByte (format off v : Nat) : Nat :=
  if off % 2 = 1 ∧ 2 ≤ format ∧ format ≤ 4 then v % 2 ^ (linkBits format - 8) else v

/-- Stores payload bytes at `off` of the frame in progress, each with its stored offset; bytes past
the frame are discarded. -/
def putData (x : Stream) (off : Nat) (bs : List (Nat × Nat)) (s : State) : State :=
  let size := frameBytes x
  let bs := (bs.take (size - off)).map fun (o, v) => (o, storedByte x.format o v)
  let pb := pixBytes x.format
  let line := x.width * pb
  let put (f : Frame) : Frame :=
    if bs.isEmpty then f else
    let got := addRange off (off + bs.length) f.got
    { f with
      rows := putBytes x.width pb bs f.rows
      got
      lines := ((List.range x.height).filter fun r => covered got (r * line) ((r + 1) * line)).length
      lead := (got.head?).elim 0 fun (a, b) => if a = 0 then b / line else 0 }
  cueFrameMoved x.slot (updFrame x.slot put s)

/-- Ends an Ethernet frame: it is incomplete when bytes are missing, and, with `lost`, when the packet that
ends it is (R127, R129). -/
def endData (x : Stream) (lost : Bool) (s : State) : State :=
  let full := (claimedBuf x).any fun (_, f) => covered f.got 0 (frameBytes x)
  endFrame x.slot (lost || !full) s

/-- A blank frame for data that arrives by byte offset. -/
def blankRows (x : Stream) : List (List Nat) := List.replicate x.height (List.replicate x.width 0)

/-- The frame number of the frame in progress. -/
def frameNow (x : Stream) : Option Nat := (claimedBuf x).map fun (_, f) => f.number

/-- A number follows the last frame's, in 32 bits that wrap: a packet of a frame already over does not.
 DEDUCED [224]. -/
def laterFrame (x : Stream) (k : Nat) : Bool :=
  let d := (k + 2 ^ 32 - x.frameExt) % 2 ^ 32
  decide (0 < d) && decide (d < 2 ^ 31)

/-- The next Ethernet frame of a started stream begins; one still in progress has lost its last packet.
 DEDUCED [25]. -/
def beginData (port k : Nat) (x : Stream) (sensor : Int) (gvsp : Nat) (lost : Bool) (s : State) : State :=
  let s := if (claimedBuf x).isSome then endData x true s else s
  match getStream x.slot s with
  | none => s
  | some x =>
    if !x.started then s else
    let s := startFrame x (0x2000 + port) k (some sensor) gvsp (blankRows x) s
    if lost && ((getStream x.slot s).bind frameNow) == some k then
      updFrame x.slot (fun f => { f with incomplete := true }) s else s

/-- Drops and counts on an Ethernet port. DEDUCED [47]. -/
def ethDrop (reason port : Nat) (s : State) : State := countPort reason (16 + port) s

/-! ### GVSP (R127) -/

/-- Payload types Image and Image Extended Chunk. PRESUMED [23]. -/
def gvspTypeOk (t : Nat) : Bool := t == 0x0001 || t == 0x4001

/-- A GVSP packet of a frame that has lost its leader begins it, incomplete (R127); the sensor time that the
leader would have given is free. DESIGN CHOICE [223]. -/
def gvspNoLeader (port k : Nat) (x : Stream) (s : State) : State :=
  if frameNow x = some k || !x.started || !laterFrame x k then s else
  let (t, s) := draw s
  beginData port k x t 0 true s

/-- A GVSP packet of a stream. PRESUMED [23]. DESIGN CHOICE [213]. -/
def gvspPacket (port : Nat) (x : Stream) (p : Gvsp) (s : State) : State :=
  match p with
  | .leader t block format stamp =>
    if !gvspTypeOk t then ethDrop 6 port s else
    if frameNow x = some (block % 2 ^ 32) then s else
    beginData port (block % 2 ^ 32) x ((stamp * 1000000000 * 65536 / x.tickHz : Nat) : Int) (format % 2 ^ 32) false s
  | .payload t block off bs =>
    if !gvspTypeOk t then ethDrop 6 port s else
    let s := gvspNoLeader port (block % 2 ^ 32) x s
    (getStream x.slot s).elim s fun x =>
    if frameNow x = some (block % 2 ^ 32) then
      putData x off ((bs.map BitVec.toNat).zipIdx.map fun (v, i) => (off + i, v)) s
    else ethDrop 5 port s
  | .trailer t block _ =>
    if !gvspTypeOk t then ethDrop 6 port s else
    let s := gvspNoLeader port (block % 2 ^ 32) x s
    (getStream x.slot s).elim s fun x =>
    if frameNow x = some (block % 2 ^ 32) then endData x false s
    else ethDrop 5 port s

/-! ### Svetveora Sensor Frames (R128 to R130) -/

/-- A big-endian field (R128). -/
def beFld (bs : List Byte) (off len : Nat) : Nat := unle (slice bs off len).reverse

/-- The conditions of R129 that the header alone decides, in their order: the reason that drops it. DEDUCED [47]. -/
def ssfBad (b : List Byte) : Option Nat :=
  let kind := beFld b 3 1
  let rsv := if kind = 0 then beFld b 33 7 else if kind = 1 then beFld b 26 2 else 0
  if beFld b 0 2 ≠ 0x5353 ∨ beFld b 2 1 ≠ 1 then some 10
  else if 4 ≤ beFld b 6 2 ∨ rsv ≠ 0 then some 11
  else if 1 < kind ∨ beFld b 4 2 = 0 ∨ 1000000000 ≤ beFld b 20 4
      ∨ (kind = 0 ∧ !(inR 1 (beFld b 28 2) 8192 && inR 1 (beFld b 30 2) 8192 && inR 1 (beFld b 32 1) 8))
      ∨ (kind = 1 ∧ !(inR 1 (beFld b 24 1) 64 && inR 1 (beFld b 25 1) 32
          && inR 62500 (beFld b 28 4) 1000000000)) then some 12
  else none

/-- The sensor time of the header in 2^-16 ns. -/
def ssfTime (b : List Byte) : Nat := (beFld b 12 8 * 1000000000 + beFld b 20 4) * 65536

/-- Samples come big-endian in the bytes of each pixel; they are stored little-endian (R128). -/
def ssfBytes (format off : Nat) (bs : List Byte) : List (Nat × Nat) :=
  bs.zipIdx.map fun (b, i) =>
    let o := off + i
    (if format = 2 ∨ format = 3 ∨ format = 4 ∨ format = 5 ∨ format = 8 then
      (if o % 2 = 0 then o + 1 else o - 1) else o, b.toNat)

/-- An SSF image datagram of a stream (R129). A frame starts with its first datagram and ends with `END`; one
that has lost its `OFFSET` 0 starts incomplete, stamped at the datagram that comes. DEDUCED [25]. -/
def ssfImage (port : Nat) (x : Stream) (b : List Byte) (s : State) : State :=
  let off := beFld b 24 4
  let seqNo := beFld b 8 4
  let data := b.drop 40
  if beFld b 28 2 ≠ x.width ∨ beFld b 30 2 ≠ x.height ∨ beFld b 32 1 ≠ x.format then ethDrop 13 port s
  else if b.length < 40 then ethDrop 14 port s
  else if frameBytes x < off + data.length then ethDrop 15 port s
  else if !takesPackets x then s
  else
    let s := if frameNow x ≠ some seqNo ∧ (off = 0 ∨ laterFrame x seqNo) then
        beginData port seqNo x (ssfTime b : Nat) 0 false s
      else s
    (getStream x.slot s).elim s fun x =>
    if frameNow x ≠ some seqNo then ethDrop 5 port s else
    let s := putData x off (ssfBytes x.format off data) s
    if beFld b 6 2 % 2 = 1 then (getStream x.slot s).elim s fun x => endData x false s else s

/-- An SSF low-rate block (R130): one channel index feeds each open channel of its source. -/
def ssfLow (port udp : Nat) (b : List Byte) (s : State) : State :=
  let channels := beFld b 24 1
  let samples := beFld b 25 1
  if b.length ≠ 32 + 4 * channels * samples then ethDrop 14 port s else
  let mine := s.sens.lows.filter fun x => x.kind == 3 && x.port == port && x.udp == udp
    && x.source == beFld b 4 2 && x.started && decide (x.index < channels)
  mine.foldl (fun s x =>
    let vals := (List.range samples).map fun i => signedOf 32 (beFld b (32 + 4 * (i * channels + x.index)) 4)
    lowBlock x port (ssfTime b) (beFld b 28 4) samples (beFld b 8 4) vals s) s

/-- A Svetveora Sensor Frame on a UDP port that carries them (R125, R129). -/
def ssfDatagram (port udp : Nat) (b : List Byte) (s : State) : State :=
  if b.length < 24 then ethDrop 14 port s else
  match ssfBad b with
  | some r => ethDrop r port s
  | none =>
    let src := beFld b 4 2
    if beFld b 3 1 = 0 then
      match s.sens.streams.find? fun x => x.kind == 2 && x.port == port && x.udp == udp && x.source == src with
      | some x => ssfImage port x b s
      | none => ethDrop 4 port s
    else if s.sens.lows.any fun x => x.kind == 3 && x.port == port && x.udp == udp && x.source == src then
      ssfLow port udp b s
    else ethDrop 4 port s

/-! ### ETH_FRAME_RECEIVED (R123 to R126) -/

/-- A port's MAC address: the device base address plus the port number, in the order sent (R123). -/
def portMac (port : Nat) (s : State) : List Byte := (leBytes 6 (s.sec.macBase + port)).reverse

/-- What a port answers by itself (R124); ARP replies and advertisements give its MAC address. -/
def netReply (port : Nat) (q : NetAsk) (s : State) : State :=
  let mine (ip : Nat) : Bool := ip != 0 && natAt s.time.ptp.ips port == ip
  match q with
  | .arp ip => if mine ip then emit (.eth port "ARP reply" (portMac port s)) s else ethDrop 8 port s
  | .icmpEcho ip bs => if mine ip then emit (.eth port "ICMP echo reply" bs) s else ethDrop 8 port s
  | .neighborSolicitation ll => if ll then emit (.eth port "Neighbor Advertisement" (portMac port s)) s else ethDrop 8 port s
  | .icmp6Echo ll bs => if ll then emit (.eth port "ICMPv6 echo reply" bs) s else ethDrop 8 port s

/-- A UDP datagram by its Ethernet port and destination port (R125). -/
def udpDatagram (port dst : Nat) (bs : List Byte) (g : Option Gvsp) (s : State) : State :=
  match s.sens.streams.find? fun x => x.kind == 1 && x.port == port && x.udp == dst, g with
  | some x, some p => if takesPackets x then gvspPacket port x p s else s
  | some _, none => ethDrop 8 port s
  | none, _ =>
    if (s.sens.streams.any fun x => x.kind == 2 && x.port == port && x.udp == dst)
        || s.sens.lows.any fun x => x.kind == 3 && x.port == port && x.udp == dst then
      ssfDatagram port dst bs s
    else ethDrop 4 port s

/-- ETH_FRAME_RECEIVED: a received frame is stamped and classified (R123 to R129, R144). -/
def execEthFrameReceived (port : Nat) (f : EthFrame) (s : State) : Result :=
  .next (if !ethLive port s then s
    else if 9000 < f.len ∨ 1 < f.vlans then ethDrop 7 port s
    else settle (match f.body with
      | .udp dst bs g => udpDatagram port dst bs g s
      | .ptp tr pf dom m => if ptpTakes port tr pf dom s then ptpMessage port m s else ethDrop 8 port s
      | .ask q => netReply port q s
      | .other => ethDrop 8 port s))

end Sys2Proof.Machine
end

