-- ==== Sys2Proof/Machine/Link.lean ====
section
/-! DEFINITION. The host link: functions and their resets, queue zero, doorbells, interrupts, the fetch and the
callboard (R25 to R65, R577, R578). -/
namespace Sys2Proof.Machine

/-! ### PCIe identity (R25) -/

/-- Vendor ID, Device ID and class code of a function (Table 2.1). DESIGN CHOICE [288]. -/
def pciIdent (fn : Nat) : Nat × Nat × Nat := (0x1F2A, if fn = 0 then 0x4B09 else 0x4B19, 0x120000)

/-- The PCI function number of a function: First VF Offset 1, VF Stride 1 (Table 2.1). -/
def pciFunction (fn : Nat) : Nat := if fn = 0 then 0 else 1 + (fn - 1) * 1

/-- The rate of a link generation in tenths of a GT/s (Table 2.1). DESIGN CHOICE [288]. -/
def linkRate (gen : Nat) : Nat := natAt [0, 25, 50, 80, 160, 320] gen

/-! ### Host accesses -/

/-- Whether a function is presented; Understudy mode presents the physical function alone (R27, R29). -/
def fnLive (fn : Nat) (s : State) : Bool :=
  s.link.up && decide (fn < 32) && (getFn fn s).enabled && (fn == 0 || s.boot.phase != .understudy)

/-- The queue-zero registers and BAR2 answer: not during a warm reset (R494) nor in Understudy mode (R27).
 DEDUCED [185]. -/
def queuesLive (s : State) : Bool := s.boot.phase != .warm && s.boot.phase != .understudy

/-- A host write to BAR0 or BAR2 of a function: where the link carries it, it has its effect and, in S1, wakes the
device (Table 14.7). -/
def hostWrite (fn : Nat) (f : State → State) (s : State) : Result :=
  .next (if fnLive fn s then settle (inBand (f s)) else s)

/-- A host read. -/
def hostRead (fn : Nat) (f : State → State) (s : State) : Result := .next (if fnLive fn s then f s else s)

/-! ### The base pairs of queue zero (R37, R578) -/

/-- Refuses a queue-zero write and discards what R37 holds. -/
def refuseQz (fn : Nat) (s : State) : State :=
  updFn fn (fun f => { f with hold := { value := none, low := none } }) (refuseReg fn 1 s)

/-- A low word that was not followed by its high word is refused, and what R37 holds is discarded. -/
def breakLow (fn : Nat) (s : State) : State := if (getFn fn s).hold.low.isSome then refuseQz fn s else s

/-- Any other queue-zero write discards a value held pending (R37). -/
def breakHold (fn : Nat) (s : State) : State :=
  updFn fn (fun f => { f with hold := { value := none, low := none } }) (breakLow fn s)

/-- Stores a committed base pair. -/
def commitBase (cq : Bool) (v : W64) (f : Fn) : Fn :=
  let p : RwpPair := { pair := { v, c := ~~~v, ue := false }, committed := true }
  let f := { f with hold := { value := none, low := none } }
  if cq then { f with cq := p } else { f with sq := p }

/-- A commit is refused (R37): what the pair holds is not committed for R38 (R578). -/
def refuseCommit (fn : Nat) (cq : Bool) (s : State) : State :=
  refuseQz fn (updFn fn (fun f => if cq then { f with cq.committed := false } else { f with sq.committed := false }) s)

/-- One half is written whole (R37). -/
def writeHalf (fn : Nat) (cq comp : Bool) (v : W64) (s : State) : State :=
  if !comp then updFn fn (fun f => { f with hold := { value := some (cq, v), low := none } }) s
  else match (getFn fn s).hold.value with
    | some (cq', val) => if cq' = cq && v == ~~~val then updFn fn (commitBase cq val) s else refuseCommit fn cq s
    | none => refuseCommit fn cq s

/-- A queue-zero write of the wrong size or alignment (R33): refused, and like any other write it discards what R37
holds. -/
def refuseShape (fn : Nat) (s : State) : State := refuseReg fn 1 (breakHold fn s)

/-- A write at a base pair's offset (R37, R39): whole halves, or their low and high words. -/
def writeBase (fn off size : Nat) (v : Nat) (s : State) : State :=
  let cq := decide (0x1010 ≤ off)
  let comp := decide (off % 16 ≥ 8)
  let f := getFn fn s
  if (getPair fn 0 s).isSome then refuseQz fn s
  else if size = 8 then writeHalf fn cq comp (BitVec.ofNat 64 v) (breakLow fn s)
  else if off % 8 = 0 then
    let s := breakLow fn s
    let keep := comp && (getFn fn s).hold.value.any fun x => x.1 == cq
    updFn fn (fun f => { f with hold := { value := if keep then f.hold.value else none, low := some (cq, comp, BitVec.ofNat 32 v) } }) s
  else match f.hold.low with
    | some (cq', comp', w) =>
      if cq' = cq && comp' == comp then
        writeHalf fn cq comp (BitVec.ofNat 64 (w.toNat + v % 2 ^ 32 * 2 ^ 32)) (updFn fn (fun f => { f with hold := { f.hold with low := none } }) s)
      else refuseQz fn (refuseQz fn s)
    | none => refuseQz fn s

/-- QZ_BASE_WRITE (R33, R37). -/
def execQzBaseWrite (fn off size v : Nat) (s : State) : Result :=
  hostWrite fn (fun s =>
    if !(inR 0x1000 off 0x101F && queuesLive s) then s
    else if (size = 4 ∨ size = 8) ∧ off % size = 0 then writeBase fn off size v s
    else refuseShape fn s) s

/-! ### `QZ_DEPTH` and `QZ_CTRL` (R38 to R42) -/

/-- A write of `QZ_DEPTH` (R21, R39). -/
def writeDepth (fn v : Nat) (s : State) : State :=
  let s := breakHold fn s
  if (getPair fn 0 s).isSome ∨ v % 65536 = 0 ∨ v / 65536 % 65536 = 0 then refuseReg fn 1 s
  else updFn fn (fun f => { f with sqDepthM1 := v % 65536, cqDepthM1 := v / 65536 % 65536 }) s

/-- A base pair that `ENABLE` accepts (R38, R578). -/
def baseReady (p : RwpPair) : Bool := p.committed && p.pair.ok && p.pair.n % 4096 == 0

/-- The conditions of R38. A function that holds no pair has no pair 0 to put into service. DESIGN CHOICE [203]. -/
def enableOk (fn : Nat) (s : State) : Bool :=
  let f := getFn fn s
  ready s && baseReady f.sq && baseReady f.cq && inR 1 f.sqDepthM1 65535 && inR 1 f.cqDepthM1 65535 && decide (0 < f.grant)

/-- Pair 0 goes into service with the defaults of Table 2.6 (R38, R43, R95). -/
def enableZero (fn vector : Nat) (intEn : Bool) (s : State) : State :=
  let f := getFn fn s
  let p := newPair fn 0 f.sq.pair f.cq.pair (f.sqDepthM1 + 1) (f.cqDepthM1 + 1) vector intEn
  updFn fn (fun f => { f with enable := true, vector, intEn }) { s with link.pairs := s.link.pairs ++ [p] }

/-- A write of `QZ_CTRL` (R5, R21, R38 to R40). DEDUCED [188]. -/
def writeCtrl (fn v : Nat) (s : State) : State :=
  let s := breakHold fn s
  let vector := bitsOf v 26 16
  let intEn := v.testBit 1
  if bitsOf v 15 2 ≠ 0 ∨ bitsOf v 31 27 ≠ 0 ∨ vectors fn ≤ vector then refuseReg fn 1 s
  else if !v.testBit 0 then
    updFn fn (fun f => { f with enable := false, vector, intEn }) (deletePair fn 0 s)
  else if (getPair fn 0 s).isSome then
    updFn fn (fun f => { f with vector, intEn }) (updPair fn 0 (fun p => { p with vector, intEn }) s)
  else if enableOk fn s then enableZero fn vector intEn s
  else refuseReg fn 1 s

/-- A write of `QZ_CTRL` by the host. DEDUCED [185]. -/
def hostCtrl (fn : Nat) (v : W32) (s : State) : Result :=
  hostWrite fn (fun s => if queuesLive s then writeCtrl fn v.toNat s else s) s

/-- QZ_ENABLE (R38). -/
def execQzEnable (fn : Nat) (v : W32) (s : State) : Result := hostCtrl fn v s

/-- QZ_DISABLE (R40). -/
def execQzDisable (fn : Nat) (v : W32) (s : State) : Result := hostCtrl fn v s

/-- QZ_CTRL_UPDATE (R39). -/
def execQzCtrlUpdate (fn : Nat) (v : W32) (s : State) : Result := hostCtrl fn v s

/-- QZ_DB_REFUSED_READ (Table 2.5): reading clears the count. -/
def execQzDbRefusedRead (fn : Nat) (s : State) : Result :=
  hostRead fn (fun s =>
    if !queuesLive s then emit (.read 0xFFFFFFFF) s else
    updFn fn (fun f => { f with dbRefused := 0 }) (emit (.read (getFn fn s).dbRefused) s)) s

/-! ### Doorbells (R51, R52) -/

/-- Refuses a doorbell write (R52, Table 15.11). DEDUCED [146]. -/
def refuseDb (fn qid reason : Nat) (s : State) : State :=
  updFn fn (fun f => { f with dbRefused := sat32 f.dbRefused 1, dbQueue := qid % 65536, dbReason := reason })
    { s with link.dbTotal := s.link.dbTotal + 1 }

/-- The bits that a doorbell write carries. -/
def dbValue (size : Nat) (v : W64) : Nat := if size = 4 then v.toNat % 2 ^ 32 else v.toNat

/-- The reason that refuses an SQ tail write, in the order 4, 5, 3, 1, 2; none when it is accepted. -/
def tailRefusal (fn qid size v : Nat) (s : State) : Option Nat :=
  if size ≠ 4 ∧ size ≠ 8 then some 4
  else if 65536 ≤ v then some 5
  else match getPair fn qid s with
    | none => some 3
    | some p =>
      if p.fault ≠ 0 then some 3
      else if p.sqDepth ≤ v then some 1
      else if (v + p.sqDepth - p.sqHead) % p.sqDepth < (p.sqTail + p.sqDepth - p.sqHead) % p.sqDepth then some 2
      else none

/-- Completion entries that the K9 has written and the host has not freed. -/
def posted (p : QPair) : Nat := (p.cqTail + p.cqDepth - p.cqHead) % p.cqDepth - p.heldCpl

/-- The reason that refuses a CQ head write. -/
def headRefusal (fn qid size v : Nat) (s : State) : Option Nat :=
  if size ≠ 4 ∧ size ≠ 8 then some 4
  else if 65536 ≤ v then some 5
  else match getPair fn qid s with
    | none => some 3
    | some p =>
      if p.fault ≠ 0 then some 3
      else if p.cqDepth ≤ v then some 1
      else if posted p < (v + p.cqDepth - p.cqHead) % p.cqDepth then some 2
      else none

/-- A write of a pair's SQ tail doorbell. -/
def ringTail (fn qid size : Nat) (v : W64) (s : State) : State :=
  match tailRefusal fn qid size (dbValue size v) s with
  | some r => refuseDb fn qid r s
  | none => updPair fn qid (fun p => { p with sqTail := dbValue size v }) s

/-- A write of a pair's CQ head doorbell. -/
def ringHead (fn qid size : Nat) (v : W64) (s : State) : State :=
  match headRefusal fn qid size (dbValue size v) s with
  | some r => refuseDb fn qid r s
  | none => updPair fn qid (fun p => { p with cqHead := dbValue size v }) s

/-- BAR2 of a function in bytes (Table 2.2). -/
def bar2Size (fn : Nat) : Nat := if fn = 0 then 0x100000 else 0x10000

/-- Whether a BAR2 access lies on a doorbell of its own (R51): at 16 q, or at 16 q + 8. Accesses of 4 or 8 bytes are
naturally aligned then (R33). -/
def onDoorbell (off : Nat) : Bool := off % 8 == 0

/-- A BAR2 write (R33, R51, R52): pair q has its SQ tail doorbell at 16 q and its CQ head doorbell at 16 q + 8. A
write at no doorbell's offset is refused and counted; Table 2.9 has no reason for it, so its `REASON` is a free value.
[11] DESIGN CHOICE [207]. -/
def doorbell (fn off size : Nat) (v : W64) (s : State) : State :=
  if !queuesLive s || decide (bar2Size fn ≤ off) then s
  else if !onDoorbell off then
    if size ≠ 4 ∧ size ≠ 8 then refuseDb fn (off / 16) 4 s
    else
      let (x, s) := draw s
      refuseDb fn (off / 16) (x % 16) s
  else if off % 16 = 0 then ringTail fn (off / 16) size v s
  else ringHead fn (off / 16) size v s

/-- SQ_TAIL_DOORBELL (R51, R52). DEDUCED [185]. -/
def execSqTailDoorbell (fn off size : Nat) (v : W64) (s : State) : Result := hostWrite fn (doorbell fn off size v) s

/-- CQ_HEAD_DOORBELL (R51, R52). -/
def execCqHeadDoorbell (fn off size : Nat) (v : W64) (s : State) : Result := hostWrite fn (doorbell fn off size v) s

/-! ### Interrupts and Bus Master Enable (R57, R58, R577) -/

/-- COAL_TIMER (R57). -/
def execCoalTimer (fn qid : Nat) (s : State) : Result :=
  .next (match getPair fn qid s with
    | none => s
    | some p =>
      if p.intEn && p.coalTime != 0 && past p.coalAt (p.coalTime * usT) s then
        signal fn qid p.vector s
      else s)

/-- The message of a vector resets the coalescing of the pairs whose triggers waited for it (R57). -/
def owedSent (fn v : Nat) (p : QPair) : QPair := if p.fn == fn && p.vector == v && p.owed then uncoalesce p else p

/-- A pending bit is cleared and its message sent. -/
def sendPending (fn : Nat) (s : State) (e : MsixEntry) : State :=
  let s := { s with link.pairs := s.link.pairs.map (owedSent fn e.vector) }
  trigger fn e.vector (updFn fn (fun f => msixPut f { e with pending := false }) s)

/-- Sends one message for each pending vector that nothing holds back any more (R58). -/
def flushPending (fn : Nat) (s : State) : State :=
  let f := getFn fn s
  if !f.msixEn || f.msixMask then s else (f.msix.filter fun e => e.pending && !e.masked).foldl (sendPending fn) s

/-- MSIX_UNMASK (R58). -/
def execMsixUnmask (fn : Nat) (u : Unmask) (s : State) : Result :=
  let set (f : Fn) : Fn := match u with
    | .vector n => if n < vectors fn then msixPut f { msixGet f n with masked := false } else f
    | .functionMask => { f with msixMask := false }
    | .enable => { f with msixEn := true }
  .next (if fnLive fn s then settle (inBand (flushPending fn (updFn fn set s))) else s)

/-- BUS_MASTER_ENABLE (R577): completions and messages held are posted in order. -/
def execBusMasterEnable (fn : Nat) (s : State) : Result :=
  .next (if !fnLive fn s then s else
    let held := (getFn fn s).held
    let s := held.foldl (fun s o => emit o s) (updFn fn (fun f => { f with busMaster := true, held := [] }) s)
    { s with link.pairs := updIf (fun p => p.fn == fn) (fun p => { p with heldCpl := 0 }) s.link.pairs })

/-! ### Functions and their resets (R28 to R32, R63, R81) -/

/-- VF_ENABLE_SET (R29): each virtual function takes one of the physical function's highest pairs. DEDUCED [187]. -/
def execVfEnableSet (n : Nat) (s : State) : Result :=
  .next (if !fnLive 0 s || !inR 1 n 31 || (getFn 1 s).enabled || s.boot.phase == .understudy then s else
    let given := min n (getFn 0 s).grant
    let s := giveUp 0 given s
    let make (i : Nat) (f : Fn) : Fn := if inR 1 i n then Fn.reset true (if i ≤ given then 1 else 0) else f
    settle { s with link.fns := s.link.fns.mapIdx make })

/-- R31, R81: a function's requests end, its pairs go, its registers are reset, its sessions close in mode 1; its
grant stays. DEDUCED [186]. -/
def resetFn (fn : Nat) (s : State) : State :=
  let s := cancelAll (fun q => match q.src with
    | .queue f _ => f == fn
    | .callboard => false) s
  let s := { s with link.pairs := s.link.pairs.filter fun p => p.fn != fn }
  let s := updFn fn (fun f => Fn.reset f.enabled f.grant) s
  closeSessions (fun x => fnOf 1 x.slot s == fn) s

/-- Clears VF Enable (R29): every virtual function is reset, and all pairs return to the physical function. -/
def clearVfs (s : State) : State :=
  let s := (List.range 31).foldl (fun s i => if (getFn (i + 1) s).enabled then resetFn (i + 1) s else s) s
  let total := (s.link.fns.map (·.grant)).sum
  { s with link.fns := s.link.fns.mapIdx fun i f => if i = 0 then { f with grant := total } else Fn.reset false 0 }

/-- VF_ENABLE_CLEAR (R29). -/
def execVfEnableClear (s : State) : Result := .next (if fnLive 0 s then settle (clearVfs s) else s)

/-- A function-level reset of the physical function (R32, R63). DEDUCED [186]. -/
def resetPf (s : State) : State :=
  let s := resetFn 0 (cancelAll (fun q => q.src == .callboard) s)
  resetCommon (clearVfs s)

/-- FUNCTION_LEVEL_RESET (R31, R32, R81, R529). -/
def execFunctionLevelReset (fn : Nat) (s : State) : Result :=
  .next (if !fnLive fn s then s
    else if fn = 0 then settle (countReset 3 (resetPf s))
    else settle (countReset 3 { resetFn fn s with sec.challenge := none }))

/-- The link goes down (R28): in S0 and S1 it resets every function; in S2, in S3 and in an entry into them from step
4 of Table 14.6 on, none. DEDUCED [186]. -/
def linkFalls (s : State) : State :=
  if !s.link.up then s
  else
    let quiet := perstLocal s
    let s := { s with link.up := false }
    if quiet then s else settle (countReset 3 (resetPf s))

/-- LINK_DOWN (R28). -/
def execLinkDown (s : State) : Result := .next (linkFalls s)

/-- PCIE_REFCLK_LOSS (R28, R570). -/
def execPcieRefclkLoss (s : State) : Result := .next (linkFalls s)

/-! ### The fetch (R46 to R48, R53 to R55) -/

/-- The fields of a submission entry (Table 2.7). -/
def parseEntry (src : Src) (e : List Byte) (s : State) : Req :=
  let fl := fld e 2 1
  let ref := fl.testBit 0 || fl.testBit 3
  { src, cid := fld e 4 2, opcode := fld e 0 2, pref := fl.testBit 0, fence := fl.testBit 1, plist := fl.testBit 2
    cbdata := fl.testBit 3, solicit := fl.testBit 4, handle := BitVec.ofNat 64 (fld e 8 8), payAddr := fld e 24 8
    payLen := fld e 32 4, param := if ref then slice e 40 24 else slice e 24 40, order := s.link.nextOrder
    at' := s.time.mono, atTb := s.time.now, dl := none, phase := .fetched }

/-- The entry format (R46). -/
def entryOk (q : Req) (e : List Byte) : Bool :=
  let ref := q.pref || q.cbdata
  bitsOf (fld e 2 1) 7 5 == 0 && fld e 3 1 == 0 && fld e 6 2 == 0 && fld e 20 4 == 0
    && (!ref || (fld e 36 4 == 0 && q.payLen != 0)) && (!q.plist || q.pref) && !(q.cbdata && q.pref)
    && (!q.cbdata || (q.src == .callboard && q.payAddr == 0 && decide (q.payLen ≤ 3072)))
    && (!q.plist || (q.payAddr % 16 == 0 && decide (q.payLen ≤ 65536)))

/-- The commands that a server takes from the callboard (Table 2.13, R533). -/
def servedOnCb (server : Nat) (halted : Bool) : List Nat :=
  match server with
  | 0 => [0x0000, 0x0E03]
  | 1 => [0x0000, 0x0E03, 0x0E00, 0x000C]
  | 2 => if halted then [0x0000, 0x0E00, 0x0D00] else [0x0000, 0x0E03, 0x0E00, 0x000C, 0x0D00]
  | _ => []

/-- Whether a request's opcode is served where it came from (R64, R67). -/
def served (q : Req) (s : State) : Bool := q.src != .callboard || (servedOnCb s.cb.server s.sec.halted).contains q.opcode

/-- Parameters past the 24 bytes that an entry with `PREF` carries: the manual says nowhere where they lie, so they are
free bytes. [11] DESIGN CHOICE [208]. -/
def freeParams (ci : CmdInfo) (q : Req) (s : State) : List Byte × State :=
  if q.pref && decide (24 < paramBytes ci q) then drawBytes (paramBytes ci q - 24) s else ([], s)

/-- Opens a fetched request: steps 1 and 2 of Table 3.4, the inline space (R47), and its deadline (R48, R88), which on
the callboard is at most the server's limit (R62). -/
def openReq (src : Src) (e : List Byte) (s : State) : State :=
  let q := parseEntry src e s
  let us := fld e 16 4
  let s := { s with link := { s.link with reqs := s.link.reqs ++ [q], nextOrder := s.link.nextOrder + 1 } }
  if !entryOk q e then post q stRange 0 0 none s
  else match cmdOf q.opcode with
    | none => post q stRange 0 0 none s
    | some ci =>
      if !served q s then post q stState 0 0 none s
      else match inlineCheck (paramBytes ci q) q with
        | .error f => post q f.st f.r0 f.r1 none s
        | .ok _ =>
          let dl := after (if us = 0 then ci.dl q s else us) s
          let dl := if src = .callboard then s.cb.limit.elim dl (min dl) else dl
          let (more, s) := freeParams ci q s
          let fill (x : Req) : Req := { x with dl := some dl, param := x.param ++ more }
          { s with link.reqs := updIf (fun x => x.order == q.order) fill s.link.reqs }

/-- Requests of a pair that have been fetched and not completed. -/
def inFlight (p : QPair) (s : State) : Nat := (s.link.reqs.filter (ofPair p.fn p.qid)).length

/-- A pair that the K9 may fetch from (R41, R42, R53, R577). -/
def fetchable (p : QPair) (s : State) : Bool :=
  p.sqHead != p.sqTail && p.fault == 0 && (getFn p.fn s).busMaster
    && decide (inFlight p s + 1 + (p.cqTail + p.cqDepth - p.cqHead) % p.cqDepth < p.cqDepth)

/-- One number for a pair, for the round robin. -/
def pairKey (fn qid : Nat) : Nat := fn * 65536 + qid

/-- Round robin within a class (R54): the last pair served goes on while its weight has credit; else the next one
takes its weight as credit. DESIGN CHOICE [189]. -/
def pickIn (cls : Nat) (last : Option (Nat × Nat)) (s : State) : Option (QPair × Nat) :=
  let l := s.link.pairs.filter fun p => p.arbClass == cls && fetchable p s
  let key (p : QPair) : Nat := pairKey p.fn p.qid
  let at' := last.elim 0 fun x => pairKey x.1 x.2 + 1
  match l.find? fun p => key p + 1 == at' && p.credit != 0 with
  | some p => some (p, p.credit - 1)
  | none =>
    let next := (least ((l.filter fun p => decide (at' ≤ key p)).map key)).or (least (l.map key))
    match next.bind fun k => l.find? fun p => key p == k with
    | none => none
    | some p => some (p, p.arbWeight - 1)

/-- The pair that the arbitration of R54 selects, and the state of the arbitration after it: urgent first, then four
high slots to one normal. DESIGN CHOICE [189]. -/
def arbitrate (s : State) : Option (QPair × State) :=
  let take (x : QPair × Nat) (s : State) : QPair × State := (x.1, updPair x.1.fn x.1.qid (fun p => { p with credit := x.2 }) s)
  let l := s.link
  let name (x : QPair × Nat) : Option (Nat × Nat) := some (x.1.fn, x.1.qid)
  match pickIn 2 l.lastUrgent s with
  | some x => some (take x { s with link := { l with lastUrgent := name x } })
  | none =>
    let normal := pickIn 0 l.lastNormal s
    match pickIn 1 l.lastHigh s with
    | some x =>
      match if l.highRun < 4 then none else normal with
      | some y => some (take y { s with link := { l with lastNormal := name y, highRun := 0 } })
      | none => some (take x { s with link := { l with lastHigh := name x, highRun := min 4 (l.highRun + 1) } })
    | none => normal.map fun y => take y { s with link := { l with lastNormal := name y, highRun := 0 } }

/-- `FAULT_CAUSE` of a failed fetch (Table 2.5). -/
def fetchCause (f : HostFail) : Nat :=
  match f with
  | .error => 1
  | .poison => 2
  | .timeout => 3

/-- SQ_FETCH (R41, R45, R46, R53, R54): the entry is read at its address. A fetch uses both base pointers of its pair,
that of the completion queue for the slot it keeps free, so either mismatch stops the pair before the entry is read.
 DESIGN CHOICE [204]. -/
def execSqFetch (got : Fetched) (s : State) : Result :=
  .next (if !s.link.up || s.link.fetchStopped || !ready s then s else
    match arbitrate s with
    | none => s
    | some (p, s) =>
      if !(p.sqBase.ok && p.cqBase.ok) then settle (baseFault p s) else
      let s := emit (.fetch p.fn (sqEntryAddr p p.sqHead)) s
      match got with
      | .failed f => updPair p.fn p.qid (fun p => { p with fault := fetchCause f }) s
      | .entry e =>
        let s := updPair p.fn p.qid (fun p => { p with sqHead := (p.sqHead + 1) % p.sqDepth }) s
        settle (openReq (.queue p.fn p.qid) (padTo 64 (e.take 64)) s))

/-! ### The callboard (R59 to R65) -/

/-- Refuses a callboard write (R59, Table 15.11). DEDUCED [146]. -/
def refuseCb (reason : Nat) (s : State) : State :=
  { s with cb := { s.cb with refused := sat32 s.cb.refused 1, reason, refTotal := s.cb.refTotal + 1 } }

/-- A ring (R5, R59, R60, R62): the server takes the request as it stands. DEDUCED [184]. -/
def ring (v : Nat) (s : State) : State :=
  if 65536 ≤ v then refuseReg 0 2 s
  else if s.cb.state ≠ 0 then refuseCb 1 s
  else if v ≠ s.cb.nextSeq then refuseCb 2 s
  else
    let e := memRead s.cb.request 0 64
    let sec := if fld e 0 2 = 0x0E03 then 10 else 2
    openReq .callboard e { s with cb := { s.cb with
      state := 1, nextSeq := (v + 1) % 65536, ringSeq := v, limit := some (s.time.mono + sec * secT) } }

/-- An acknowledgement (R59). DEDUCED [184]. -/
def ack (v : Nat) (s : State) : State :=
  if 2 ≤ v then refuseReg 0 2 s
  else if v = 0 then s
  else if s.cb.state ≠ 2 then refuseCb 4 s
  else { s with cb.state := 0 }

/-- CB_RING. -/
def execCbRing (v : W32) (s : State) : Result := hostWrite 0 (ring v.toNat) s

/-- CB_ACK. -/
def execCbAck (v : W32) (s : State) : Result := hostWrite 0 (ack v.toNat) s

/-- CB_REFUSED_READ (Table 2.11): reading clears the count. -/
def execCbRefusedRead (s : State) : Result :=
  hostRead 0 (fun s => emit (.read s.cb.refused) { s with cb.refused := 0 }) s

/-- CB_HW_TIMEOUT (R62, R544): 1 s past the server's limit. -/
def execCbHwTimeout (s : State) : Result :=
  .next (if s.cb.state = 1 ∧ past s.cb.limit secT s then
      let req := s.link.reqs.find? fun q => q.src == .callboard
      let op := fld (memRead s.cb.request 0 64) 0 2
      let cid := fld (memRead s.cb.request 0 64) 4 2
      let s := req.elim s fun q => cancelSilent q s
      let s := { s with cb := { s.cb with failCount := sat32 s.cb.failCount 1, failTime := s.time.now, failOpcode := op } }
      settle (cbRespond cid stTimeout 0 0 false s)
    else s)

end Sys2Proof.Machine
end

