-- ==== Sys2Proof/Machine/Registers.lean ====
section
/-! DEFINITION. The register maps of BAR0, the slack monitors, the sideband target and the clock monitors (R2 to R5,
R21, R33, R34, R537 to R559, R570). -/
namespace Sys2Proof.Machine

/-! ### Slack monitors (R547 to R549) -/

/-- A monitor's domain is powered. -/
def monitorOn (n : Nat) (s : State) : Bool := decide (n < 27) && (monitorDom n).all fun d => domOn d s

/-- Changes a monitor. -/
def updSlack (n : Nat) (f : Slack → Slack) (s : State) : State := { s with pwr.slack := s.pwr.slack.modify n f }

/-- The quotient of two integers to the nearest integer, ties to even. -/
def nearest (a : Int) (b : Nat) : Int :=
  let q := a / b
  let r := 2 * (a - q * b)
  if r > b ∨ (r = b ∧ q % 2 = 1) then q + 1 else q

/-- A measurement (R548, R549). -/
def measured (x : Int) (m : Slack) : Slack :=
  { slack := x, neg := decide (x < 0), seen := m.seen || decide (x < 0)
    min := if m.restart then x else min m.min x, restart := false, at' := m.at' }

/-- SLACK_MEASURE (R548): every 100 µs; the slack `num/den` is rounded at 2^-12 and saturated.
 DESIGN CHOICE [190]. DESIGN CHOICE [200]. -/
def execSlackMeasure (n : Nat) (num : Int) (den : Nat) (s : State) : Result :=
  .next (if !monitorOn n s || !backstopLive s || den = 0 || decide (s.time.mono < ((s.pwr.slack[n]?).elim 0 (·.at')) + 100 * usT) then s
    else updSlack n (fun m => { measured (satSigned 16 (nearest (num * 4096) den)) m with at' := s.time.mono }) s)

/-- Counts a read or a write that the mesh fence answers for a domain (R471, R550). -/
def countFence (wr : Bool) (d : Option Nat) (s : State) : State :=
  match d with
  | none => s
  | some d => updDom d (fun x => if wr then { x with fenceWr := sat32 x.fenceWr 1 } else { x with fenceRd := sat32 x.fenceRd 1 }) s

/-- A monitor's registers answer: its domain is on, outside a warm reset (Table 17.1). -/
def monitorLive (n : Nat) (s : State) : Bool := monitorOn n s && s.boot.phase != .warm

/-- SLK_MIN_READ (R549): the lowest slack, and the minimum restarts. What a read returns that finds no measurement
since the last read is a free value. [11] DESIGN CHOICE [190]. -/
def execSlkMinRead (n : Nat) (s : State) : Result :=
  hostRead 0 (fun s =>
    if 27 ≤ n then s
    else if !monitorLive n s then countFence false (monitorDom n) (emit (.read 0xFFFFFFFF) s)
    else
      let m := (s.pwr.slack[n]?).getD Slack.zero
      let s := emit (.read (codeOf 16 m.min)) s
      let (x, s) := draw s
      updSlack n (fun m => { m with min := signedOf 16 x, restart := true }) s) s

/-- A write of `SLK_STATUS` (R538, R549). -/
def clearSeen (n v : Nat) (s : State) : State :=
  if !monitorLive n s then countFence true (monitorDom n) s
  else if v % 2 ^ 17 ≠ 0 ∨ 2 ^ 18 ≤ v then refuseReg 0 5 s
  else if v = 0 then s
  else updSlack n (fun m => { m with seen := false }) s

/-- SLK_NEG_SEEN_CLEAR (R549). -/
def execSlkNegSeenClear (n : Nat) (v : W32) (s : State) : Result :=
  hostWrite 0 (fun s => if n < 27 then clearSeen n v.toNat s else s) s

/-! ### Ghost light, time base, fence counters -/

/-- A write of `GL_WAKE` (R538, R542): W1C in S0. DEDUCED [193]. -/
def clearWake (v : Nat) (s : State) : State :=
  if 256 ≤ v then refuseReg 0 3 s
  else if s.pwr.state ≠ 0 ∨ s.pwr.returning.isSome then s
  else { s with pwr.pending := s.pwr.pending &&& (255 - v) }

/-- GL_WAKE_CLEAR (R542). -/
def execGlWakeClear (v : W32) (s : State) : Result := hostWrite 0 (clearWake v.toNat) s

/-- TB_WORD0_READ (R33, R545): the read latches the time word. -/
def execTbWord0Read (size : Nat) (s : State) : Result :=
  hostRead 0 (fun s =>
    if size ≠ 4 ∧ size ≠ 8 then emit (.read (2 ^ (8 * size) - 1)) s else
    let w := unle (timeWord (stampNow 0 s))
    emit (.read (w % 2 ^ (8 * size))) { s with time := { s.time with latch := w, latchSeq := (s.time.latchSeq + 1) % 2 ^ 32 } }) s

/-- FENCE_COUNTER_READ (R550): reading clears the count. -/
def execFenceCounterRead (d : Nat) (wr : Bool) (s : State) : Result :=
  hostRead 0 (fun s =>
    if 96 ≤ d then s else
    let x := getDom d s
    let s := emit (.read (if wr then x.fenceWr else x.fenceRd)) s
    updDom d (fun x => if wr then { x with fenceWr := 0 } else { x with fenceRd := 0 }) s) s

/-! ### REGISTER_WRITE -/

/-- The BAR0 region of an offset, by its row in Table 2.3 (or, for a virtual function, the same region of Table
2.4); 9 for the reserved offsets. -/
def regionOf (fn off : Nat) : Nat :=
  if off < 0x1000 then 0
  else if off < 0x2000 then 1
  else if fn = 0 then
    if inR 0x10000 off 0x10FFF then 2
    else if inR 0x20000 off 0x20FFF then 3
    else if inR 0x30000 off 0x30FFF then 4
    else if inR 0x40000 off 0x40FFF then 5
    else if inR 0x50000 off 0x50FFF then 6
    else if inR 0x100000 off 0x107FFF then 7
    else if inR 0x108000 off 0x1080FF then 8
    else 9
  else if inR 0x8000 off 0x83FF then 7
  else if inR 0x8400 off 0x8407 then 8
  else 9

/-- A 4-byte write of the MSI-X table (R551): message address, data, and vector control with its mask bit. -/
def writeMsix (fn rel v : Nat) (s : State) : State :=
  let n := rel / 16
  let set (e : MsixEntry) : MsixEntry :=
    if rel % 16 = 0 then { e with addr := e.addr / 2 ^ 32 * 2 ^ 32 + v }
    else if rel % 16 = 4 then { e with addr := e.addr % 2 ^ 32 + v * 2 ^ 32 }
    else if rel % 16 = 8 then { e with data := v }
    else { e with masked := v.testBit 0 }
  flushPending fn (updFn fn (fun f => msixPut f (set (msixGet f n))) s)

/-- A 4-byte write of the callboard page (Table 2.11, R60). -/
def writeCb (off v : Nat) (s : State) : State :=
  let store (m : Mem) (base : Nat) : Mem := memWrite m (off - base) (leBytes 4 v)
  if off = 0x10000 then ring v s
  else if off = 0x10008 then ack v s
  else if off = 0x1000C then (if 2 ≤ v then refuseReg 0 2 s else { s with cb.intEn := v.testBit 0 })
  else if off = 0x10010 then s
  else if inR 0x10040 off 0x1007F then
    (if s.cb.state = 1 then refuseCb 3 s else { s with cb.request := store s.cb.request 0x10040 })
  else if inR 0x10400 off 0x10FFF then
    (if s.cb.state = 1 then refuseCb 3 s else { s with cb.data := store s.cb.data 0x10400 })
  else refuseReg 0 2 s

/-- A 4-byte write of the slack region: the monitors, whose `SLK_MIN` reads clear, and the summary. -/
def writeSlack (off v : Nat) (s : State) : State :=
  let n := (off - 0x40000) / 8
  if 27 ≤ n then refuseReg 0 5 s
  else if off % 8 = 0 then clearSeen n v s
  else if !monitorLive n s then countFence true (monitorDom n) s
  else if 65536 ≤ v then refuseReg 0 5 s
  else s

/-- A 4-byte write at an offset. A write of a field that a read clears has no effect of its own; every other
read-only or reserved field refuses it (R3, R5, R34, R538). DEDUCED [184]. -/
def write4 (fn off v : Nat) (s : State) : State :=
  let region := regionOf fn off
  let s' := if region = 1 then breakHold fn s else s
  if region = 1 && !queuesLive s then s
  else match region with
  | 1 =>
    if off < 0x1020 then writeBase fn off 4 v s
    else if off = 0x1020 then writeDepth fn v s
    else if off = 0x1024 then writeCtrl fn v s
    else if off = 0x1030 ∨ (off = 0x1038 ∧ fn = 0) then s'
    else refuseReg fn 1 s'
  | 2 => writeCb off v s
  | 3 => if off = 0x20004 then clearWake v s else refuseReg fn 3 s
  | 5 => writeSlack off v s
  | 6 => if off < 0x50300 then s else refuseReg fn 6 s
  | 7 => writeMsix fn (off - (if fn = 0 then 0x100000 else 0x8000)) v s
  | n => refuseReg fn n s

/-- REGISTER_WRITE (R21, R33, R34, R538): 4 or 8 bytes, naturally aligned; 8 bytes are their two words in order,
but the half of a base pair is written whole (R37). DEDUCED [184]. -/
def execRegisterWrite (fn off size v : Nat) (s : State) : Result :=
  hostWrite fn (fun s =>
    if (size ≠ 4 ∧ size ≠ 8) ∨ off % size ≠ 0 then
      (if regionOf fn off = 1 then (if queuesLive s then refuseShape fn s else s) else refuseReg fn (regionOf fn off) s)
    else if size = 4 then write4 fn off (v % 2 ^ 32) s
    else if inR 0x1000 off 0x101F then (if queuesLive s then writeBase fn off 8 (v % 2 ^ 64) s else s)
    else write4 fn (off + 4) (v / 2 ^ 32 % 2 ^ 32) (write4 fn off (v % 2 ^ 32) s)) s

/-! ### The sideband target (R552 to R558) -/

/-- Refuses a sideband write, or counts a timeout (Table 17.9). -/
def refuseSb (reason : Nat) (s : State) : State :=
  { s with sb := { s.sb with refused := sat16 (s.sb.refused + 1), reason } }

/-- The target answers while VAUX feeds it (R481). -/
def sbLive (s : State) : Bool := s.boot.vaux

/-- SB_REGISTER_WRITE (R553, R554, R556): the first fault of PEC, byte count, index and access is the reason.
 DEDUCED [191]. -/
def execSbRegisterWrite (w : SbWrite) (s : State) : Result :=
  .next (if !sbLive s then s
    else if w.pecBad then refuseSb 3 s
    else if w.bytes.length ≠ 4 then refuseSb 4 s
    else if 0x0F < w.index then refuseSb 2 s
    else if w.index = 0x0D then { s with sb.scratch0 := BitVec.ofNat 32 (unle w.bytes) }
    else if w.index = 0x0E then { s with sb.scratch1 := BitVec.ofNat 32 (unle w.bytes) }
    else refuseSb 1 s)

/-- SB_SET_INDEX (R554): I3C mode. DESIGN CHOICE [9]. -/
def execSbSetIndex (i : Nat) (s : State) : Result :=
  .next (if sbLive s && s.boot.straps.sbMode == 1 && decide (i < 256) then { s with sb.index := i } else s)

/-- SB_DYNAMIC_ADDRESS (R554): I3C mode. -/
def execSbDynamicAddress (addr : Nat) (s : State) : Result :=
  .next (if sbLive s && s.boot.straps.sbMode == 1 && decide (addr < 128) then { s with sb.dynAddr := some addr } else s)

/-- SB_SCL_TIMEOUT (R558). -/
def execSbSclTimeout (s : State) : Result := .next (if sbLive s then refuseSb 5 s else s)

/-- SB_REFUSED_READ (Table 17.9): reading clears the count; the last reason stays. -/
def execSbRefusedRead (s : State) : Result :=
  .next (if !sbLive s then s else
    emit (.sideband (s.sb.refused + s.sb.reason * 65536)) { s with sb.refused := 0 })

/-- SB_MIRROR_TICK (R557): every 10 ms, while the management domain is powered and Stage Manager serves.
 DEDUCED [192]. -/
def execSbMirrorTick (s : State) : Result :=
  .next (if s.boot.phase == .running && decide (s.pwr.state < 3) && decide (s.sb.mirrorAt + 10 * msT ≤ s.time.mono) then
    { s with sb := { s.sb with mirrorAt := s.time.mono, temp := codeOf 16 s.pwr.temp, power := sat16 (s.pwr.power / 100), level := s.pwr.level } } else s)

/-! ### Clock monitors (R570) -/

/-- The ports that a PHY reference clock serves: Ethernet ports 0 to 3, Trellis ports from 16. -/
def clockPorts (trellis : Bool) : List Nat := if trellis then (List.range 7).map (16 + ·) else List.range 4

/-- PHY_REFCLK_LOSS: the ports go down and are counted. -/
def execPhyRefclkLoss (trellis : Bool) (s : State) : Result :=
  .next (
    let fresh := (clockPorts trellis).filter fun p => !s.link.ethDown.contains p
    let s := { s with link := { s.link with
      ethDown := s.link.ethDown ++ fresh, ethDownCount := fresh.foldl (fun l p => bump l p) s.link.ethDownCount } }
    if trellis && !fresh.isEmpty then linksDown s else s)

/-- PHY_REFCLK_RETURN: the ports return without a command. -/
def execPhyRefclkReturn (trellis : Bool) (s : State) : Result :=
  .next { s with link.ethDown := s.link.ethDown.filter fun p => !(clockPorts trellis).contains p }

end Sys2Proof.Machine
end

