-- ==== Sys2Proof/Machine/Scrub.lean ====
section
/-! DEFINITION. The patrol scrub, granule retirement, and the refetch of quarantined tensor blocks (R408 to R426). -/
namespace Sys2Proof.Machine

/-- One hour of mono time. -/
def hourT : Nat := 3600 * secT

/-! ### Corrected errors (R408, R413, R427) -/

/-- The granule, or SRAM row, of a place: its unit, its index (not of stacked memory, whose data addresses run
through), and 4 KiB of its addresses. -/
def granuleOf (p : MemPlace) : Nat := (p.unit * 256 + (if p.unit = 0 then 0 else p.index)) * 2 ^ 48 + p.addr / 4096

/-- What is remembered of a granule. -/
def granuleLog (g : Nat) (s : State) : GranuleLog :=
  (s.mem.history.find? fun h => h.granule == g).getD { granule := g, words := [], hourAt := 0 }

/-- Stores what is remembered of a granule. -/
def putLog (h : GranuleLog) (s : State) : State :=
  { s with mem.history := h :: s.mem.history.filter fun x => x.granule != h.granule }

/-- A granule is due for retirement: three different words within 24 hours, or one word again (R413). -/
def retireDue (word : Nat) (seen : List (Nat × Nat)) : Bool :=
  (seen.any fun x => x.1 == word) || decide (2 ≤ ((seen.map (·.1)).filter (· != word)).eraseDups.length)

/-- Retires a granule of stacked memory (R413, R414): with no pool granule to be had it stays in service. -/
def retire (p : MemPlace) (syndrome : Nat) (s : State) : State :=
  let g := granuleOf p
  match takeGranule s with
  | none => addFault (mkFault 3 0 p.index p.addr syndrome 0 0 0 0 s) s
  | some s =>
    let (x, s) := draw s
    let dest := x % 16384
    let s := quarantineBytes 4096 s
    let s := addFault (mkFault 3 0 p.index p.addr syndrome 3 0 0 (dest * 4096) s) s
    { s with mem := { s.mem with
      redirects := assocSet s.mem.redirects g dest, retiring := g :: s.mem.retiring.filter (· != g)
      history := s.mem.history.filter fun h => h.granule != g } }

/-- A corrected error: counted, written back, recorded once an hour per granule, and remembered. -/
def correctedAt (p : MemPlace) (word syndrome : Nat) (s : State) : State :=
  let g := granuleOf p
  let h := granuleLog g s
  let first := h.words.isEmpty && h.hourAt == 0 || decide (h.hourAt + hourT ≤ s.time.mono)
  let s := { s with mem.corrected := bump s.mem.corrected (p.unit, p.index) }
  let s := if first then addFault (mkFault 1 p.unit p.index p.addr syndrome 1 0 0 0 s) s else s
  let recent := h.words.filter fun x => decide (s.time.mono < x.2 + 24 * hourT)
  let s := putLog { granule := g, words := (word, s.time.mono) :: recent, hourAt := if first then s.time.mono else h.hourAt } s
  if p.unit = 0 && retireDue word recent && !s.mem.retiring.contains g then retire p syndrome s else s

/-! ### Uncorrectable errors (R409, R411, R421, Table 12.2) -/

/-- The fault record of an uncorrectable error that the scrub finds; no request ends. -/
def ueRecord (p : MemPlace) (syndrome action : Nat) (h : W64) (s : State) : State :=
  addFault (mkFault 2 p.unit p.index p.addr syndrome action h 0 0 s) s

/-- An object with a poisoned word: event 0x0901 once a second (Table 12.7). DEDUCED [274]. -/
def ueObject (p : MemPlace) (syndrome ty slot : Nat) (s : State) : State :=
  raiseOnce 0x0901 (ty, slot) (fun n => n) (ueRecord p syndrome 2 (handleOf ty slot s) s)

/-- A half of a complement pair reads uncorrectable: the pair is unusable (R421). DEDUCED [199]. -/
def uePair (p : MemPlace) (syndrome : Nat) (src : Nat × Nat) (s : State) : State :=
  mismatch p.unit p.index p.addr src 0 (ueRecord p syndrome 8 (handleOf src.1 src.2 s) s)

/-- A poisoned word, or half of a critical word, of an allocation. -/
def poisonAlloc (p : MemPlace) (syndrome slot word : Nat) (s : State) : State :=
  match s.mem.allocs.find? fun a => a.slot == slot with
  | none => s
  | some a =>
    if ceilDiv a.size 4 ≤ word then s else
    let critical := a.flags.testBit 5
    let mark (x : Alloc) : Alloc :=
      if x.slot != slot then x
      else if critical then { x with badPair := insertRising word x.badPair }
      else { x with poison := insertRising word x.poison }
    let s := { s with mem.allocs := s.mem.allocs.map mark }
    if critical then uePair p syndrome (13, slot) s else ueObject p syndrome 13 slot s

/-- Bad tensor block: fault records of kinds 2 and 4, event 0x0902, quarantine; the runs that have read it end
(R253, R423). -/
def badBlock (p : MemPlace) (syndrome pkg block : Nat) (s : State) : State :=
  if (getPkg pkg s).any fun x => (x.blocks[block]?).any fun b => b.quarAt.isNone then
    let n := (getPkg pkg s).elim 0 fun x => (blockReaders x block s).length
    quarantineRead pkg block (addFault (mkFault 2 p.unit p.index p.addr syndrome 4 (handleOf 5 pkg s) n 0 s) s)
  else s

/-- A word of a tile's image of a package: the image is restored before the tile's next task of it (R233). -/
def badImage (p : MemPlace) (syndrome pkg : Nat) (s : State) : State :=
  if (getPkg pkg s).any fun x => x.place.contains (p.index / 16) then
    let s := raiseOnce 0x0901 (5, pkg) (fun n => n) (ueRecord p syndrome 6 (handleOf 5 pkg s) s)
    { s with tile.badImgs := (s.tile.badImgs ++ [(p.index, pkg)]).eraseDups }
  else s

/-- A half of a pair whose second half cannot be read. -/
def spoil (c : Comp) : Comp := { c with ue := true }

/-- Bad map and index content. -/
def badStored (p : MemPlace) (c : BadContent) (syndrome : Nat) (s : State) : State :=
  match c with
  | .mapCell slot n =>
    if (getMap slot s).isNone then s else
    ueObject p syndrome 9 slot (updMap slot (fun m => { m with poison := insertRising n m.poison }) s)
  | .indexPage slot t n =>
    if (getIdx slot s).isNone then s else
    ueObject p syndrome 10 slot (updIdx slot (fun x => { x with poison := (t, n) :: x.poison.filter (· != (t, n)) }) s)
  | .gridVoxel slot n =>
    if (getGrid slot s).isNone then s else
    ueObject p syndrome 7 slot (updGrid slot (fun g => { g with poison := insertRising n g.poison }) s)
  | .mapAnchor slot =>
    if (getMap slot s).isNone then s else uePair p syndrome (9, slot) (updMap slot (fun m => { m with anchorBad := true }) s)
  | .objectWord ty slot => if (getObj ty slot s).isNone then s else ueObject p syndrome ty slot s
  | .calibration slot =>
    if (getCal slot s).isNone then s else
    uePair p syndrome (14, slot) { s with fus.cals := updIf (fun x => x.slot == slot) (fun x => { x with bad := true }) s.fus.cals }
  | _ => ueRecord p syndrome 2 0 s

/-- An uncorrectable word that the scrub finds, by its content (Tables 12.2 and 12.4). DEDUCED [199]. -/
def uncorrectable (p : MemPlace) (c : BadContent) (syndrome : Nat) (s : State) : State :=
  match c with
  | .allocWord slot word _ => poisonAlloc p syndrome slot word s
  | .tensorBlock pkg block => badBlock p syndrome pkg block s
  | .tileImage pkg => badImage p syndrome pkg s
  | .problemSchedule slot => badProblem p syndrome slot 6 0 (fun x => { x with schedBad := true }) s
  | .problemValues slot => badProblem p syndrome slot 2 0 (fun x => { x with valuesBad := true }) s
  | .problemStart slot block => badProblem p syndrome slot 2 0 (fun x => { x with startBad := insertRising block x.startBad }) s
  | .managementCode => ueRecord p syndrome 6 0 s
  | .managementData => warmReset 3 (ueRecord p syndrome 2 0 s)
  | .queueBase fn qid =>
    if (getPair fn qid s).isNone then s else
    uePair p syndrome (0, 0x10000 + fn * 65536 + qid) (updPair fn qid (fun x => { x with sqBase := spoil x.sqBase }) s)
  | .quotaCounter fn tier =>
    uePair p syndrome (0, fn * 2 + tier) (updQuota fn tier (fun x => { x with used := spoil x.used }) s)
  | .limitPair 0 => ueRecord p syndrome 8 0 { s with pwr.cap := spoil s.pwr.cap }
  | .limitPair 1 => ueRecord p syndrome 8 0 { s with pwr.tj := spoil s.pwr.tj }
  | .limitPair _ => ueRecord p syndrome 8 0 { s with sec.policy := spoil s.sec.policy }
  | .failedStart => uePair p syndrome (0, 0x20104) { s with boot.fsc := spoil s.boot.fsc }
  | .journal n =>
    ueRecord p syndrome 8 0 { s with boot.journal := updIf (fun r => r.seqNo == n) (fun r => { r with bad := r.bad + 1 }) s.boot.journal }
  | _ => badStored p c syndrome s

/-- The scrub runs: in S0 and S1, not during a reset (R412). -/
def scrubLive (s : State) : Bool := s.boot.phase == .running && decide (s.pwr.state ≤ 1) && !s.mem.scrubPaused

/-- The memory of a place has its supply: an SRAM of a parked domain is not scrubbed (R412). -/
def placeOn (p : MemPlace) (s : State) : Bool :=
  match p.unit with
  | 1 => domOn (p.index / 4) s
  | 2 => domOn (64 + p.index) s
  | 3 => domOn (88 + p.index / 4) s
  | 4 => domOn (80 + p.index) s
  | 6 => domOn (84 + p.index / 4) s
  | _ => true

/-- SCRUB_READ (R411, R412). DESIGN CHOICE [194]. -/
def execScrubRead (f : ScrubFind) (s : State) : Result :=
  .next (if !scrubLive s then s else
    match f with
    | .clean => s
    | .corrected p word syndrome => if placeOn p s then settle (correctedAt p word syndrome s) else s
    | .uncorrectable p c syndrome => if placeOn p s then settle (uncorrectable p c syndrome s) else s)

/-- GRANULE_RETIRE_DONE (R413): the copy is complete and held writes proceed. -/
def execGranuleRetireDone (granule : Nat) (s : State) : Result :=
  .next { s with mem.retiring := s.mem.retiring.filter (· != granule) }

/-! ### The refetch (R424, R425) -/

/-- The bytes that a block's stored form decodes to, as read again from the host image. -/
def redecoded (img : List Byte) (b : TBlock) : Bool :=
  (decodeBlock b.mode b.units b.codeLen b.crc (slice img b.off 4096)).isSome

/-- The blocks that a pass retained: those quarantined before it began, and of those quarantined meanwhile the ones
whose offset it had not read yet, which is a free choice. [11] -/
def retained (p : Pkg) (r : Refetch) (k : Nat) : List Nat :=
  (quarantined p).filter fun i => r.blocks.contains i || Config.freeNat (k + i) % 2 == 1

/-- The runs that await a given-up block end at once (R425). -/
def endDeadRuns (slot : Nat) (s : State) : State :=
  (s.tile.insts.filter fun (x : Inst) => x.pkg == slot).foldl (fun s (x : Inst) => advanceInst x.slot s) s

/-- A pass ends without restoring its blocks: they stay quarantined for the life of the package (R425). -/
def giveUpBlocks (slot : Nat) (is : List Nat) (s : State) : State :=
  let (x, s) := draw s
  let s := addFault (mkFault 6 0 (x % 32) (x / 32 % 2 ^ 38) 0 4 (handleOf 5 slot s) 0 0 s) s
  let kill (b : TBlock × Nat) : TBlock := if is.contains b.2 then { b.1 with dead := true } else b.1
  let s := updPkg slot (fun p => { p with refetch := none, blocks := p.blocks.zipIdx.map kill }) s
  startRefetch slot (endDeadRuns slot s)

/-- Writes a retained block into a pool granule and lifts its quarantine: event 0x0903 (R424). -/
def restoreBlock (slot : Nat) (s : State) (i : Nat) : State :=
  let (x, s) := draw s
  let s := addFault (mkFault 5 0 (x % 32) (x / 32 % 2 ^ 38) 0 5 (handleOf 5 slot s) 0 (x / 2 ^ 43 % 16384 * 4096) s) s
  let s := stopLate slot i s
  let lift (b : TBlock) : TBlock := { b with quarAt := none, good := true }
  raise 0x0903 i (some (5, slot)) (updPkg slot (fun p => { p with blocks := p.blocks.modify i lift, refetched := p.refetched + 1 }) s)

/-- Pool granules for the blocks of a pass, all or none. -/
def takeGranules : Nat → State → Option State
  | 0, s => some s
  | n + 1, s => (takeGranule s).bind (takeGranules n)

/-- A host read of a pass failed (R425): another pass 10 ms later, or after the third failure event 0x0904.
 DEDUCED [197]. -/
def passFailed (p : Pkg) (r : Refetch) (is : List Nat) (s : State) : State :=
  if r.failures + 1 < 3 then
    let again : Refetch := { r with failures := r.failures + 1, retryAt := some (after 10000 s) }
    updPkg p.slot (fun p => { p with refetch := some again }) s
  else giveUpBlocks p.slot is (raise 0x0904 ((quarantined p).headD 0) (some (5, p.slot)) s)

/-- A retained block that fails decoding: a fault record of kind 9 (R417, R427). DEDUCED [275]. -/
def undecoded (slot : Nat) (s : State) : State :=
  let (x, s) := draw s
  addFault (mkFault 9 0 (x % 32) (x / 32 % 2 ^ 38) 0 4 (handleOf 5 slot s) 0 0 s) s

/-- REFETCH_PASS_END (R424, R425). DESIGN CHOICE [196]. -/
def execRefetchPassEnd (pkg : Nat) (got : HostRead) (s : State) : Result :=
  .next (match getPkg pkg s with
    | none => s
    | some p => match p.refetch with
      | none => s
      | some r =>
        if r.retryAt.isSome then s else
        let is := retained p r s.fresh
        let s := { s with fresh := s.fresh + p.blocks.length }
        if got.fail.isSome then settle (passFailed p r is s)
        else if !(pkgDigest got.bytes && slice got.bytes 32 64 == p.digest) then
          settle (giveUpBlocks pkg is (raise 0x0403 (is.headD 0) (some (5, pkg)) s))
        else if !(is.all fun i => (p.blocks[i]?).all (redecoded got.bytes)) then
          let bad := is.filter fun i => !(p.blocks[i]?).all (redecoded got.bytes)
          settle (giveUpBlocks pkg is (bad.foldl (fun s _ => undecoded pkg s) s))
        else match takeGranules is.length s with
          | none => settle (giveUpBlocks pkg is s)
          | some s =>
            let s := is.foldl (restoreBlock pkg) s
            settle (startRefetch pkg (updPkg pkg (fun p => { p with refetch := none }) s)))

/-- REFETCH_RETRY (R425). DEDUCED [197]. -/
def execRefetchRetry (pkg : Nat) (s : State) : Result :=
  .next (match (getPkg pkg s).bind (·.refetch) with
    | none => s
    | some r =>
      if dueOpt r.retryAt s then updPkg pkg (fun p => { p with refetch := some { r with retryAt := none, blocks := quarantined p } }) s else s)

end Sys2Proof.Machine
end

