-- ==== Sys2Proof/Machine/Dispatch.lean ====
section
/-! DEFINITION. Which meaning each command has: one arm per row of spec/opcode_table.json. -/
namespace Sys2Proof.Machine

def exec (i : Instr) (s : State) : Host.Outcome State Fault Refusal :=
  match i with
  | .admIdentify r io => Sys2Proof.Machine.execAdmIdentify r io s
  | .admSessionOpen r io => Sys2Proof.Machine.execAdmSessionOpen r io s
  | .admSessionClose r io => Sys2Proof.Machine.execAdmSessionClose r io s
  | .admSessionAdopt r io => Sys2Proof.Machine.execAdmSessionAdopt r io s
  | .admQueueCreate r io => Sys2Proof.Machine.execAdmQueueCreate r io s
  | .admQueueDelete r io => Sys2Proof.Machine.execAdmQueueDelete r io s
  | .admQueueModify r io => Sys2Proof.Machine.execAdmQueueModify r io s
  | .admQueueQuery r io => Sys2Proof.Machine.execAdmQueueQuery r io s
  | .admQueueGrant r io => Sys2Proof.Machine.execAdmQueueGrant r io s
  | .admHandleQuery r io => Sys2Proof.Machine.execAdmHandleQuery r io s
  | .admLimitsRead r io => Sys2Proof.Machine.execAdmLimitsRead r io s
  | .admAbort r io => Sys2Proof.Machine.execAdmAbort r io s
  | .admResetWarm r io => Sys2Proof.Machine.execAdmResetWarm r io s
  | .admResetDomain r io => Sys2Proof.Machine.execAdmResetDomain r io s
  | .admEventWait r io => Sys2Proof.Machine.execAdmEventWait r io s
  | .streamOpen r io => Sys2Proof.Machine.execStreamOpen r io s
  | .streamClose r io => Sys2Proof.Machine.execStreamClose r io s
  | .streamStart r io => Sys2Proof.Machine.execStreamStart r io s
  | .streamStop r io => Sys2Proof.Machine.execStreamStop r io s
  | .streamQuery r io => Sys2Proof.Machine.execStreamQuery r io s
  | .streamSetWindow r io => Sys2Proof.Machine.execStreamSetWindow r io s
  | .streamFrameRelease r io => Sys2Proof.Machine.execStreamFrameRelease r io s
  | .filtOpen r io => Sys2Proof.Machine.execFiltOpen r io s
  | .filtClose r io => Sys2Proof.Machine.execFiltClose r io s
  | .filtLoadBank r io => Sys2Proof.Machine.execFiltLoadBank r io s
  | .filtSwap r io => Sys2Proof.Machine.execFiltSwap r io s
  | .filtCrossfade r io => Sys2Proof.Machine.execFiltCrossfade r io s
  | .filtSetPhase r io => Sys2Proof.Machine.execFiltSetPhase r io s
  | .filtDcFreeze r io => Sys2Proof.Machine.execFiltDcFreeze r io s
  | .filtDelayQuery r io => Sys2Proof.Machine.execFiltDelayQuery r io s
  | .cueLoad r io => Sys2Proof.Machine.execCueLoad r io s
  | .cueUnload r io => Sys2Proof.Machine.execCueUnload r io s
  | .cueStart r io => Sys2Proof.Machine.execCueStart r io s
  | .cueStop r io => Sys2Proof.Machine.execCueStop r io s
  | .cueQuery r io => Sys2Proof.Machine.execCueQuery r io s
  | .cueFlagRead r io => Sys2Proof.Machine.execCueFlagRead r io s
  | .pkgLoad r io => Sys2Proof.Machine.execPkgLoad r io s
  | .pkgUnload r io => Sys2Proof.Machine.execPkgUnload r io s
  | .instCreate r io => Sys2Proof.Machine.execInstCreate r io s
  | .instDestroy r io => Sys2Proof.Machine.execInstDestroy r io s
  | .inferRun r io => Sys2Proof.Machine.execInferRun r io s
  | .instQuery r io => Sys2Proof.Machine.execInstQuery r io s
  | .pkgQuery r io => Sys2Proof.Machine.execPkgQuery r io s
  | .gridCreate r io => Sys2Proof.Machine.execGridCreate r io s
  | .gridDestroy r io => Sys2Proof.Machine.execGridDestroy r io s
  | .calCreate r io => Sys2Proof.Machine.execCalCreate r io s
  | .calDestroy r io => Sys2Proof.Machine.execCalDestroy r io s
  | .gridRead r io => Sys2Proof.Machine.execGridRead r io s
  | .gridClear r io => Sys2Proof.Machine.execGridClear r io s
  | .gridVoteSet r io => Sys2Proof.Machine.execGridVoteSet r io s
  | .gridPoseSubmit r io => Sys2Proof.Machine.execGridPoseSubmit r io s
  | .gridStatus r io => Sys2Proof.Machine.execGridStatus r io s
  | .solvLoad r io => Sys2Proof.Machine.execSolvLoad r io s
  | .solvUnload r io => Sys2Proof.Machine.execSolvUnload r io s
  | .solvDelta r io => Sys2Proof.Machine.execSolvDelta r io s
  | .solvRun r io => Sys2Proof.Machine.execSolvRun r io s
  | .solvResult r io => Sys2Proof.Machine.execSolvResult r io s
  | .solvQuery r io => Sys2Proof.Machine.execSolvQuery r io s
  | .mapCreate r io => Sys2Proof.Machine.execMapCreate r io s
  | .mapDestroy r io => Sys2Proof.Machine.execMapDestroy r io s
  | .mapInsert r io => Sys2Proof.Machine.execMapInsert r io s
  | .mapDelete r io => Sys2Proof.Machine.execMapDelete r io s
  | .mapRead r io => Sys2Proof.Machine.execMapRead r io s
  | .mapTraverse r io => Sys2Proof.Machine.execMapTraverse r io s
  | .mapDeadheadSet r io => Sys2Proof.Machine.execMapDeadheadSet r io s
  | .mapRepot r io => Sys2Proof.Machine.execMapRepot r io s
  | .mapCheckpoint r io => Sys2Proof.Machine.execMapCheckpoint r io s
  | .mapRestore r io => Sys2Proof.Machine.execMapRestore r io s
  | .idxCreate r io => Sys2Proof.Machine.execIdxCreate r io s
  | .idxDestroy r io => Sys2Proof.Machine.execIdxDestroy r io s
  | .idxInsert r io => Sys2Proof.Machine.execIdxInsert r io s
  | .idxDelete r io => Sys2Proof.Machine.execIdxDelete r io s
  | .idxRebuild r io => Sys2Proof.Machine.execIdxRebuild r io s
  | .srchBatch r io => Sys2Proof.Machine.execSrchBatch r io s
  | .idxQuery r io => Sys2Proof.Machine.execIdxQuery r io s
  | .memAlloc r io => Sys2Proof.Machine.execMemAlloc r io s
  | .memFree r io => Sys2Proof.Machine.execMemFree r io s
  | .memCopy r io => Sys2Proof.Machine.execMemCopy r io s
  | .memSeal r io => Sys2Proof.Machine.execMemSeal r io s
  | .memMapBar4 r io => Sys2Proof.Machine.execMemMapBar4 r io s
  | .memUnmapBar4 r io => Sys2Proof.Machine.execMemUnmapBar4 r io s
  | .memQuotaSet r io => Sys2Proof.Machine.execMemQuotaSet r io s
  | .memQuotaQuery r io => Sys2Proof.Machine.execMemQuotaQuery r io s
  | .memStats r io => Sys2Proof.Machine.execMemStats r io s
  | .ensForm r io => Sys2Proof.Machine.execEnsForm r io s
  | .ensJoin r io => Sys2Proof.Machine.execEnsJoin r io s
  | .ensLeave r io => Sys2Proof.Machine.execEnsLeave r io s
  | .ensRemove r io => Sys2Proof.Machine.execEnsRemove r io s
  | .ensReshard r io => Sys2Proof.Machine.execEnsReshard r io s
  | .ensStatus r io => Sys2Proof.Machine.execEnsStatus r io s
  | .pwrCapSet r io => Sys2Proof.Machine.execPwrCapSet r io s
  | .pwrLevelSet r io => Sys2Proof.Machine.execPwrLevelSet r io s
  | .pwrStateEnter r io => Sys2Proof.Machine.execPwrStateEnter r io s
  | .pwrDomainPark r io => Sys2Proof.Machine.execPwrDomainPark r io s
  | .pwrPadRelease r io => Sys2Proof.Machine.execPwrPadRelease r io s
  | .pwrStatus r io => Sys2Proof.Machine.execPwrStatus r io s
  | .pwrCounters r io => Sys2Proof.Machine.execPwrCounters r io s
  | .timeRead r io => Sys2Proof.Machine.execTimeRead r io s
  | .timeSet r io => Sys2Proof.Machine.execTimeSet r io s
  | .timeAdjust r io => Sys2Proof.Machine.execTimeAdjust r io s
  | .timePtpConfig r io => Sys2Proof.Machine.execTimePtpConfig r io s
  | .timeAlarmSet r io => Sys2Proof.Machine.execTimeAlarmSet r io s
  | .timeStatus r io => Sys2Proof.Machine.execTimeStatus r io s
  | .secQuote r io => Sys2Proof.Machine.execSecQuote r io s
  | .secLifecycle r io => Sys2Proof.Machine.execSecLifecycle r io s
  | .secUnlockChallenge r io => Sys2Proof.Machine.execSecUnlockChallenge r io s
  | .secUnlock r io => Sys2Proof.Machine.execSecUnlock r io s
  | .secAlarmPolicy r io => Sys2Proof.Machine.execSecAlarmPolicy r io s
  | .secIdentityRead r io => Sys2Proof.Machine.execSecIdentityRead r io s
  | .diagLogRead r io => Sys2Proof.Machine.execDiagLogRead r io s
  | .diagCounters r io => Sys2Proof.Machine.execDiagCounters r io s
  | .diagSelftestRecord r io => Sys2Proof.Machine.execDiagSelftestRecord r io s
  | .recastImageLoad r io => Sys2Proof.Machine.execRecastImageLoad r io s
  | .recastCommit r io => Sys2Proof.Machine.execRecastCommit r io s
  | .recastFallback r io => Sys2Proof.Machine.execRecastFallback r io s
  | .diagJournalRead r io => Sys2Proof.Machine.execDiagJournalRead r io s
  | .registerWrite fn off size v => Sys2Proof.Machine.execRegisterWrite fn off size v s
  | .qzBaseWrite fn off size v => Sys2Proof.Machine.execQzBaseWrite fn off size v s
  | .qzEnable fn v => Sys2Proof.Machine.execQzEnable fn v s
  | .qzDisable fn v => Sys2Proof.Machine.execQzDisable fn v s
  | .qzCtrlUpdate fn v => Sys2Proof.Machine.execQzCtrlUpdate fn v s
  | .sqTailDoorbell fn off size v => Sys2Proof.Machine.execSqTailDoorbell fn off size v s
  | .cqHeadDoorbell fn off size v => Sys2Proof.Machine.execCqHeadDoorbell fn off size v s
  | .qzDbRefusedRead fn => Sys2Proof.Machine.execQzDbRefusedRead fn s
  | .bar4MissRead => Sys2Proof.Machine.execBar4MissRead s
  | .bar4Access off acc => Sys2Proof.Machine.execBar4Access off acc s
  | .cbRing v => Sys2Proof.Machine.execCbRing v s
  | .cbAck v => Sys2Proof.Machine.execCbAck v s
  | .cbRefusedRead => Sys2Proof.Machine.execCbRefusedRead s
  | .cbHwTimeout => Sys2Proof.Machine.execCbHwTimeout s
  | .tbWord0Read size => Sys2Proof.Machine.execTbWord0Read size s
  | .glWakeClear v => Sys2Proof.Machine.execGlWakeClear v s
  | .slkNegSeenClear n v => Sys2Proof.Machine.execSlkNegSeenClear n v s
  | .slkMinRead n => Sys2Proof.Machine.execSlkMinRead n s
  | .fenceCounterRead dom wr => Sys2Proof.Machine.execFenceCounterRead dom wr s
  | .msixUnmask fn u => Sys2Proof.Machine.execMsixUnmask fn u s
  | .busMasterEnable fn => Sys2Proof.Machine.execBusMasterEnable fn s
  | .vfEnableSet n => Sys2Proof.Machine.execVfEnableSet n s
  | .vfEnableClear => Sys2Proof.Machine.execVfEnableClear s
  | .functionLevelReset fn => Sys2Proof.Machine.execFunctionLevelReset fn s
  | .linkDown => Sys2Proof.Machine.execLinkDown s
  | .sqFetch got => Sys2Proof.Machine.execSqFetch got s
  | .coalTimer fn qid => Sys2Proof.Machine.execCoalTimer fn qid s
  | .commandDeadline r => Sys2Proof.Machine.execCommandDeadline r s
  | .releaseDeadline r => Sys2Proof.Machine.execReleaseDeadline r s
  | .orphanHoldExpiry ty slot => Sys2Proof.Machine.execOrphanHoldExpiry ty slot s
  | .csiFrameStart port vc frameNo => Sys2Proof.Machine.execCsiFrameStart port vc frameNo s
  | .csiPacket port vc p => Sys2Proof.Machine.execCsiPacket port vc p s
  | .csiFrameEnd port vc => Sys2Proof.Machine.execCsiFrameEnd port vc s
  | .ethFrameReceived port f => Sys2Proof.Machine.execEthFrameReceived port f s
  | .ptpMasterTimeout => Sys2Proof.Machine.execPtpMasterTimeout s
  | .timeAlarmFire n => Sys2Proof.Machine.execTimeAlarmFire n s
  | .spiCnvStrobe ctrl cs => Sys2Proof.Machine.execSpiCnvStrobe ctrl cs s
  | .spiDrdyEdge ctrl cs ns => Sys2Proof.Machine.execSpiDrdyEdge ctrl cs s ns
  | .spiTransactionDone ctrl words => Sys2Proof.Machine.execSpiTransactionDone ctrl words s
  | .spiDrdyGap ctrl cs => Sys2Proof.Machine.execSpiDrdyGap ctrl cs s
  | .filtHeldInput ctrl cs => Sys2Proof.Machine.execFiltHeldInput ctrl cs s
  | .encEdge n a b ns => Sys2Proof.Machine.execEncEdge n a b s ns
  | .encIndex n ns => Sys2Proof.Machine.execEncIndex n s ns
  | .encSample n => Sys2Proof.Machine.execEncSample n s
  | .cueSlotMissing sheet set slot => Sys2Proof.Machine.execCueSlotMissing sheet set slot s
  | .cueSetDeadline sheet set => Sys2Proof.Machine.execCueSetDeadline sheet set s
  | .visionBandDone group u => Sys2Proof.Machine.execVisionBandDone group u s
  | .visionNodeDone sheet set node media => Sys2Proof.Machine.execVisionNodeDone sheet set node media s
  | .cueExternalWaitMet sheet set node => Sys2Proof.Machine.execCueExternalWaitMet sheet set node s
  | .tileFlagWrite sheet flag at' bytes tile writes => Sys2Proof.Machine.execTileFlagWrite sheet flag at' bytes s tile writes
  | .taskComplete tile o => Sys2Proof.Machine.execTaskComplete tile o s
  | .taskWatchdog tile => Sys2Proof.Machine.execTaskWatchdog tile s
  | .tileSteal tile => Sys2Proof.Machine.execTileSteal tile s
  | .weightLanded inst layer run => Sys2Proof.Machine.execWeightLanded inst layer s run
  | .lateWeightExpiry inst => Sys2Proof.Machine.execLateWeightExpiry inst s
  | .weightTimeout inst => Sys2Proof.Machine.execWeightTimeout inst s
  | .flagWaitMet inst => Sys2Proof.Machine.execFlagWaitMet inst s
  | .flagWaitExpiry inst => Sys2Proof.Machine.execFlagWaitExpiry inst s
  | .scatterBatch grid bytes tile => Sys2Proof.Machine.execScatterBatch grid bytes s tile
  | .epochLimit grid => Sys2Proof.Machine.execEpochLimit grid s
  | .epochClose grid => Sys2Proof.Machine.execEpochClose grid s
  | .solveStart prob => Sys2Proof.Machine.execSolveStart prob s
  | .solveComplete prob e => Sys2Proof.Machine.execSolveComplete prob e s
  | .solveDeadline prob => Sys2Proof.Machine.execSolveDeadline prob s
  | .queryStart engine => Sys2Proof.Machine.execQueryStart engine s
  | .queryComplete batch query bad => Sys2Proof.Machine.execQueryComplete batch query s bad
  | .srchBatchDeadline batch => Sys2Proof.Machine.execSrchBatchDeadline batch s
  | .deadheadPass map => Sys2Proof.Machine.execDeadheadPass map s
  | .repotCopyDone map => Sys2Proof.Machine.execRepotCopyDone map s
  | .repotCommit map => Sys2Proof.Machine.execRepotCommit map s
  | .repotPauseExpiry map => Sys2Proof.Machine.execRepotPauseExpiry map s
  | .idxRebuildDone idx => Sys2Proof.Machine.execIdxRebuildDone idx s
  | .scrubRead f => Sys2Proof.Machine.execScrubRead f s
  | .granuleRetireDone granule => Sys2Proof.Machine.execGranuleRetireDone granule s
  | .refetchPassEnd pkg got => Sys2Proof.Machine.execRefetchPassEnd pkg got s
  | .refetchRetry pkg => Sys2Proof.Machine.execRefetchRetry pkg s
  | .allocMove slot => Sys2Proof.Machine.execAllocMove slot s
  | .trellisLinkTrained port peer => Sys2Proof.Machine.execTrellisLinkTrained port peer s
  | .trellisHandshakeMessage port m => Sys2Proof.Machine.execTrellisHandshakeMessage port m s
  | .trellisRefusalRetry port => Sys2Proof.Machine.execTrellisRefusalRetry port s
  | .trellisRekey port => Sys2Proof.Machine.execTrellisRekey port s
  | .trellisFrameReceived port tag m => Sys2Proof.Machine.execTrellisFrameReceived port tag m s
  | .trellisLinkLost port => Sys2Proof.Machine.execTrellisLinkLost port s
  | .memberLoss member => Sys2Proof.Machine.execMemberLoss member s
  | .ensTimeSync offset => Sys2Proof.Machine.execEnsTimeSync offset s
  | .replicaCommit map shard => Sys2Proof.Machine.execReplicaCommit map shard s
  | .levelChoiceTick powerMw tj => Sys2Proof.Machine.execLevelChoiceTick powerMw tj s
  | .powerBackstopTick powerMw tj => Sys2Proof.Machine.execPowerBackstopTick powerMw tj s
  | .thermalTrip tj => Sys2Proof.Machine.execThermalTrip tj s
  | .domainIdlePark dom => Sys2Proof.Machine.execDomainIdlePark dom s
  | .selftestSliceDone dom bad => Sys2Proof.Machine.execSelftestSliceDone dom bad s
  | .domainReturnDone dom => Sys2Proof.Machine.execDomainReturnDone dom s
  | .pmeTurnOff => Sys2Proof.Machine.execPmeTurnOff s
  | .entryLinkTimeout => Sys2Proof.Machine.execEntryLinkTimeout s
  | .domainGateTimeout dom => Sys2Proof.Machine.execDomainGateTimeout dom s
  | .wakeNEdge ns => Sys2Proof.Machine.execWakeNEdge s ns
  | .gpioWakeEdge n rising ns => Sys2Proof.Machine.execGpioWakeEdge n rising s ns
  | .returnComplete => Sys2Proof.Machine.execReturnComplete s
  | .brownOut => Sys2Proof.Machine.execBrownOut s
  | .powerLoss vaux => Sys2Proof.Machine.execPowerLoss vaux s
  | .vauxRise straps => Sys2Proof.Machine.execVauxRise straps s
  | .mainPgRise ns => Sys2Proof.Machine.execMainPgRise s ns
  | .mainPgFall ns => Sys2Proof.Machine.execMainPgFall s ns
  | .mainPgTimeout => Sys2Proof.Machine.execMainPgTimeout s
  | .mainPgReturnTimeout => Sys2Proof.Machine.execMainPgReturnTimeout s
  | .resetNAssert ns => Sys2Proof.Machine.execResetNAssert s ns
  | .resetNRelease straps ns => Sys2Proof.Machine.execResetNRelease straps s ns
  | .perstNAssert ns => Sys2Proof.Machine.execPerstNAssert s ns
  | .perstNRelease straps ns => Sys2Proof.Machine.execPerstNRelease straps s ns
  | .clkRefLoss => Sys2Proof.Machine.execClkRefLoss s
  | .clkRefReturn straps => Sys2Proof.Machine.execClkRefReturn straps s
  | .pcieRefclkLoss => Sys2Proof.Machine.execPcieRefclkLoss s
  | .phyRefclkLoss trellis => Sys2Proof.Machine.execPhyRefclkLoss trellis s
  | .coldStartReady failed => Sys2Proof.Machine.execColdStartReady failed s
  | .bootWatchdog => Sys2Proof.Machine.execBootWatchdog s
  | .fscClear => Sys2Proof.Machine.execFscClear s
  | .smWatchdog => Sys2Proof.Machine.execSmWatchdog s
  | .lockstepMismatch mp => Sys2Proof.Machine.execLockstepMismatch mp s
  | .warmResetComplete => Sys2Proof.Machine.execWarmResetComplete s
  | .recastHandover => Sys2Proof.Machine.execRecastHandover s
  | .probationEnd => Sys2Proof.Machine.execProbationEnd s
  | .tamperAlarm sensor detail => Sys2Proof.Machine.execTamperAlarm sensor detail s
  | .throttleRelease => Sys2Proof.Machine.execThrottleRelease s
  | .challengeExpiry => Sys2Proof.Machine.execChallengeExpiry s
  | .debugPortExpiry => Sys2Proof.Machine.execDebugPortExpiry s
  | .slackMeasure n num den => Sys2Proof.Machine.execSlackMeasure n num den s
  | .sbRegisterWrite w => Sys2Proof.Machine.execSbRegisterWrite w s
  | .sbSetIndex idx => Sys2Proof.Machine.execSbSetIndex idx s
  | .sbDynamicAddress addr => Sys2Proof.Machine.execSbDynamicAddress addr s
  | .sbWakeTransaction read => Sys2Proof.Machine.execSbWakeTransaction read s
  | .sbSclTimeout => Sys2Proof.Machine.execSbSclTimeout s
  | .sbRefusedRead => Sys2Proof.Machine.execSbRefusedRead s
  | .sbMirrorTick => Sys2Proof.Machine.execSbMirrorTick s
  | .sleepEntryGated => Sys2Proof.Machine.execSleepEntryGated s
  | .pcieLinkTrained gen width => Sys2Proof.Machine.execPcieLinkTrained gen width s
  | .wakeNDriveExpiry => Sys2Proof.Machine.execWakeNDriveExpiry s
  | .phyRefclkReturn trellis => Sys2Proof.Machine.execPhyRefclkReturn trellis s
  | .startAttemptFailure reason => Sys2Proof.Machine.execStartAttemptFailure reason s
  | .mapCommandDone r bad => Sys2Proof.Machine.execMapCommandDone r s bad
  | .slewAbsorbed => Sys2Proof.Machine.execSlewAbsorbed s
  | .ptpTransmitInterval port m => Sys2Proof.Machine.execPtpTransmitInterval port m s

end Sys2Proof.Machine
end

