-- ==== Sys2Proof/Machine/Step.lean ====
section
/-! DEFINITION. One step of the block: the command at the front of the queue, or, with none waiting,
one nanosecond of the time base [1]. -/
namespace Sys2Proof.Machine

/-- Takes the command at the front of the queue and carries it out with the queue's rest. With no
command waiting, time passes: a warm reset that bad data of Stage Manager has made due begins (Table 12.2), and the
domains that hold work are in use at this instant (R467). DESIGN CHOICE [1]. -/
def step (s : State) : Host.Outcome State Fault Refusal :=
  match s.pending with
  | c :: rest => exec c { s with pending := rest }
  | [] => .next (tick (markBusy (dueReset s)))

/-- The state in which a table word's command stands in front. No row of the table has bits, so no
word spells a command and the state stays as it is. DESIGN CHOICE [144]. -/
def State.withFetchWord (s : State) (_nbits _w : Nat) : State := s

end Sys2Proof.Machine
end

