-- ==== Sys2Proof/Safety.lean ====
section
/-! DEFINITION. The terms in which the claims are made: when a command is ready to be carried out, the answers it
can give, and the form that the state's memories keep. -/
namespace Sys2Proof.Machine

/-- The request and the context of a command that is ready: fetched and free to start (R55), past validation steps 1
to 7 (R84), and with every switched domain that it needs on (R470). -/
def readyCtx (ci : CmdInfo) (r : ReqRef) (io : Io) (s : State) : Option (Req × Ctx) :=
  match startable ci.opcode r s with
  | none => none
  | some q => match validate ci q io s with
    | .error _ => none
    | .ok c => if (ci.doms c s).all fun d => domOn d s then some (q, c) else none

/-- A command is ready with its request and its context. -/
def IsReady (ci : CmdInfo) (r : ReqRef) (io : Io) (s : State) (q : Req) (c : Ctx) : Prop :=
  readyCtx ci r io s = some (q, c)

/-- The request's completion is given in a state (R56), and what it lets complete follows (R78, R100). -/
def answered (q : Req) (st r0 r1 : Nat) (d : Option (List Byte)) (s : State) : Result :=
  .next (settle (post q st r0 r1 d s))

/-- The request has been admitted and runs on (R84). -/
def goesOn (q : Req) (s : State) : Result := .next (settle (markRunning q s))

/-- A request that validation ends carries its status and results, and nothing else happens than what the refusal
counts (R84). -/
def refusedWith (q : Req) (f : Fail) (s : State) : Result := .next (settle (post q f.st f.r0 f.r1 none (f.fx s)))

/-- Every sparse memory of the state is in its canonical form: the callboard's request and payload areas, every
allocation, every instance's memory. -/
def State.memsOk (s : State) : Bool :=
  s.cb.request.wf && s.cb.data.wf && (s.mem.allocs.all fun a => a.mem.wf) && s.tile.insts.all fun x => x.mem.wf

end Sys2Proof.Machine
end

