-- ==== Sys2Proof/WellFormed.lean ====
section
/-! DEFINITION. Which commands a sender of the K9 can form: operands inside the ranges that the spec
gives the thing they name. `exec` is total and needs none of this. -/
namespace Sys2Proof

/-- One of the 32 PCIe functions (Table 2.1). -/
def fnOk (fn : Nat) : Bool := decide (fn < 32)
/-- A function-local queue number (R29). -/
def qidOk (qid : Nat) : Bool := decide (qid < 65536)
/-- What one PCIe write or read can hold. R33 refuses all but aligned accesses of 4 and 8 bytes; a host can
send the others. -/
def sizeOk (size : Nat) : Bool := decide (0 < size) && decide (size ≤ 4096)
/-- A doorbell write lies in BAR2, 1 MiB at most (Table 2.2). -/
def bar2Ok (off size : Nat) : Bool := decide (off < 1048576) && sizeOk size
/-- A host write in BAR0 or BAR2 whose value has the write's size (R33). -/
def accessOk (off size v : Nat) : Bool :=
  decide (off < 4294967296) && sizeOk size && decide (v < 256 ^ size)
/-- A source and a 16-bit `CID` (Table 2.7). -/
def refOk (r : ReqRef) : Bool :=
  decide (r.cid < 65536) && match r.src with
    | .queue fn qid => fnOk fn && qidOk qid
    | .callboard => true
/-- A BAR4 access lies in the largest window (R35) and moves at least one byte. -/
def bar4Ok (off : Nat) : Bar4Access → Bool
  | .read len => decide (0 < len) && decide (off + len ≤ 68719476736)
  | .write bytes => decide (0 < bytes.length) && decide (off + bytes.length ≤ 68719476736)
/-- One of the 2,048 MSI-X vectors (Table 2.1). -/
def unmaskOk : Unmask → Bool
  | .vector n => decide (n < 2048)
  | .functionMask => true
  | .enable => true
/-- An SQ entry is 64 bytes (Table 2.7). -/
def fetchedOk : Fetched → Bool
  | .entry bytes => bytes.length == 64
  | .failed _ => true
/-- One of sixteen CSI-2 ports and a virtual channel of Table 4.1. -/
def csiOk (port vc : Nat) : Bool := decide (port < 16) && decide (vc < 32)
/-- A CSI-2 data type has 6 bits and a pixel code 16. -/
def packetOk (p : CsiPacket) : Bool := decide (p.dt < 64) && p.pixels.all fun x => decide (x < 65536)
/-- One of four Ethernet ports (R122). -/
def ethOk (port : Nat) : Bool := decide (port < 4)
/-- One of eight SPI controllers and four chip selects (Table 4.6). -/
def spiOk (ctrl cs : Nat) : Bool := decide (ctrl < 8) && decide (cs < 4)
/-- At most eight words of at most 24 bits (Table 4.6). -/
def wordsOk (words : List Nat) : Bool :=
  decide (words.length ≤ 8) && words.all fun x => decide (x < 16777216)
/-- One of sixteen encoder inputs (R135). -/
def encOk (n : Nat) : Bool := decide (n < 16)
/-- One of a vision group's two warp, pyramid or feature units (Table 1.1). -/
def unitOk : VisionUnit → Bool
  | .warp n => decide (n < 2)
  | .pyramid n => decide (n < 2)
  | .feature n => decide (n < 2)
/-- One of 256 tiles (Table 1.1). -/
def tileOk (tile : Nat) : Bool := decide (tile < 256)
/-- One of seven Trellis ports (Table 1.1). -/
def trellisOk (port : Nat) : Bool := decide (port < 7)
/-- One of eight members of an ensemble (R430). -/
def memberOk (m : Nat) : Bool := decide (m < 8)
/-- One of the 96 switched domains (R465). -/
def domOk (dom : Nat) : Bool := decide (dom < 96)
/-- One of the 27 slack monitors (R10). -/
def slackOk (n : Nat) : Bool := decide (n < 27)
/-- The straps hold the bits of Table 18.9. -/
def strapsOk (t : Straps) : Bool :=
  decide (t.bootSrc < 4) && decide (t.sbAddr < 4) && decide (t.sbMode < 2) && decide (t.ensId < 8)
    && decide (t.ethSpeed < 16) && decide (t.ethFec < 4)

/-- A well-formed command. -/
def Instr.wf (i : Instr) : Bool :=
  match i with
  | .admIdentify r _ => refOk r
  | .admSessionOpen r _ => refOk r
  | .admSessionClose r _ => refOk r
  | .admSessionAdopt r _ => refOk r
  | .admQueueCreate r _ => refOk r
  | .admQueueDelete r _ => refOk r
  | .admQueueModify r _ => refOk r
  | .admQueueQuery r _ => refOk r
  | .admQueueGrant r _ => refOk r
  | .admHandleQuery r _ => refOk r
  | .admLimitsRead r _ => refOk r
  | .admAbort r _ => refOk r
  | .admResetWarm r _ => refOk r
  | .admResetDomain r _ => refOk r
  | .admEventWait r _ => refOk r
  | .streamOpen r _ => refOk r
  | .streamClose r _ => refOk r
  | .streamStart r _ => refOk r
  | .streamStop r _ => refOk r
  | .streamQuery r _ => refOk r
  | .streamSetWindow r _ => refOk r
  | .streamFrameRelease r _ => refOk r
  | .filtOpen r _ => refOk r
  | .filtClose r _ => refOk r
  | .filtLoadBank r _ => refOk r
  | .filtSwap r _ => refOk r
  | .filtCrossfade r _ => refOk r
  | .filtSetPhase r _ => refOk r
  | .filtDcFreeze r _ => refOk r
  | .filtDelayQuery r _ => refOk r
  | .cueLoad r _ => refOk r
  | .cueUnload r _ => refOk r
  | .cueStart r _ => refOk r
  | .cueStop r _ => refOk r
  | .cueQuery r _ => refOk r
  | .cueFlagRead r _ => refOk r
  | .pkgLoad r _ => refOk r
  | .pkgUnload r _ => refOk r
  | .instCreate r _ => refOk r
  | .instDestroy r _ => refOk r
  | .inferRun r _ => refOk r
  | .instQuery r _ => refOk r
  | .pkgQuery r _ => refOk r
  | .gridCreate r _ => refOk r
  | .gridDestroy r _ => refOk r
  | .calCreate r _ => refOk r
  | .calDestroy r _ => refOk r
  | .gridRead r _ => refOk r
  | .gridClear r _ => refOk r
  | .gridVoteSet r _ => refOk r
  | .gridPoseSubmit r _ => refOk r
  | .gridStatus r _ => refOk r
  | .solvLoad r _ => refOk r
  | .solvUnload r _ => refOk r
  | .solvDelta r _ => refOk r
  | .solvRun r _ => refOk r
  | .solvResult r _ => refOk r
  | .solvQuery r _ => refOk r
  | .mapCreate r _ => refOk r
  | .mapDestroy r _ => refOk r
  | .mapInsert r _ => refOk r
  | .mapDelete r _ => refOk r
  | .mapRead r _ => refOk r
  | .mapTraverse r _ => refOk r
  | .mapDeadheadSet r _ => refOk r
  | .mapRepot r _ => refOk r
  | .mapCheckpoint r _ => refOk r
  | .mapRestore r _ => refOk r
  | .idxCreate r _ => refOk r
  | .idxDestroy r _ => refOk r
  | .idxInsert r _ => refOk r
  | .idxDelete r _ => refOk r
  | .idxRebuild r _ => refOk r
  | .srchBatch r _ => refOk r
  | .idxQuery r _ => refOk r
  | .memAlloc r _ => refOk r
  | .memFree r _ => refOk r
  | .memCopy r _ => refOk r
  | .memSeal r _ => refOk r
  | .memMapBar4 r _ => refOk r
  | .memUnmapBar4 r _ => refOk r
  | .memQuotaSet r _ => refOk r
  | .memQuotaQuery r _ => refOk r
  | .memStats r _ => refOk r
  | .ensForm r _ => refOk r
  | .ensJoin r _ => refOk r
  | .ensLeave r _ => refOk r
  | .ensRemove r _ => refOk r
  | .ensReshard r _ => refOk r
  | .ensStatus r _ => refOk r
  | .pwrCapSet r _ => refOk r
  | .pwrLevelSet r _ => refOk r
  | .pwrStateEnter r _ => refOk r
  | .pwrDomainPark r _ => refOk r
  | .pwrPadRelease r _ => refOk r
  | .pwrStatus r _ => refOk r
  | .pwrCounters r _ => refOk r
  | .timeRead r _ => refOk r
  | .timeSet r _ => refOk r
  | .timeAdjust r _ => refOk r
  | .timePtpConfig r _ => refOk r
  | .timeAlarmSet r _ => refOk r
  | .timeStatus r _ => refOk r
  | .secQuote r _ => refOk r
  | .secLifecycle r _ => refOk r
  | .secUnlockChallenge r _ => refOk r
  | .secUnlock r _ => refOk r
  | .secAlarmPolicy r _ => refOk r
  | .secIdentityRead r _ => refOk r
  | .diagLogRead r _ => refOk r
  | .diagCounters r _ => refOk r
  | .diagSelftestRecord r _ => refOk r
  | .recastImageLoad r _ => refOk r
  | .recastCommit r _ => refOk r
  | .recastFallback r _ => refOk r
  | .diagJournalRead r _ => refOk r
  | .registerWrite fn off size v => fnOk fn && accessOk off size v
  | .qzBaseWrite fn off size v => fnOk fn && accessOk off size v
  | .qzEnable fn _ => fnOk fn
  | .qzDisable fn _ => fnOk fn
  | .qzCtrlUpdate fn _ => fnOk fn
  | .sqTailDoorbell fn off size _ => fnOk fn && bar2Ok off size
  | .cqHeadDoorbell fn off size _ => fnOk fn && bar2Ok off size
  | .qzDbRefusedRead fn => fnOk fn
  | .bar4MissRead => true
  | .bar4Access off acc => bar4Ok off acc
  | .cbRing _ => true
  | .cbAck _ => true
  | .cbRefusedRead => true
  | .cbHwTimeout => true
  | .tbWord0Read size => sizeOk size
  | .glWakeClear _ => true
  | .slkNegSeenClear n _ => slackOk n
  | .slkMinRead n => slackOk n
  | .fenceCounterRead dom _ => domOk dom
  | .msixUnmask fn u => fnOk fn && unmaskOk u
  | .busMasterEnable fn => fnOk fn
  | .vfEnableSet n => decide (1 ≤ n ∧ n ≤ 31)
  | .vfEnableClear => true
  | .functionLevelReset fn => fnOk fn
  | .linkDown => true
  | .sqFetch got => fetchedOk got
  | .coalTimer fn qid => fnOk fn && qidOk qid
  | .commandDeadline r => refOk r
  | .releaseDeadline r => refOk r
  | .orphanHoldExpiry ty slot => decide (ty < 256) && decide (slot < 4294967296)
  | .csiFrameStart port vc frameNo => csiOk port vc && decide (frameNo < 65536)
  | .csiPacket port vc p => csiOk port vc && packetOk p
  | .csiFrameEnd port vc => csiOk port vc
  | .ethFrameReceived port _ => ethOk port
  | .ptpMasterTimeout => true
  | .timeAlarmFire n => decide (n < 8)
  | .spiCnvStrobe ctrl cs => spiOk ctrl cs
  | .spiDrdyEdge ctrl cs _ => spiOk ctrl cs
  | .spiTransactionDone ctrl words => decide (ctrl < 8) && wordsOk words
  | .spiDrdyGap ctrl cs => spiOk ctrl cs
  | .filtHeldInput ctrl cs => spiOk ctrl cs
  | .encEdge n _ _ _ => encOk n
  | .encIndex n _ => encOk n
  | .encSample n => encOk n
  | .cueSlotMissing _ _ _ => true
  | .cueSetDeadline _ _ => true
  | .visionBandDone group u => decide (group < 4) && unitOk u
  | .visionNodeDone _ _ node _ => decide (node < 128)
  | .cueExternalWaitMet _ _ node => decide (node < 128)
  | .tileFlagWrite _ _ _ _ tile _ => tileOk tile
  | .taskComplete tile _ => tileOk tile
  | .taskWatchdog tile => tileOk tile
  | .tileSteal tile => tileOk tile
  | .weightLanded _ _ _ => true
  | .lateWeightExpiry _ => true
  | .weightTimeout _ => true
  | .flagWaitMet _ => true
  | .flagWaitExpiry _ => true
  | .scatterBatch _ _ _ => true
  | .epochLimit _ => true
  | .epochClose _ => true
  | .solveStart _ => true
  | .solveComplete _ _ => true
  | .solveDeadline _ => true
  | .queryStart engine => decide (engine < 16)
  | .queryComplete _ _ _ => true
  | .srchBatchDeadline _ => true
  | .deadheadPass _ => true
  | .repotCopyDone _ => true
  | .repotCommit _ => true
  | .repotPauseExpiry _ => true
  | .idxRebuildDone _ => true
  | .scrubRead _ => true
  | .granuleRetireDone _ => true
  | .refetchPassEnd _ _ => true
  | .refetchRetry _ => true
  | .allocMove _ => true
  | .trellisLinkTrained port peer => trellisOk port && memberOk peer
  | .trellisHandshakeMessage port _ => trellisOk port
  | .trellisRefusalRetry port => trellisOk port
  | .trellisRekey port => trellisOk port
  | .trellisFrameReceived port _ _ => trellisOk port
  | .trellisLinkLost port => trellisOk port
  | .memberLoss member => memberOk member
  | .ensTimeSync _ => true
  | .replicaCommit _ _ => true
  | .levelChoiceTick _ _ => true
  | .powerBackstopTick _ _ => true
  | .thermalTrip _ => true
  | .domainIdlePark dom => domOk dom
  | .selftestSliceDone dom bad => domOk dom && decide (bad < 256)
  | .domainReturnDone dom => domOk dom
  | .pmeTurnOff => true
  | .entryLinkTimeout => true
  | .domainGateTimeout dom => domOk dom
  | .wakeNEdge _ => true
  | .gpioWakeEdge n _ _ => decide (n < 4)
  | .returnComplete => true
  | .brownOut => true
  | .powerLoss _ => true
  | .vauxRise straps => strapsOk straps
  | .mainPgRise _ => true
  | .mainPgFall _ => true
  | .mainPgTimeout => true
  | .mainPgReturnTimeout => true
  | .resetNAssert _ => true
  | .resetNRelease straps _ => strapsOk straps
  | .perstNAssert _ => true
  | .perstNRelease straps _ => strapsOk straps
  | .clkRefLoss => true
  | .clkRefReturn straps => strapsOk straps
  | .pcieRefclkLoss => true
  | .phyRefclkLoss _ => true
  | .coldStartReady _ => true
  | .bootWatchdog => true
  | .fscClear => true
  | .smWatchdog => true
  | .lockstepMismatch mp => decide (mp < 2)
  | .warmResetComplete => true
  | .recastHandover => true
  | .probationEnd => true
  | .tamperAlarm sensor _ => decide (sensor ≤ 4)
  | .throttleRelease => true
  | .challengeExpiry => true
  | .debugPortExpiry => true
  | .slackMeasure n _ den => slackOk n && decide (den ≠ 0)
  | .sbRegisterWrite w => decide (w.index < 256)
  | .sbSetIndex idx => decide (idx < 256)
  | .sbDynamicAddress addr => decide (addr < 128)
  | .sbWakeTransaction _ => true
  | .sbSclTimeout => true
  | .sbRefusedRead => true
  | .sbMirrorTick => true
  | .sleepEntryGated => true
  | .pcieLinkTrained gen width => decide (1 ≤ gen ∧ gen ≤ 5) && [1, 2, 4, 8].contains width
  | .wakeNDriveExpiry => true
  | .phyRefclkReturn _ => true
  | .startAttemptFailure reason => decide (reason < 13)
  | .mapCommandDone r _ => refOk r
  | .slewAbsorbed => true
  | .ptpTransmitInterval port _ => ethOk port

end Sys2Proof
end

