-- ==== Sys2Proof/Certificates/Slice0/Obligations.lean ====
section
/-! DEFINITION. The statements about this model, for the provers. Rules R<n> are those of spec/. -/
open Sys2Proof Sys2Proof.Machine

/-- A step carries out the command at the front of the queue with the queue's rest. For every command c, every queue
rest and every state s: the step of s with c in front of rest is exec of c on s with the queue rest. With an
empty queue the step answers the state one nanosecond later in which the domains that hold work are in use (the
model's choice, log entry 1). Cites: 95 What each step holds. -/
def Obligations.StepRunsFrontCommand : Prop :=
  ∀ (c : Instr) (rest : List Instr) (s : State),
    step { s with pending := c :: rest } = exec c { s with pending := rest }
    ∧ step { s with pending := [] } = .next (tick (markBusy { s with pending := [] }))

/-- No command stops the block. For every command c and every state s, exec of c on s answers a next state, never a
fault and never a refusal: what goes wrong ends a request, is counted or is ignored. Cites: R18. -/
def Obligations.EveryCommandAnswersANextState : Prop :=
  ∀ (c : Instr) (s : State), ∃ t, exec c s = .next t

/-- A command changes everything but the queue of waiting commands. For every command c and states s and t: if exec
of c on s answers next t, the queue of waiting commands of t is that of s. Cites: 95 What each step holds. -/
def Obligations.ExecKeepsTheQueue : Prop :=
  ∀ (c : Instr) (s t : State), exec c s = .next t → t.pending = s.pending

/-- Every step keeps every sparse memory in its canonical form. For every state s whose memories are canonical (the
callboard's request and payload areas, the memory of every allocation and of every instance: addresses strictly
rising, no zero byte listed), if the step of s answers next t, the memories of t are canonical. So equal
memories stay equal data on every run. Cites: R404, R61, R102. -/
def Obligations.StepKeepsMemoriesCanonical : Prop :=
  ∀ (s t : State), s.memsOk = true → step s = .next t → t.memsOk = true

/-- The memories are canonical at reset. The state after reset has every sparse memory in its canonical form, and
none of them lists a byte. Cites: R404, R61. -/
def Obligations.ResetMemoriesCanonical : Prop :=
  State.reset.memsOk = true ∧ State.reset.cb.request = [] ∧ State.reset.cb.data = [] ∧ State.reset.mem.allocs = []
    ∧ State.reset.tile.insts = []

/-- The reading commands of group 0x00 complete with the record or the counts the spec gives. For every state,
request and context in which the command is ready (fetched, validated, its domains on): ADM_IDENTIFY answers
ST_OK, RESULT0 512 and the identity record; ADM_LIMITS_READ answers the count of limits and one 16-byte record
for each; ADM_QUEUE_QUERY answers 0 and 0 for a pair that is not created, else LIVE, FAULT and FAULT_CAUSE in
RESULT0 and the fetch position in RESULT1; ADM_HANDLE_QUERY answers the number of direct dependants and 1 live,
2 closing or 3 orphan; ADM_EVENT_WAIT with fewer than 16 open waits of its session goes on waiting. None of them
changes anything but the request and its answer. Cites: R93, R95, R99, R100, R77, R78. -/
def Obligations.AdmReadCommandsComplete : Prop :=
  ∀ (r : ReqRef) (io : Io) (s : State) (q : Req) (c : Ctx),
    (IsReady iAdmIdentify r io s q c →
      exec (.admIdentify r io) s = answered q stOk 512 0 (some (identityRecord s)) s)
    ∧ (IsReady iAdmLimitsRead r io s q c →
      exec (.admLimitsRead r io) s = answered q stOk (limits s).length 0
        (some ((limits s).flatMap fun x => leBytes 2 x.1 ++ zeros 6 ++ leBytes 8 x.2)) s)
    ∧ (IsReady iAdmQueueQuery r io s q c → getPair c.fn (prm c 0 2) s = none →
      exec (.admQueueQuery r io) s = answered q stOk 0 0 none s)
    ∧ (∀ p, IsReady iAdmQueueQuery r io s q c → getPair c.fn (prm c 0 2) s = some p →
      exec (.admQueueQuery r io) s
        = answered q stOk (1 + (if p.fault = 0 then 0 else 2) + p.fault * 256) p.sqHead none s)
    ∧ (∀ o, IsReady iAdmHandleQuery r io s q c → c.obj = some o →
      ((o.st = .live → exec (.admHandleQuery r io) s = answered q stOk (dependants o.ty o.slot s).length 1 none s)
      ∧ (∀ x, o.st = .closing x →
          exec (.admHandleQuery r io) s = answered q stOk (dependants o.ty o.slot s).length 2 none s)
      ∧ (o.st = .orphan → exec (.admHandleQuery r io) s = answered q stOk (dependants o.ty o.slot s).length 3 none s)))
    ∧ (IsReady iAdmEventWait r io s q c →
      (s.link.reqs.filter fun x => x.opcode == 0x000E && x.phase == .running && x.handle == c.q.handle).length < 16 →
      exec (.admEventWait r io) s = goesOn q s)

/-- The queue pair commands create, change, move and delete pairs. For every ready command: ADM_QUEUE_CREATE of an
uncreated number below the function's grant adds, behind the pairs there are, the pair with the bases, depths
(one more than their fields), vector, flags, coalescing, class and weight of PARAM, empty and at phase 1;
ADM_QUEUE_DELETE of a created pair that is not the command's own deletes it and answers the number of its open
requests; ADM_QUEUE_MODIFY of a created pair sets its seven attributes and no other, and of pair 0 the vector
and interrupt enable that QZ_CTRL shows; ADM_QUEUE_GRANT with enough uncreated pairs, none of the n highest
created, takes n from the giver, gives them to the receiver and answers the receiver's new number. Cites: R29,
R30, R43, R94, R95, R96. -/
def Obligations.AdmQueuePairCommandsComplete : Prop :=
  ∀ (r : ReqRef) (io : Io) (s : State) (q : Req) (c : Ctx),
    (IsReady iAdmQueueCreate r io s q c → getPair c.fn (prm c 16 2) s = none → prm c 16 2 < (getFn c.fn s).grant →
      exec (.admQueueCreate r io) s = answered q stOk 0 0 none { s with link.pairs := s.link.pairs ++
        [{ fn := c.fn, qid := prm c 16 2, fault := 0, sqBase := Comp.of (prm c 0 8), cqBase := Comp.of (prm c 8 8)
           sqDepth := prm c 18 2 + 1, cqDepth := prm c 20 2 + 1, vector := prm c 22 2
           intEn := (prm c 27 1).testBit 0, coalCount := prm c 26 1, coalTime := prm c 24 2
           errImm := (prm c 27 1).testBit 1, arbClass := bitsOf (prm c 27 1) 3 2, arbWeight := prm c 28 1
           sqTail := 0, sqHead := 0, cqHead := 0, cqTail := 0, phase := true, owed := false, heldCpl := 0, coalN := 0
           coalAt := none, credit := 0 }] })
    ∧ (IsReady iAdmQueueDelete r io s q c → (getPair c.fn (prm c 0 2) s).isSome →
      c.q.src ≠ .queue c.fn (prm c 0 2) →
      exec (.admQueueDelete r io) s = answered q stOk
        (s.link.reqs.filter (ofPair c.fn (prm c 0 2))).length 0 none (deletePair c.fn (prm c 0 2) s))
    ∧ (IsReady iAdmQueueModify r io s q c → (getPair c.fn (prm c 0 2) s).isSome →
      let t := updPair c.fn (prm c 0 2) (fun p => { p with
        vector := prm c 2 2, coalTime := prm c 4 2, coalCount := prm c 6 1, intEn := (prm c 7 1).testBit 0
        errImm := (prm c 7 1).testBit 1, arbClass := bitsOf (prm c 7 1) 3 2, arbWeight := prm c 8 1 }) s
      (prm c 0 2 ≠ 0 → exec (.admQueueModify r io) s = answered q stOk 0 0 none t)
      ∧ (prm c 0 2 = 0 → exec (.admQueueModify r io) s = answered q stOk 0 0 none
          (updFn c.fn (fun f => { f with vector := prm c 2 2, intEn := (prm c 7 1).testBit 0 }) t)))
    ∧ (IsReady iAdmQueueGrant r io s q c →
      prm c 4 4 + (s.link.pairs.filter fun p => p.fn == prm c 0 1).length ≤ (getFn (prm c 0 1) s).grant →
      (prm c 1 1 = 0 ∨ (getFn (prm c 1 1) s).grant + prm c 4 4 ≤ 4096) →
      (∀ p ∈ s.link.pairs, p.fn = prm c 0 1 → p.qid + prm c 4 4 < (getFn (prm c 0 1) s).grant) →
      let s' := updFn (prm c 0 1) (fun f => { f with grant := (getFn (prm c 0 1) s).grant - prm c 4 4 })
        (updFn (prm c 1 1) (fun f => { f with grant := f.grant + prm c 4 4 }) s)
      exec (.admQueueGrant r io) s = answered q stOk (getFn (prm c 1 1) s').grant 0 none s')

/-- Sessions open, close and adopt; commands are aborted; the warm and domain resets begin. For every ready command:
ADM_SESSION_OPEN without ADMIN, below 1,024 sessions and 256 of its function, adds an object of type 1 and a
session with the tag and HOLD_S of PARAM and answers its slot and generation; with ADMIN and no administrator it
also takes over the device queue; ADM_SESSION_CLOSE marks what it releases as closing and goes on until the
release is due; ADM_SESSION_ADOPT of an orphan gives it and the orphans it depends on to the session and answers
their number; ADM_ABORT of an open request other than itself ends that one with ST_E_ABORTED and answers 0, of
none it answers 1; ADM_RESET_WARM stops fetching, posts its own completion and begins a warm reset, which in
Understudy mode ends that mode; ADM_RESET_DOMAIN of a switched domain in no self-test aborts its work, resets it
and counts a reset of type 4 where the domain is on, and changes nothing where it is off. It also idles the
callboard (log entry 172). Cites: R72, R79, R80, R92, R97, R98, R493, R504. -/
def Obligations.AdmSessionAndResetCommandsComplete : Prop :=
  ∀ (r : ReqRef) (io : Io) (s : State) (q : Req) (c : Ctx),
    (IsReady iAdmSessionOpen r io s q c → countType 1 s < 1024 →
      (s.obj.objs.filter fun o => o.ty == 1 && o.fn == c.fn).length < 256 →
      let n := newObj 1 (2 ^ 32) c.fn none [] false 0 0 s
      let x (admin : Bool) (events : List Event) (lost : Nat) : Session :=
        { slot := n.1, tag := prm c 0 8, holdS := prm c 8 4, admin, close := none, events, lost }
      ((prm c 12 1).testBit 0 = false →
        exec (.admSessionOpen r io) s = answered q stOk n.1 n.2.1 none
          { n.2.2 with obj.sessions := n.2.2.obj.sessions ++ [x false [] 0] })
      ∧ ((prm c 12 1).testBit 0 = true → adminSession s = none →
        exec (.admSessionOpen r io) s = answered q stOk n.1 n.2.1 none
          { n.2.2 with obj := { n.2.2.obj with
              sessions := n.2.2.obj.sessions ++ [x true n.2.2.obj.devEvents n.2.2.obj.devLost], devEvents := [], devLost := 0 } }))
    ∧ (∀ x, IsReady iAdmSessionClose r io s q c → getSession (objSlot c) s = some x →
      let b := beginClose x (prm c 0 1) s
      let closing (o : Obj) : Obj :=
        if hasObj b.1 o || isObj 1 x.slot o then { o with st := .closing (some (reqRef c.q)) } else o
      exec (.admSessionClose r io) s = goesOn q { b.2.2 with obj := { b.2.2.obj with
        objs := b.2.2.obj.objs.map closing
        sessions := updIf (fun y => y.slot == x.slot) (fun y => { y with close := some (reqRef c.q, b.2.1, (b.1.filter fun o => o.ty == 11).length) }) b.2.2.obj.sessions } })
    ∧ (∀ o, IsReady iAdmSessionAdopt r io s q c → adoptArg c s = .ok o → o.st = .orphan →
      let l := withDeps (s.obj.objs.filter fun x => x.st == .orphan) (s.obj.objs.filter fun x => x.st == .orphan).length [o]
      let take (x : Obj) : Obj :=
        if hasObj l x then { x with sess := some (objSlot c), st := .live, holdAt := none } else x
      exec (.admSessionAdopt r io) s
        = answered q stOk l.length 0 none { s with obj.objs := s.obj.objs.map take })
    ∧ (IsReady iAdmAbort r io s q c →
      let t : ReqRef := { src := .queue c.fn (prm c 0 2), cid := prm c 2 2 }
      (∀ x, t ≠ reqRef c.q → findReq t s = some x →
        exec (.admAbort r io) s = answered q stOk 0 0 none (cancel x stAborted s))
      ∧ (t = reqRef c.q ∨ findReq t s = none → exec (.admAbort r io) s = answered q stOk 1 0 none s))
    ∧ (IsReady iAdmResetWarm r io s q c → s.boot.phase = .running →
      exec (.admResetWarm r io) s
        = .next (warmReset 0 (post q stOk 0 0 none { s with link := { s.link with fetchStopped := true } })))
    ∧ (IsReady iAdmResetWarm r io s q c → s.boot.phase = .understudy →
      exec (.admResetWarm r io) s
        = .next (leaveUnderstudy (post q stOk 0 0 none { s with link := { s.link with fetchStopped := true } })))
    ∧ (IsReady iAdmResetDomain r io s q c → prm c 0 1 ≠ 91 → (getDom (prm c 0 1) s).run = none →
      (getDom (prm c 0 1) s).test ≠ 2 →
      (domOn (prm c 0 1) s = true → exec (.admResetDomain r io) s
        = answered q stOk 0 0 none (countReset 4 (resetCommon (abortDomain (prm c 0 1) s))))
      ∧ (domOn (prm c 0 1) s = false → exec (.admResetDomain r io) s = answered q stOk 0 0 none s))

/-- The commands of group 0x0C read, step, slew and configure the time base and set its alarms. For every ready
command: TIME_READ answers the 32-byte record, the time word with source 2 and the host's PTM time where FLAGS
asks for it, else source 1 and zero; TIME_SET with the servo unowned steps by the difference to the time given;
TIME_ADJUST with the servo unowned sets the rate (MODE 0), adds the offset to the slew (1) or steps by it (2);
TIME_PTP_CONFIG, the ports' pads free, stores the settings, counts the timeouts anew from the intervals of the
profile (log entry 219) and selects no master; role 0 stops the servo and ends a holdover; another role,
without an ensemble reference, starts locking but where a holdover goes on, and with transport UDP over IPv6
each port it names sends an MLDv2 report (log entry 26); TIME_ALARM_SET puts the alarm in place of the one
of that number, with CANCEL clears it; TIME_STATUS answers the 64-byte record. The rest of the state stays.
Cites: R141, R143, R144, R146, R147, R156, R157. -/
def Obligations.TimeCommandsComplete : Prop :=
  ∀ (r : ReqRef) (io : Io) (s : State) (q : Req) (c : Ctx),
    (IsReady iTimeRead r io s q c →
      exec (.timeRead r io) s = answered q stOk 0 0
        (some (timeWord { t := s.time.now, tag := if prm c 12 1 = 1 then 2 else 1 }
          ++ leBytes 8 (if prm c 12 1 = 1 then c.io.ptm else 0) ++ zeros 8)) s)
    ∧ (IsReady iTimeSet r io s q c → servoOwned s = false →
      exec (.timeSet r io) s = answered q stOk 0 0 none
        (stepTime ((((prm c 0 8 * 1000000000 + prm c 8 4) * 65536 + prm c 12 2 : Nat) : Int) - s.time.now) s))
    ∧ (IsReady iTimeAdjust r io s q c → servoOwned s = false →
      ((prm c 0 1 = 0 →
        exec (.timeAdjust r io) s = answered q stOk 0 0 none { s with time.rate := signedOf 32 (prm c 4 4) })
      ∧ (prm c 0 1 = 1 → exec (.timeAdjust r io) s = answered q stOk 0 0 none
          { s with time.slew := s.time.slew + signedOf 64 (prm c 8 8) * 65536 * 1000000 })
      ∧ (prm c 0 1 = 2 → exec (.timeAdjust r io) s = answered q stOk 0 0 none
          (stepTime (signedOf 64 (prm c 8 8) * 65536) s))))
    ∧ (IsReady iTimePtpConfig r io s q c → (ptpCfg c).ports = 0 ∨ (getDom 92 s).pads = false →
      let t : TimeBase := { s.time with
        ptp := ptpCfg c, good := 0, slavePort := none, annAt := s.time.mono, syncAt := s.time.mono
        annIv := if prm c 1 1 = 1 then 1000000000 else 2000000000, syncIv := if prm c 1 1 = 1 then 125000000 else 1000000000 }
      (prm c 0 1 = 0 → s.time.servo ≠ 3 →
        exec (.timePtpConfig r io) s = answered q stOk 0 0 none { s with time := { t with servo := 0 } })
      ∧ (∀ h, prm c 0 1 = 0 → s.time.servo = 3 → s.time.holdAt = some h →
        exec (.timePtpConfig r io) s = answered q stOk 0 0 none
          (raise 0x0C03 ((s.time.mono - h) / msT) none { s with time := { t with servo := 0, holdAt := none } }))
      ∧ (prm c 0 1 ≠ 0 → followsMember s = false →
          let s' : State := { s with time := { t with servo := if s.time.servo = 3 then 3 else 1 } }
          exec (.timePtpConfig r io) s = answered q stOk 0 0 none (if prm c 3 1 = 2 then
            ((List.range 4).filter (prm c 2 1).testBit).foldl (fun s i => emit (.eth i "MLDv2" []) s) s' else s')))
    ∧ (IsReady iTimeAlarmSet r io s q c →
      (((prm c 1 1).testBit 1 = true → exec (.timeAlarmSet r io) s = answered q stOk 0 0 none
          { s with time.alarms := s.time.alarms.filter fun a => !(a.n == prm c 0 1) })
      ∧ ((prm c 1 1).testBit 1 = false → exec (.timeAlarmSet r io) s = answered q stOk 0 0 none
          { s with time.alarms := { n := prm c 0 1, t := (prm c 8 8 * 1000000000 + prm c 16 4) * 65536
                                    wake := (prm c 1 1).testBit 0, sess := objSlot c, gen := c.obj.elim 0 (·.gen) }
              :: s.time.alarms.filter fun a => !(a.n == prm c 0 1) })))
    ∧ (IsReady iTimeStatus r io s q c →
      exec (.timeStatus r io) s = answered q stOk 0 0 (some (timeStatusBytes s)) s)

/-- A step raises event 0x0C04 with its nanoseconds, is counted, and shifts every reference by the same amount. For
every state s and step d (2^-16 ns) that does not take the time below zero, the stepped state is that in which
the stepped time is moved by d, the count of steps is one higher, the reference of every stream and low-rate
channel is shifted by d, every stream's next descriptor sets TIME_STEPPED, and event 0x0C04 is raised without a
source object; its detail is the step in signed nanoseconds, for every step of whole nanoseconds that its 48
bits hold. The step-free count, which all deadlines count on, and every open request stay as they are. Cites:
R142. -/
def Obligations.StepMovesReferencesAndNoDeadline : Prop :=
  ∀ (d : Int) (s : State), 0 ≤ (s.time.now : Int) + d →
    let shift (r : StreamRef) : StreamRef := { r with o := r.o + d }
    let s' : State := { s with
      time := { s.time with now := ((s.time.now : Int) + d).toNat, steps := s.time.steps + 1 }
      sens := { s.sens with
        streams := s.sens.streams.map fun x => { x with ref := x.ref.map shift, stepped := true }
        lows := s.sens.lows.map fun x => { x with ref := x.ref.map shift } } }
    (∃ detail, stepTime d s = raise 0x0C04 detail none s')
    ∧ (∀ n : Int, d = n * 65536 → -(2 ^ 47) ≤ n → n < 2 ^ 47 → stepTime d s = raise 0x0C04 (codeOf 48 n) none s')
    ∧ (stepTime d s).time.mono = s.time.mono ∧ (stepTime d s).link.reqs = s.link.reqs

/-- Master timeout, slew end, PTP transmission and a falling alarm have their effects. PTP_MASTER_TIMEOUT with the
servo locking or locked, and no Announce or no Sync for the intervals of R145, enters holdover at this instant,
selects no master and raises event 0x0C02; SLEW_ABSORBED with at most one nanosecond's quantum left gives the
rest to the next nanosecond and clears the slew; PTP_TRANSMIT_INTERVAL on a live port that the configuration
names sends a Sync, with its timestamp, or an Announce where the clock is master (log entries 218,
220), a Delay_Req where its master is, and with peer-to-peer delay a Pdelay_Req; TIME_ALARM_FIRE of a set
alarm whose instant has come clears it and raises event 0x0C05 to its session, and one set with WAKE is also
wake source 3; an alarm whose instant has not come, or that is not set, changes nothing. Cites: R124, R141,
R144, R145, R146, R157, R483. -/
def Obligations.TimeEventsComplete : Prop :=
  ∀ (s : State),
    (s.time.ptp.role ≠ 0 → s.time.servo = 1 ∨ s.time.servo = 2 →
      s.time.annAt + s.time.ptp.annTimeout * s.time.annIv * 65536 ≤ s.time.mono
        ∨ s.time.syncAt + 3 * s.time.syncIv * 65536 ≤ s.time.mono →
      exec .ptpMasterTimeout s = .next (settle (raise 0x0C02 0 none
        { s with time := { s.time with servo := 3, holdAt := some s.time.mono, good := 0, slavePort := none } })))
    ∧ (s.time.slew ≠ 0 → s.time.slew.natAbs ≤ 32768000 →
      exec .slewAbsorbed s = .next { s with time := { s.time with frac := s.time.frac + s.time.slew, slew := 0 } })
    ∧ (∀ port, ethLive port s = true → ptpOn port s = true →
      (s.time.ptp.role = 2 ∧ s.time.slavePort = none ∨ s.time.ptp.role = 3 ∧ s.time.slavePort ≠ some port →
        exec (.ptpTransmitInterval port .sync) s
          = .next (emit (.eth port "Sync" (timeWord { t := s.time.now, tag := 0x2000 + port })) s)
        ∧ exec (.ptpTransmitInterval port .announce) s = .next (emit (.eth port "Announce" []) s))
      ∧ (s.time.slavePort = some port → s.time.ptp.delay = 0 →
        exec (.ptpTransmitInterval port .delayReq) s = .next (emit (.eth port "Delay_Req" []) s))
      ∧ (s.time.ptp.delay = 1 → exec (.ptpTransmitInterval port .pdelayReq) s = .next (emit (.eth port "Pdelay_Req" []) s)))
    ∧ (∀ n a, (s.time.alarms.find? fun a => a.n == n) = some a →
      (a.t ≤ s.time.now → exec (.timeAlarmFire n) s
        = .next (settle (if a.wake then wake 3 false (alarmFall a s) else alarmFall a s)))
      ∧ (s.time.now < a.t → exec (.timeAlarmFire n) s = .next s))
    ∧ (∀ n, (s.time.alarms.find? fun a => a.n == n) = none → exec (.timeAlarmFire n) s = .next s)

/-- In one nanosecond both counts of the time base advance by the present rate. For every state whose set rate lies
within 500 ppm, whose sleep clock's error lies within 50 ppm and whose kept fraction of a unit lies between 0
and 1: one tick advances the stepped time, where it runs, and the step-free count by the same number of 2^-16 ns
units, between 65,467 and 65,605, and takes from the slew at most 500 ppm of a nanosecond, towards zero and
never past it. Time never moves backwards (the length of a tick, the count that goes on while the time base
stands still and the error are the model's choices, log entries 1, 221 and 284). Cites: R141,
R143. -/
def Obligations.TickAdvancesBothCounts : Prop :=
  ∀ (s : State), s.time.rate.natAbs ≤ 32768000 → s.time.sleepErr.natAbs ≤ 3276800 → 0 ≤ s.time.frac → s.time.frac < 1000000 →
    ∃ n : Nat, 65467 ≤ n ∧ n ≤ 65605
      ∧ (timeRuns s = true → (tick s).time.now = s.time.now + n) ∧ (timeRuns s = false → (tick s).time.now = s.time.now)
      ∧ (tick s).time.mono = s.time.mono + n
      ∧ 0 ≤ (tick s).time.frac ∧ (tick s).time.frac < 1000000
      ∧ (tick s).time.slew.natAbs ≤ s.time.slew.natAbs
      ∧ s.time.slew.natAbs ≤ (tick s).time.slew.natAbs + 32768000
      ∧ 0 ≤ (tick s).time.slew * s.time.slew

/-- Streams open, start, stop, report, change their window and give frames back. For every ready command:
STREAM_OPEN of a stream (KIND 0 to 2) that meets the class, port, limit, rate, quota and tier checks adds an
object of type 2 charged with its ring and a stopped stream with the settings of PARAM, and answers slot and
generation; of a low-rate channel (KIND 3 or 4) below 128 it adds a stopped channel and answers its number; on a
stream the handle names: STREAM_START of a stopped one whose pads are free starts it with no reference and
synchronised; STREAM_STOP of a started one clears started and reference, lets a frame in progress complete and
answers the number of the last frame that started (log entry 217); STREAM_SET_WINDOW whose rate sums
hold takes the new period at the next unit and re-bases on REBASE or a changed CSI-2 period; STREAM_CLOSE
without dependants marks it closing and goes on; STREAM_FRAME_RELEASE of a held buffer frees it unless a started
sheet binds the stream; STREAM_QUERY answers the 64-byte record of the stream or channel. Slot, generation and
channel numbers are free values (log entry 11); the excess of a rate is rounded up (log entry 211).
Cites: R112, R115, R118, R136, R153, R154, R155, R583. -/
def Obligations.StreamCommandsComplete : Prop :=
  ∀ (r : ReqRef) (io : Io) (s : State) (q : Req) (c : Ctx),
    (IsReady iStreamOpen r io s q c → classUsed (openArgs c) s = false → portDiffers (openArgs c) s = false →
      let a := openArgs c
      let n := a.ring * ringBuf a.width a.height a.format
      (a.kind < 3 → (getQuota c.fn 1 s).used.ok = true → countType 2 s < 128 →
        rateCheck (s.sens.streams.map rateOf
            ++ [{ kind := a.kind, port := a.port, area := a.width * a.height, format := a.format, period := a.period }])
          (if a.kind = 0 then some (a.port, a.phy.testBit 0, a.laneRate) else none) = .ok () →
        quotaOver c.fn 1 n s = 0 → n ≤ stackedFree s →
        let w := newObj 2 (2 ^ 32) c.fn c.sess (if a.cal = 0 then [] else [(14, a.cal % 2 ^ 32)]) false 0 n s
        let s1 := charge c.fn 1 n w.2.2
        exec (.streamOpen r io) s = answered q stOk w.1 w.2.1 none { s1 with sens := { s1.sens with
          streams := s1.sens.streams ++ [newStream w.1 a]
          csi := if a.kind = 0 ∧ !(s1.sens.csi.any fun p => p.port == a.port) then
              s1.sens.csi ++ [{ port := a.port, cphy := a.phy.testBit 0, scramble := a.phy.testBit 1, rate := a.laneRate }]
            else s1.sens.csi } })
      ∧ (3 ≤ a.kind → s.sens.lows.length < 128 →
        let used := s.sens.lows.map (·.ch)
        let x := Config.freeNat s.fresh % 128
        let ch := if used.contains x then firstFree used else x
        exec (.streamOpen r io) s = answered q stOk ch 0 none
          { s with fresh := s.fresh + 1, sens.lows := s.sens.lows ++ [newLow ch (c.sess.getD 0) a] }))
    ∧ (∀ x, target c s = .ok (.stream x) →
      (IsReady iStreamStart r io s q c → x.started = false → (getDom (portDomain x.kind x.port) s).pads = false →
        exec (.streamStart r io) s = answered q stOk 0 0 none (updStream x.slot (fun x => { x with
          started := true, stopping := false, ref := none, rebase := false, desync := false, good := 0 }) s))
      ∧ (IsReady iStreamStop r io s q c → x.started = true →
        exec (.streamStop r io) s = answered q stOk x.frameExt 0 none (updStream x.slot (fun x => { x with
          started := false, stopping := (claimedBuf x).isSome, ref := none, rebase := false }) s))
      ∧ (IsReady iStreamSetWindow r io s q c →
        rateCheck ((s.sens.streams.filter fun y => !(y.slot == x.slot)).map rateOf ++ [{ rateOf x with period := prm c 0 4 }])
          (if x.kind = 0 then some (x.port, x.phy.testBit 0, x.laneRate) else none) = .ok () →
        exec (.streamSetWindow r io) s = answered q stOk 0 0 none (updStream x.slot (fun y => { y with
          newPeriod := some (prm c 0 4)
          rebase := y.rebase || (prm c 4 1 == 1 || (x.kind == 0 && prm c 0 4 != ratePeriod x)) }) s))
      ∧ (∀ o, IsReady iStreamClose r io s q c → c.obj = some o → dependants o.ty o.slot s = [] →
        exec (.streamClose r io) s
          = goesOn q (updObj o.ty o.slot (fun y => { y with st := .closing (some (reqRef c.q)) }) s)))
    ∧ (∀ x f, IsReady iStreamFrameRelease r io s q c → getStream (objSlot c) s = some x →
      x.ring[prm c 0 1]? = some (.held f) →
      (s.sheets.any fun sh => sh.started && sh.streams.contains (objSlot c)) = false →
      exec (.streamFrameRelease r io) s = answered q stOk 0 0 none (updStream (objSlot c) (fun y => { y with
        ring := y.ring.modify (prm c 0 1) fun b => if b.isHeld then .free else b }) s))
    ∧ (∀ t, IsReady iStreamQuery r io s q c → target c s = .ok t →
      exec (.streamQuery r io) s = answered q stOk 0 0 (some (queryRecord t)) s)

/-- Low-rate channels start, stop, change and close; encoder inputs count, latch and sample. For every ready command
on a low-rate channel that its session holds: STREAM_START of a stopped one whose pads are free starts it
synchronised and without a reference; STREAM_STOP of a started one clears its reference; STREAM_SET_WINDOW
stores the new period of an encoder channel and REBASE; STREAM_CLOSE frees it at once. With the filter chain's
domain on and its pads free: ENC_EDGE by a pulse of 20 ns or more moves the input by its quadrature step (one
count up or down, which of them is free, log entry 14, wrapping at 32 bits, a double transition counts as
illegal), and ENC_INDEX latches the count; a pulse below 10 ns changes nothing and one between is taken or not
(log entry 209); ENC_SAMPLE of a started channel of that input, its period passed since the last sample,
appends one record with the count, the latch and the flags of index, illegal transition and gap, and clears the
seen flags. Before that, or with the domain off or the pads held, nothing changes. Cites: R114, R130, R135,
R138, R153, R154, R155. -/
def Obligations.LowRateAndEncoderComplete : Prop :=
  ∀ (r : ReqRef) (io : Io) (s : State) (q : Req) (c : Ctx),
    (∀ x, target c s = .ok (.low x) →
      (IsReady iStreamStart r io s q c → x.started = false → (getDom (portDomain x.kind x.port) s).pads = false →
        exec (.streamStart r io) s = answered q stOk 0 0 none (updLow x.ch (fun x => { x with
          started := true, ref := none, rebase := false, desync := false, good := 0, lastSeq := none }) s))
      ∧ (IsReady iStreamStop r io s q c → x.started = true →
        exec (.streamStop r io) s = answered q stOk 0 0 none
          (updLow x.ch (fun x => { x with started := false, ref := none, rebase := false }) s))
      ∧ (IsReady iStreamSetWindow r io s q c →
        exec (.streamSetWindow r io) s = answered q stOk 0 0 none (updLow x.ch (fun y => { y with
          newPeriod := if y.kind = 3 then none else some (prm c 0 4), rebase := y.rebase || prm c 4 1 == 1 }) s))
      ∧ (IsReady iStreamClose r io s q c →
        exec (.streamClose r io) s = answered q stOk 0 0 none
          { s with sens.lows := s.sens.lows.filter fun y => !(y.ch == x.ch) }))
    ∧ (∀ (n ns : Nat) (a b : Bool),
      (ns < 10 → exec (.encEdge n a b ns) s = .next s ∧ exec (.encIndex n ns) s = .next s)
      ∧ (10 ≤ ns → ns < 20 →
        exec (.encEdge n a b ns) s = (if (draw s).1 % 2 = 0 then .next (draw s).2 else exec (.encEdge n a b 20) (draw s).2)
        ∧ exec (.encIndex n ns) s = (if (draw s).1 % 2 = 0 then .next (draw s).2 else exec (.encIndex n 20) (draw s).2)))
    ∧ (∀ (n ns : Nat) (a b : Bool), encLive s = true →
      (20 ≤ ns → exec (.encEdge n a b ns) s = .next (updEnc n (encMove a b) s)
        ∧ exec (.encIndex n ns) s = .next (updEnc n (fun e => { e with latched := e.count, indexSeen := true }) s))
      ∧ (∀ x e, (s.sens.lows.find? fun x => x.kind == 4 && x.port == n && x.started) = some x →
        (s.sens.encs.find? fun e => e.n == n) = some e →
        (∀ t, x.sampledAt = some t → s.time.mono < t + x.period * 65536 → exec (.encSample n) s = .next s)
        ∧ ((∀ t, x.sampledAt = some t → t + x.period * 65536 ≤ s.time.mono) → exec (.encSample n) s = .next (updEnc e.n (fun e => { e with indexSeen := false, illegalSeen := false })
          (updLow x.ch (fun y => pushLow
            { stamp := { t := s.time.now, tag := 0x4000 + e.n }, value := e.count, desync := false
              flags := (if e.indexSeen then 1 else 0) + (if e.illegalSeen then 2 else 0) + (if x.gap then 4 else 0)
              latched := e.latched }
            { y with
              period := y.newPeriod.getD y.period, newPeriod := none, rebase := false, gap := false
              sampledAt := some s.time.mono }) s)))))
    ∧ (∀ (n ns : Nat) (a b : Bool), encLive s = false →
      (20 ≤ ns → exec (.encEdge n a b ns) s = .next s ∧ exec (.encIndex n ns) s = .next s) ∧ exec (.encSample n) s = .next s)
    ∧ (∀ (a b : Bool) (e : Enc), (encMove a b e).a = a ∧ (encMove a b e).b = b
      ∧ ((e.a ≠ a ∧ e.b ≠ b) → (encMove a b e).count = e.count ∧ (encMove a b e).illegal = e.illegal + 1
          ∧ (encMove a b e).illegalSeen = true)
      ∧ ((e.a = a ↔ e.b ≠ b) → (encMove a b e).illegal = e.illegal
          ∧ ((encMove a b e).count = wrap32 (e.count + 1) ∨ (encMove a b e).count = wrap32 (e.count - 1))))

/-- CSI-2 frame starts, lines and frame ends on a live port act on the stream of their virtual channel. On a port
whose half is on and whose pads are free: without an open stream on the virtual channel a frame start, a packet
and a frame end count reason 4; a packet whose header ECC is lost counts reason 1 and nothing more, one
corrected reason 0 and goes on as a clean one. With a stream: a frame start finding no frame in progress starts
a frame (a stopped stream starts none), one finding a frame in progress first ends it as incomplete; a packet
counts embedded data (0x12) as reason 2, another data type than the stream's as reason 3 (log entry
212), ignores line start and end packets, and puts a line of the stream's type into the frame in
progress, without one it is ignored; a frame end ends the frame in progress. On a port that is not live nothing
changes. Cites: R119, R120, R137, R472. -/
def Obligations.CsiReceptionComplete : Prop :=
  ∀ (port vc n : Nat) (p : CsiPacket) (s : State),
    let s1 := if p.ecc = .corrected then countPort 0 port s else s
    (csiLive port s = false →
      exec (.csiFrameStart port vc n) s = .next s ∧ exec (.csiPacket port vc p) s = .next s
      ∧ exec (.csiFrameEnd port vc) s = .next s)
    ∧ (csiLive port s = true → csiStream port vc s = none →
      exec (.csiFrameStart port vc n) s = .next (countPort 4 port s)
      ∧ (p.ecc ≠ .lost → exec (.csiPacket port vc p) s = .next (countPort 4 port s1))
      ∧ exec (.csiFrameEnd port vc) s = .next (countPort 4 port s))
    ∧ (csiLive port s = true → p.ecc = .lost → exec (.csiPacket port vc p) s = .next (countPort 1 port s))
    ∧ (∀ x, csiLive port s = true → csiStream port vc s = some x →
      (claimedBuf x = none → x.started = true → exec (.csiFrameStart port vc n) s
        = .next (settle (startFrame x (0x1000 + port * 32 + vc) (extendNumber x.frameExt n) none 0 [] s)))
      ∧ (claimedBuf x = none → x.started = false → exec (.csiFrameStart port vc n) s = .next (settle s))
      ∧ (∀ y, (claimedBuf x).isSome → csiStream port vc (endFrame x.slot true s) = some y → y.started = true →
        exec (.csiFrameStart port vc n) s = .next (settle (startFrame y (0x1000 + port * 32 + vc)
          (extendNumber y.frameExt n) none 0 [] (endFrame x.slot true s))))
      ∧ (p.ecc ≠ .lost → p.dt = 0x12 → exec (.csiPacket port vc p) s = .next (countPort 2 port s1))
      ∧ (p.ecc ≠ .lost → p.dt = 2 ∨ p.dt = 3 → exec (.csiPacket port vc p) s = .next s1)
      ∧ (p.ecc ≠ .lost → p.dt ≠ 2 → p.dt ≠ 3 → p.dt ≠ 0x12 → p.dt ≠ csiType x.format x.dt →
        exec (.csiPacket port vc p) s = .next (countPort 3 port s1))
      ∧ (p.ecc ≠ .lost → p.dt = csiType x.format x.dt → p.dt ≠ 2 → p.dt ≠ 3 → p.dt ≠ 0x12 →
        ((claimedBuf x).isSome → exec (.csiPacket port vc p) s
          = .next (settle (cueFrameMoved x.slot (updFrame x.slot (putLine x.width x.height p) s1))))
        ∧ (claimedBuf x = none → exec (.csiPacket port vc p) s = .next s1))
      ∧ exec (.csiFrameEnd port vc) s = .next (settle (endFrame x.slot false s)))

/-- A frame start claims the lowest free buffer, which its end holds; without one the frame is dropped and counted.
For every stream record x of slot n, tag, number k, sensor time and state: with no free buffer the frame start
leaves every buffer of every ring as it is, adds one to the stream's dropped count and raises event 0x0103 with
the number of drops of the last second, but where that event of the stream was raised within that second; with a
free buffer the first free one is claimed. The end of the frame in progress turns its buffer from claimed into
held, unless the cue engine has released it. A buffer leaves the held form only by STREAM_FRAME_RELEASE or by
the cue engine's release (freeBuf), which turn it free: freeBuf of a held buffer frees it and leaves a free or
claimed one as it is. Cites: R137. -/
def Obligations.FrameStartClaimsABufferOrDropsTheFrame : Prop :=
  (∀ (x : Machine.Stream) (tag k : Nat) (sensor : Option Int) (g : Nat) (rows : List (List Nat)) (s : State),
    freeRing x = none →
    startFrame x tag k sensor g rows s
      = raiseOnce 0x0103 (2, x.slot) (fun n => n)
          (updStream x.slot (fun y => { y with frameExt := k, dropped := y.dropped + 1 }) (takeCal x.slot s)))
  ∧ (∀ (x : Machine.Stream) (tag k b : Nat) (sensor : Option Int) (g : Nat) (rows : List (List Nat)) (s : State),
    freeRing x = some b →
    ∃ f : Frame, f.number = k ∧ f.stamp = stampNow tag s ∧ f.rows = rows
      ∧ startFrame x tag k sensor g rows s = cueFrameStart x.slot b (stampNow tag s) k
          (judgeEvent x.slot (judgeUnit x s.time.now k sensor) k (takeCal x.slot
            (updStream x.slot (fun _ => { (judgeUnit x s.time.now k sensor).x with
              frameExt := k, ring := (judgeUnit x s.time.now k sensor).x.ring.set b (.claimed f) }) s))))
  ∧ (∀ (n : Nat) (s : State),
    let k := (0x0103, 2, (handleOf 2 n s).toNat)
    (∀ p, ageMark k s = some p → s.time.mono < p.1 + secT →
      ∃ marks, raiseOnce 0x0103 (2, n) (fun d => d) s = { s with obj.ageMarks := marks })
    ∧ ((∀ p, ageMark k s = some p → p.1 + secT ≤ s.time.mono) →
      let now := 1 + ((ageMark k s).elim 0 fun p => (p.2.filter fun t => decide (s.time.mono < t + secT)).length)
      ∃ marks, raiseOnce 0x0103 (2, n) (fun d => d) s = raise 0x0103 now (some (2, n)) { s with obj.ageMarks := marks }))
  ∧ (∀ (x : Machine.Stream) (b : Nat) (f : Frame) (inc : Bool) (s : State), getStream x.slot s = some x →
    claimedBuf x = some (b, f) → x.relEnd.contains b = false →
    ∃ g : Frame, g.number = f.number ∧ g.stamp = f.stamp ∧ g.rows.take f.rows.length = f.rows
      ∧ endFrame x.slot inc s = cueFrameMoved x.slot (updStream x.slot (fun y => { y with
          ring := y.ring.set b (.held g), relEnd := y.relEnd.filter (· != b), stepped := false, stopping := false
          delivered := y.delivered + 1, incomplete := y.incomplete + (if g.incomplete then 1 else 0)
          desynced := y.desynced + (if g.desync then 1 else 0) }) s))
  ∧ (∀ (n b : Nat) (s : State), freeBuf n b s = updStream n (fun x => { x with
      ring := x.ring.modify b fun u => match u with
        | .held _ => .free
        | .claimed f => .claimed f
        | .free => .free }) s)

/-- A unit outside the window desynchronises; the 30th consecutive unit within half of it synchronises again. For
every divergence e and window w: a synchronised stream stays so and raises nothing while e is at most w, and is
desynchronised with event 0x0101 when e exceeds w; a desynchronised one counts a unit with e at most w/2 and
starts its count again at any other, and exactly when the count reaches 30 it is synchronised with event 0x0102.
Over units that all lie within half the window, a stream desynchronised with count 0 is desynchronised after
each of the first 29 and synchronised after the 30th. Cites: R149, R150. -/
def Obligations.AlignmentJudgesEachUnit : Prop :=
  (∀ (good e w : Nat), judge false good e w = if w < e then (true, 0, some 0x0101) else (false, good, none))
  ∧ (∀ (good e w : Nat), w < 2 * e → judge true good e w = (true, 0, none))
  ∧ (∀ (good e w : Nat), 2 * e ≤ w → good + 1 ≠ 30 → judge true good e w = (true, good + 1, none))
  ∧ (∀ (e w : Nat), 2 * e ≤ w → judge true 29 e w = (false, 30, some 0x0102))
  ∧ (∀ (es : List Nat) (w : Nat), (∀ e ∈ es, 2 * e ≤ w) → es.length ≤ 30 →
      (es.foldl (fun (st : Bool × Nat) e => ((judge st.1 st.2 e w).1, (judge st.1 st.2 e w).2.1)) (true, 0))
        = (decide (es.length < 30), es.length))

/-- A received Ethernet frame is dropped, answered, given to the servo or put into its stream. On a live Ethernet
port: a frame above 9,000 bytes or with more than one VLAN tag counts reason 7; an unknown protocol counts
reason 8; a PTP message of the configured port, transport, profile and domain reaches the servo and another
counts reason 8; an ARP or ICMP echo request for the port's IPv4 address, and a neighbour solicitation or ICMPv6
echo for its link-local one, is answered, ARP and solicitations with the port's MAC address, one for another
address counts reason 8; a UDP datagram goes to the GVSP stream of its port and destination while that takes
packets (one that is no GVSP counts reason 8), else as a Svetveora Sensor Frame to the streams and channels of
its port and destination, and with neither it counts reason 4. A datagram that fails a header condition of R129
counts that condition's reason and changes nothing else. On a port that is not live nothing changes. Cites:
R123, R124, R125, R127, R129, R144. -/
def Obligations.EthernetReceptionComplete : Prop :=
  ∀ (port : Nat) (f : EthFrame) (s : State),
    (ethLive port s = false → exec (.ethFrameReceived port f) s = .next s)
    ∧ (ethLive port s = true →
      ((9000 < f.len ∨ 1 < f.vlans) → exec (.ethFrameReceived port f) s = .next (ethDrop 7 port s))
      ∧ (f.len ≤ 9000 → f.vlans ≤ 1 →
        (f.body = .other → exec (.ethFrameReceived port f) s = .next (settle (ethDrop 8 port s)))
        ∧ (∀ tr pf d m, f.body = .ptp tr pf d m → exec (.ethFrameReceived port f) s
            = .next (settle (if ptpOn port s && tr == s.time.ptp.transport && pf == s.time.ptp.profile && d == s.time.ptp.domain then
                ptpMessage port m s else ethDrop 8 port s)))
        ∧ (let mac := (leBytes 6 (s.sec.macBase + port)).reverse
           let dropped : Host.Outcome State Fault Refusal := .next (settle (ethDrop 8 port s))
           (∀ ip, f.body = .ask (.arp ip) →
             (ip ≠ 0 → natAt s.time.ptp.ips port = ip →
               exec (.ethFrameReceived port f) s = .next (settle (emit (.eth port "ARP reply" mac) s)))
             ∧ (ip = 0 ∨ natAt s.time.ptp.ips port ≠ ip → exec (.ethFrameReceived port f) s = dropped))
           ∧ (∀ ip bs, f.body = .ask (.icmpEcho ip bs) →
             (ip ≠ 0 → natAt s.time.ptp.ips port = ip →
               exec (.ethFrameReceived port f) s = .next (settle (emit (.eth port "ICMP echo reply" bs) s)))
             ∧ (ip = 0 ∨ natAt s.time.ptp.ips port ≠ ip → exec (.ethFrameReceived port f) s = dropped))
           ∧ (f.body = .ask (.neighborSolicitation true) →
             exec (.ethFrameReceived port f) s = .next (settle (emit (.eth port "Neighbor Advertisement" mac) s)))
           ∧ (∀ bs, f.body = .ask (.icmp6Echo true bs) →
             exec (.ethFrameReceived port f) s = .next (settle (emit (.eth port "ICMPv6 echo reply" bs) s)))
           ∧ (f.body = .ask (.neighborSolicitation false) → exec (.ethFrameReceived port f) s = dropped)
           ∧ (∀ bs, f.body = .ask (.icmp6Echo false bs) → exec (.ethFrameReceived port f) s = dropped))
        ∧ (∀ dst bs g x, f.body = .udp dst bs g →
            (s.sens.streams.find? fun x => x.kind == 1 && x.port == port && x.udp == dst) = some x →
            (∀ p, g = some p → x.started = true ∨ x.stopping = true →
              exec (.ethFrameReceived port f) s = .next (settle (gvspPacket port x p s)))
            ∧ (∀ p, g = some p → x.started = false → x.stopping = false → exec (.ethFrameReceived port f) s = .next (settle s))
            ∧ (g = none → exec (.ethFrameReceived port f) s = .next (settle (ethDrop 8 port s))))
        ∧ (∀ dst bs g, f.body = .udp dst bs g →
            (s.sens.streams.find? fun x => x.kind == 1 && x.port == port && x.udp == dst) = none →
            (((s.sens.streams.any fun x => x.kind == 2 && x.port == port && x.udp == dst)
                || s.sens.lows.any fun x => x.kind == 3 && x.port == port && x.udp == dst) = true →
              exec (.ethFrameReceived port f) s = .next (settle (ssfDatagram port dst bs s))
              ∧ (∀ why, 24 ≤ bs.length → ssfBad bs = some why →
                  exec (.ethFrameReceived port f) s = .next (settle (ethDrop why port s))))
            ∧ (((s.sens.streams.any fun x => x.kind == 2 && x.port == port && x.udp == dst)
                || s.sens.lows.any fun x => x.kind == 3 && x.port == port && x.udp == dst) = false →
              exec (.ethFrameReceived port f) s = .next (settle (ethDrop 4 port s))))))

/-- Filter channels open, load, swap, fade, change phase and freeze, report their delay and close. For every ready
command: FILT_OPEN that meets the word, channel, chip select, rate, quota and tier checks adds an object of type
3 charged with its output ring and a new channel with empty banks (bank B presented as active, so that bank A is
loaded first), and the chip select's settings if they are new; FILT_LOAD_BANK of the idle bank outside a fade
stores the bank made of its coefficients; FILT_SWAP and FILT_CROSSFADE of a loaded idle bank, nothing pending
and the MAC load held, wait for their swap or start point; FILT_SET_PHASE and FILT_DC_FREEZE (with a DC stage)
take effect at the next input; FILT_DELAY_QUERY answers the 64-byte record; FILT_CLOSE without dependants marks
the channel closing and goes on. Cites: R160, R161, R169, R170, R171, R172, R173, R176, R177, R182, R183. -/
def Obligations.FilterCommandsComplete : Prop :=
  ∀ (r : ReqRef) (io : Io) (s : State) (q : Req) (c : Ctx),
    (∀ ch, IsReady iFiltOpen r io s q c → (getQuota c.fn 1 s).used.ok = true →
      ((chansOf (prm c 1 1) (prm c 2 1) s).any fun k => k.word == prm c 3 1) = false →
      getChan (prm c 0 1) s = none →
      (∀ y, getSel (prm c 1 1) (prm c 2 1) s = some y →
        y.mode = prm c 4 1 ∧ y.words = prm c 5 1 ∧ y.sclk = prm c 6 2 ∧ y.period = prm c 8 4) →
      (getDom 90 s).pads = false → pickChan (prm c 0 1) s = some ch →
      excess ((prm c 8 4 :: s.filt.chans.map (·.period)).map fun p => (1000000000, p)) 64000000 1 1 = 0 →
      quotaOver c.fn 1 (2 ^ prm c 17 1 * 32) s = 0 → 2 ^ prm c 17 1 * 32 ≤ stackedFree s →
      let w := addObj 3 ch c.fn c.sess (if prm c 24 8 = 0 then [] else [(14, prm c 24 4)]) false 0 (2 ^ prm c 17 1 * 32) s
      let s1 := charge c.fn 1 (2 ^ prm c 17 1 * 32) w.2
      exec (.filtOpen r io) s = answered q stOk ch w.1 none { s1 with filt := { s1.filt with
        chans := s1.filt.chans ++ [newChan ch s.filt.strobes c]
        sels := if (getSel (prm c 1 1) (prm c 2 1) s1).isSome then s1.filt.sels else s1.filt.sels ++ [openSel c] } })
    ∧ (∀ x, chanOf c s = .ok x →
      (∀ h, IsReady iFiltLoadBank r io s q c →
        coeffs (prm c 2 2) (if c.q.pref || c.q.cbdata then c.pay else c.q.param.drop 4) = some h →
        prm c 0 1 ≠ x.active → x.fade = none →
        exec (.filtLoadBank r io) s = answered q stOk 0 (mkBank h).cls none (updChan x.slot (fun x =>
          if prm c 0 1 = 0 then { x with bankA := some (mkBank h) } else { x with bankB := some (mkBank h) }) s))
      ∧ (IsReady iFiltSwap r io s q c → x.fade = none → x.pend = none → (bankOf x (otherBank x)).isSome →
        macCheck x (tapsOf (bankOf x (otherBank x))) s = .ok () →
        exec (.filtSwap r io) s = goesOn q (updChan x.slot (fun x =>
          { x with pend := some { req := reqRef c.q, at' := swapAt c, fade := 0 } }) s))
      ∧ (IsReady iFiltCrossfade r io s q c → x.fade = none → x.pend = none → x.swapped = true →
        (bankOf x (otherBank x)).isSome → macCheck x (tapsOf x.bankA + tapsOf x.bankB) s = .ok () →
        exec (.filtCrossfade r io) s = goesOn q (updChan x.slot (fun x =>
          { x with pend := some { req := reqRef c.q, at' := swapAt c, fade := prm c 12 2 } }) s))
      ∧ (IsReady iFiltDcFreeze r io s q c → x.dcShift ≠ 0 →
        exec (.filtDcFreeze r io) s = answered q stOk 0 0 none
          (updChan x.slot (fun x => { x with newFreeze := x.newFreeze ++ [(prm c 0 1, dcEstimate c)] }) s))
      ∧ (IsReady iFiltDelayQuery r io s q c →
        exec (.filtDelayQuery r io) s = answered q stOk 0 0 (some (delayRecord x (txnNs x s))) s))
    ∧ (IsReady iFiltSetPhase r io s q c →
      exec (.filtSetPhase r io) s = answered q stOk 0 0 none
        (updChan (objSlot c) (fun x => { x with newPhase := some (prm c 0 2) }) s))
    ∧ (∀ o, IsReady iFiltClose r io s q c → c.obj = some o → dependants o.ty o.slot s = [] →
      exec (.filtClose r io) s = goesOn q (updObj o.ty o.slot (fun y => { y with st := .closing (some (reqRef c.q)) }) s))

/-- Strobes start or queue transactions, whose words feed the channels; gaps are filled with held copies. With the
filter chain's domain on and its pads free, for a chip select in use: SPI_CNV_STROBE of one with a driven
strobe, its period passed since the last, and SPI_DRDY_EDGE by a pulse of 20 ns or more on one with a data-ready
input (after its stalled channels resume; a pulse below 10 ns changes nothing, one between is taken or not, log
entry 209), give a numbered strobe at this instant: a free controller starts a transaction, a busy one
queues the stamp; SPI_TRANSACTION_DONE of a running transaction frees the controller, feeds word w,
sign-extended from the word width, to the channel of word w if it was open at the strobe, and starts the oldest
queued strobe; SPI_DRDY_GAP two declared periods after the last strobe records the gap once and for each channel
raises event 0x0104 and adds two held copies; FILT_HELD_INPUT in a gap adds one held copy to each channel whose
next period has passed (log entry 28). With no chip select or no transaction nothing changes. Cites:
R132, R133, R134, R178, R179, R472. -/
def Obligations.SpiEventsComplete : Prop :=
  ∀ (ctrl cs ns : Nat) (s : State),
    (ns < 10 → exec (.spiDrdyEdge ctrl cs ns) s = .next s)
    ∧ (10 ≤ ns → ns < 20 → exec (.spiDrdyEdge ctrl cs ns) s
        = (if (draw s).1 % 2 = 0 then .next (draw s).2 else exec (.spiDrdyEdge ctrl cs 20) (draw s).2))
    ∧ (getSel ctrl cs s = none →
      exec (.spiCnvStrobe ctrl cs) s = .next s ∧ (20 ≤ ns → exec (.spiDrdyEdge ctrl cs ns) s = .next s)
      ∧ exec (.spiDrdyGap ctrl cs) s = .next s ∧ exec (.filtHeldInput ctrl cs) s = .next s)
    ∧ (∀ x, getSel ctrl cs s = some x → spiLive s = true →
      (x.mode.testBit 4 = false →
        ((∀ t, x.lastStrobe = some t → t + x.period * 65536 ≤ s.time.mono) →
          exec (.spiCnvStrobe ctrl cs) s = .next (strobe ctrl cs s))
        ∧ (∀ t, x.lastStrobe = some t → s.time.mono < t + x.period * 65536 → exec (.spiCnvStrobe ctrl cs) s = .next s)
        ∧ (20 ≤ ns → exec (.spiDrdyEdge ctrl cs ns) s = .next s))
      ∧ (x.mode.testBit 4 = true → exec (.spiCnvStrobe ctrl cs) s = .next s
        ∧ (20 ≤ ns → exec (.spiDrdyEdge ctrl cs ns) s
          = .next (settle (strobe ctrl cs ((chansOf ctrl cs s).foldl (fun s c => resume c.slot s) s))))
        ∧ (∀ t, x.gap = false → x.lastStrobe = some t → t + 2 * x.period * 65536 ≤ s.time.mono →
          let s1 := updSel ctrl cs (fun x => { x with gap := true }) s
          exec (.spiDrdyGap ctrl cs) s = .next (settle ((chansOf ctrl cs s1).foldl (fun s c =>
            heldInput c.slot (heldInput c.slot (raise 0x0104 (ctrl * 4 + cs) (some (3, c.slot)) s))) s1))))
      ∧ (x.gap = true → exec (.filtHeldInput ctrl cs) s = .next (settle ((chansOf ctrl cs s).foldl (fun s c =>
          if x.lastStrobe.any fun t => decide (t + (c.heldRun + 1) * x.period * 65536 ≤ s.time.mono) then
            heldInput c.slot s else s) s))))
    ∧ (∀ words, (s.filt.busy.find? fun b => b.1 == ctrl) = none → exec (.spiTransactionDone ctrl words) s = .next s)
    ∧ (∀ words b x, (s.filt.busy.find? fun b => b.1 == ctrl) = some b → getSel ctrl b.2.1 s = some x →
      let s0 := { s with filt.busy := s.filt.busy.filter fun b => !(b.1 == ctrl) }
      let s1 := ((chansOf ctrl b.2.1 s).filter fun c => decide (c.first ≤ b.2.2.2)).foldl (fun s c => match words[c.word]? with
        | some v => feed c.slot (signedOf (spiWidth x.mode) v) b.2.2.1 false s
        | none => s) s0
      (nextQueued ctrl s1 = none → exec (.spiTransactionDone ctrl words) s = .next (settle s1))
      ∧ (∀ k st, nextQueued ctrl s1 = some (k, st) → exec (.spiTransactionDone ctrl words) s
          = .next (settle (spiStart ctrl k st (updSel ctrl k (fun x => { x with queue := x.queue.tail }) s1)))))
    ∧ (let st : Stamp × Nat := ({ t := s.time.now, tag := 0x3000 + ctrl * 4 + cs }, s.filt.strobes)
       let s1 := updSel ctrl cs (fun x => { x with lastStrobe := some s.time.mono, gap := false })
         { s with filt.strobes := s.filt.strobes + 1 }
       (spiBusy ctrl s = false → strobe ctrl cs s = spiStart ctrl cs st s1)
       ∧ (spiBusy ctrl s = true → strobe ctrl cs s = updSel ctrl cs (fun x => { x with queue := x.queue ++ [st] }) s1))

/-- A channel swaps and fades at its points, keeps its last 4,479 inputs, and stalls after 1,024 held copies. For
every channel, input and stamp: with a pending swap whose instant is zero or has come, the idle bank becomes
active and the pending request completes; with a pending cross-fade the fade starts at output 0 of it; before
the instant nothing changes. The DC stage is the identity without one, and else subtracts the estimate's integer
part and moves the estimate by the difference over 2^shift unless it is frozen. Every input is kept in front of
at most 4,478 earlier ones, and counts. A held copy of the last input that is the 1,024th in a row stalls the
channel and raises event 0x0201; a stalled channel takes no input. Cites: R163, R172, R173, R178, R179. -/
def Obligations.FilterArithmeticRules : Prop :=
  (∀ (stamp : Stamp) (c : Chan) (p : PendSwap), c.pend = some p →
    ((p.at' = 0 ∨ p.at' ≤ stamp.t) → p.fade = 0 → swapPoint stamp c
      = ({ c with pend := none, active := otherBank c, swapped := true, step := true }, some p.req))
    ∧ ((p.at' = 0 ∨ p.at' ≤ stamp.t) → p.fade ≠ 0 →
      swapPoint stamp c = ({ c with pend := none, fade := some (0, p.fade) }, some p.req))
    ∧ (p.at' ≠ 0 → stamp.t < p.at' → swapPoint stamp c = (c, none)))
  ∧ (∀ (c : Chan) (x : Int), (c.dcShift = 0 → dcStage c x = (x, c.m))
    ∧ (c.dcShift ≠ 0 → c.frozen = true → dcStage c x = (x - c.m / 16777216, c.m))
    ∧ (c.dcShift ≠ 0 → c.frozen = false →
        dcStage c x = (x - c.m / 16777216, c.m + (x * 16777216 - c.m) / (2 ^ c.dcShift : Nat))))
  ∧ (∀ (x : Int) (stamp : Stamp) (heldIn : Bool) (c : Chan),
    (inputSample x stamp heldIn c).c.n = c.n + 1
    ∧ (inputSample x stamp heldIn c).c.hist.length = min (c.hist.length + 1) 4479
    ∧ (inputSample x stamp heldIn c).c.heldRun = if heldIn then c.heldRun + 1 else 0)
  ∧ (∀ (slot : Nat) (s : State) (c : Chan), getChan slot s = some c → c.stalled = false → c.hist ≠ [] → c.heldRun = 1023 →
    heldInput slot s = raise 0x0201 slot (some (3, slot)) (updChan slot (fun c => { c with stalled := true })
      (feed slot c.lastX { c.lastStamp with t := c.lastStamp.t + 1024 * c.period * 65536 } true s)))
  ∧ (∀ (slot : Nat) (x : Int) (stamp : Stamp) (heldIn : Bool) (s : State) (c : Chan),
    getChan slot s = some c → c.stalled = true → feed slot x stamp heldIn s = s)

/-- Cue sheets load, start on a group, stop, unload and report. For every ready command: CUE_LOAD of an image that
passes its range and graph checks, within its quotas, limits and tiers, with CHECK_ONLY answers ST_OK and
changes nothing, else adds an object of type 4 charged with what the sheet claims and a sheet that is not
started, and extends measurement register 7; CUE_START of a sheet that is not started, on streams no other
started sheet binds and whose sizes and formats match, takes the group named or the one in service with the
fewest started sheets, below four of them, starts the sheet afresh, makes it depend on its streams and answers
the group; CUE_STOP of a started sheet drains (mode 0, at once when no set is in flight, else it waits) or
abandons every set (mode 1); CUE_UNLOAD of a sheet that is not started and without dependants marks it closing
and goes on; CUE_QUERY and CUE_FLAG_READ answer the record and the flags. Cites: R188, R210, R211, R220, R225,
R226, R227, R228, R229. -/
def Obligations.CueCommandsComplete : Prop :=
  ∀ (r : ReqRef) (io : Io) (s : State) (q : Req) (c : Ctx),
    (∀ m, IsReady iCueLoad r io s q c → checkSheet c.pay = .ok m →
      quotaPair c.fn 0 m.onchip s = .ok () → quotaPair c.fn 1 m.stacked s = .ok () → countType 4 s < 64 →
      sheetFit c.fn m s = .ok () →
      (prm c 0 1 = 1 → exec (.cueLoad r io) s = answered q stOk 0 0 none s)
      ∧ (prm c 0 1 = 0 →
        let w := newObj 4 (2 ^ 32) c.fn c.sess [] false m.onchip m.stacked s
        let s1 := charge c.fn 0 m.onchip (charge c.fn 1 m.stacked w.2.2)
        exec (.cueLoad r io) s = answered q stOk w.1 w.2.1 none
          (measure 7 (Config.sha3 c.pay) { s1 with sheets := s1.sheets ++ [newSheet w.1 m] })))
    ∧ (∀ sh os g, IsReady iCueStart r io s q c → getSheet (objSlot c) s = some sh →
      ((startHandles c).mapM fun h => lookupHandle [2] c.fn false h s) = .ok os → sh.started = false →
      (∀ x ∈ os, ∀ y ∈ s.sheets, y.started = true → y.slot ≠ sh.slot → x.slot ∉ y.streams) →
      (∀ i < sh.img.slots.length, ∃ o x z, os[i]? = some o ∧ getStream o.slot s = some x ∧ sh.img.slots[i]? = some z
        ∧ x.width = z.width ∧ x.height = z.height ∧ x.format = z.format) →
      startGroup c s = some g → groupOk g s = true → groupLoad g s < 4 →
      exec (.cueStart r io) s = answered q stOk g 0 none
        (updObj 4 sh.slot (fun o => { o with deps := o.deps ++ ((os.map (·.slot)).eraseDups.map fun x => (2, x)) })
          (updSheet sh.slot (fun x => { newSheet x.slot x.img with started := true, group := g, streams := os.map (·.slot) }) s)))
    ∧ (∀ sh, IsReady iCueStop r io s q c → getSheet (objSlot c) s = some sh → sh.started = true → sh.stopping = none →
      let s1 := updSheet sh.slot (fun x => { x with stopping := some (reqRef c.q) }) s
      (prm c 0 1 = 0 → sh.sets = [] → exec (.cueStop r io) s = answered q stOk sh.lastSet 0 none (unbind sh.slot s1))
      ∧ (prm c 0 1 = 0 → sh.sets ≠ [] → exec (.cueStop r io) s = goesOn q s1)
      ∧ (prm c 0 1 = 1 → exec (.cueStop r io) s = answered q stOk sh.lastSet 0 none (giveWork sh.group (unbind sh.slot
          (finishSets sh.slot (releaseSetFrames sh.slot
            (sh.sets.foldl (fun s fs => abandon sh.slot fs.n stAborted s) s)))))))
    ∧ (∀ sh o, IsReady iCueUnload r io s q c → getSheet (objSlot c) s = some sh → sh.started = false → c.obj = some o →
      dependants o.ty o.slot s = [] →
      exec (.cueUnload r io) s = goesOn q (updObj o.ty o.slot (fun y => { y with st := .closing (some (reqRef c.q)) }) s))
    ∧ (∀ sh, getSheet (objSlot c) s = some sh →
      (IsReady iCueQuery r io s q c → exec (.cueQuery r io) s = answered q stOk 0 0 (some (cueRecord sh)) s)
      ∧ (IsReady iCueFlagRead r io s q c → exec (.cueFlagRead r io) s = answered q stOk (prm c 14 2) 0
          (some (((sh.flags.drop (prm c 12 2)).take (prm c 14 2)).flatMap flagBytes)) s))

/-- Missing frames, set deadlines, bands, node ends, external waits and tile flag writes act on their set. For a
loaded sheet and a set of it in flight: CUE_SLOT_MISSING of a waiting slot whose match window has passed marks
the frame missing, counts the set once, raises event 0x0303 with the set and the slot and lets the sheet go on;
CUE_SET_DEADLINE with its deadline past and a node not completed abandons the set with ST_E_TIMEOUT and raises
event 0x0302 with the set and the lowest such node; VISION_BAND_DONE frees the unit and advances its node by a
band; VISION_NODE_DONE of a node that may complete frees its units and finishes it with the outputs that its
unit computes from its inputs and the status of both, ST_E_MEDIA for a media error; CUE_EXTERNAL_WAIT_MET of an
idle node whose external flags have reached the set marks it met and keeps the slots and statuses they show;
TILE_FLAG_WRITE by a running task whose weights are in makes its earlier writes and then, inside a flag's 16
bytes, writes the flag (log entry 241); a write to a flag of the engine's own or across its DONE half is
dropped and counted. Before its instant, or without its set, none of them changes anything. Cites: R185, R187,
R213, R215, R217, R220, R222, R223. -/
def Obligations.CueEventsComplete : Prop :=
  ∀ (slot n i : Nat) (s : State),
    (getSheet slot s = none →
      exec (.cueSlotMissing slot n i) s = .next s ∧ exec (.cueSetDeadline slot n) s = .next s
      ∧ (∀ media, exec (.visionNodeDone slot n i media) s = .next s) ∧ exec (.cueExternalWaitMet slot n i) s = .next s)
    ∧ (∀ sh fs, getSheet slot s = some sh → sh.getSet n = some fs →
      (fs.frames[i]? = some .waiting → fs.tnMono + sh.img.matchNs * 65536 ≤ s.time.mono →
        let mark (x : FrameSet) : FrameSet :=
          if x.n = n then { x with frames := x.frames.set i .missing }
          else if x.n = nextSet n then { x with prevOk := false } else x
        let s1 := updSheet slot (fun sh => { sh with
          sets := sh.sets.map mark
          missingSets := sh.missingSets + (if fs.frames.contains .missing then 0 else 1)
          prevOk := if sh.lastSet = n then false else sh.prevOk }) s
        exec (.cueSlotMissing slot n i) s
          = .next (settle (advanceSheet slot (raise 0x0303 (n + i * 2 ^ 32) (some (4, slot)) s1))))
      ∧ (s.time.mono < fs.tnMono + sh.img.matchNs * 65536 → exec (.cueSlotMissing slot n i) s = .next s)
      ∧ (∀ k, fs.tnMono + sh.img.deadlineUs * 65536000 ≤ s.time.mono →
        ((List.range fs.nodes.length).find? fun i => !isDone (fs.node i)) = some k →
        exec (.cueSetDeadline slot n) s = .next (settle (advanceSheet slot
          (raise 0x0302 (n + k * 2 ^ 32) (some (4, slot)) (abandon slot n stTimeout s)))))
      ∧ (s.time.mono < fs.tnMono + sh.img.deadlineUs * 65536000 → exec (.cueSetDeadline slot n) s = .next s)
      ∧ (∀ node, sh.img.nodes[i]? = some node → mayComplete sh fs i s = true →
        let free : State := { s with vis := s.vis.filter fun u => !(u.sheet == slot && u.set == n && u.node == i) }
        exec (.visionNodeDone slot n i true) s
          = .next (settle (advanceSheet slot (updSheet slot (finishNode n i stMedia []) free)))
        ∧ (let ins := (inputs sh fs i s).filterMap id
           let made := nodeOut sh fs i node (ins.any (·.absent)) s
           exec (.visionNodeDone slot n i false) s = .next (settle (advanceSheet slot (updSheet slot
             (finishNode n i (outStatus made.1 ins) (made.2 (outStatus made.1 ins)))
             { free with fresh := s.fresh + nodeDraws })))))
      ∧ (∀ node, sh.img.nodes[i]? = some node → mayComplete sh fs i s = false →
        ∀ media, exec (.visionNodeDone slot n i media) s = .next s)
      ∧ (∀ node xs, sh.img.nodes[i]? = some node → fs.node i = .idle → readsExternal sh.img node = true →
        extMet sh fs node = some xs →
        exec (.cueExternalWaitMet slot n i) s = .next (settle (advanceSheet slot (updSheet slot (fun sh =>
          sh.updSet n fun fs => { fs with nodes := fs.nodes.set i .met, ext := fs.ext ++ xs.map fun x => (i, x) }) s))))
      ∧ (∀ node, sh.img.nodes[i]? = some node → extMet sh fs node = none →
        exec (.cueExternalWaitMet slot n i) s = .next s))
    ∧ (∀ group u x, (s.vis.find? fun x => x.group == group && (x.kind, x.no) == bandUnit u) = some x →
      let s1 : State := { s with vis := s.vis.filter fun y => y != x }
      let step (fs : FrameSet) : FrameSet := { fs with nodes := fs.nodes.modify x.node fun st => match st with
        | .running k => .running (k + 1)
        | st => st }
      exec (.visionBandDone group u) s
        = .next (settle (advanceSheet x.sheet (updSheet x.sheet (fun sh => sh.updSet x.set step) s1))))
    ∧ (∀ tile t x ws at' bs, (getTile tile s).running = some (t, x) → weightsIn t s = true →
      isErr (taskWrites t ws s).1 = false → bs ≠ [] → at' + bs.length ≤ 16 →
      exec (.tileFlagWrite slot n at' bs tile ws) s = .next (settle (settle (writeFlag slot n at' bs (taskWrites t ws s).2))))
    ∧ (∀ sh f at' len, ∀ bs : List Byte, getSheet slot s = some sh → sh.flags[n]? = some f → bs.length = len →
      flagWriteBarred f at' len = true →
      writeFlag slot n at' bs s = { s with tile.droppedFlags := s.tile.droppedFlags + 1 })
    ∧ (∀ tile at' bs ws, (getTile tile s).running = none →
      exec (.tileFlagWrite slot n at' bs tile ws) s = .next (settle s))

/-- Packages load and unload, instances are made, run, queried and destroyed. For every ready command: PKG_LOAD of
an image that passes the checks of R246, with enough eligible clusters and no shortfall, with CHECK_ONLY answers
ST_OK and changes nothing, else adds an object of type 5 charged with the package's claims and the package in
the first eligible clusters, and extends measurement register 6; PKG_UNLOAD without dependants marks the package
closing and goes on; INST_CREATE whose bindings hold, below the package's instances and the device limit, adds
an object of type 6 that depends on the package and on every bound object, and an idle instance; INFER_RUN with
tiles in service and fewer than 65 runs appends a queued run with the set, deadline and request of the command,
issues its first layers where slots are free (log entry 236) and lets the instance go on; INST_DESTROY
without dependants marks the instance closing and ends its queued runs; PKG_QUERY and INST_QUERY answer their
records. Cites: R230, R246, R250, R256, R257, R259, R267, R268. -/
def Obligations.PackageAndInstanceCommandsComplete : Prop :=
  ∀ (r : ReqRef) (io : Io) (s : State) (q : Req) (c : Ctx),
    (IsReady iPkgLoad r io s q c → checkPkg c.pay = .ok () →
      let rs := (parsePkg 0 c.pay []).rs
      let cs := eligible (prm c 0 2) rs.tilesMin s
      let p := parsePkg 0 c.pay (cs.take rs.clusters)
      quotaPair c.fn 0 (pkgOnchip p) s = .ok () → quotaPair c.fn 1 (pkgStacked p) s = .ok () → countType 5 s < 1024 →
      rs.clusters ≤ cs.length → pkgFit c.fn p s = .ok () →
      (prm c 2 1 = 1 → exec (.pkgLoad r io) s = answered q stOk 0 0 none s)
      ∧ (prm c 2 1 = 0 →
        let w := newObj 5 (2 ^ 32) c.fn c.sess [] false (pkgOnchip p) (pkgStacked p) s
        let s1 := charge c.fn 0 (pkgOnchip p) (charge c.fn 1 (pkgStacked p) w.2.2)
        exec (.pkgLoad r io) s = answered q stOk w.1 w.2.1 none
          (measure 6 p.digest { s1 with tile.pkgs := s1.tile.pkgs ++ [{ p with slot := w.1 }] })))
    ∧ (∀ o, c.obj = some o → dependants o.ty o.slot s = [] →
      let closing := updObj o.ty o.slot (fun y => { y with st := .closing (some (reqRef c.q)) }) s
      (IsReady iPkgUnload r io s q c → exec (.pkgUnload r io) s = goesOn q closing)
      ∧ (∀ x, IsReady iInstDestroy r io s q c → getInst (objSlot c) s = some x →
        exec (.instDestroy r io) s = goesOn q
          (updInst x.slot (fun y => { y with aborted := (abortQueued x.slot closing).1 }) (abortQueued x.slot closing).2)))
    ∧ (∀ p binds, IsReady iInstCreate r io s q c → createPkg c s = some p →
      checkBinds c s (p.ports.zip (bindRecs c.pay)) 0 = .ok binds →
      (s.tile.insts.filter fun x => x.pkg == p.slot).length < p.rs.instances → countType 6 s < 4096 →
      let w := newObj 6 (2 ^ 32) c.fn c.sess ((5, p.slot) :: binds.map fun (t, n, _) => (t, n)).eraseDups false 0 0 s
      exec (.instCreate r io) s = answered q stOk w.1 w.2.1 none { w.2.2 with tile.insts := w.2.2.tile.insts ++
        [{ slot := w.1, pkg := p.slot, binds, runs := [], doneRuns := 0, errRuns := 0, lateRuns := 0, lastUs := 0
           maxUs := 0, lastSet := 0, aborted := 0, mem := [] }] })
    ∧ (∀ x p, IsReady iInferRun r io s q c → getInst (objSlot c) s = some x → instPkg x s = some p →
      tilesOf p.place s ≠ 0 → x.runs.length < 65 →
      let run : Run :=
        { req := reqRef c.q, dl := if prm c 4 1 = 1 then none else c.q.dl
          dlUs := c.q.dl.elim 0 fun d => (d - c.q.at') / 65536000, admitted := s.time.now, set := runSet x p (prm c 0 4) s
          layer := 0, st := .queued, startAt := none, serial := s.tile.nextRun, landed := [], issued := [], lateOff := false
          stallAt := none, desyncs := [], clamped := [], status := stOk, signalled := [] }
      exec (.inferRun r io) s = goesOn q (pumpAll (kick x.slot (2 * (x.runs.length + 1) + 2) (fillSlots x.slot
        (updInst x.slot (fun x => { x with runs := x.runs ++ [run] })
          (markRunning c.q { s with tile.nextRun := s.tile.nextRun + 1 }))))))
    ∧ (∀ p, IsReady iPkgQuery r io s q c → getPkg (objSlot c) s = some p →
      exec (.pkgQuery r io) s
        = answered q stOk (prm c 14 2) 0 (some (pkgRecord p (prm c 12 2) (prm c 14 2) s)) s)
    ∧ (∀ x, IsReady iInstQuery r io s q c → getInst (objSlot c) s = some x →
      exec (.instQuery r io) s = answered q stOk 0 0 (some (instRecord x s)) s)

/-- Tasks end, time out and are stolen; weights land or fail; flag waits go on or expire. TASK_COMPLETE on a tile
whose task's weights have landed frees the tile, makes the task's writes, notes the ports whose counts exceed
their maximum, ends the task's run on an error (ST_E_MEDIA where tile memory was bad), else ends the layer with
its last task, and gives the tile its next task; TASK_WATCHDOG past the task's limit frees the tile and ends the
run with ST_E_TIMEOUT (log entry 51); TILE_STEAL by an idle tile in service moves the task it finds
to it; WEIGHT_LANDED of an issued layer of a run that no earlier fetch goes before (log entry 237), its
blocks good and not quarantined, marks it landed, ends its stall and records how long it was, one with a bad
block quarantines it and ends the run with ST_E_MEDIA; for the head run: LATE_WEIGHT_EXPIRY after the
late-weight limit of a stalled layer that met no quarantined block counts the event, raises 0x0401 at most once
a second and ends the run with ST_E_LATE_WEIGHT; WEIGHT_TIMEOUT after the limit from an awaited block's
quarantine ends it with ST_E_MEDIA; FLAG_WAIT_MET tries the flag or the slot again; FLAG_WAIT_EXPIRY after the
flag limit ends the run with ST_E_TIMEOUT. An idle tile's completion and watchdog change nothing but what was
due already. Cites: R235, R236, R238, R251, R252, R253, R262, R264. -/
def Obligations.TileEventsComplete : Prop :=
  ∀ (s : State),
    (∀ id t at' o, (getTile id s).running = some (t, at') → weightsIn t s = true →
      let w := taskWrites t o.writes (putTile { getTile id s with running := none } s)
      let s1 := match o.tileBad with
        | some b => tileMediaError id t b.1 b.2 w.2
        | none => w.2
      let st := if o.tileBad.isSome then stMedia else if isErr o.error then o.error else w.1
      let found := match (getInst t.inst s1).bind (instPkg · s1) with
        | some p => clampedPorts p o.counts
        | none => []
      let s2 := updRun t.inst t.run (fun r => { r with
        clamped := (r.clamped ++ found).eraseDups
        st := match r.st with
          | .tasks left u c => .tasks (left - 1) u c
          | x => x }) s1
      (isErr st = true → exec (.taskComplete id o) s
        = .next (settle (advanceInst t.inst (takeTask id (endTaskRun t st s2)))))
      ∧ (∀ x r, isErr st = false → getInst t.inst s2 = some x → runOf x t.run = some r →
        (layerOver t.inst r s2 = true →
          exec (.taskComplete id o) s = .next (settle (advanceInst t.inst (takeTask id (layerDone t.inst s2)))))
        ∧ (layerOver t.inst r s2 = false →
          exec (.taskComplete id o) s = .next (settle (advanceInst t.inst (takeTask id s2))))))
    ∧ (∀ id t at', (getTile id s).running = some (t, at') →
      (weightsIn t s = false → ∀ o, exec (.taskComplete id o) s = .next (settle s))
      ∧ (weightsIn t s = true → at' + t.limitUs * 65536000 ≤ s.time.mono →
        exec (.taskWatchdog id) s = .next (settle (advanceInst t.inst (takeTask id
          (endTaskRun t stTimeout (putTile { getTile id s with running := none } s))))))
      ∧ (s.time.mono < at' + t.limitUs * 65536000 → exec (.taskWatchdog id) s = .next (settle s)))
    ∧ (∀ id o, (getTile id s).running = none →
      exec (.taskComplete id o) s = .next (settle s) ∧ exec (.taskWatchdog id) s = .next (settle s))
    ∧ (∀ id v t, id < 256 → Machine.tileOk id s = true → domOn (tileDom id) s = true → (getTile id s).running = none →
      (getTile id s).queue = [] → stealFrom id s = some (v, t) →
      exec (.tileSteal id) s = .next (settle (pumpAll (startTask id t
        (putTile { getTile v s with queue := (getTile v s).queue.filter fun u => !sameTask u t } s)))))
    ∧ (∀ inst x p n r k order, getInst inst s = some x → x.runs[n]? = some r → instPkg x s = some p →
      (r.issued.find? fun i => i.1 == k) = some (k, order) → k ∉ r.landed → servedLater p (runKey x r s) order s = false →
      (layerBlocks p k).any (·.quarAt.isSome) = false →
      let bad := (fetchOrder p k).find? fun i => (p.blocks[i]?).any fun b => !b.good
      let us := if k = r.layer then r.stallAt.elim 0 (fun t => usOf (s.time.mono - t)) else 0
      let s1 := if us = 0 then s else updPkg p.slot (noteStall k us 0) s
      (bad = none → exec (.weightLanded inst k n) s = .next (settle (unstall r.serial k (updRun inst r.serial (fun r => { r with
          landed := r.landed ++ [k], stallAt := if k = r.layer then none else r.stallAt }) s1))))
      ∧ (∀ i, bad = some i → exec (.weightLanded inst k n) s = .next (settle (advanceInst inst
          (endRun inst r stMedia (quarantineRead p.slot i (blockFault p.slot i s)))))))
    ∧ (∀ inst x p r, getInst inst s = some x → x.runs.head? = some r → instPkg x s = some p →
      (∀ t, r.stallAt = some t → r.lateOff = false → awaitedQuar p r.layer = none →
        t + p.rs.lateWeightUs * 65536000 ≤ s.time.mono →
        exec (.lateWeightExpiry inst) s = .next (settle (advanceInst inst (endHead inst stLateWeight
          (raiseOnce 0x0401 (5, p.slot) (fun n => r.layer + min n (2 ^ 32 - 1) * 65536)
            (updPkg p.slot (noteStall r.layer (usOf (s.time.mono - t)) 1) s))))))
      ∧ (∀ t, r.stallAt ≠ none → awaitedQuar p r.layer = some t → t + p.rs.weightTimeoutUs * 65536000 ≤ s.time.mono →
        exec (.weightTimeout inst) s = .next (settle (advanceInst inst (endHead inst stMedia s))))
      ∧ (∀ t, r.st = .waitFlag t →
        exec (.flagWaitMet inst) s = .next (settle (advanceInst inst (tryFlag inst s)))
        ∧ (t + p.rs.flagWaitUs * 65536000 ≤ s.time.mono →
          exec (.flagWaitExpiry inst) s = .next (settle (advanceInst inst (endHead inst stTimeout s)))))
      ∧ (∀ t, r.st = .waitSlot t →
        exec (.flagWaitMet inst) s = .next (settle (advanceInst inst (trySlot inst s)))
        ∧ (t + p.rs.flagWaitUs * 65536000 ≤ s.time.mono →
          exec (.flagWaitExpiry inst) s = .next (settle (advanceInst inst (endHead inst stTimeout s))))))

/-- Calibration sets and grids are made, read, changed between epochs, queried and destroyed. For every ready
command: CAL_CREATE of a set past every check adds an object of type 14 charged with 8,192 stacked bytes and,
with REPLACES naming a set of the same model and mount, hands that set's bindings over and marks it closing;
GRID_CREATE past its checks adds an object of type 7 that depends on its streams and package, and the grid, and
with an ego-motion package the grid's own problem, on the package's claim where it has one that no problem
holds, else on GSUs with room; GRID_READ of a box without a poisoned voxel answers its bricks; GRID_CLEAR and
GRID_VOTE_SET wait as a change between epochs; GRID_POSE_SUBMIT for a moving sensor within the pose window
appends the pose; GRID_STATUS answers its record; GRID_DESTROY and CAL_DESTROY without dependants mark the
object closing, and a grid's open epochs are discarded. Cites: R291, R293, R295, R296, R297, R298, R307, R309,
R316, R317, R318, R319. -/
def Obligations.FusionCommandsComplete : Prop :=
  ∀ (r : ReqRef) (io : Io) (s : State) (q : Req) (c : Ctx),
    (∀ old, IsReady iCalCreate r io s q c → firstBad (calChecks c.pay ++ heldChecks c.pay c s) = none →
      old = (if prm c 0 8 = 0 then none else getCal (prm c 0 8 % 2 ^ 32) s) →
      (old.all fun o => slice o.bytes 6 2 == slice c.pay 6 2) = true →
      quotaPair c.fn 1 calBytes s = .ok () → countType 14 s < 1024 → quotaOver c.fn 1 calBytes s = 0 → calBytes ≤ stackedFree s →
      let w := newObj 14 (2 ^ 32) c.fn c.sess [] false 0 calBytes s
      let s1 := charge c.fn 1 calBytes w.2.2
      let s2 := { s1 with fus.cals := s1.fus.cals ++ [{ slot := w.1, bytes := c.pay, bad := false }] }
      exec (.calCreate r io) s = answered q stOk w.1 w.2.1 none (old.elim s2 fun o => replaceCal o.slot w.1 s2))
    ∧ (∀ p, IsReady iGridCreate r io s q c → egoPkgOf c s = .ok p →
      let n := fld c.pay 7 1
      let g := newGrid 0 c.pay s
      let bytes := gridBytes g
      let s0 := (draw s).2
      let w := newObj 7 (2 ^ 32) c.fn c.sess ((g.sensors.map fun y => (2, y.stream)) ++ (p.map fun p => (5, p.slot)).toList)
        false 0 bytes s0
      let s1 := charge c.fn 1 bytes w.2.2
      let s2 := { s1 with fus.grids := s1.fus.grids ++ [{ g with slot := w.1 }] }
      gridRange c.pay = true → c.plen = 64 + 32 * n → ((List.range n).all fun i => sensorRange c.pay (sensorOff i)) = true →
      ((List.range n).all fun i => sensorOk c c.pay p.isSome i s) = true →
      quotaPair c.fn 1 bytes s = .ok () → countType 7 s < 8 → quotaOver c.fn 1 bytes s = 0 → bytes ≤ stackedFree s →
      (p = none → exec (.gridCreate r io) s = answered q stOk w.1 w.2.1 none s2)
      ∧ (∀ k sec m gs, p = some k → egoSched p = some (sec, m) → placeGsus m s = .ok gs →
        let d := draw s2
        (pkgClaims k sec = false → gsuRoom m gs s = true →
          exec (.gridCreate r io) s = answered q stOk w.1 w.2.1 none
            { d.2 with probs := d.2.probs ++ [newProblem (egoSlot w.1) m (gs.getD []) d.1 none] })
        ∧ (pkgClaims k sec = true → k.schedHeld.contains sec = false →
          let t := holdClaim k sec d.2
          exec (.gridCreate r io) s = answered q stOk w.1 w.2.1 none
            { t with probs := t.probs ++ [newProblem (egoSlot w.1) m (gs.getD []) d.1 (some (k.slot, sec))] })))
    ∧ (∀ g, getGrid (objSlot c) s = some g →
      (IsReady iGridRead r io s q c →
        let bs := boxBricks g (boxAt c.q.param 16)
        (g.poison.any fun i => bs.contains (i / 512)) = false →
        exec (.gridRead r io) s = answered q stOk bs.length (g.closed.elim 0 fun (n, _, _) => n % 65536)
          (some (bs.flatMap (brickBytes g (prm c 12 1)))) s)
      ∧ (IsReady iGridClear r io s q c → exec (.gridClear r io) s = goesOn q (pendChange g.slot
          (.clear (reqRef c.q) (clearBoxOf g c.q.param).1 (clearBoxOf g c.q.param).2) (markRunning c.q s)))
      ∧ (IsReady iGridVoteSet r io s q c → exec (.gridVoteSet r io) s = goesOn q (pendChange g.slot
          (.votes (reqRef c.q) c.q.param) (markRunning c.q s)))
      ∧ (∀ y, IsReady iGridPoseSubmit r io s q c → poseRange g c.pay = true → g.sensors[fld c.pay 16 1]? = some y →
        y.moving = true → (g.poseTimes = [] ∨ g.poseTimes.getLastD 0 ≤ wordTime c.pay 0) →
        wordTime c.pay 0 ≤ s.time.now + 10 * msT → y.pending.length < 64 →
        exec (.gridPoseSubmit r io) s = answered q stOk 0 0 none (updGrid g.slot (fun g => { g with
          sensors := g.sensors.modify (fld c.pay 16 1) fun y => { y with pending := y.pending ++ [(wordTime c.pay 0, c.pay)] } }) s))
      ∧ (IsReady iGridStatus r io s q c →
        exec (.gridStatus r io) s = answered q stOk 0 0 (some (gridRecord g (prm c 12 1) s)) s))
    ∧ (∀ o, c.obj = some o → dependants o.ty o.slot s = [] →
      let closing := updObj o.ty o.slot (fun y => { y with st := .closing (some (reqRef c.q)) }) s
      (IsReady iCalDestroy r io s q c → exec (.calDestroy r io) s = goesOn q closing)
      ∧ (IsReady iGridDestroy r io s q c →
        exec (.gridDestroy r io) s = goesOn q (updGrid (objSlot c) (fun g => { g with epochs := [] }) closing)))

/-- Batches join, open or miss an epoch; an epoch stops accepting at its limit, and closes in order. SCATTER_BATCH
names the tile that emits it: with a task of a class 4 layer, bound to the grid, running there, and a batch laid
out for the grid, the batch's time is that of the run's set, else of its admission. It joins the first open
epoch whose time lies within the match window while that accepts, and is dropped and counted if it has stopped;
with no match it opens a new epoch with the next number in order of time, the grid taking replaced calibration
sets first, unless it matches a closed epoch or two are open, when it is dropped and counted. In its epoch a
batch with an error status adds no records; without a usable calibration set its run ends with ST_E_INTEGRITY.
EPOCH_LIMIT of an accepting epoch that has been open for its limit stops it, marks the expected sensors without
END absent and raises 0x0504 for each. EPOCH_CLOSE closes the first epoch once it has stopped accepting, and
does nothing before that. Any other batch changes nothing (log entries 74, 258). Cites: R296,
R299, R300, R301, R302, R306, R316. -/
def Obligations.FusionEventsComplete : Prop :=
  ∀ (slot : Nat) (b : List Byte) (s : State),
    (getGrid slot s = none → (∀ tile, exec (.scatterBatch slot b tile) s = .next s) ∧ exec (.epochLimit slot) s = .next s
      ∧ exec (.epochClose slot) s = .next s)
    ∧ (∀ tile, scatterRun tile slot s = none → exec (.scatterBatch slot b tile) s = .next s)
    ∧ (∀ g, getGrid slot s = some g →
      (∀ tile x r, scatterRun tile slot s = some (x, r) →
        (batchOk g b = false → exec (.scatterBatch slot b tile) s = .next s)
        ∧ (batchOk g b = true →
          let t := runEpochTime x r s
          let dropped := updGrid slot (fun g => { g with dropBatch := g.dropBatch + 1 }) s
          (∀ e, (g.epochs.find? fun e => epochMatch g e.tu t) = some e →
            (e.accepting = true → exec (.scatterBatch slot b tile) s = .next (settle (enterBatch slot b x r e s)))
            ∧ (e.accepting = false → exec (.scatterBatch slot b tile) s = .next (settle dropped)))
          ∧ ((g.epochs.find? fun e => epochMatch g e.tu t) = none →
            (((g.closedTus.any fun u => epochMatch g u t) = true ∨ 2 ≤ g.epochs.length) →
              exec (.scatterBatch slot b tile) s = .next (settle dropped))
            ∧ ((g.closedTus.any fun u => epochMatch g u t) = false → g.epochs.length < 2 →
              let s1 := adoptCals slot s
              let new (h : Grid) : Epoch := { no := h.nextEpoch, tu := t, openAt := monoOf t s1, accepting := true, ends := []
                                              desync := [], errored := false, absent := [], excluded := []
                                              cals := h.sensors.map (·.calSlot), batches := [] }
              let s2 := updGrid slot (fun h => { h with nextEpoch := nextSet h.nextEpoch, epochs := insertEpoch (new h) h.epochs }) s1
              ∀ e, epochAt slot t s2 = some e →
                exec (.scatterBatch slot b tile) s = .next (settle (enterBatch slot b x r e s2))))))
      ∧ (∀ x r e y, g.sensors[batchSensor b]? = some y →
        (isErr (fld b 34 2) = true → enterBatch slot b x r e s = updEpoch slot e.no (joinEpoch g b none) s)
        ∧ (isErr (fld b 34 2) = false → epochCal e (batchSensor b) s = none → enterBatch slot b x r e s
            = advanceInst x.slot (endRun x.slot r stIntegrity (updEpoch slot e.no (joinEpoch g b none) s)))
        ∧ (∀ k, isErr (fld b 34 2) = false → epochCal e (batchSensor b) s = some k →
            enterBatch slot b x r e s
              = updEpoch slot e.no (joinEpoch g b (some (takeBatch g y k.bytes b x r s).1)) (takeBatch g y k.bytes b x r s).2))
      ∧ (∀ e, (g.epochs.find? fun e => e.accepting && due (e.openAt + g.epochUs * usT) s) = some e →
        let gone := (g.sensors.zipIdx.filter fun (y, i) => y.expect' && !e.ends.contains i).map (·.2)
        exec (.epochLimit slot) s = .next (settle (gone.foldl (fun s i => raise 0x0504 (e.no + i * 2 ^ 32) (some (7, slot)) s)
          (updEpoch slot e.no (fun e => { e with accepting := false, absent := gone }) s))))
      ∧ (∀ e, g.epochs.head? = some e →
        (e.accepting = true → exec (.epochClose slot) s = .next s)
        ∧ (e.accepting = false → exec (.epochClose slot) s = .next (settle (closeEpoch g e s)))))

/-- Table 9.6 decides a voxel, and the window's shares make a sensor suspect and end its suspicion. For every
voxel's labels: at least three counting labels decide by majority and judge each label, a suspect's too, an even
split leaves the label; exactly two that differ make a contradiction of the lower and the higher sensor index
that judges nobody; two that agree decide the label and judge suspects alone; one decides it; none leaves it. A
decided voxel carries the conflict mark exactly when it is a contradiction. After a close a sensor's counts
enter the front of its window of at most VOTE_WINDOW; a sensor that is not suspect becomes suspect exactly when
something was judged and 1,000 x outvoted exceeds VOTE_SHARE x judged, with event 0x0501; a suspect one is
freed, with event 0x0502, only after VOTE_WINDOW closes and when the share no longer exceeds the limit with
something judged. Cites: R306, R312, R313, R314, R315, Table 9.6. -/
def Obligations.VotesDecideAndSuspect : Prop :=
  (∀ (g : Grid) (labels : List (Nat × Nat)),
    let counting := labels.filter fun x => !((g.sensors[x.1]?).any (·.suspect))
    let frees := (counting.filter fun x => x.2 == 1).length
    let d := decideVoxel g labels
    d.voters = counting.length
    ∧ (3 ≤ counting.length → d.pair = none
      ∧ (counting.length < 2 * frees → d.label = some 1 ∧ d.judged = labels.map fun x => (x.1, x.2 != 1))
      ∧ (2 * frees < counting.length → d.label = some 2 ∧ d.judged = labels.map fun x => (x.1, x.2 != 2))
      ∧ (2 * frees = counting.length → d.label = none ∧ d.judged = []))
    ∧ (∀ a b va vb, counting = [(a, va), (b, vb)] → frees = 1 →
      d = { label := none, pair := some (min a b, max a b), voters := 2, judged := [] })
    ∧ (let suspects := labels.filter fun x => (g.sensors[x.1]?).any (·.suspect)
       (counting.length = 2 → frees = 2 →
         d.label = some 1 ∧ d.pair = none ∧ d.judged = suspects.map fun x => (x.1, x.2 != 1))
       ∧ (counting.length = 2 → frees = 0 →
         d.label = some 2 ∧ d.pair = none ∧ d.judged = suspects.map fun x => (x.1, x.2 != 2)))
    ∧ (counting.length < 2 → d = { label := (counting.head?).map (·.2), pair := none, voters := counting.length, judged := [] }))
  ∧ (∀ (g : Grid) (no : Nat) (d : Decision) (x : Scratch) (v : Voxel),
    (updateVoxel g no d x v).conflict = d.pair.isSome ∧ (updateVoxel g no d x v).label = d.label.getD v.label
    ∧ (updateVoxel g no d x v).voters = d.voters ∧ (updateVoxel g no d x v).epoch = no ∧ (updateVoxel g no d x v).i = v.i)
  ∧ (∀ (v : Votes) (j o : Nat) (y : GSensor),
    let win := ((j, o) :: y.win).take v.window
    let z := judgeSensor v j o y
    z.1.win = win
    ∧ (y.suspect = false → (z.1.suspect = true ↔ 0 < (winSum win).1 ∧ v.share * (winSum win).1 < 1000 * (winSum win).2)
      ∧ (z.2 = some 0x0501 ↔ z.1.suspect = true))
    ∧ (y.suspect = true → (z.1.suspect = false ↔
        v.window ≤ y.since + 1 ∧ 0 < (winSum win).1 ∧ 1000 * (winSum win).2 ≤ v.share * (winSum win).1)
      ∧ (z.2 = some 0x0502 ↔ z.1.suspect = false)))

/-- Problems load, take delta batches, queue runs, answer results and queries, and unload. For every ready command:
SOLV_LOAD of a schedule past its checks, placed and fitting, adds an object of type 8 and the problem with every
factor disabled and every block at its zero, charged unless it takes a package's claim (log entry 59),
and with CHECK_ONLY changes nothing; SOLV_DELTA of a batch for this pattern whose records all pass applies them
in order and answers their count (log entries 61, 64); SOLV_RUN with fewer than eight runs queued
appends a run, its deadline by DEADLINE_REF, and goes on; SOLV_RESULT of a held solution answers the records of
the blocks asked for with the status of the run that formed it (ST_E_MEDIA where the resident values are
uncorrectable); SOLV_QUERY answers its record; SOLV_UNLOAD without dependants marks the problem closing and ends
its queued runs with ST_E_ABORTED. Cites: R323, R329, R331, R333, R335, R349, R354, R359, R360, R361, R362. -/
def Obligations.SolverCommandsComplete : Prop :=
  ∀ (r : ReqRef) (io : Io) (s : State) (q : Req) (c : Ctx),
    (∀ m gs, IsReady iSolvLoad r io s q c → checkSched (loadImage c s) = .ok m → placeGsus m s = .ok gs →
      let pkg := loadPkg c s
      let sec := prm c 8 1
      let claimed := pkg.any fun p => pkgClaims p sec
      let bytes := if claimed then 0 else schStacked m
      (claimed = true → (pkg.any fun p => p.schedHeld.contains sec) = false) → (claimed = false → gsuRoom m gs s = true) →
      quotaPair c.fn 1 bytes s = .ok () → countType 8 s < 256 → quotaOver c.fn 1 bytes s = 0 → bytes ≤ stackedFree s →
      (prm c 9 1 = 1 → exec (.solvLoad r io) s = answered q stOk 0 0 none s)
      ∧ (prm c 9 1 = 0 →
        let w := newObj 8 (2 ^ 32) c.fn c.sess (pkg.map fun p => (5, p.slot)).toList false 0 bytes s
        let s1 := charge c.fn 1 bytes w.2.2
        let held (p : Pkg) : State := if claimed then holdClaim p sec s1 else s1
        let d := draw (pkg.elim s1 held)
        let s2 := if pkg.isNone then measure 7 (Config.sha3 c.pay) d.2 else d.2
        exec (.solvLoad r io) s = answered q stOk w.1 w.2.1 none { s2 with
          probs := s2.probs ++ [newProblem w.1 m (gs.getD []) d.1 (if claimed then pkg.map fun p => (p.slot, sec) else none)] }))
    ∧ (∀ p, getProb (objSlot c) s = some p →
      (∀ b, IsReady iSolvDelta r io s q c → (if prm c 0 8 = 0 then .ok c.pay else allocBatch c s) = .ok b →
        let n := fld b 8 4
        let ds := (parseDeltas b n 16 []).1
        16 + 8 * n ≤ b.length → inR 1 n 4194304 = true → fld b 12 4 = 0 → BitVec.ofNat 64 (fld b 0 8) = p.sch.finger →
        (parseDeltas b n 16 []).2 = b.length → deltasBad p ds 0 (knownFactors p) = none →
        exec (.solvDelta r io) s = answered q stOk n 0 none (updProb p.slot (fun p => ds.foldl applyDelta p) s))
      ∧ (IsReady iSolvRun r io s q c → (p.runs.filter fun r => r.start.isNone).length < 8 →
        exec (.solvRun r io) s = goesOn q (updProb p.slot (fun p => { p with runs := p.runs ++ [
          { req := reqRef c.q
            dl := if prm c 13 1 = 1 then monoOf (runTRef c.q s) s + c.q.dl.elim 0 (fun d => d - c.q.at') else c.q.dl.getD s.time.mono
            warm := prm c 12 1, source := if prm c 12 1 = 2 then some (prm c 32 8 % 2 ^ 32) else none, tRef := runTRef c.q s
            at' := s.time.mono, start := none, flags := 0, base := [], vals := [], sats := [] }] }) s))
      ∧ (∀ sol, IsReady iSolvResult r io s q c →
        let bs := (p.sch.blocks.drop (prm c 12 4)).take (prm c 16 4)
        (if prm c 21 1 = 1 then p.resident else p.delivered.map (·.1)) = some sol →
        (prm c 20 1 = 0 ∨ (p.sch.ldlt = true ∧ (bs.all (·.marginal)) = true ∧
          ((bs.zipIdx).all fun (b, i) => ((sol.cov[prm c 12 4 + i]?).getD []).length == covWords b) = true)) →
        ((p.valuesBad && prm c 21 1 == 1) = true → exec (.solvResult r io) s = answered q stMedia 0 0 none s)
        ∧ ((p.valuesBad && prm c 21 1 == 1) = false →
        exec (.solvResult r io) s = answered q stOk bs.length (if prm c 21 1 = 1 then sol.status else p.delivered.elim 0 (·.2))
          (some ((bs.zipIdx).flatMap fun (b, i) => resultRecord p.sch sol (prm c 20 1) (prm c 12 4 + i) b)) s))
      ∧ (IsReady iSolvQuery r io s q c → exec (.solvQuery r io) s = answered q stOk 0 0 (some (probRecord p s)) s)
      ∧ (∀ o, IsReady iSolvUnload r io s q c → c.obj = some o → dependants o.ty o.slot s = [] →
        exec (.solvUnload r io) s = goesOn q ((p.runs.filter fun r => r.start.isNone).foldl
          (fun s r => postRef r.req stAborted 0 0 none s)
          (updProb p.slot (fun p => { p with runs := p.runs.filter fun r => r.start.isSome })
            (updObj o.ty o.slot (fun y => { y with st := .closing (some (reqRef c.q)) }) s)))))

/-- A solve starts on its free GSUs, completes, meets a fault, or ends stale at its deadline. For a problem's head
run: SOLVE_START of a run that has not started, whose deadline is not past, on GSUs that are free, powered and
choose this problem, takes the problem's factor values and sets the run's start, flags and starting values as
its warm mode says (log entry 65), raising 0x0605 for a rejected source, or ends with ST_E_MEDIA when a
starting value is uncorrectable; otherwise it changes nothing. SOLVE_COMPLETE of a started run within its
deadline delivers and completes it, or on a step outside the pattern ends it with ST_E_STRUCTURE and 0x0606, or
on an uncorrectable word ends it with ST_E_MEDIA after the fault record, 0x0901 and the mark of what is bad (log
entry 255); after the deadline it does nothing (log entry 66). SOLVE_DEADLINE of the first run
past its deadline delivers the stale solution with ST_STALE and counts it, or, the values to deliver being
uncorrectable, ends it with ST_E_MEDIA. A missing problem, or one without runs, changes nothing. Cites: R336,
R350, R352, R354, R355, R357, R358. -/
def Obligations.SolverEventsComplete : Prop :=
  ∀ (slot : Nat) (e : SolveEnd) (s : State),
    (getProb slot s = none → exec (.solveStart slot) s = .next s ∧ exec (.solveComplete slot e) s = .next s
      ∧ exec (.solveDeadline slot) s = .next s)
    ∧ (∀ p, getProb slot s = some p →
      (p.runs = [] → exec (.solveStart slot) s = .next s ∧ exec (.solveComplete slot e) s = .next s
        ∧ exec (.solveDeadline slot) s = .next s)
      ∧ (∀ r, readyRun p = some r →
        let free := p.gsus.all fun g => !gsuBusy g s && gsuChoice g s == some slot && domOn (88 + g / 4) s
        (free = false ∨ r.dl ≤ s.time.mono → exec (.solveStart slot) s = .next s)
        ∧ (free = true → s.time.mono < r.dl → (p.startBad ≠ [] ∨ sourceBad p r s = true) →
          exec (.solveStart slot) s = .next (settle (postRef r.req stMedia 0 0 none
            (updProb slot (fun p => { p with runs := p.runs.drop 1, init := [] }) s))))
        ∧ (free = true → s.time.mono < r.dl → p.startBad = [] → sourceBad p r s = false →
          let w := warmStart p r s
          let s1 := updProb slot (fun p => { p with schedBad := false, init := [], runs := p.runs.modify 0 fun r =>
            { r with start := some s.time.mono, flags := w.flags, base := w.base, sats := w.sats, vals := p.factors } }) s
          exec (.solveStart slot) s = .next (settle (w.event.elim s1 fun d => raise 0x0605 d (probSrc slot) s1))))
      ∧ (∀ r, p.runs.head? = some r →
        (r.start = none ∨ r.dl < s.time.mono → exec (.solveComplete slot e) s = .next s)
        ∧ (r.start.isSome = true → s.time.mono ≤ r.dl →
          exec (.solveComplete slot .complete) s = .next (settle (completeSolve p r s))
          ∧ (∀ g, exec (.solveComplete slot (.outside g)) s
            = .next (settle (raise 0x0606 g (probSrc slot) (dropRun slot stStructure s))))
          ∧ (∀ a y, exec (.solveComplete slot (.valuesBad a y)) s = .next (settle (dropRun slot stMedia
              (badProblem a y slot 2 1 (fun p => { p with valuesBad := true }) s))))
          ∧ (∀ i a y, exec (.solveComplete slot (.startBad i a y)) s = .next (settle (dropRun slot stMedia
              (badProblem a y slot 2 1 (fun p => { p with startBad := insertRising i p.startBad }) s))))
          ∧ (∀ a y, exec (.solveComplete slot (.scheduleBad a y)) s = .next (settle (dropRun slot stMedia
              (badProblem a y slot 6 1 (fun p => { p with schedBad := true }) s))))))
      ∧ ((p.runs.find? fun r => due r.dl s) = none → exec (.solveDeadline slot) s = .next s)
      ∧ (∀ r, (p.runs.find? fun r => due r.dl s) = some r →
        let bad := if p.resident.isSome then p.valuesBad else !p.startBad.isEmpty
        (bad = false → exec (.solveDeadline slot) s = .next (settle (staleRun p r s)))
        ∧ (bad = true → exec (.solveDeadline slot) s
          = .next (settle (postRef r.req stMedia 0 0 none (updProb p.slot (fun p => { p with runs := p.runs.filter fun x => x != r }) s))))))

/-- A completed solve becomes resident and delivered; a stale run delivers without changing the resident solution.
For every problem and run in a state that holds that problem in its slot, unique: after a completed solve the
problem's resident solution becomes the values its iterations came to (with later INIT_BLOCK writes applied),
the previous one is the old resident solution, the delivered one is what the iterations gave, and the run is
gone. A run that ends at its deadline leaves the resident and previous solutions as they were, counts one stale
run, and delivers the resident solution's covariances, cost and marks, or with no resident solution the starting
values. In the arithmetic of the GSUs an outer iteration that meets a value that is not finite rolls back to the
last iterate accepted before and ends the solve, and any other is one more iteration done; with
Levenberg-Marquardt an iteration that does not lower the cost changes neither values nor cost; FIXED blocks of a
schedule that passed its checks keep their value. Cites: R325, R336, R337, R346, R355, R356, R357, R358. -/
def Obligations.SolutionsAreStoredAsDelivered : Prop :=
  (∀ (p : Problem) (r : SolveRun) (s : State), s.probs = [p] → p.slot < 2 ^ 32 →
    let o := runSolution p r s.fresh
    let t := completeSolve p r s
    ∃ x, t.probs = [x] ∧ x.previous = p.resident ∧ x.runs = p.runs.drop 1 ∧ x.start = p.start ∧ x.factors = p.factors
      ∧ (x.delivered.map fun d => (d.1.values, d.1.cov, d.1.cost, d.1.tRef)) = some (o.values, o.cov, o.cost, r.tRef)
      ∧ x.doneRuns = p.doneRuns + 1 ∧ x.valuesBad = false
      ∧ (x.resident.map (·.values)) = some (p.init.foldl (fun vs (i, ws) => vs.set i ws) o.values))
  ∧ (∀ (p : Problem) (r : SolveRun) (s : State), s.probs = [p] → p.slot < 2 ^ 32 →
    ∃ x, (staleRun p r s).probs = [x] ∧ x.resident = p.resident ∧ x.previous = p.previous ∧ x.staleRuns = p.staleRuns + 1
      ∧ x.start = p.start ∧ x.factors = p.factors ∧ x.runs = p.runs.filter (fun y => y != r)
      ∧ (∀ cur, p.resident = some cur → (x.delivered.map fun d => (d.1.cov, d.1.cost, d.1.satBlocks, d.1.pivBlocks, d.1.tRef, d.2))
          = some (cur.cov, cur.cost, cur.satBlocks, cur.pivBlocks, cur.tRef, stStale))
      ∧ (p.resident = none → (x.delivered.map fun d => (d.1.values, d.2)) = some (p.start, stStale)))
  ∧ (∀ (a : Ar) (m : Sched) (fs : List GFactor) (n : Nat) (p : Progress) (c : Calc),
    let q := (gOuter a m fs p).run c
    (q.2.bad = true → (gIterate a m fs (n + 1) p).run c = ({ p with rolled := true }, q.2))
    ∧ (q.2.bad = false → (gIterate a m fs (n + 1) p).run c = (gIterate a m fs n q.1).run q.2)
    ∧ q.1.done = p.done + 1
    ∧ (m.method.testBit 0 = true → fpLt q.1.cost p.cost = false → q.1.x = p.x ∧ q.1.cost = p.cost)
    ∧ (∀ (i : Nat) (b : BlockRec), m.blocks[i]? = some b → b.fixed = true → orderBad m = none → m.blocks.length = p.x.length →
      q.1.x[i]? = p.x[i]?))

/-- Maps are made, written, read, walked, deadheaded, repotted, checkpointed, restored and destroyed. For every
ready command on a usable map: MAP_CREATE past its checks adds an object of type 9 charged with its slot table
and heap, and an empty map; MAP_INSERT of a batch past every check that fits, MAP_DELETE, MAP_READ and
MAP_TRAVERSE join those that wait for a context; MAP_DEADHEAD_SET stores its rate and answers the halves
removed; MAP_REPOT with no repotting of the map, fewer than four in the device, room for the shard and in the
journal starts one; MAP_CHECKPOINT of a map with no bad object into a plain stacked allocation with room stores
the image there and answers its 4 KiB blocks; MAP_RESTORE of an image that carries its own digest adds the map
with the image's slots; MAP_DESTROY without dependants marks the map closing and rolls a repotting back. Cites:
R363, R368, R374, R375, R376, R377, R379, R380, R384, R385, R386, R402. -/
def Obligations.MapCommandsComplete : Prop :=
  ∀ (r : ReqRef) (io : Io) (s : State) (q : Req) (c : Ctx),
    (IsReady iMapCreate r io s q c → mapDescOk c.pay = true → mapFit c.fn (mapBytes c.pay) s = .ok () →
      let w := newObj 9 (2 ^ 32) c.fn c.sess [] false 0 (mapBytes c.pay) s
      exec (.mapCreate r io) s = answered q stOk w.1 w.2.1 none { charge c.fn 1 (mapBytes c.pay) w.2.2 with
        map.maps := w.2.2.map.maps ++ [{ newMap 0 c.pay s with slot := w.1 }] })
    ∧ (∀ m, mapArg c s = .ok m →
      (let n := fld c.pay 0 4
       let p := parseRecs n 0 (c.pay.drop 16)
       let ahead := mapAhead m s
       let a := applyRecs (prm c 12 1) s.fresh ahead p.1
       IsReady iMapInsert r io s q c → inR 1 n 4194304 = true → zeroIn c.pay 4 12 = true → resCheck (8 * n) c.q = .ok () →
       (prm c 12 1 ≠ 1 ∨ m.anchorBad = false) → p.2 = none → (p.1.zipIdx.all fun (x, i) => recRange p.1 i x) = true →
       (p.1.all (recStructure p.1 ahead)) = true → (a.shards.any (shardLost m)) = false → a.above = none → mapShort ahead a = (0, 0) →
       exec (.mapInsert r io) s = goesOn q (admitCtx c m.slot true s))
      ∧ (IsReady iMapDelete r io s q c → ((shardsOf m (cmdIds c.q c.pay 8 (prm c 0 4))).any (shardLost m)) = false →
        exec (.mapDelete r io) s = goesOn q (admitCtx c m.slot true s))
      ∧ (IsReady iMapRead r io s q c → (prm c 16 1 ≠ 1 ∨ m.anchorBad = false) →
        ((shardsOf m (cmdIds c.q c.pay 24 (prm c 12 4))).any (shardLost m)) = false →
        exec (.mapRead r io) s = goesOn q (admitCtx c m.slot false s))
      ∧ (IsReady iMapTraverse r io s q c → exec (.mapTraverse r io) s = goesOn q (admitCtx c m.slot false s))
      ∧ (IsReady iMapDeadheadSet r io s q c →
        exec (.mapDeadheadSet r io) s = answered q stOk m.removed 0 none (updMap m.slot (fun m => { m with
          rate := if prm c 0 4 = 0xFFFFFFFF then m.rate else prm c 0 4, indexes := prm c 4 1 == 1, dhAt := s.time.mono }) s))
      ∧ (∀ s', IsReady iMapRepot r io s q c → m.repot = none →
        (prm c 1 1 = 1 ∨ roundUp (shardBytes m (prm c 0 1)) (2 ^ 20) ≤ heapFree m / 2 ^ 20 * 2 ^ 20) →
        (prm c 1 1 = 0 ∨ (memberHere (prm c 2 1) s = true ∧ keepsQuorum s = true ∧
          ((m.ens[prm c 0 1]?).all fun e => e.understudy != some (prm c 2 1)) = true)) →
        shardLost m (prm c 0 1) = false → repottings s < 4 → journalRoom s = .ok () →
        (if prm c 1 1 = 1 then targetShort (prm c 2 1) (shardBytes m (prm c 0 1)) s else (0, s)) = (0, s') →
        exec (.mapRepot r io) s = goesOn q (startRepot m.slot (prm c 0 1) (prm c 1 1) (prm c 2 1)
          (if prm c 4 4 = 0 then 5000 else prm c 4 4) c.q (draw s').2))
      ∧ (∀ a, IsReady iMapCheckpoint r io s q c → ckptAlloc c s = .ok a → (m.ens.any (·.lost)) = false → m.poison = [] →
        let len := 256 + liveBytes m
        len ≤ a.size - prm c 8 8 →
        let d := drawBytes (len - 256) s
        let image := imageHeader m len (Config.sha3 (imageHeader m len (zeros 64) d.2 ++ d.1)) d.2 ++ d.1
        let s1 := updAlloc a.slot (Alloc.write (prm c 8 8) image) d.2
        exec (.mapCheckpoint r io) s = answered q stOk (ceilDiv len 4096) 0 none { s1 with
          map.ckpts := { image, slots := m.slots, tombs := m.tombs, retired := m.retired } :: s1.map.ckpts }))
    ∧ (∀ a b, IsReady iMapRestore r io s q c → getAlloc (prm c 0 8 % 2 ^ 32) s = some a →
      allocRead a.slot (prm c 8 8) (a.size - prm c 8 8) s = .ok b → imageOk b (a.size - prm c 8 8) = true →
      let desc := slice b 96 128
      mapDescOk desc = true → mapFit c.fn (mapBytes desc) s = .ok () →
      let w := newObj 9 (2 ^ 32) c.fn c.sess [] false 0 (mapBytes desc) s
      let i := imageSlots (b.take (fld b 8 8)) (newMap 0 desc s).slotsMax s
      exec (.mapRestore r io) s = answered q stOk w.1 w.2.1 none { charge c.fn 1 (mapBytes desc) w.2.2 with
        map.maps := w.2.2.map.maps ++ [{ newMap 0 desc s with slot := w.1, slots := i.1, tombs := i.2.1, retired := i.2.2 }] })
    ∧ (∀ o, IsReady iMapDestroy r io s q c → c.obj = some o → dependants o.ty o.slot s = [] →
      exec (.mapDestroy r io) s = goesOn q (rollBack (objSlot c) stAborted
        (updObj o.ty o.slot (fun y => { y with st := .closing (some (reqRef c.q)) }) s)))

/-- Map commands end in their contexts; deadheading walks its rate; repotting drains, commits, retries or rolls
back. For a map command in a context that no earlier write waits before: MAP_COMMAND_DONE with an uncorrectable
context memory ends it with ST_E_MEDIA and a fault record (log entry 273); of an insert that reads no
poisoned cell, with room, applies the batch and ends it by its result, without room ends it with ST_E_MAP_FULL,
and held by a drain waits; of a delete not held applies it and raises 0x0703 for slots retired; of a read
without bad anchor, lost shard or poisoned cell answers the cells and the live count; of a traversal likewise
answers its nodes, ST_PARTIAL when MAX_NODES ended it. DEADHEAD_PASS of a ready device and a rate examines the
next object once the rate allows and drops its dead halves, or at the end starts over or goes to the indexes.
REPOT_COPY_DONE at step 2 begins the drain with the writes in flight; REPOT_COMMIT within the pause with none
left in flight commits; past a commit it frees the old storage; REPOT_PAUSE_EXPIRY copies again, and at the
eighth attempt rolls back with ST_E_TIMEOUT. Cites: R374, R375, R376, R377, R379, R381, R382, R402. -/
def Obligations.MapEventsComplete : Prop :=
  (∀ (r : ReqRef) (s : State) (x : CtxCmd) (q : Req) (m : MapO),
    (s.map.ctx.find? fun x => x.req == r && x.engine.isSome && x.result.isNone) = some x →
    (x.write = false ∨ writeBefore x s = false) → findReq r s = some q → getMap x.map s = some m →
    (∀ b, exec (.mapCommandDone r (some b)) s = .next (settle (endCtx x stMedia 0 0 none (contextMet (x.engine.getD 0) (some b) s))))
    ∧ (q.opcode = 0x0702 → (insertFrame q ≠ 1 ∨ m.anchorBad = false) →
      let rs := insertRecs x.pay
      let a := applyRecs (insertFrame q) s.fresh m rs
      let s1 : State := { s with fresh := s.fresh + rs.length }
      ((batchReads rs).any m.poison.contains) = false →
      (heldWrite m x a.shards = true → exec (.mapCommandDone r none) s = .next (settle s1))
      ∧ (heldWrite m x a.shards = false → mapShort m a ≠ (0, 0) → exec (.mapCommandDone r none) s
        = .next (settle (endCtx x stMapFull (ceilDiv (mapShort m a).1 1024) (sat16 (mapShort m a).2) none s1)))
      ∧ (heldWrite m x a.shards = false → mapShort m a = (0, 0) →
      exec (.mapCommandDone r none) s = .next (settle (finishWrite x a.shards a.applied (sat16 (rs.length - a.applied))
        (a.results.flatMap fun i => leBytes 8 i.toNat) (updMap m.slot (fun _ => a.m) s1)))))
    ∧ (q.opcode = 0x0703 →
      let is := cmdIds q x.pay 8 (fld q.param 0 4)
      let d := deleteObjs m is
      (heldWrite m x (shardsOf m is) = true → exec (.mapCommandDone r none) s = .next (settle s))
      ∧ (heldWrite m x (shardsOf m is) = false →
      exec (.mapCommandDone r none) s = .next (settle (finishWrite x (shardsOf m is) d.2.1 (sat16 d.2.2) []
        (raiseRetired m.slot (d.1.retired - m.retired) (updMap m.slot (fun _ => d.1) s))))))
    ∧ (q.opcode = 0x0704 → (readFrame q ≠ 1 ∨ m.anchorBad = false) →
      let is := cmdIds q x.pay 24 (fld q.param 12 4)
      ((shardsOf m is).any (shardLost m)) = false → (is.any fun i => isLive m i && m.poison.contains (idSlot i)) = false →
      exec (.mapCommandDone r none) s = .next (settle (endCtx x stOk (is.filter (isLive m)).length 0
        (some (is.flatMap (readCell m (readFrame q)))) s)))
    ∧ (q.opcode = 0x0705 →
      let starts := (List.range (x.pay.length / 8)).map fun i => idAt x.pay (8 * i)
      let w := traverse m starts (fld q.param 16 1) (fld q.param 17 1) (fld q.param 18 4) (fld q.param 12 4) s.fresh
      ((shardsOf m (w.1.map (·.id))).any (shardLost m)) = false →
      ((w.1.map (·.id)).any fun i => isLive m i && m.poison.contains (idSlot i)) = false →
      exec (.mapCommandDone r none) s = .next (settle (endCtx x (if w.2.2 then stPartial else stOk) w.1.length (sat16 w.2.1)
        (some (w.1.flatMap nodeBytes)) { s with fresh := s.fresh + 1 }))))
  ∧ (∀ (slot : Nat) (s : State) (m : MapO), getMap slot s = some m →
    (ready s = true → m.rate ≠ 0 → m.broken = false →
      (64 ≤ m.pos.1 → exec (.deadheadPass slot) s = .next (settle (dhIndex m s)))
      ∧ (m.pos.1 < 64 → dhNext m (ownMember s) = none → exec (.deadheadPass slot) s
        = .next (settle (updMap slot (fun m => { m with pos := if m.indexes then (64, 0) else (0, 0) }) s)))
      ∧ (∀ sh n c, m.pos.1 < 64 → dhNext m (ownMember s) = some (sh, n, c) → dhMay m c.edges.length s = true →
        exec (.deadheadPass slot) s = .next (settle (updMap slot (fun m' => { m' with
          slots := updIf (fun x => x.n == n) (fun x => { x with cell := x.cell.map (dropHalves (deadHalf m)) }) m'.slots
          pos := (sh, n + 1), removed := m'.removed + (c.edges.filter (deadHalf m)).length, dhAt := s.time.mono }) s))))
    ∧ (∀ p, m.repot = some p →
      (p.step = 2 →
        let s1 := journalProgress p.op 65536 m.slots.length s
        exec (.repotCopyDone slot) s = .next (settle (updMap slot (fun m => { m with repot := m.repot.map fun p =>
          { p with step := 3, drainAt := s1.time.mono
                   flight := (s1.map.ctx.filter fun x => x.map == slot && x.write && x.engine.isSome && x.result.isNone).map (·.order) } }) s1)))
      ∧ (p.step = 5 → exec (.repotCommit slot) s = .next (settle (releaseRepot slot p (if replayed slot p s then 1 else 0) s)))
      ∧ (p.step = 3 → s.time.mono ≤ p.drainAt + p.pauseUs * usT →
        (s.map.ctx.any fun x => p.flight.contains x.order && x.result.isNone) = false →
        let s1 := commitRepot slot p (draw s).2
        exec (.repotCommit slot) s = .next (settle (if (draw s).1 % 2 = 0 then releaseRepot slot p 0 s1 else s1)))
      ∧ (p.step = 3 → p.drainAt + p.pauseUs * usT ≤ s.time.mono →
        (p.attempts < 7 → exec (.repotPauseExpiry slot) s = .next (updMap slot (fun m => { m with repot := m.repot.map fun p =>
          { p with step := 2, attempts := p.attempts + 1, flight := [] } }) s))
        ∧ (7 ≤ p.attempts → exec (.repotPauseExpiry slot) s = .next (settle (rollBack slot stTimeout s))))))

/-- A deleted object's identifier is not live again, and an inserted object's identifier is live and was not before.
For every map in which each slot number stands once: deleting a live identifier leaves it not live, leaves every
other slot's identifiers as they were, and moves its slot's generation up by one, or at generation 0xFFFE or
above retires the slot; storing an object gives an identifier that is live in the new map, whose slot is below
the map's slots where a slot was free, and leaves the cells of all other slots as they were. Cites: R365, R369,
R377. -/
def Obligations.MapIdentifiersAreNotReused : Prop :=
  ∀ (m : MapO), (m.slots.map (·.n)).Nodup →
    (∀ i, isLive m i = true →
      isLive (deleteObj m i) i = false
      ∧ (∀ j, idSlot j ≠ idSlot i → liveCell (deleteObj m i) j = liveCell m j)
      ∧ (∃ x, getSlot (deleteObj m i) (idSlot i) = some x ∧ x.cell = none
        ∧ (idGen i < 0xFFFE → x.gen = idGen i + 1 ∧ x.retired = false) ∧ (0xFFFE ≤ idGen i → x.retired = true))
      ∧ (deleteObj m i).tombs = m.tombs + 1)
    ∧ (∀ x kind b, m.slotsMax < 2 ^ 48 → (m.slots.all fun y => decide (y.gen < 2 ^ 16)) = true → 0 < freeSlots m →
      (m.slots.all fun y => decide (y.n < m.slotsMax)) = true →
      let w := storeObj m x kind b
      isLive w.2 w.1 = true ∧ isLive m w.1 = false ∧ idSlot w.1 < m.slotsMax
      ∧ (∀ j, idSlot j ≠ idSlot w.1 → liveCell w.2 j = liveCell m j))

/-- Indexes are made, filled, emptied, rebuilt, queried for statistics and destroyed; query batches are admitted.
For every ready command: IDX_CREATE over a usable map, past its descriptor checks and fitting, adds an object of
type 10 that depends on the map, charged with its pages, bucket heads and distance table, and an empty index;
IDX_INSERT places every live item in every table when the pages and the device's entries suffice and no bucket
on the way holds a bad entry, and answers how many it placed and skipped; IDX_DELETE frees the entries that hold
the items' identifiers in the buckets of their codes, none of them bad, and answers how many; IDX_REBUILD with
no rebuild running opens a journalled rebuild charged with a second pool; SRCH_BATCH of records in range adds a
batch object of type 11 with its queries, sent to the other members that hold shards; IDX_QUERY answers its
record; IDX_DESTROY without dependants marks the index closing and rolls a rebuild back. Cites: R387, R388,
R389, R390, R391, R397, R401, R403. -/
def Obligations.SearchCommandsComplete : Prop :=
  ∀ (r : ReqRef) (io : Io) (s : State) (q : Req) (c : Ctx),
    (∀ o, IsReady iIdxCreate r io s q c → idxDescOk c.pay c.plen = true → lookupHandle [9] c.fn false (fld c.pay 0 8) s = .ok o →
      ((getMap o.slot s).any fun m => !m.broken) = true →
      let kind := fld c.pay 9 1
      let n := idxBytes (fld c.pay 8 1) (fld c.pay 10 1) (fld c.pay 12 4) kind
      quotaPair c.fn 1 n s = .ok () → countType 10 s < 64 → quotaOver c.fn 1 n s = 0 → n ≤ stackedFree s →
      let w := newObj 10 (2 ^ 32) c.fn c.sess [(9, o.slot)] false 0 n s
      exec (.idxCreate r io) s = answered q stOk w.1 w.2.1 none { charge c.fn 1 n w.2.2 with map.idxs := w.2.2.map.idxs ++ [
        { slot := w.1, map := o.slot, tables := fld c.pay 8 1, kind, keyBits := fld c.pay 10 1, pages := fld c.pay 12 4
          sels := selsAt c.pay 64 (fld c.pay 8 1) (fld c.pay 10 1)
          dist := if kind = 1 then c.pay.drop (64 + 32 * fld c.pay 8 1) else [], buckets := [], removed := 0, queries := 0, stale := 0
          rebuild := none, broken := false, poison := [] }] })
    ∧ (∀ x m, idxArgOf (objSlot c) s = .ok (x, m) →
      (let es := itemsOf c.pay
       let good := es.filter fun e => isLive m e.id
       IsReady iIdxInsert r io s q c → allEntries s + good.length * x.tables ≤ 2147483648 → meetsPoison x good = false →
       pagesUsed (good.foldl insertItem x) ≤ x.pages →
       exec (.idxInsert r io) s = answered q stOk good.length (sat16 (es.length - good.length)) none
         (updIdx x.slot (fun _ => good.foldl insertItem x) s))
      ∧ (IsReady iIdxDelete r io s q c → meetsPoison x (itemsOf c.pay) = false →
        let x' := (itemsOf c.pay).foldl deleteItem x
        exec (.idxDelete r io) s = answered q stOk (entriesOf x - entriesOf x') 0 none (updIdx x.slot (fun _ => x') s))
      ∧ (IsReady iIdxRebuild r io s q c → (newKeys c = true → selsOk c.pay 0 x.tables x.keyBits = true) → x.rebuild = none →
        let n := 4096 * x.pages
        quotaPair c.fn 1 n s = .ok () → journalRoom s = .ok () → quotaOver c.fn 1 n s = 0 → n ≤ stackedFree s →
        let w := journalBegin 2 (reqRef c.q) c.q.opcode (handleOf 10 x.slot s) 0 s
        let p : Rebuild :=
          { req := some (reqRef c.q), sels := if newKeys c then selsAt c.pay 0 x.tables x.keyBits else x.sels, op := w.1, committed := false }
        exec (.idxRebuild r io) s = goesOn q (recharge 10 x.slot 0 (idxBytes x.tables x.keyBits x.pages x.kind + n)
          (updIdx x.slot (fun x' => { x' with rebuild := some p }) w.2)))
      ∧ (IsReady iIdxQuery r io s q c → exec (.idxQuery r io) s = answered q stOk 0 0 (some (idxRecord x m s)) s))
    ∧ (∀ x m, IsReady iSrchBatch r io s q c → idxArgOf (prm c 16 8 % 2 ^ 32) s = .ok (x, m) →
      let n := prm c 12 4
      let k := fld c.pay 0 2
      let rs := (List.range n).map fun i => slice c.pay (16 + 128 * i) 128
      inR 1 k 256 = true → zeroIn c.pay 2 14 = true → resCheck (64 + n * (16 + 16 * k)) c.q = .ok () → (rs.all queryOk) = true → countType 11 s < 16384 →
      let w := newObj 11 (2 ^ 32) c.fn c.sess [(10, x.slot)] false 0 0 s
      let b : BatchO :=
        { slot := w.1, req := reqRef c.q, idx := x.slot, k, dl := c.q.dl.getD w.2.2.time.mono, order := w.2.2.map.nextOrder
          at' := w.2.2.time.mono, queries := rs.map parseQuery }
      let s1 := { w.2.2 with map := { w.2.2.map with batches := w.2.2.map.batches ++ [b], nextOrder := w.2.2.map.nextOrder + 1 } }
      exec (.srchBatch r io) s = goesOn q ((shardHolders m s1).foldl (fun s k => if k = ownMember s then s else sendTo k "QUERY" s) s1))
    ∧ (∀ o, IsReady iIdxDestroy r io s q c → c.obj = some o → dependants o.ty o.slot s = [] →
      exec (.idxDestroy r io) s = goesOn q (endRebuild (objSlot c) stAborted 0 2
        (updObj o.ty o.slot (fun y => { y with st := .closing (some (reqRef c.q)) }) s)))

/-- Waiting work takes contexts in order, queries are scanned and delivered, batches and rebuilds end. QUERY_START
of an engine in service with a free context gives it to what waits first by deadline and admission, a map
command or the first waiting query of a batch; QUERY_COMPLETE of a started query this device has not answered
scans its probes, keeps the live identifiers among the first k and takes this member's answer, leaving a fault
record if a probed page was poisoned or the context memory was uncorrectable (log entry 273), which
makes it a query that met an error; SRCH_BATCH_DEADLINE at or past the deadline ends every undelivered query
with ST_E_TIMEOUT, and does nothing before; IDX_REBUILD_DONE lays the index out again, commits and frees the old
pool, or rolls back, with ST_E_MEDIA where an entry of the index is bad and ST_E_INDEX_FULL where the pages do
not suffice, and past its commit frees the old pool. Cites: R391, R394, R395, R397, R399, R400, R401. -/
def Obligations.SearchEventsComplete : Prop :=
  (∀ (e : Nat) (s : State), ready s = true → engineUp e s = true → contextsUsed e s < 256 →
    (firstWaiting s = none → exec (.queryStart e) s = .next s)
    ∧ (∀ dl order, firstWaiting s = some ((dl, order), none) → exec (.queryStart e) s = .next { s with
        map.ctx := updIf (fun x => x.order == order) (fun (x : CtxCmd) => { x with engine := some e }) s.map.ctx })
    ∧ (∀ w slot i, firstWaiting s = some (w, some (slot, i)) →
      exec (.queryStart e) s = .next (updQuery slot i (fun q => { q with engine := some e }) s)))
  ∧ (∀ (batch i : Nat) (bad : Option (Nat × Nat)) (s : State) (b : BatchO), getBatch batch s = some b →
    (∀ q x m, b.queries[i]? = some q → getIdx b.idx s = some x → getMap x.map s = some m → q.engine.isSome = true → q.done = false →
      q.answers.contains (ownMember s) = false →
      let a := scan x m (ownMember s) b.k q
      let kept := a.kept.take b.k
      let good := kept.filter fun c => isLive m c.2
      exec (.queryComplete batch i bad) s = .next (settle (answer batch i (ownMember s) { a with kept := good, bad := a.bad || bad.isSome }
        (kept.length - good.length) (if a.bad then idxPoisonMet x.slot s else contextMet (q.engine.getD 0) bad s))))
    ∧ (∀ q, b.queries[i]? = some q → q.engine = none ∨ q.done = true ∨ q.answers.contains (ownMember s) = true →
      exec (.queryComplete batch i bad) s = .next s)
    ∧ (b.dl ≤ s.time.mono → exec (.srchBatchDeadline batch) s = .next (settle (cutBatch batch stTimeout s)))
    ∧ (s.time.mono < b.dl → exec (.srchBatchDeadline batch) s = .next s))
  ∧ (∀ (slot : Nat) (s : State) (x : IdxO) (m : MapO) (p : Rebuild), idxArgOf slot s = .ok (x, m) → x.rebuild = some p →
    (p.committed = true → exec (.idxRebuildDone slot) s
      = .next (settle (endRebuild slot stOk (itemCount x % 2 ^ 32) (if p.req.isNone then 1 else 0) s)))
    ∧ (p.committed = false → x.poison ≠ [] →
      exec (.idxRebuildDone slot) s = .next (settle (endRebuild slot stMedia 0 2 (idxPoisonMet slot s))))
    ∧ (p.committed = false → x.poison = [] →
      let x' := rebuilt m p.sels x
      let s1 := journalProgress p.op 1048576 (itemCount x) s
      (x.pages < pagesUsed x' → exec (.idxRebuildDone slot) s = .next (settle (endRebuild slot stIndexFull (pagesUsed x' - x.pages) 2 s1)))
      ∧ (pagesUsed x' ≤ x.pages →
        let d := draw (updIdx slot (fun _ => { x' with rebuild := some { p with committed := true } }) (journalStep p.op 3 (itemCount x) s1))
        exec (.idxRebuildDone slot) s
          = .next (settle (if d.1 % 2 = 0 then endRebuild slot stOk (itemCount x' % 2 ^ 32) 0 d.2 else d.2)))))

/-- A query keeps the k passing candidates of smallest distance, each identifier once, in order. For every index,
map, member and query: what a query's probes keep comes from candidates that passed the filter at their
distance, every passing entry of this member in a page that one of the query's own probes reads among them, and
for every list of candidates the kept list is ascending in distance and then identifier, holds each identifier
once, at the smallest distance at which it was offered, and holds every identifier offered; so its first k are
the nearest k. Cites: R392, R394. -/
def Obligations.KeptCandidatesAreTheNearest : Prop :=
  (∀ (x : IdxO) (m : MapO) (self k : Nat) (q : Query), ∃ cs : List (Nat × W64), (scan x m self k q).kept = cs.foldl keep []
    ∧ (∀ c ∈ cs, ∃ e : IEntry, passes q e c.1 = true ∧ distance x q.code e.code = c.1 ∧ e.id = c.2)
    ∧ ∀ j < q.probes,
      let at' := probeAt x q.code ((probeMasks x.keyBits).take 65) j
      ∀ e ∈ (chain x at'.1 at'.2).flatten, e.id ≠ 0 → ownEntry m self e = true → passes q e (distance x q.code e.code) = true →
        (distance x q.code e.code, e.id) ∈ cs)
  ∧ (∀ (cs : List (Nat × W64)),
    let l := cs.foldl keep []
    l.Pairwise (fun a b => nearer a b = true) ∧ (l.map (·.2)).Nodup
    ∧ (∀ c ∈ l, c ∈ cs ∧ ∀ d ∈ cs, d.2 = c.2 → c.1 ≤ d.1) ∧ (∀ d ∈ cs, ∃ c ∈ l, c.2 = d.2)
    ∧ (∀ k, ∀ c ∈ l.take k, ∀ d ∈ cs, d.2 ∉ (l.take k).map (·.2) → nearer c d = true))

/-- Allocations are made, copied, sealed, mapped, unmapped and freed; quotas are set and read. For every ready
command: MEM_ALLOC in range, placed in its tier with quota and room (both halves of a CRITICAL one, log entry
206), adds an object of type 13 charged there and an empty allocation; MEM_COPY from the host writes the
bytes the host gave at the offset and answers how many, and to the host sends the allocation's bytes, up to a
poisoned word if there is one, then with ST_E_MEDIA; MEM_SEAL of an unsealed compressed allocation without
poison keeps a number of stored blocks between one for sixteen units and one for each and charges them;
MEM_MAP_BAR4 of a plain stacked allocation takes the page asked for, or a free one; MEM_UNMAP_BAR4 ends the
mapping; MEM_FREE of an unmapped one without dependants marks it closing; MEM_QUOTA_SET stores the quota and
recounts; MEM_QUOTA_QUERY and MEM_STATS answer their records. Cites: R101, R102, R103, R105, R107, R108, R109,
R110, R111, R577, R580, Table 3.13. -/
def Obligations.MemoryCommandsComplete : Prop :=
  ∀ (r : ReqRef) (io : Io) (s : State) (q : Req) (c : Ctx),
    (let a := allocArgs c
     let p := placeAlloc c.fn a s
     let tier := if p.1 then 0 else 1
     let n := occupied p.1 (a.flags.testBit 5) a.size
     IsReady iMemAlloc r io s q c → quotaPair c.fn tier n p.2.2 = .ok () → countType 13 p.2.2 < 65536 → quotaOver c.fn tier n p.2.2 = 0 →
     (p.1 = true → n ≤ extent p.2.1 p.2.2) → (p.1 = false → n ≤ stackedFree p.2.2) →
     let w := newObj 13 (2 ^ 32) c.fn c.sess [] (a.flags.testBit 4) (if p.1 then n else 0) (if p.1 then 0 else n) p.2.2
     let s1 := charge c.fn tier n w.2.2
     exec (.memAlloc r io) s = answered q stOk w.1 w.2.1 none { s1 with mem.allocs := s1.mem.allocs ++ [
       { slot := w.1, size := a.size, onchip := p.1, flags := a.flags, align := a.align, cluster := p.2.1, mapped := none
         sealed := none, mem := [], poison := [], badPair := [] }] })
    ∧ (∀ a, getAlloc (objSlot c) s = some a →
      (IsReady iMemCopy r io s q c → (getFn c.fn s).busMaster = true →
        (prm c 20 1 = 0 → a.sealed = none →
          let bs := c.io.payload.bytes.take (prm c 16 4)
          let s1 := updAlloc a.slot (Alloc.write (prm c 8 8) bs) s
          (c.io.payload.fail = none → exec (.memCopy r io) s = answered q stOk bs.length 0 none s1)
          ∧ (∀ f, c.io.payload.fail = some f → exec (.memCopy r io) s = answered q (readFail f) bs.length 0 none s1))
        ∧ (prm c 20 1 = 1 → a.pairBad (prm c 8 8) (prm c 16 4) = false → a.firstPoison (prm c 8 8) (prm c 16 4) = none →
          exec (.memCopy r io) s
            = answered q stOk (prm c 16 4) 0 none (dma c.fn (prm c 0 8) (memRead a.mem (prm c 8 8) (prm c 16 4)) s))
        ∧ (∀ w, prm c 20 1 = 1 → a.pairBad (prm c 8 8) (prm c 16 4) = false → a.firstPoison (prm c 8 8) (prm c 16 4) = some w →
          exec (.memCopy r io) s = answered q stMedia (4 * w - prm c 8 8) 0 none
            (poisonMet a.slot 1 (dma c.fn (prm c 0 8) (memRead a.mem (prm c 8 8) (4 * w - prm c 8 8)) s))))
      ∧ (IsReady iMemSeal r io s q c → a.compress = true → a.sealed = none → a.poison = [] →
        let units := ceilDiv a.size 4096
        ∃ n, ceilDiv units 16 ≤ n ∧ (ceilDiv units 16 ≤ units → n ≤ units) ∧
          exec (.memSeal r io) s = answered q stOk n 0 none
            (recharge 13 a.slot 0 (n * 4096) (updAlloc a.slot (fun a => { a with sealed := some n }) (draw s).2)))
      ∧ (IsReady iMemMapBar4 r io s q c → a.tierStacked = true → a.compress = false → a.critical = false → a.mapped = none →
        (prm c 0 4 ≠ 0xFFFFFFFF → windowFree (prm c 0 4) (pagesOf a) s = true → exec (.memMapBar4 r io) s
          = answered q stOk (prm c 0 4) 0 none (updAlloc a.slot (fun a => { a with mapped := some (prm c 0 4) }) s))
        ∧ (∀ p s', prm c 0 4 = 0xFFFFFFFF → windowChoice (pagesOf a) s = (some p, s') → exec (.memMapBar4 r io) s
          = answered q stOk p 0 none (updAlloc a.slot (fun a => { a with mapped := some p }) s')))
      ∧ (IsReady iMemUnmapBar4 r io s q c → a.mapped.isSome = true →
        exec (.memUnmapBar4 r io) s = answered q stOk 0 0 none (updAlloc a.slot (fun a => { a with mapped := none }) s))
      ∧ (∀ o, IsReady iMemFree r io s q c → a.mapped = none → c.obj = some o → dependants o.ty o.slot s = [] →
        exec (.memFree r io) s = goesOn q (updObj o.ty o.slot (fun y => { y with st := .closing (some (reqRef c.q)) }) s)))
    ∧ (IsReady iMemQuotaSet r io s q c →
      exec (.memQuotaSet r io) s = answered q stOk 0 0 none (updQuota (prm c 0 1) (prm c 1 1) (fun q =>
        { q with quota := prm c 4 8, used := Comp.of (recount (prm c 0 1) (prm c 1 1) s) }) s))
    ∧ (IsReady iMemQuotaQuery r io s q c → quotaPair (prm c 12 1) (prm c 13 1) 1 s = .ok () →
      let u := getQuota (prm c 12 1) (prm c 13 1) s
      exec (.memQuotaQuery r io) s = answered q stOk 0 0
        (some (leBytes 8 u.quota ++ leBytes 8 u.used.n ++ leBytes 8 u.peak ++ leBytes 8 u.refused)) s)
    ∧ (IsReady iMemStats r io s q c → exec (.memStats r io) s = answered q stOk 0 0 (some (statsRecord s)) s)

/-- BAR4 accesses, moves, the scrub and the refetch have their effects. With the link up, BAR4_ACCESS within one
mapping reads the allocation's bytes, or with a poisoned word among them answers a poisoned completion and
leaves its fault record, and writes store them; outside every mapping a read answers all ones and both count;
BAR4_MISS_READ answers the count and clears it; with the link down both do nothing. ALLOC_MOVE of an allocation
made with neither tier flag, unpinned, uncompressed, not in use and powered moves it if the other tier takes it,
and of any other does nothing. SCRUB_READ while the scrub runs has the outcome of what it finds in a memory
whose domain is on, and none in one that is off (log entry 199). GRANULE_RETIRE_DONE ends a retirement.
REFETCH_PASS_END of a running pass restores every retained block when the digest, the decoding and the pool
allow, and otherwise gives them up with their records, a failed read being retried twice (log entries
197, 275); REFETCH_RETRY starts the next pass when it is due. Cites: R35, R36, R407, R409,
R411, R412, R413, R424, R425. -/
def Obligations.MemoryEventsComplete : Prop :=
  (∀ (off : Nat) (acc : Bar4Access) (s : State),
    (s.link.up = false → exec (.bar4Access off acc) s = .next (settle s) ∧ exec .bar4MissRead s = .next s)
    ∧ (s.link.up = true →
      exec .bar4MissRead s = .next (emit (.read s.link.bar4Miss) { s with link.bar4Miss := 0 })
      ∧ (∀ len, acc = .read len →
        (bar4Hit off len s = none → exec (.bar4Access off acc) s = .next (settle (emit (.bar4 (List.replicate len 0xFF)) (bar4Miss s))))
        ∧ (∀ a o, bar4Hit off len s = some (a, o) →
          (a.firstPoison o len = none → exec (.bar4Access off acc) s = .next (settle (emit (.bar4 (memRead a.mem o len)) s)))
          ∧ (a.firstPoison o len ≠ none → exec (.bar4Access off acc) s = .next (settle (emit .poisonedTlp (poisonMet a.slot 0 s))))))
      ∧ (∀ bs, acc = .write bs →
        (bar4Hit off bs.length s = none → exec (.bar4Access off acc) s = .next (settle (bar4Miss s)))
        ∧ (∀ a o, bar4Hit off bs.length s = some (a, o) →
          exec (.bar4Access off acc) s = .next (settle (updAlloc a.slot (Alloc.write o bs) s))))))
  ∧ (∀ (slot : Nat) (s : State) (a : Alloc) (o : Obj), getAlloc slot s = some a → getObj 13 slot s = some o →
    a.tierOnchip = false → a.tierStacked = false → a.pin = false → a.compress = false → allocInUse slot s = false →
    (a.onchip = true → domOn (64 + a.cluster) s = true) → exec (.allocMove slot) s = .next (moveAlloc a o.fn s))
  ∧ (∀ (slot : Nat) (s : State) (a : Alloc), getAlloc slot s = some a →
    a.tierOnchip = true ∨ a.tierStacked = true ∨ a.pin = true ∨ a.compress = true ∨ allocInUse slot s = true →
    exec (.allocMove slot) s = .next s)
  ∧ (∀ (s : State), scrubLive s = true →
    exec (.scrubRead .clean) s = .next s
    ∧ (∀ p w y, exec (.scrubRead (.corrected p w y)) s = if placeOn p s then .next (settle (correctedAt p w y s)) else .next s)
    ∧ (∀ p k y, exec (.scrubRead (.uncorrectable p k y)) s = if placeOn p s then .next (settle (uncorrectable p k y s)) else .next s))
  ∧ (∀ (f : ScrubFind) (s : State), scrubLive s = false → exec (.scrubRead f) s = .next s)
  ∧ (∀ (g : Nat) (s : State), exec (.granuleRetireDone g) s = .next { s with mem.retiring := s.mem.retiring.filter (· != g) })
  ∧ (∀ (pkg : Nat) (got : HostRead) (s : State) (p : Pkg) (r : Refetch), getPkg pkg s = some p → p.refetch = some r →
    (r.retryAt = none →
      let is := retained p r s.fresh
      let s0 := { s with fresh := s.fresh + p.blocks.length }
      (got.fail ≠ none → exec (.refetchPassEnd pkg got) s = .next (settle (passFailed p r is s0)))
      ∧ (got.fail = none → (pkgDigest got.bytes && slice got.bytes 32 64 == p.digest) = false → exec (.refetchPassEnd pkg got) s
          = .next (settle (giveUpBlocks pkg is (raise 0x0403 (is.headD 0) (some (5, pkg)) s0))))
      ∧ (got.fail = none → (pkgDigest got.bytes && slice got.bytes 32 64 == p.digest) = true →
        (is.all fun i => (p.blocks[i]?).all (redecoded got.bytes)) = false →
        let bad := is.filter fun i => !(p.blocks[i]?).all (redecoded got.bytes)
        exec (.refetchPassEnd pkg got) s = .next (settle (giveUpBlocks pkg is (bad.foldl (fun s _ => undecoded pkg s) s0))))
      ∧ (got.fail = none → (pkgDigest got.bytes && slice got.bytes 32 64 == p.digest) = true →
        (is.all fun i => (p.blocks[i]?).all (redecoded got.bytes)) = true →
        (takeGranules is.length s0 = none → exec (.refetchPassEnd pkg got) s = .next (settle (giveUpBlocks pkg is s0)))
        ∧ ∀ s1, takeGranules is.length s0 = some s1 → exec (.refetchPassEnd pkg got) s
          = .next (settle (startRefetch pkg (updPkg pkg (fun p => { p with refetch := none }) (is.foldl (restoreBlock pkg) s1))))))
    ∧ (dueOpt r.retryAt s = false → exec (.refetchRetry pkg) s = .next s)
    ∧ (dueOpt r.retryAt s = true → exec (.refetchRetry pkg) s
      = .next (updPkg pkg (fun p' => { p' with refetch := some { r with retryAt := none, blocks := quarantined p } }) s)))

/-- A copy in and a window write change only the bytes they name; copies out, reads, queries and statistics change
none. For every state whose memories are canonical and every next state: after MEM_COPY from the host every
allocation that is left has its bytes as before, but for the bytes from the offset on that the host gave, which
in the named allocation read as given; after a BAR4 write within a mapping likewise; after MEM_COPY to the host,
a BAR4 read, MEM_QUOTA_SET, MEM_QUOTA_QUERY and MEM_STATS every byte of every allocation left reads as before.
Cites: R35, R36, R108, R409, R577. -/
def Obligations.CopiesStoreOnlyTheirBytes : Prop :=
  ∀ (s t : State), s.memsOk = true →
    (let same : Prop := ∀ n b, getAlloc n t = some b → ∃ a, getAlloc n s = some a ∧ ∀ x, memGet b.mem x = memGet a.mem x
     let stored (slot off : Nat) (bs : List Byte) : Prop := ∀ n b, getAlloc n t = some b → ∃ a, getAlloc n s = some a
       ∧ ∀ x, memGet b.mem x = if n = slot ∧ off ≤ x ∧ x < off + bs.length then bs[x - off]?.getD 0 else memGet a.mem x
     (∀ r io q c, IsReady iMemCopy r io s q c → (getFn c.fn s).busMaster = true → exec (.memCopy r io) s = .next t →
       (prm c 20 1 = 0 → ((getAlloc (objSlot c) s).any fun a => a.sealed.isNone) = true →
         stored (objSlot c) (prm c 8 8) (c.io.payload.bytes.take (prm c 16 4)))
       ∧ (prm c 20 1 = 1 → same))
     ∧ (∀ off bs a o, s.link.up = true → bar4Hit off bs.length s = some (a, o) → getAlloc a.slot s = some a →
       exec (.bar4Access off (.write bs)) s = .next t → stored a.slot o bs)
     ∧ (∀ off len, exec (.bar4Access off (.read len)) s = .next t → same)
     ∧ (∀ r io, (exec (.memQuotaSet r io) s = .next t ∨ exec (.memQuotaQuery r io) s = .next t ∨ exec (.memStats r io) s = .next t) → same))

/-- Ensembles form, are joined, left, pruned, re-sharded and reported. For every ready command: ENS_FORM past the
checks of its descriptor and identity adds an object of type 12 and a joined ensemble of this member alone;
ENS_JOIN with free pads and the same checks makes a joining ensemble and waits; ENS_LEAVE with room in the
journal and on the members that take its shards (log entry 278) opens a journalled operation, lists the
replicas to build and completes at once when there are none; ENS_REMOVE with quorum of another present member
sends the present set and takes that member away; ENS_RESHARD of a map homed here, not being moved, with a plan
of present members that fits, stores the plan and moves the first changed shard, or completes when none changes;
ENS_STATUS answers its record. Cites: R433, R437, R438, R440, R449, R452, R456, R457, R458, R505, Table 13.5. -/
def Obligations.EnsembleCommandsComplete : Prop :=
  ∀ (r : ReqRef) (io : Io) (s : State) (q : Req) (c : Ctx),
    (IsReady iEnsForm r io s q c → ensCheck c s = .ok () →
      let w := newObj 12 (2 ^ 32) 0 c.sess [] false 0 0 s
      exec (.ensForm r io) s = answered q stOk w.1 w.2.1 none { w.2.2 with
        ens.ens := some { newEns c.pay 1 (2 ^ ownMember s) (ownMember s) none with slot := w.1 } })
    ∧ (IsReady iEnsJoin r io s q c → (getDom 95 s).pads = false → ensCheck c s = .ok () →
      exec (.ensJoin r io) s = goesOn q { s with ens.ens := some (newEns c.pay 0 0 (ownMember s) (some (reqRef c.q))) })
    ∧ (∀ e, s.ens.ens = some e → e.broken = false →
      (IsReady iEnsLeave r io s q c → e.leave = none → journalRoom s = .ok () →
        let moves := leaveMoves s
        let w := (moves.filter fun m => m.2.2 != ownMember s).foldl (fun (x : Nat × State) (m : Nat × Nat × Nat) =>
          let d := targetShort m.2.2 ((getMap m.1 x.2).elim 0 fun y => shardBytes y m.2.1) x.2
          (max x.1 d.1, d.2)) (0, s)
        w.1 = 0 →
        let t := (draw w.2).2
        let j := journalBegin 4 (reqRef c.q) c.q.opcode (handleOf 12 e.slot t) 0 t
        let s1 := updEns (fun e => { e with state := 3, leave := some (reqRef c.q, j.1) }) j.2
        let s2 := { s1 with ens.replicas := s1.ens.replicas ++ moves.map fun m => (m.1, m.2.1, m.2.2, j.1) }
        exec (.ensLeave r io) s = .next (settle (finishLeave (settle (markRunning q s2)))))
      ∧ (IsReady iEnsRemove r io s q c → e.state ≠ 2 → prm c 0 1 ≠ ownMember s → e.present.testBit (prm c 0 1) = true →
        exec (.ensRemove r io) s = answered q stOk 0 0 none (loseMember (prm c 0 1)
          ((bitsIn e.present).foldl (fun s j => if j = ownMember s then s else sendTo j "PRESENT" s) s)))
      ∧ (∀ m, IsReady iEnsReshard r io s q c → getMap (prm c 0 8 % 2 ^ 32) s = some m → m.homeAt = ownMember s → m.broken = false →
        let plan := planOf c.pay
        (plan.zipIdx.all fun (p, i) => pairOk (shardCount m) e.present i p) = true → m.repot = none → m.resharding = none →
        e.state ≠ 2 → repottings s < 4 → journalRoom s = .ok () →
        let ens := localShards m (ownMember s)
        let gains := (ens.zip plan).zipIdx.flatMap fun ((x, p), sh) =>
          ([p.1, p.2].filter fun k => x.primary != some k && x.understudy != some k).map fun k => (k, shardBytes m sh)
        let w := gains.foldl (fun (x : Nat × State) (g : Nat × Nat) =>
          let d := targetShort g.1 g.2 x.2
          (max x.1 d.1, d.2)) (0, s)
        w.1 = 0 →
        let t := settle (markRunning q (updMap m.slot (fun m => { m with ens, resharding := some (reqRef c.q, plan, 0, 0) }) (draw w.2).2))
        exec (.ensReshard r io) s
          = .next (settle ((t.map.maps.filter fun m => m.repot.isNone).foldl (fun s (m : MapO) => advanceReshard m.slot s) t)))
      ∧ (IsReady iEnsStatus r io s q c → exec (.ensStatus r io) s = answered q stOk 0 0 (some (ensRecord e s)) s))

/-- Links train, authenticate, carry frames, are re-keyed and lost; members are lost; replicas commit; time is
followed. On a live port of a ready device: TRELLIS_LINK_TRAINED with the peer the wiring gives starts the
handshake, with another refuses the port with reason 1; the handshake's messages each move the port a step, or
refuse it by the reason of the first check that fails; a refused port trains again at TRELLIS_REFUSAL_RETRY, a
second after its refusal; TRELLIS_REKEY of a link that is due starts a key exchange; on an up link
TRELLIS_FRAME_RECEIVED with a good tag, or one of the old keys within their millisecond, is taken (log entry
279), and the sixteenth bad tag in a second takes the link back to authentication; TRELLIS_LINK_LOST of
an up link clears it and its keys and raises 0x0A02 (log entry 112). MEMBER_LOSS of a present member out of
reach for the loss time takes it out, or without quorum ends service of ensemble maps. REPLICA_COMMIT commits a
replica under way. ENS_TIME_SYNC of a follower steps the time base at the first exchange and slews it later.
Cites: R431, R432, R434, R435, R436, R437, R438, R439, R444, R445, R449, R456. -/
def Obligations.EnsembleEventsComplete : Prop :=
  (∀ (p peer : Nat) (s : State), trellisLive p s = true → ready s = true → (getPort p s).state < 2 ∨ 3 < (getPort p s).state →
    let s1 := updPort p (fun x => { x with state := 2, step := 1, peer }) s
    (peer ≠ (ownMember s + p + 1) % 8 → exec (.trellisLinkTrained p peer) s = .next (settle (refusePort p 1 s1)))
    ∧ (peer = (ownMember s + p + 1) % 8 → exec (.trellisLinkTrained p peer) s
      = .next (settle (if s1.ens.ens.isSome then emit (.trellis p "ENSEMBLE_ID") s1 else s1))))
  ∧ (∀ (p : Nat) (s : State) (e : Ens), s.ens.ens = some e →
    let x := getPort p s
    (x.state = 2 → x.step = 1 →
      (∀ id, id ≠ e.id → exec (.trellisHandshakeMessage p (.ensembleId id)) s = .next (settle (dropJoin stEnsMismatch (refusePort p 2 s))))
      ∧ (let s1 := updPort p (fun x => { x with step := 2 }) s
         exec (.trellisHandshakeMessage p (.ensembleId e.id)) s
           = .next (settle (if ownMember s1 < x.peer then emit (.trellis p "KEY_EXCHANGE") s1 else s1))))
    ∧ (∀ identity sigOk life secret, (x.state = 2 ∨ x.state = 3) → x.step = 2 →
      (∀ reason, handshakeFault e x.peer identity sigOk life = some reason →
        exec (.trellisHandshakeMessage p (.keyExchange identity sigOk life secret)) s = .next (settle (refusePort p reason s)))
      ∧ (handshakeFault e x.peer identity sigOk life = none →
        let s1 := if x.peer < ownMember s then emit (.trellis p "KEY_REPLY") s else s
        exec (.trellisHandshakeMessage p (.keyExchange identity sigOk life secret)) s
          = .next (settle (if x.state = 2 then portUp p secret s1 else rekeyed p secret s1))))
    ∧ (∀ mask, x.state = 3 → exec (.trellisHandshakeMessage p (.present mask)) s = .next (settle (agree mask s)))
    ∧ (x.state = 3 → x.step = 5 → (x.keyed + ensRekeyS e * secT ≤ s.time.mono ∨ 2 ^ 40 ≤ x.keyFrames) →
      let s1 := updPort p (fun x => { x with step := 2 }) s
      exec (.trellisRekey p) s = .next (settle (if ownMember s1 < x.peer then emit (.trellis p "KEY_EXCHANGE") s1 else s1)))
    ∧ (∀ k, (e.state = 1 ∨ e.state = 3) → k ≠ ownMember s → e.present.testBit k = true → reached k s = false →
      (getPort (portTo k s) s).downAt + ensLossUs e * usT ≤ s.time.mono →
      exec (.memberLoss k) s = .next (settle (if hasQuorum e s then loseMember k s else loseQuorum s)))
    ∧ (∀ offset, followsMember s = true → e.state = 1 → reached e.timeRef s = true →
      let good := if offset.natAbs ≤ 10 then s.time.good + 1 else 0
      let s1 := updPort (portTo e.timeRef s) (fun x => { x with offset }) s
      let s1 := if s.time.servo = 3 then leaveHoldover 1 s1 else s1
      exec (.ensTimeSync offset) s = .next (settle (
        let s2 := { s1 with time := { s1.time with offset, good, servo := if s1.time.servo = 2 then 2 else 1 } }
        let s2 := if e.stepped then addSlew (-offset) s2
          else updEns (fun e => { e with stepped := true }) (stepTime (-(offset * 65536)) s2)
        if s2.time.servo = 1 ∧ 16 ≤ good then
          raise 0x0C01 (codeOf 48 offset) none { s2 with time := { s2.time with servo := 2, ensLocked := true } } else s2))))
  ∧ (∀ (p : Nat) (s : State), (getPort p s).state = 4 → trellisLive p s = true → (getPort p s).downAt + secT ≤ s.time.mono →
    exec (.trellisRefusalRetry p) s
      = .next (settle (emit (.trellis p "TRAIN") (updPort p (fun x => { x with state := 1, step := 0, refusals := x.refusals + 1 }) s))))
  ∧ (∀ (p : Nat) (s : State), (getPort p s).state = 3 →
    let x := getPort p s
    let recent := s.time.mono :: x.recent.filter fun t => decide (s.time.mono < t + secT)
    let s1 := updPort p (fun x => { x with tagFails := x.tagFails + 1, recent }) s
    (∀ tag m, (tagTaken tag x s = true → exec (.trellisFrameReceived p tag m) s = .next (settle (frameIn p m s)))
      ∧ (tagTaken tag x s = false → recent.length < 16 → exec (.trellisFrameReceived p tag m) s = .next s1)
      ∧ (tagTaken tag x s = false → 16 ≤ recent.length → exec (.trellisFrameReceived p tag m) s = .next (settle (emit (.trellis p "ENSEMBLE_ID")
        (raiseEns 0x0A02 (p + x.peer * 256 + 6 * 65536) (updPort p (fun x => { x with
          state := 2, step := 1, reason := 6, recent := [], keys := [], oldUntil := none, downAt := s1.time.mono }) s1))))))
    ∧ tagTaken .present x s = true ∧ tagTaken .bad x s = false
    ∧ (let s2 := updPort p (fun x => { x with state := 0, step := 0, keys := [], downAt := s.time.mono }) s
       let relays := (List.range 8).filter fun k => k != x.peer && memberHere k s2 && linkUp k s2
       let d := draw s2
       exec (.trellisLinkLost p) s = .next (settle (raiseEns 0x0A02 (p + x.peer * 256)
         (if memberHere x.peer d.2 && !relays.isEmpty && d.1 % 2 == 0 then updPort p (fun x => { x with state := 5 }) d.2 else d.2)))))
  ∧ (∀ (map sh k op k0 s0 : Nat) (s : State), (s.ens.replicas.find? fun r => r.1 == map && r.2.1 == sh) = some (k0, s0, k, op) →
    exec (.replicaCommit map sh) s = .next (settle (finishLeave (commitReplica map sh k op s))))

/-- Caps, level range, parking, pads, status, counters and the entry into a sleep state. For every ready command:
PWR_CAP_SET stores each limit it names and clears its LIM_STATUS bit; PWR_LEVEL_SET stores the new range and,
unless the hardware holds the level (log entry 126), moves the present level into it at once and answers
the level; PWR_DOMAIN_PARK stores mode 0 or 1 with HOLD and IDLE_MS, and mode 1 on a parked domain starts its
return, while modes 2 and 3 on a domain without work park it with its self-test (a domain already off stays
off); with work it ends ST_E_PWR_REFUSED with the refuser, which is counted; PWR_PAD_RELEASE of domains that are
on releases those held and answers their bits, with one that is off ends ST_E_STATE; PWR_STATUS and PWR_COUNTERS
answer their records; PWR_STATE_ENTER (into S3 with the crystal fitted, else ST_E_STATE) that no condition
refuses begins the entry and goes on, and one that a condition refuses ends ST_E_PWR_REFUSED with the refuser in
RESULT0, counted. Cites: R459, R461, R467, R468, R473, R475, R476, R490, R491, R541, Table 14.10, Table 14.11. -/
def Obligations.PowerCommandsComplete : Prop :=
  ∀ (r : ReqRef) (io : Io) (s : State) (q : Req) (c : Ctx),
    (IsReady iPwrCapSet r io s q c →
      let cap := prm c 0 2
      let tj := prm c 2 1
      exec (.pwrCapSet r io) s = answered q stOk 0 0 none { s with pwr := { s.pwr with
        cap := if cap = 0xFFFF then s.pwr.cap else Comp.of cap
        capDefault := if cap = 0xFFFF then s.pwr.capDefault else false
        tj := if tj = 0xFF then s.pwr.tj else Comp.of tj
        tjDefault := if tj = 0xFF then s.pwr.tjDefault else false } })
    ∧ (IsReady iPwrLevelSet r io s q c →
      let f := if prm c 0 1 = 0xFF then s.pwr.fastest else prm c 0 1
      let l := if prm c 1 1 = 0xFF then s.pwr.slowest else prm c 1 1
      let s1 : State := { s with pwr := { s.pwr with fastest := f, slowest := l } }
      (levelForced s = true → exec (.pwrLevelSet r io) s = answered q stOk s.pwr.level 0 none s1)
      ∧ (levelForced s = false →
        let s2 := setLevel (max f (min l s.pwr.level)) s1
        exec (.pwrLevelSet r io) s = answered q stOk s2.pwr.level 0 none { s2 with pwr := { s2.pwr with belowFloor := false } }))
    ∧ (IsReady iPwrDomainPark r io s q c →
      let d := prm c 0 1
      let off := !(getDom d s).on
      let named (m : Nat) : State := updDom d (fun x => { x with
        mode := m, hold := (prm c 2 1).testBit 0, idleMs := if prm c 4 4 = 0 then 100 else prm c 4 4
        idleAt := if x.mode = 0 then x.idleAt else s.time.mono }) s
      (prm c 1 1 = 0 → exec (.pwrDomainPark r io) s = answered q stOk 0 0 none (named 0))
      ∧ (prm c 1 1 = 1 → exec (.pwrDomainPark r io) s
          = answered q stOk 0 0 none (if off && !domBarred d (named 1) then startReturn [d] (named 1) else named 1))
      ∧ (2 ≤ prm c 1 1 → domWork d s = none →
        let s1 := named (if prm c 1 1 = 2 then 0 else 3)
        exec (.pwrDomainPark r io) s
          = answered q stOk 0 0 none (if off then updDom d (fun x => { x with returning := false }) s1 else parkDom d none s1))
      ∧ (∀ w, 2 ≤ prm c 1 1 → domWork d s = some w → exec (.pwrDomainPark r io) s
          = answered q 0x8B01 w 0 none (logPower 2 d w 0 { s with pwr := { s.pwr with parksRefused := sat32 s.pwr.parksRefused 1 } })))
    ∧ (IsReady iPwrPadRelease r io s q c →
      let named := (padDoms.zipIdx.filter fun (_, i) => (prm c 0 1).testBit i)
      (named.all fun (d, _) => domOn d s) = true →
      exec (.pwrPadRelease r io) s = answered q stOk ((named.filter fun (d, _) => (getDom d s).pads).map fun (_, i) => 2 ^ i).sum 0 none
        (named.foldl (fun s (x : Nat × Nat) => releasePads x.1 s) s))
    ∧ (IsReady iPwrPadRelease r io s q c → (padDoms.zipIdx.all fun (d, i) => !(prm c 0 1).testBit i || domOn d s) = false →
      exec (.pwrPadRelease r io) s = answered q stState 0 0 none s)
    ∧ (IsReady iPwrStateEnter r io s q c → prm c 0 1 = 3 → s.boot.straps.crystal = false →
      exec (.pwrStateEnter r io) s = answered q stState 0 0 none s)
    ∧ (IsReady iPwrStatus r io s q c →
      exec (.pwrStatus r io) s = answered q stOk 0 0 (some (pwrRecord (limFix s))) (limFix s))
    ∧ (IsReady iPwrCounters r io s q c →
      exec (.pwrCounters r io) s = answered q stOk 0 0 (some (countersRecord s)) s)
    ∧ (IsReady iPwrStateEnter r io s q c → prm c 0 1 ≠ 3 ∨ s.boot.straps.crystal = true →
      let st := prm c 0 1
      (entryRefuser st s = none → exec (.pwrStateEnter r io) s
        = goesOn q (beginEntry st (prm c 1 1) (prm c 2 1) (if prm c 4 2 = 0 then 100 else prm c 4 2) (reqRef c.q) s))
      ∧ (∀ w, entryRefuser st s = some w → exec (.pwrStateEnter r io) s
        = answered q 0x8B01 w 0 none (logPower 0 st w 0 { s with pwr := { s.pwr with refused := sat32 s.pwr.refused 1 } })))

/-- Level choices, the hardware backstop, the trip, idle parking, returns and self-tests. LEVEL_CHOICE_TICK, 10 ms
after the last, on a ready device first gives an unusable limit its default and takes the readings; unless the
hardware holds the level (log entry 126): below the junction limit the level becomes the fastest that
fits (P7 if none; log entry 123), and past SLOWEST event 0x0B01 is raised when that is news; at or above
the limit it goes one level slower, or to the one that fits if slower still. POWER_BACKSTOP_TICK, 1 ms after the
last, forces one step at 5 degrees above the junction limit (log entry 124), and otherwise the sixth
consecutive millisecond above 1.10 times the cap is the first that is forced (log entry 125), each further
one until the power is below the cap, the tenth below it in a row releases. THERMAL_TRIP at 115 degrees trips
and raises the temperature alarm. DOMAIN_IDLE_PARK parks an idle domain in mode 0, else changes nothing.
DOMAIN_RETURN_DONE powers a returning domain after its delay, its pads released unless HOLD. SELFTEST_SLICE_DONE
abandons a test that work waits for, goes to the next slice, or judges the finished test. Cites: R461, R463,
R464, R467, R469, R470, R473, R474, R512, R513, R514. -/
def Obligations.PowerEventsComplete : Prop :=
  (∀ (powerMw : Nat) (tj : Int) (s : State),
    (ready s = false ∨ s.time.mono < s.pwr.choiceAt + 10 * msT → exec (.levelChoiceTick powerMw tj) s = .next (settle s))
    ∧ (ready s = true → s.pwr.choiceAt + 10 * msT ≤ s.time.mono →
      let f := limFix s
      let s1 : State := { f with pwr := { f.pwr with power := powerMw, temp := tj, choiceAt := f.time.mono } }
      let l := ((List.range 8).find? fun l => decide (s1.pwr.fastest ≤ l)
        && decide (powerMw * levelPower l ≤ 95 * s1.pwr.cap.n * levelPower s1.pwr.level)).getD 7
      (levelForced s1 = true → exec (.levelChoiceTick powerMw tj) s = .next (settle s1))
      ∧ (levelForced s1 = false → (s1.pwr.tj.n : Int) * 10 ≤ tj →
        exec (.levelChoiceTick powerMw tj) s = .next (settle (setLevel (max (min 7 (s1.pwr.level + 1)) l) s1)))
      ∧ (levelForced s1 = false → tj < (s1.pwr.tj.n : Int) * 10 →
        let below := decide (s1.pwr.slowest < l)
        let s2 := setLevel l { s1 with pwr := { s1.pwr with belowFloor := below } }
        exec (.levelChoiceTick powerMw tj) s = .next (settle (
          if below && (!s1.pwr.belowFloor || l != s1.pwr.level) then raise 0x0B01 (l + sat16 (powerMw / 100) * 256) none s2 else s2)))))
  ∧ (∀ (powerMw : Nat) (tj : Int) (s : State),
    (backstopLive s = false ∨ s.time.mono < s.pwr.stopAt + msT → exec (.powerBackstopTick powerMw tj) s = .next (settle s))
    ∧ (backstopLive s = true → s.pwr.stopAt + msT ≤ s.time.mono →
    let f := limFix { s with pwr := { s.pwr with temp := tj, stopAt := s.time.mono } }
    let above := if f.pwr.cap.n * 100 * 11 < powerMw * 10 then f.pwr.overMs + 1 else 0
    let hot := decide (((f.pwr.tj.n : Int) + 5) * 10 ≤ tj)
    let s0 := if f.pwr.trip && decide (tj < 1000) then emit (.pin "THERMTRIP_N" true) { f with pwr := { f.pwr with trip := false } } else f
    let s1 := if hot then forceSlower 1 { s0 with pwr := { s0.pwr with thermal := true } } else { s0 with pwr := { s0.pwr with thermal := false } }
    let s2 := { s1 with pwr := { s1.pwr with overMs := min above 6 } }
    let whole (t : State) : State := if hot || s0.pwr.trip then t else { t with pwr := { t.pwr with eighths := 0 } }
    (f.pwr.backstop = false → above < 6 → exec (.powerBackstopTick powerMw tj) s = .next (settle (whole s2)))
    ∧ (f.pwr.backstop = false → 6 ≤ above → exec (.powerBackstopTick powerMw tj) s
        = .next (settle (forceSlower 0 { s2 with pwr := { s2.pwr with backstop := true, underMs := 0 } })))
    ∧ (f.pwr.backstop = true → f.pwr.cap.n * 100 ≤ powerMw → exec (.powerBackstopTick powerMw tj) s
        = .next (settle (forceSlower 0 { s2 with pwr := { s2.pwr with underMs := 0 } })))
    ∧ (f.pwr.backstop = true → powerMw < f.pwr.cap.n * 100 → f.pwr.underMs < 9 → exec (.powerBackstopTick powerMw tj) s
        = .next (settle { s2 with pwr := { s2.pwr with underMs := f.pwr.underMs + 1 } }))
    ∧ (f.pwr.backstop = true → powerMw < f.pwr.cap.n * 100 → 9 ≤ f.pwr.underMs → exec (.powerBackstopTick powerMw tj) s
        = .next (settle (whole { s2 with pwr := { s2.pwr with backstop := false, underMs := 0 } })))))
  ∧ (∀ (tj : Int) (s : State),
    (backstopLive s = true → s.pwr.trip = false → 1150 ≤ tj →
      exec (.thermalTrip tj) s = .next (settle (alarm 3 (codeOf 16 tj) (thermTrip { s with pwr := { s.pwr with temp := tj } }))))
    ∧ (backstopLive s = false ∨ s.pwr.trip = true ∨ tj < 1150 → exec (.thermalTrip tj) s = .next s))
  ∧ (∀ (d : Nat) (s : State), d < 96 →
    (ready s = true → domOn d s = true → (getDom d s).mode = 0 → domWork d s = none →
      ((getDom d s).idleAt + (getDom d s).idleMs * msT ≤ s.time.mono → exec (.domainIdlePark d) s = .next (parkDom d none s))
      ∧ (s.time.mono < (getDom d s).idleAt + (getDom d s).idleMs * msT → exec (.domainIdlePark d) s = .next s))
    ∧ (ready s = false ∨ domOn d s = false ∨ (getDom d s).mode ≠ 0 ∨ domWork d s ≠ none → exec (.domainIdlePark d) s = .next s)
    ∧ ((getDom d s).returning = true → (getDom d s).backAt ≤ s.time.mono → (getDom d s).run = none → (d < 64 → domOn (64 + d / 4) s = true) →
      let s1 := updDom d (fun x => { x with on := true, returning := false, idleAt := s.time.mono }) s
      exec (.domainReturnDone d) s = .next (settle (if (getDom d s).hold then s1 else releasePads d s1)))
    ∧ ((getDom d s).returning = false ∨ s.time.mono < (getDom d s).backAt ∨ (getDom d s).run ≠ none →
      exec (.domainReturnDone d) s = .next (settle s))
    ∧ ((getDom d s).run = none → ∀ bad, exec (.selftestSliceDone d bad) s = .next s)
    ∧ (∀ bad t, (getDom d s).run = some t →
      let found := t.bad ||| bad
      let s1 := updDom d (fun x => { x with run := none, slices := t.slice + 1, tests := sat32 x.tests 1 }) s
      ((getDom d s).returning = true ∨ t.abandon = true → exec (.selftestSliceDone d bad) s
        = .next (settle (endTestReq t.req stAborted 0 (updDom d (fun x => { x with
            run := none, test := 0, slices := t.slice + 1, abandoned := sat32 x.abandoned 1, endAt := s.time.now }) s))))
      ∧ ((getDom d s).returning = false → t.abandon = false → t.slice + 1 < testSlices d → exec (.selftestSliceDone d bad) s
        = .next (updDom d (fun x => { x with run := some { t with slice := t.slice + 1, bad := found } }) s))
      ∧ ((getDom d s).returning = false → t.abandon = false → testSlices d ≤ t.slice + 1 → found = 0 → t.req = none → (getDom d s).fenced ≠ 0 →
        exec (.selftestSliceDone d bad) s = .next (settle (updDom d (fun x => { x with test := 1, endAt := s.time.now }) s1)))
      ∧ ((getDom d s).returning = false → t.abandon = false → testSlices d ≤ t.slice + 1 → (found ≠ 0 ∨ t.req ≠ none ∨ (getDom d s).fenced = 0) →
        exec (.selftestSliceDone d bad) s = .next (settle (endTestReq t.req stOk (if found = 0 then 0 else 1)
          (judgeTest d (if t.req.isSome then found else found ||| (getDom d s).fenced) s1))))))

/-- Entries go on, are aborted or reach their state; wakes start or are latched; returns end; the link trains.
SLEEP_ENTRY_GATED, once no self-test runs: an entry into S1 or S4 posts its completion and is reached (S4
switches the main supplies off), one into S2 or S3 gates the port domains, posts its completion and waits for
the link. PME_TURN_OFF in that wait answers, takes the link to L2 and reaches the state or, by the free value
(log entries 178, 176), aborts at step 7. ENTRY_LINK_TIMEOUT past LINK_WAIT_MS and
DOMAIN_GATE_TIMEOUT of a domain being gated abort the entry. The four wake rows, where the ghost-light domain
lives, are the wake of their source: sideband 0 (acknowledged always), WAKE_N 1 unless the K9 drives it, GPIO n
4+n on its edge; a pulse on a pin below its filter width does nothing, one of its width acts, one between by a
free value (log entry 209). RETURN_COMPLETE after the return's delays with its rails and a good copy of the
measurements ends the return. BROWN_OUT in S3's low-power mode is counted and latched for the security block.
PCIE_LINK_TRAINED on a live device brings the link up and releases WAKE_N, which WAKE_N_DRIVE_EXPIRY does after
1 s. Cites: R20, R475, R477, R479, R480, R481, R482, R484, R485, R486, R488, R555. -/
def Obligations.SleepEventsComplete : Prop :=
  (∀ (e : Sleep) (s : State), s.pwr.sleep = some e → s.pwr.state = 0 →
    (e.step < 4 → s.pwr.doms.any (·.run.isSome) = false →
      (e.target = 1 → exec .sleepEntryGated s = .next (settle (replayLatch (reachState 1 3 (entryDone e s)))))
      ∧ (e.target = 4 → exec .sleepEntryGated s = .next (settle (enterS4 (entryDone e s))))
      ∧ (e.target ≠ 1 → e.target ≠ 4 →
        let s1 := entryDone e (gatePorts s)
        exec .sleepEntryGated s = .next (settle { s1 with pwr := { s1.pwr with
          sleep := some { e with step := 4, req := none, at' := s1.time.mono } } })))
    ∧ (e.step = 4 → e.at' + e.linkWaitMs * msT ≤ s.time.mono →
      exec .entryLinkTimeout s = .next (settle (abortLate (refFw 5) s)))
    ∧ (e.step = 4 →
      let w := draw (linkToL2 s)
      (w.1 % 3 = 1 → exec .pmeTurnOff s = .next (settle (abortLate (refFw 6)
        { w.2 with pwr := { w.2.pwr with sleep := some { e with step := 6 } } })))
      ∧ (w.1 % 3 ≠ 1 → w.1 % 3 = 0 ∨ e.target = 2 →
        let s1 := { w.2 with pwr := { w.2.pwr with sleep := some { e with step := if w.1 % 3 = 0 then 7 else 6 } } }
        let s2 := reachState e.target 7 { s1 with mem := { s1.mem with scrubPaused := true } }
        exec .pmeTurnOff s = .next (settle (replayLatch (if e.target = 3 then enterS3 s2 else s2))))
      ∧ (w.1 % 3 = 2 → e.target = 3 → exec .pmeTurnOff s = .next (settle (abortLate (refFw 7)
        { w.2 with pwr := { w.2.pwr with sleep := some { e with step := 6 } } }))))
    ∧ (∀ d, e.step < 4 → e.at' + msT ≤ s.time.mono →
      (d < 90 → (getDom d s).wakeUp = true → exec (.domainGateTimeout d) s
        = .next (settle (abortEntry 0x8B02 (refDom d) { s with pwr := { s.pwr with sleep := some { e with step := 1 } } })))
      ∧ (padDoms.contains d = true → 2 ≤ e.target → e.target ≠ 4 → domOn d s = true → exec (.domainGateTimeout d) s
        = .next (settle (abortEntry 0x8B02 (refDom d) { s with pwr := { s.pwr with sleep := some { e with step := 2 } } })))))
  ∧ (∀ (s : State), wakeLive s = true →
    (∀ ns, 2000 ≤ ns →
      (s.pwr.wakeDrive = none → exec (.wakeNEdge ns) s = .next (wake 1 false s))
      ∧ (∀ t, s.pwr.wakeDrive = some t → exec (.wakeNEdge ns) s = .next s)
      ∧ (∀ n rising, n < 4 → exec (.gpioWakeEdge n rising ns) s
          = .next (if s.pwr.gpioEdge.testBit n = rising then wake (4 + n) false s else s)))
    ∧ (∀ ns, ns < 1000 → exec (.wakeNEdge ns) s = .next s ∧ ∀ n rising, exec (.gpioWakeEdge n rising ns) s = .next s)
    ∧ (∀ ns, 1000 ≤ ns → ns < 2000 →
      let d := draw s
      (exec (.wakeNEdge ns) s = if d.1 % 2 = 0 then .next d.2 else exec (.wakeNEdge 2000) d.2)
      ∧ ∀ n rising, exec (.gpioWakeEdge n rising ns) s = if d.1 % 2 = 0 then .next d.2 else exec (.gpioWakeEdge n rising 2000) d.2)
    ∧ (exec (.sbWakeTransaction false) s = .next (wake 0 false s)
      ∧ exec (.sbWakeTransaction true) s = .next (wake 0 false (emit (.sideband 0xFF) s))))
  ∧ (∀ (src : Nat) (s : State), s.pwr.state ≠ 4 →
    (∀ x, s.pwr.returning = some x → s.pwr.armed.testBit src = true →
      wake src false s = { s with pwr := { s.pwr with wakes := s.pwr.wakes.modify src fun n => sat32 n 1 } })
    ∧ (s.pwr.returning = none → s.pwr.state = 0 → s.pwr.sleep ≠ none → s.pwr.armed.testBit src = true →
      wake src false s = { s with pwr := { s.pwr with
        pending := s.pwr.pending ||| 2 ^ src, latch := s.pwr.latch ||| 2 ^ src } })
    ∧ (s.pwr.returning = none → s.pwr.state ≠ 0 → s.pwr.armed.testBit src = true → entryTail s = false →
      wake src false s = startWake src 0 { s with pwr := { s.pwr with pending := s.pwr.pending ||| 2 ^ src } })
    ∧ (s.pwr.returning = none → s.pwr.state ≠ 0 ∨ s.pwr.sleep ≠ none → s.pwr.armed.testBit src = false → wake src false s = s))
  ∧ (∀ (left src flags : Nat) (s : State), s.pwr.returning = some (left, src, flags) → left ≠ 3 ∨ s.boot.mainPg = true →
    s.pwr.retAt ≤ s.time.mono →
    ((restoreM s).1 = true → exec .returnComplete s = .next (settle (endReturn left src flags (actLatched (restoreM s).2))))
    ∧ ((restoreM s).1 = false → exec .returnComplete s = .next (failStart 0x0C s)))
  ∧ (∀ (s : State),
    (s.pwr.state = 3 → s.pwr.regLow = true → exec .brownOut s = .next { s with
      pwr := { s.pwr with regLow := false, brownouts := sat32 s.pwr.brownouts 1, brownNow := s.pwr.brownNow + 1 }
      sec := { s.sec with latched := s.sec.latched ++ [(4, 0)] } })
    ∧ (∀ gen width, s.boot.phase = .running → s.boot.perstLow = false → s.pwr.returning ≠ none ∨ s.pwr.state ≤ 1 →
      1 ≤ gen → gen ≤ 5 → [1, 2, 4, 8].contains width = true →
      exec (.pcieLinkTrained gen width) s = .next (releaseWakeN { s with link := { s.link with up := true, gen, width } }))
    ∧ (∀ t, s.pwr.wakeDrive = some t → t + secT ≤ s.time.mono →
      exec .wakeNDriveExpiry s = .next (emit (.pin "WAKE_N" true) { s with pwr := { s.pwr with wakeDrive := none } })))

/-- Supplies, reset pins and reference clocks start, hold and end resets. For pulses of the pin's full filter width
(a shorter one than its least width does nothing, one between acts by a free value, log entry 209):
VAUX_RISE makes a power-on reset that waits for the main rails and asks for them (log entry 148);
POWER_LOSS of VAUX switches all off, of another supply in S1 to S3 is a power-on reset; MAIN_PG_RISE lets what
waited go on; MAIN_PG_FALL while the rails are asked for is a power loss, else only noted; after 1 s without
rails they are asked for anew, and 100 ms into a return from S3 their absence is a power loss. A low RESET_N, or
PERST_N outside S2 and S3, or a lost CLK_REF, on a device not held already starts a cold reset that is held; the
release samples the straps and starts once nothing holds the device; in S2 and S3 PERST_N's release is wake
source 1. A lost PCIE_REFCLK takes the link down; a lost PHY clock takes its ports down, counted, until it
returns. Cites: R20, R489, R562, R563, R564, R565, R570, R571, R572, R573, R574, Table 18.10. -/
def Obligations.SupplyAndPinEventsComplete : Prop :=
  (∀ (s : State), s.boot.vaux = false →
    ∀ straps, exec (.vauxRise straps) s = .next (
      let z := powerReset s
      raiseMain (emit (.vid 200) { z with boot := { z.boot with vaux := true, mainPg := false, phase := .waitRails, straps } })))
  ∧ (∀ (s : State), s.boot.vaux = true →
    (let z := powerReset s
     exec (.powerLoss true) s = .next { z with boot := { z.boot with vaux := false, mainPg := false, mainEn := false, phase := .off } })
    ∧ (s.pwr.state = 1 ∨ s.pwr.state = 2 ∨ s.pwr.state = 3 → exec (.powerLoss false) s = .next (powerLost s))
    ∧ (∀ ns, 20000 ≤ ns →
      (s.boot.mainPg = false →
        let s1 := if s.pwr.returning.any fun x => x.1 == 3 then
          { s with pwr := { s.pwr with retAt := max s.pwr.retAt (s.time.mono + 6970 * usT) } } else s
        exec (.mainPgRise ns) s = .next (tryStart { s1 with boot := { s1.boot with mainPg := true } }))
      ∧ (s.boot.mainPg = true → exec (.mainPgRise ns) s = .next s)
      ∧ (s.boot.mainPg = true → s.boot.mainEn = true → exec (.mainPgFall ns) s = .next (powerLost s))
      ∧ (s.boot.mainPg = true → s.boot.mainEn = false → exec (.mainPgFall ns) s = .next { s with boot := { s.boot with mainPg := false } })
      ∧ (s.boot.mainPg = false → exec (.mainPgFall ns) s = .next s))
    ∧ (s.boot.mainPg = false → s.boot.mainEn = true →
      (s.boot.phase = .waitRails → s.boot.mainEnAt + secT ≤ s.time.mono →
        let t := emit (.pin "MAIN_PWR_EN" true) (emit (.pin "MAIN_PWR_EN" false) s)
        exec .mainPgTimeout s = .next { t with boot := { t.boot with mainEnAt := s.time.mono + 100 * msT } })
      ∧ (∀ src flags, s.pwr.returning = some (3, src, flags) → s.boot.mainEnAt + 100 * msT ≤ s.time.mono →
        exec .mainPgReturnTimeout s = .next (powerLost s)))
    ∧ (s.boot.phase ≠ .held → s.boot.phase ≠ .waitRails →
      (∀ ns, 2000 ≤ ns → s.boot.resetLow = false → exec (.resetNAssert ns) s = .next (pinReset { s with boot := { s.boot with resetLow := true } }))
      ∧ (∀ ns, 2000 ≤ ns → s.boot.perstLow = false → perstLocal s = false → s.boot.phase ≠ .off →
        exec (.perstNAssert ns) s = .next (pinReset { s with boot := { s.boot with perstLow := true } }))
      ∧ (∀ ns, 2000 ≤ ns → s.boot.perstLow = false → perstLocal s = true → exec (.perstNAssert ns) s = .next { s with boot := { s.boot with perstLow := true } })
      ∧ (s.boot.perstLow = true → perstLocal s = true → s.pwr.returning = none → ∀ straps ns, 2000 ≤ ns →
        exec (.perstNRelease straps ns) s = .next (wake 1 true { s with boot := { s.boot with perstLow := false } }))
      ∧ (s.boot.mainEn = true → s.boot.clkLost = false →
        exec .clkRefLoss s = .next (pinReset { s with boot := { s.boot with clkLost := true } })))
    ∧ (s.boot.phase = .held → s.boot.mainEn = true → s.boot.mainPg = true → ∀ straps ns, 2000 ≤ ns →
      (s.boot.resetLow = true → s.boot.perstLow = false → s.boot.clkLost = false → exec (.resetNRelease straps ns) s
        = .next (startCold { s with boot := { s.boot with resetLow := false, straps } }))
      ∧ (s.boot.resetLow = true → s.boot.perstLow = true → exec (.resetNRelease straps ns) s
        = .next { s with boot := { s.boot with resetLow := false, straps } })
      ∧ (s.boot.perstLow = true → s.boot.resetLow = false → s.boot.clkLost = false → exec (.perstNRelease straps ns) s
        = .next (startCold { s with boot := { s.boot with perstLow := false, straps } }))
      ∧ (s.boot.clkLost = true → s.boot.resetLow = false → s.boot.perstLow = false → exec (.clkRefReturn straps) s
        = .next (startCold { s with boot := { s.boot with clkLost := false, straps } }))))
  ∧ (∀ (ns : Nat) (straps : Straps) (s : State),
    (ns < 1000 → exec (.resetNAssert ns) s = .next s ∧ exec (.resetNRelease straps ns) s = .next s
      ∧ exec (.perstNAssert ns) s = .next s ∧ exec (.perstNRelease straps ns) s = .next s)
    ∧ (ns < 10000 → exec (.mainPgRise ns) s = .next s ∧ exec (.mainPgFall ns) s = .next s)
    ∧ (1000 ≤ ns → ns < 2000 →
      let d := draw s
      let half (i j : Instr) : Prop := exec i s = if d.1 % 2 = 0 then .next d.2 else exec j d.2
      half (.resetNAssert ns) (.resetNAssert 2000) ∧ half (.resetNRelease straps ns) (.resetNRelease straps 2000)
        ∧ half (.perstNAssert ns) (.perstNAssert 2000) ∧ half (.perstNRelease straps ns) (.perstNRelease straps 2000))
    ∧ (10000 ≤ ns → ns < 20000 →
      let d := draw s
      let half (i j : Instr) : Prop := exec i s = if d.1 % 2 = 0 then .next d.2 else exec j d.2
      half (.mainPgRise ns) (.mainPgRise 20000) ∧ half (.mainPgFall ns) (.mainPgFall 20000)))
  ∧ (∀ (s : State),
    exec .pcieRefclkLoss s = .next (linkFalls s)
    ∧ (∀ trellis, (∀ p ∈ clockPorts trellis, p ∉ s.link.ethDown) →
      let t : State := { s with link := { s.link with
        ethDown := s.link.ethDown ++ clockPorts trellis
        ethDownCount := (clockPorts trellis).foldl (fun l p => bump l p) s.link.ethDownCount } }
      exec (.phyRefclkLoss trellis) s = .next (if trellis then linksDown t else t))
    ∧ (∀ trellis, exec (.phyRefclkReturn trellis) s
        = .next { s with link := { s.link with ethDown := s.link.ethDown.filter fun p => !(clockPorts trellis).contains p } }))

/-- A start serves or fails, the failed-start counter clears, a warm reset begins and ends. COLD_START_READY of a
start whose image was accepted measures the image, applies the user calibration set, makes the image the active
one, tests and fences the domains, presents the voltage of the level and serves (log entries 139,
4, 130). START_ATTEMPT_FAILURE for a reason that can fail now, BOOT_WATCHDOG 2 s after the image
was accepted and LOCKSTEP_MISMATCH after it are failed starts. FSC_CLEAR after 10 s of READY clears the counter.
SM_WATCHDOG and LOCKSTEP_MISMATCH in service start a warm reset, which leaves every pair with no open request,
READY low, the callboard idle and its cause recorded. WARM_RESET_COMPLETE replays the journal, restarts the
holds of orphans and serves when the active image passes its checks (which rest on the uninterpreted signature
check), and otherwise changes nothing. Cites: R494, R495, R497, R498, R499, R500, R503, R506, R510, R524, R525,
R535. -/
def Obligations.StartsAndWarmResetsComplete : Prop :=
  (∀ (failed : List (Nat × Nat)) (img : Image) (t : Nat) (s : State), s.boot.phase = .starting → s.boot.imageAt = some t →
    bankImage s.boot.bank s = some img →
    let s1 := applyUcal (measure 1 (Config.sha3 (img.bytes.take 7347)) s)
    let s2 := (List.range 96).foldl (startTest8 failed) { s1 with boot := { s1.boot with
      active := some img, shadow := none, shadowLoaded := false, sramImage := none, lastReason := 0, keptStacked := true } }
    let off : State := { s2 with pwr := { s2.pwr with doms := s2.pwr.doms.map fencedOff } }
    let s3 := emit (.vid (vidCode s2.pwr.level off)) off
    let s4 := if s3.sec.erased then raise 0x0D05 (eraseCause s3) none s3 else s3
    exec (.coldStartReady failed) s = .next (settle (serveAgain s4.boot.cause (if s4.boot.cause = 2 then s4.boot.warmCause else 0) s4)))
  ∧ (∀ (s : State),
    (∀ reason, canFail reason s = true → exec (.startAttemptFailure reason) s = .next (failStart reason s))
    ∧ (∀ t, s.boot.phase = .starting → s.boot.imageAt = some t →
      (t + 2 * secT ≤ s.time.mono → exec .bootWatchdog s = .next (failStart 7 s))
      ∧ (∀ mp, mp < 2 → exec (.lockstepMismatch mp) s = .next (failStart 9 s)))
    ∧ (∀ t, s.boot.readyAt = some t → t + 10 * secT ≤ s.time.mono → s.boot.fsc ≠ Comp.of 0 ∨ s.boot.fscBad = true →
      let s1 : State := { s with boot := { s.boot with fsc := Comp.of 0, fscBad := false } }
      (∀ i, s.boot.active = some i → exec .fscClear s
        = .next (if s.boot.bank ≤ 1 ∧ bankImage s.boot.bank s = some i then raiseFloor i.bytes s1 else s1))
      ∧ (s.boot.active = none → exec .fscClear s = .next s1))
    ∧ (s.boot.phase = .running → s.pwr.state < 3 →
      exec .smWatchdog s = .next (warmReset 1 s)
      ∧ (∀ mp, mp < 2 → exec (.lockstepMismatch mp) s = .next (warmReset 2 s)))
    ∧ (∀ cause, (warmReset cause s).link.reqs = [] ∧ (warmReset cause s).cb.state = 0 ∧ (warmReset cause s).cb.server = 0
      ∧ (warmReset cause s).pwr.state = 0 ∧ (warmReset cause s).sec.challenge = none ∧ (warmReset cause s).boot.phase = .warm
      ∧ (warmReset cause s).boot.cause = 2 ∧ (warmReset cause s).boot.warmCause = Config.warmCode cause)
    ∧ (∀ img, s.boot.phase = .warm → (replayRecast s).boot.active = some img →
      let t := replay (measure 1 (Config.sha3 (img.bytes.take 7347)) (replayRecast s))
      exec .warmResetComplete s = .next (if checkImage img.bytes (replayRecast s) = 0 then settle (serveAgain 2 t.boot.warmCause
        { t with obj := { t.obj with objs := t.obj.objs.map (restartHold t.time.mono) } }) else s)))

/-- A cold reset leaves no pair, object, session or request, the limits and levels at their values, and the
ghost-light records. Whatever the state before a cold reset, after it: no queue pair, request, object or session
is there; the power cap is 60.0 W and the junction limit 100 degrees with good complements; the level range is
P0 to P7; nothing forces a level; READY is low; the reset cause is 1; and the ghost-light domain's counters of
sleep entries, returns, wakes and brown-outs, the failed-start counter, the boot log, the alarm policy and the
fuses (life-cycle base, floor, authority, serial number) are as they were. The level after the reset, P0, is the
model's choice (log entry 4). Cites: R459, R460, R461, R490, R492, R499, R517. -/
def Obligations.ColdResetLeavesItsValues : Prop :=
  ∀ (s : State),
    let t := coldReset s
    t.link.pairs = [] ∧ t.link.reqs = [] ∧ t.obj.objs = [] ∧ t.obj.sessions = []
    ∧ t.pwr.cap = Comp.of 600 ∧ t.pwr.tj = Comp.of 100 ∧ t.pwr.fastest = 0 ∧ t.pwr.slowest = 7 ∧ t.pwr.level = 0
    ∧ levelForced t = false ∧ t.boot.readyAt = none ∧ t.boot.cause = 1
    ∧ t.pwr.entries = s.pwr.entries ∧ t.pwr.returns = s.pwr.returns ∧ t.pwr.wakes = s.pwr.wakes ∧ t.pwr.brownouts = s.pwr.brownouts
    ∧ t.boot.fsc = s.boot.fsc ∧ t.boot.bootLog = s.boot.bootLog
    ∧ t.sec.policy = s.sec.policy ∧ t.sec.base = s.sec.base ∧ t.sec.floor = s.sec.floor ∧ t.sec.authority = s.sec.authority
    ∧ t.sec.serial = s.sec.serial

/-- Images are loaded, committed, handed over, taken back; logs, counters, self-tests and the journal are read. For
every ready command: RECAST_IMAGE_LOAD of an image in service with no recasting empties the shadow bank and ends
with the image's status when a check fails, or with the state-format status, or keeps it as the shadow; while a
host boot waits for its image it gives that start the image, in Understudy mode it is the next start's image,
and a user calibration set that holds goes to flash (its RESULT0 free, log entry 168); RECAST_COMMIT with a
shadow the floor accepts and journal room opens the recasting and waits; RECAST_FALLBACK of a held fallback
likewise, in a probation too (log entry 169); DIAG_LOG_READ, DIAG_COUNTERS (which clears on CLEAR),
DIAG_SELFTEST_RECORD and DIAG_JOURNAL_READ answer their records, and a self-test by command parks its domain and
waits. RECAST_HANDOVER, no started sheet opening a set in the window (log entry 283), changes the banks,
journals COMMIT, measures the image and ends the command within WINDOW_US; PROBATION_END past its time ends the
recasting, raises event 0x0E03 and with PERSIST makes the image the boot image and raises the floor. Cites:
R497, R502, R505, R507, R508, R509, R510, R511, R515, R524, Table 15.11. -/
def Obligations.RecastingAndDiagnosticsComplete : Prop :=
  (∀ (r : ReqRef) (io : Io) (s : State) (q : Req) (c : Ctx),
    (IsReady iRecastImageLoad r io s q c → prm c 0 1 = 0 → s.boot.phase = .running → s.boot.recast = none →
      let bad := checkImage c.pay s
      let empty : State := { s with boot := { s.boot with shadow := none, shadowLoaded := false } }
      let i : Image := { bytes := c.pay, fromHost := true, persist := (prm c 1 1).testBit 0 }
      exec (.recastImageLoad r io) s =
        if bad ≠ 0 then answered q (if bad = 4 then stAuth else if bad = 5 then 0x8E02 else 0x8E01) 0 0 none empty
        else if formatFits c.pay s = false then answered q 0x8E03 0 0 none empty
        else answered q stOk (imgRelease c.pay) 0 none { s with boot := { s.boot with shadow := some i, shadowLoaded := true } })
    ∧ (IsReady iRecastImageLoad r io s q c → prm c 0 1 = 0 →
      let bad := checkImage c.pay s
      let i : Image := { bytes := c.pay, fromHost := true, persist := (prm c 1 1).testBit 0 }
      let st := if bad = 4 then stAuth else if bad = 5 then 0x8E02 else 0x8E01
      (s.boot.phase = .understudy → exec (.recastImageLoad r io) s =
        if bad ≠ 0 then answered q st 0 0 none s else answered q stOk (imgRelease c.pay) 0 none (loadUnderstudy i s))
      ∧ (s.boot.phase = .starting → s.boot.bank = 2 → s.boot.imageAt = none → exec (.recastImageLoad r io) s =
        if bad ≠ 0 then answered q st 0 0 none s
        else answered q stOk (imgRelease c.pay) 0 none { s with boot := { s.boot with sramImage := some i, imageAt := some s.time.mono } }))
    ∧ (IsReady iRecastImageLoad r io s q c → prm c 0 1 = 1 → ucalOk c.pay = true →
      ((records 16 (c.pay.drop 128)).all fun e => ucalParam (fld e 0 2)) = true →
      exec (.recastImageLoad r io) s = answered q stOk ((draw s).1 % 2 ^ 32) 0 none
        { (draw s).2 with boot := { (draw s).2.boot with qspiUcal := some (c.pay, false) } })
    ∧ (IsReady iRecastCommit r io s q c → s.boot.recast ≠ none ∨ s.boot.shadow = none →
      exec (.recastCommit r io) s = answered q stState 0 0 none s)
    ∧ (∀ i, IsReady iRecastCommit r io s q c → s.boot.recast = none → s.boot.shadow = some i → s.sec.floor ≤ imgSecVersion i.bytes →
      journalRoom s = .ok () →
      let j := journalBegin 5 (reqRef c.q) 0x0E04 0 0 s
      let x : Recast :=
        { req := some (reqRef c.q), fallback := false, probationS := if prm c 0 4 = 0 then 600 else prm c 0 4
          windowUs := if prm c 4 4 = 0 then 2000 else prm c 4 4, op := j.1, took := none, prior := none }
      exec (.recastCommit r io) s = goesOn q { j.2 with boot := { j.2.boot with recast := some x } })
    ∧ (∀ i, IsReady iRecastFallback r io s q c → (s.boot.recast.all fun x => x.took.isSome) = true → s.boot.shadow = some i → s.boot.shadowLoaded = false →
      s.sec.floor ≤ imgSecVersion i.bytes → journalRoom s = .ok () →
      let j := journalBegin 5 (reqRef c.q) 0x0E05 0 0 s
      let x : Recast :=
        { req := some (reqRef c.q), fallback := true, probationS := 0
          windowUs := if prm c 0 4 = 0 then 2000 else prm c 0 4, op := j.1, took := none
          prior := s.boot.recast.bind fun x => x.took.map fun t => (x.op, t, x.probationS) }
      exec (.recastFallback r io) s = goesOn q { j.2 with boot := { j.2.boot with recast := some x } })
    ∧ (IsReady iDiagLogRead r io s q c →
      (prm c 12 1 = 0 → s.boot.phase ≠ .understudy ∨ s.boot.keptStacked = true →
        let l := (s.mem.faults.drop (prm c 16 4)).take (prm c 20 4)
        exec (.diagLogRead r io) s = answered q stOk l.length (sat16 s.mem.faultsLost) (some (l.flatMap faultBytes)) s)
      ∧ (prm c 12 1 = 1 →
        let l := (s.boot.bootLog.drop (prm c 16 4)).take (prm c 20 4)
        exec (.diagLogRead r io) s = answered q stOk l.length (sat16 s.boot.bootLost) (some (l.flatMap bootBytes)) s))
    ∧ (IsReady iDiagCounters r io s q c →
      let l := diagSet (prm c 12 1) s
      exec (.diagCounters r io) s = answered q stOk l.length 0 (some (l.flatMap (leBytes 8)))
        (if (prm c 13 1).testBit 0 then diagClear (prm c 12 1) s else s))
    ∧ (IsReady iDiagSelftestRecord r io s q c →
      (prm c 12 1 = 0 → exec (.diagSelftestRecord r io) s = answered q stOk 0 0 (some (testBytes s)) s)
      ∧ (prm c 12 1 ≠ 0 → (getDom (prm c 13 1) s).run = none → domWork (prm c 13 1) s = none →
        exec (.diagSelftestRecord r io) s = goesOn q (parkDom (prm c 13 1) (some (reqRef c.q))
          (if prm c 12 1 = 2 then updDom (prm c 13 1) (fun x => { x with fenced := 0, test := 0 }) s else s)))
      ∧ (prm c 12 1 ≠ 0 → domWork (prm c 13 1) s ≠ none → exec (.diagSelftestRecord r io) s = answered q stState 0 0 none s))
    ∧ (IsReady iDiagJournalRead r io s q c →
      let l := (s.boot.journal.filter fun x => x.outcome.isSome
        || ((openOps s).contains x.number && (journalLast x.number s).any fun y => y.seqNo == x.seqNo)).take 64
      exec (.diagJournalRead r io) s = answered q stOk l.length 0 (some (l.flatMap journalBytes)) s))
  ∧ (∀ (x : Recast) (rr : ReqRef) (s : State), s.boot.recast = some x → s.boot.phase = .running → x.took = none → x.req = some rr →
    ready s = true →
    (setWithin x.windowUs s = true → exec .recastHandover s = .next s) ∧ (setWithin x.windowUs s = false →
    let w := draw s
    let us := w.1 % (x.windowUs + 1)
    let s1 := journalStep x.op 3 0 w.2
    us ≤ x.windowUs
    ∧ (x.fallback = false →
      let s2 : State := { s1 with boot := { s1.boot with
        active := s1.boot.shadow, shadow := s1.boot.active, shadowLoaded := false, cntRecasts := s1.boot.cntRecasts + 1
        recast := some { x with req := none, took := some s1.time.mono } } }
      exec .recastHandover s = .next (settle (postRef rr stOk us 0 none (measureImage
        (raise 0x0E04 (s2.boot.active.elim 0 (fun i => imgRelease i.bytes) + us * 2 ^ 32) none s2)))))
    ∧ (x.fallback = true →
      exec .recastHandover s = .next (settle (postRef rr stOk us 0 none (measureImage (takeFallback
        (match x.prior with
          | some y => journalStep y.1 4 0 (endRecast x.op s1)
          | none => endRecast x.op s1))))))))
  ∧ (∀ (x : Recast) (i : Image) (t : Nat) (s : State), s.boot.recast = some x → s.boot.active = some i → x.took = some t →
    t + x.probationS * secT ≤ s.time.mono →
    let s1 := raise 0x0E03 (imgRelease i.bytes) none (endRecast x.op s)
    exec .probationEnd s = .next (settle (if i.persist
      then raiseFloor i.bytes { s1 with boot := { s1.boot with qspiBoot := some i, qspiFallback := s1.boot.qspiBoot } }
      else s1)))

/-- Quotes, life-cycle transitions, challenges, unlocks, the alarm policy and the identity. For every ready command:
SEC_QUOTE without keys ends ST_E_KEYS_ERASED, with them extends a measurement register (MODE 1) or answers a
signed quote (MODE 0); SEC_LIFECYCLE reads the state, refuses a transition that Table 16.2 does not have with
ST_E_TRANSITION, makes one that needs nothing or the authority digest, checks and uses the token that one needs
(log entries 163, 164), and while an operation that stops it is open ends ST_E_STATE (log entry
162); SEC_UNLOCK_CHALLENGE stores a fresh challenge in place of an outstanding one and answers it;
SEC_UNLOCK closes a port opened by a token, or checks the token it carries and opens the port for its duration,
raising event 0x0D03, unless the state holds it open (log entry 165); SEC_ALARM_POLICY stores, in a
sound policy pair or the defaults of a bad one, the named actions and answers the policy word; SEC_IDENTITY_READ
answers the identity record. Cites: R517, R518, R519, R522, R525, R526, R528, R529, R530, R534, R541, Table
16.2. -/
def Obligations.SecurityCommandsComplete : Prop :=
  ∀ (r : ReqRef) (io : Io) (s : State) (q : Req) (c : Ctx),
    (IsReady iSecQuote r io s q c → s.sec.erased = true ∨ (s.sec.identity = false ∧ prm c 12 1 ≠ 1) →
      exec (.secQuote r io) s = answered q 0x8D03 0 0 none s)
    ∧ (IsReady iSecQuote r io s q c → s.sec.erased = false →
      (prm c 12 1 = 1 → exec (.secQuote r io) s = answered q stOk 0 0 none (measure (prm c 13 1) c.pay s))
      ∧ (prm c 12 1 = 0 → s.sec.identity = true →
        let b := quoteBody (prm c 14 2) (slice c.q.param 16 8 ++ c.pay) s
        exec (.secQuote r io) s = answered q stOk 0 0 (some (b ++ Config.mldsaSign s.sec.pubKey (Config.sha3 b))) s))
    ∧ (IsReady iSecLifecycle r io s q c →
      let new := prm c 0 1
      let word (s : State) : Nat :=
        lifecycle s + s.sec.floor * 256 + (if s.sec.erased then 2 ^ 16 else 0) + (if s.sec.port then 2 ^ 17 else 0)
      (new = 0xFF → exec (.secLifecycle r io) s = answered q stOk (word s) 0 none s)
      ∧ (new ≠ 0xFF → openOps s = [] → s.boot.recast = none → (s.link.reqs.any fun x => x.opcode / 256 == 0x0A) = false →
        (lifeNeed (lifecycle s) new s.sec.erased = none → exec (.secLifecycle r io) s = answered q 0x8D01 0 0 none s)
        ∧ (lifeNeed (lifecycle s) new s.sec.erased = some .nothing ∨ lifeNeed (lifecycle s) new s.sec.erased = some .authority →
          let t := lifeMove (lifecycle s) new c.pay s
          exec (.secLifecycle r io) s = answered q stOk (word t) 0 none t)
        ∧ (∀ bit, lifeNeed (lifecycle s) new s.sec.erased = some (.token bit) →
          (c.q.pref = false → c.q.cbdata = false → exec (.secLifecycle r io) s = answered q stAuth 0 0 none s)
          ∧ ((c.q.pref = true ∨ c.q.cbdata = true) →
            (∀ f, tokenCheck c.pay bit s = .error f → exec (.secLifecycle r io) s = answered q f.st f.r0 f.r1 none (f.fx s))
            ∧ (tokenCheck c.pay bit s = .ok () →
              let t := lifeMove (lifecycle s) new [] (acceptToken c.pay s)
              exec (.secLifecycle r io) s = answered q stOk (word t) 0 none t))))
      ∧ (new ≠ 0xFF → openOps s ≠ [] ∨ s.boot.recast ≠ none ∨ (s.link.reqs.any fun x => x.opcode / 256 == 0x0A) = true →
        exec (.secLifecycle r io) s = answered q stState 0 0 none s))
    ∧ (IsReady iSecUnlockChallenge r io s q c →
      let w := drawBytes 32 s
      let b := w.2.sec.serial ++ leBytes 1 (lifecycle w.2) ++ leBytes 1 (prm c 12 1) ++ zeros 2 ++ w.1
        ++ timeWord (stampNow 0 w.2) ++ leBytes 4 300 ++ zeros 56
      exec (.secUnlockChallenge r io) s = answered q stOk 0 0 (some b)
        { w.2 with sec := { w.2.sec with challenge := some { bytes := b, scope := prm c 12 1, at' := w.2.time.mono } } })
    ∧ (IsReady iSecUnlock r io s q c →
      (prm c 0 1 = 1 → exec (.secUnlock r io) s
        = answered q stOk 0 0 none (if s.sec.portUntil.isSome then closePort 1 s else s))
      ∧ (prm c 0 1 = 0 →
        let n := fld c.pay 72 4
        let t := acceptToken c.pay s
        (∀ f, tokenCheck c.pay 0 s = .error f → exec (.secUnlock r io) s = answered q f.st f.r0 f.r1 none (f.fx s))
        ∧ (tokenCheck c.pay 0 s = .ok () → exec (.secUnlock r io) s = answered q stOk n 0 none (
          if [0, 1, 4, 5].contains (lifecycle t) then t
          else raise 0x0D03 n none { t with sec := { t.sec with port := true, portUntil := some (t.time.mono + n * secT) } }))))
    ∧ (IsReady iSecAlarmPolicy r io s q c →
      let f := policyFix s
      let w := packPolicy ((List.range 5).map fun i => if prm c i 1 = 0xFF then policyAction f.sec.policy.n i else prm c i 1)
      exec (.secAlarmPolicy r io) s = answered q stOk w 0 none
        { f with sec := { f.sec with policy := Comp.of w }, pwr := { f.pwr with polDefault := false } })
    ∧ (IsReady iSecIdentityRead r io s q c → s.sec.identity = true → s.sec.erased = false →
      exec (.secIdentityRead r io) s = answered q stOk 0 0
        (some (s.sec.serial ++ leBytes 1 (lifecycle s) ++ zeros 47 ++ Config.sha3 s.sec.pubKey ++ s.sec.pubKey)) s)

/-- Alarms are recorded and act by the policy; throttles, challenges and debug ports expire. TAMPER_ALARM of sensor
0 to 4 on a device whose security block runs: in S3 it is latched if the sensor is sensed there, and otherwise
it is recorded (the policy pair first given its default where it is bad) (boot log, measurement, count, event
0x0D01) and the policy's action follows: record only, throttle (P7 forced), halt (every open request ends
without a completion, READY falls, every domain but PCIe off, log entry 286), or erase the keys and
halt. THROTTLE_RELEASE forces nothing more for the conditions absent for 1 s. CHALLENGE_EXPIRY 300 s after its
issue ends the challenge; DEBUG_PORT_EXPIRY at its end closes the port with event 0x0D04. Cites: R529, R530,
R531, R532, R533, R534, R535, Table 16.6. -/
def Obligations.SecurityEventsComplete : Prop :=
  (∀ (sensor detail : Nat) (s : State), secLive s = true → sensor ≤ 4 →
    (s.pwr.state = 3 → exec (.tamperAlarm sensor detail) s = .next (
      if sensor = 0 ∨ sensor = 2 ∨ sensor = 4 then { s with sec := { s.sec with latched := s.sec.latched ++ [(sensor, detail)] } } else s))
    ∧ (s.pwr.state ≠ 3 →
      let f := policyFix s
      let a := f.sec.policy.n / 8 ^ sensor % 8
      let t := recordAlarm sensor a detail f
      (a = 0 → exec (.tamperAlarm sensor detail) s = .next (settle t))
      ∧ (a = 1 → exec (.tamperAlarm sensor detail) s = .next (settle (throttleAct sensor t)))
      ∧ (a = 2 → exec (.tamperAlarm sensor detail) s = .next (settle (haltAct t)))
      ∧ (3 ≤ a → exec (.tamperAlarm sensor detail) s = .next (settle (haltAct (eraseKeys t))))))
  ∧ (∀ (s : State),
    let above (n : Nat) : Bool := decide (assocGet s.sec.condAt n + secT ≤ s.time.mono)
    exec .throttleRelease s = .next { s with
      pwr := { s.pwr with throttle := s.pwr.throttle.filter fun n => !above n }
      sec := { s.sec with condAt := s.sec.condAt.filter fun (x : Nat × Nat) => !(s.pwr.throttle.filter above).contains x.1 } })
  ∧ (∀ (x : Challenge) (s : State), s.sec.challenge = some x →
    (x.at' + 300 * secT ≤ s.time.mono → exec .challengeExpiry s = .next { s with sec := { s.sec with challenge := none } })
    ∧ (s.time.mono < x.at' + 300 * secT → exec .challengeExpiry s = .next s))
  ∧ (∀ (s : State), s.sec.port = false ∨ (∀ t, s.sec.portUntil = some t → s.time.mono < t) → exec .debugPortExpiry s = .next s)
  ∧ (∀ (sensor detail : Nat) (s : State), secLive s = false ∨ 4 < sensor → exec (.tamperAlarm sensor detail) s = .next s)
  ∧ (∀ (t : Nat) (s : State), s.sec.port = true → s.sec.portUntil = some t → t ≤ s.time.mono →
    exec .debugPortExpiry s = .next (settle (raise 0x0D04 0 none { s with sec := { s.sec with port := false, portUntil := none } })))

/-- A doorbell write moves its index, or is refused with the first reason in the order 4, 5, 3, 1, 2. For a host
write to BAR2 of a function that is presented, queues being served, its offset decides the doorbell: 16 q the SQ
tail of pair q, 16 q + 8 its CQ head. There: size other than 4 or 8 bytes is reason 4; else bits [63:16] not
zero (of the 4 or 8 bytes written) is reason 5; else no such pair or a pair in FAULT is reason 3; else an index
at or past the depth is reason 1; else a tail that moves back from the fetch position, or a head that frees
slots not yet posted, is reason 2. A refused write counts in QZ_DB_REFUSED (saturating) and in the device's
count, stores queue and reason, and changes nothing else; an accepted one sets the index and nothing else. The
access is also wake source 2. A write at no doorbell's offset is refused, with reason 4 for its size, else a
free reason (log entry 207); past BAR2, or with queues not served (log entry 185), it does nothing
else. Cites: R33, R51, R52, R494, Table 2.9, Table 15.11. -/
def Obligations.DoorbellsMoveOrAreRefused : Prop :=
  (∀ (fn off size : Nat) (v : W64) (s : State), fnLive fn s = true →
    let ends (t : State) : Host.Outcome State Fault Refusal := .next (settle (inBand t))
    let refused (reason : Nat) (s : State) : State :=
      let t : State := { s with link := { s.link with dbTotal := s.link.dbTotal + 1 } }
      updFn fn (fun f => { f with dbRefused := sat32 f.dbRefused 1, dbQueue := off / 16 % 65536, dbReason := reason }) t
    exec (.sqTailDoorbell fn off size v) s = exec (.cqHeadDoorbell fn off size v) s
    ∧ (queuesLive s = false ∨ (if fn = 0 then 0x100000 else 0x10000) ≤ off → exec (.sqTailDoorbell fn off size v) s = ends s)
    ∧ (queuesLive s = true → off < (if fn = 0 then 0x100000 else 0x10000) → off % 8 ≠ 0 →
      (size ≠ 4 → size ≠ 8 → exec (.sqTailDoorbell fn off size v) s = ends (refused 4 s))
      ∧ (size = 4 ∨ size = 8 → exec (.sqTailDoorbell fn off size v) s = ends (refused ((draw s).1 % 16) (draw s).2))))
  ∧ ∀ (fn qid size : Nat) (v : W64) (s : State), fnLive fn s = true → queuesLive s = true →
    16 * qid + 8 < (if fn = 0 then 0x100000 else 0x10000) →
    let tail := Instr.sqTailDoorbell fn (16 * qid) size v
    let head := Instr.cqHeadDoorbell fn (16 * qid + 8) size v
    let val := if size = 4 then v.toNat % 2 ^ 32 else v.toNat
    let refused (reason : Nat) : State :=
      let t : State := { s with link := { s.link with dbTotal := s.link.dbTotal + 1 } }
      updFn fn (fun f => { f with dbRefused := sat32 f.dbRefused 1, dbQueue := qid % 65536, dbReason := reason }) t
    let ends (t : State) : Host.Outcome State Fault Refusal := .next (settle (inBand t))
    let both (t : State) : Prop := exec tail s = ends t ∧ exec head s = ends t
    (size ≠ 4 → size ≠ 8 → both (refused 4))
    ∧ (size = 4 ∨ size = 8 →
      (65536 ≤ val → both (refused 5))
      ∧ (val < 65536 →
        (getPair fn qid s = none → both (refused 3))
        ∧ (∀ p, getPair fn qid s = some p →
          (p.fault ≠ 0 → both (refused 3))
          ∧ (p.fault = 0 →
            (p.sqDepth ≤ val → exec tail s = ends (refused 1))
            ∧ (val < p.sqDepth →
              let new := (val + p.sqDepth - p.sqHead) % p.sqDepth
              let old := (p.sqTail + p.sqDepth - p.sqHead) % p.sqDepth
              (new < old → exec tail s = ends (refused 2))
              ∧ (old ≤ new → exec tail s = ends (updPair fn qid (fun p => { p with sqTail := val }) s)))
            ∧ (p.cqDepth ≤ val → exec head s = ends (refused 1))
            ∧ (val < p.cqDepth →
              let freed := (val + p.cqDepth - p.cqHead) % p.cqDepth
              let here := (p.cqTail + p.cqDepth - p.cqHead) % p.cqDepth - p.heldCpl
              (here < freed → exec head s = ends (refused 2))
              ∧ (freed ≤ here → exec head s = ends (updPair fn qid (fun p => { p with cqHead := val }) s)))))))

/-- A host write to the identification region is refused, counted in region 0, and changes nothing else. For a host
write of 4 or 8 bytes, naturally aligned, at offsets 0x000 to 0xFFF of BAR0 of a function that is presented: the
count of refused register writes of region 0 of the function rises by one for each 4-byte word; nothing else
changes but that the access is wake source 2, which counts or latches a wake while the device is not in plain
S0. The identification registers are no state that a write could reach; ID_FIRMWARE, which follows the serving
image, reads as before. Cites: R3. -/
def Obligations.IdentificationWritesAreRefused : Prop :=
  ∀ (fn off v : Nat) (s : State), fnLive fn s = true →
    let once (t : State) : State := { t with link := { t.link with regRefused := bump t.link.regRefused (fn * 16) } }
    (off % 4 = 0 → off < 0x1000 →
      exec (.registerWrite fn off 4 v) s = .next (settle (inBand (once s))) ∧ idFirmware (once s) = idFirmware s)
    ∧ (off % 8 = 0 → off < 0x1000 →
      exec (.registerWrite fn off 8 v) s = .next (settle (inBand (once (once s)))) ∧ idFirmware (once (once s)) = idFirmware s)

/-- Queue-zero writes store and commit base pairs and depths, enable, change and disable pair 0, or are refused. For
a host write to the queue-zero registers of a presented function, queues served, by QZ_BASE_WRITE, one of the
QZ_CTRL rows or REGISTER_WRITE at their offsets: a base pair's value half of 8 bytes, or its low and then its
high word, is held; the complement half that follows commits the pair, any other refuses the commit, whose pair
is then uncommitted; a low word is held, a high word without its low word is refused; with pair 0 there, or of a
wrong size or alignment, the write is refused and what is held is discarded. QZ_DEPTH stores two depths that are
not 0. QZ_CTRL refuses reserved bits and a vector out of range, with ENABLE 0 deletes pair 0, with ENABLE 1
changes a live pair 0's vector and interrupt enable, puts a pair that meets R38's conditions into service (and,
log entry 203, of a function that is granted a pair), and refuses one that does not. QZ_DB_REFUSED_READ
gives the count and clears it. With queues not served a write does nothing there, the read gives all ones (log
entry 185). Cites: R5, R21, R33, R37, R38, R39, R40, R494, R578. -/
def Obligations.RegisterWritesComplete : Prop :=
  ∀ (fn : Nat) (s : State), fnLive fn s = true →
    let ends (t : State) : Host.Outcome State Fault Refusal := .next (settle (inBand t))
    (queuesLive s = false →
      (∀ off size v, 0x1000 ≤ off → off ≤ 0x101F → exec (.qzBaseWrite fn off size v) s = ends s)
      ∧ (∀ v, exec (.qzEnable fn v) s = ends s ∧ exec (.qzDisable fn v) s = ends s ∧ exec (.qzCtrlUpdate fn v) s = ends s)
      ∧ exec (.qzDbRefusedRead fn) s = .next (emit (.read 0xFFFFFFFF) s))
    ∧ (queuesLive s = true →
      let keep (h : RwpHold) (t : State) : State := updFn fn (fun f => { f with hold := h }) t
      let none' : RwpHold := { value := none, low := none }
      let half (cq comp : Bool) (v : W64) (t : State) : State :=
        if comp = false then keep { value := some (cq, v), low := none } t
        else if (getFn fn t).hold.value = some (cq, ~~~v) then
          let p : RwpPair := { pair := { v := ~~~v, c := ~~~(~~~v), ue := false }, committed := true }
          updFn fn (fun f => if cq then { f with cq := p, hold := none' } else { f with sq := p, hold := none' }) t
        else keep none' (refuseReg fn 1 (updFn fn (fun f =>
          if cq then { f with cq := { f.cq with committed := false } } else { f with sq := { f.sq with committed := false } }) t))
      let both (off size v : Nat) (u : State) : Prop :=
        exec (.qzBaseWrite fn off size v) s = ends u ∧ exec (.registerWrite fn off size v) s = ends u
      let t := breakLow fn s
      (∀ (cq comp : Bool) (v : Nat),
        let off := 0x1000 + (if cq then 16 else 0) + (if comp then 8 else 0)
        (v < 2 ^ 64 → getPair fn 0 s = none → both off 8 v (half cq comp (BitVec.ofNat 64 v) t))
        ∧ (v < 2 ^ 32 → getPair fn 0 s = none →
          both off 4 v (keep { value := if comp && (getFn fn t).hold.value.any (fun x => x.1 == cq) then (getFn fn t).hold.value else none
                               low := some (cq, comp, BitVec.ofNat 32 v) } t)
          ∧ (∀ w, (getFn fn s).hold.low = some (cq, comp, w) →
            both (off + 4) 4 v (half cq comp (BitVec.ofNat 64 (w.toNat + v * 2 ^ 32)) (keep { value := (getFn fn s).hold.value, low := none } s)))
          ∧ (∀ cq' comp' w, (getFn fn s).hold.low = some (cq', comp', w) → (cq', comp') ≠ (cq, comp) →
            both (off + 4) 4 v (keep none' (refuseReg fn 1 (keep none' (refuseReg fn 1 s)))))
          ∧ ((getFn fn s).hold.low = none → both (off + 4) 4 v (keep none' (refuseReg fn 1 s))))
        ∧ (getPair fn 0 s ≠ none → (v < 2 ^ 64 → both off 8 v (keep none' (refuseReg fn 1 s)))
          ∧ (v < 2 ^ 32 → both off 4 v (keep none' (refuseReg fn 1 s)) ∧ both (off + 4) 4 v (keep none' (refuseReg fn 1 s)))))
      ∧ (∀ off size v, 0x1000 ≤ off → off ≤ 0x101F → (size ≠ 4 ∧ size ≠ 8) ∨ off % size ≠ 0 → both off size v (refuseReg fn 1 (breakHold fn s)))
      ∧ (∀ v, v < 2 ^ 32 →
        (getPair fn 0 s = none → v % 65536 ≠ 0 → v / 65536 ≠ 0 → exec (.registerWrite fn 0x1020 4 v) s
          = ends (updFn fn (fun f => { f with sqDepthM1 := v % 65536, cqDepthM1 := v / 65536 }) (breakHold fn s)))
        ∧ (getPair fn 0 s ≠ none ∨ v % 65536 = 0 ∨ v / 65536 = 0 → exec (.registerWrite fn 0x1020 4 v) s
          = ends (refuseReg fn 1 (breakHold fn s))))
      ∧ (∀ v : W32,
        let t := breakHold fn s
        let vector := v.toNat / 65536 % 2048
        let intEn := v.toNat.testBit 1
        let all (u : State) : Prop := exec (.qzEnable fn v) s = ends u ∧ exec (.qzDisable fn v) s = ends u
          ∧ exec (.qzCtrlUpdate fn v) s = ends u ∧ exec (.registerWrite fn 0x1024 4 v.toNat) s = ends u
        (v.toNat / 4 % 16384 ≠ 0 ∨ v.toNat / 2 ^ 27 % 32 ≠ 0 ∨ vectors fn ≤ vector → all (refuseReg fn 1 t))
        ∧ (v.toNat / 4 % 16384 = 0 → v.toNat / 2 ^ 27 % 32 = 0 → vector < vectors fn →
          (v.toNat.testBit 0 = false → all (updFn fn (fun f => { f with enable := false, vector, intEn }) (deletePair fn 0 t)))
          ∧ (v.toNat.testBit 0 = true →
            (∀ p, getPair fn 0 t = some p →
              all (updFn fn (fun f => { f with vector, intEn }) (updPair fn 0 (fun p => { p with vector, intEn }) t)))
            ∧ (getPair fn 0 t = none →
              let f := getFn fn t
              let good (b : RwpPair) : Bool := b.committed && b.pair.ok && b.pair.n % 4096 == 0
              let met := ready t && good f.sq && good f.cq && inR 1 f.sqDepthM1 65535 && inR 1 f.cqDepthM1 65535 && decide (0 < f.grant)
              (met = false → all (refuseReg fn 1 t))
              ∧ (met = true →
                let pairs := t.link.pairs ++ [newPair fn 0 f.sq.pair f.cq.pair (f.sqDepthM1 + 1) (f.cqDepthM1 + 1) vector intEn]
                all (updFn fn (fun f => { f with enable := true, vector, intEn }) { t with link := { t.link with pairs } }))))))
      ∧ exec (.qzDbRefusedRead fn) s
        = .next (updFn fn (fun f => { f with dbRefused := 0 }) (emit (.read (getFn fn s).dbRefused) s)))

/-- A register write outside queue zero acts by its region, or is refused and counted there. For REGISTER_WRITE to
BAR0 of a presented function, outside the queue-zero region: a write of another size or alignment than 4 or 8
aligned bytes is refused in its region; 8 bytes are the two words in order. Of 4 bytes: the identification
region, the ghost-light region but GL_WAKE, the time-base region, the fence region past its counters, the
pending bits and the reserved offsets refuse it; the callboard page rings, is acknowledged, sets its interrupt
enable, takes words of the request and the data while not busy, and refuses the rest; GL_WAKE and SLK_STATUS are
as their own rows, SLK_MIN keeps its value, refusing reserved bits (log entry 190); the fence counters have
no effect of a write (log entry 184); a word of the MSI-X table is stored in its entry, and a vector
unmasked so sends what it held. Cites: R5, R21, R33, R34, R58, R60, R538, R542, R549, R551, Table 2.11. -/
def Obligations.RegionWritesComplete : Prop :=
  ∀ (fn : Nat) (s : State), fnLive fn s = true →
    let ends (t : State) : Host.Outcome State Fault Refusal := .next (settle (inBand t))
    let w (off v : Nat) (u : State) : Prop := exec (.registerWrite fn off 4 v) s = ends u
    (∀ off size v, off < 0x1000 ∨ 0x2000 ≤ off → (size ≠ 4 ∧ size ≠ 8) ∨ off % size ≠ 0 →
      exec (.registerWrite fn off size v) s = ends (refuseReg fn (regionOf fn off) s))
    ∧ (∀ off v, off < 0x1000 ∨ 0x2000 ≤ off → off % 8 = 0 → v < 2 ^ 64 →
      exec (.registerWrite fn off 8 v) s = ends (write4 fn (off + 4) (v / 2 ^ 32) (write4 fn off (v % 2 ^ 32) s)))
    ∧ (∀ off v, off % 4 = 0 → v < 2 ^ 32 →
      (off < 0x1000 → w off v (refuseReg fn 0 s))
      ∧ (fn ≠ 0 → 0x2000 ≤ off → off < 0x8000 ∨ 0x8407 < off → w off v (refuseReg fn 9 s))
      ∧ (fn = 0 → off / 0x1000 ∉ [0, 1, 0x10, 0x20, 0x30, 0x40, 0x50] → off < 0x100000 ∨ 0x1080FF < off → w off v (refuseReg 0 9 s))
      ∧ (fn = 0 →
        (v < 65536 → w 0x10000 v (ring v s))
        ∧ (v < 2 → w 0x10008 v (ack v s) ∧ w 0x1000C v { s with cb := { s.cb with intEn := v.testBit 0 } })
        ∧ (2 ≤ v → w 0x1000C v (refuseReg 0 2 s))
        ∧ (0x10040 ≤ off → off ≤ 0x1007F → s.cb.state ≠ 1 →
          w off v { s with cb := { s.cb with request := memWrite s.cb.request (off - 0x10040) (leBytes 4 v) } })
        ∧ (0x10400 ≤ off → off ≤ 0x10FFF → s.cb.state ≠ 1 →
          w off v { s with cb := { s.cb with data := memWrite s.cb.data (off - 0x10400) (leBytes 4 v) } })
        ∧ ((0x10040 ≤ off ∧ off ≤ 0x1007F) ∨ (0x10400 ≤ off ∧ off ≤ 0x10FFF) → s.cb.state = 1 →
          w off v { s with cb := { s.cb with refused := min (s.cb.refused + 1) 0xFFFFFFFF, reason := 3, refTotal := s.cb.refTotal + 1 } })
        ∧ ((0x10010 < off ∧ off < 0x10040) ∨ off = 0x10004 ∨ (0x1007F < off ∧ off < 0x10400) → w off v (refuseReg 0 2 s))
        ∧ (v < 256 → s.pwr.state = 0 → s.pwr.returning = none →
          w 0x20004 v { s with pwr := { s.pwr with pending := s.pwr.pending &&& (255 - v) } })
        ∧ (256 ≤ v → w 0x20004 v (refuseReg 0 3 s))
        ∧ (0x20000 ≤ off → off ≤ 0x20FFF → off ≠ 0x20004 → w off v (refuseReg 0 3 s))
        ∧ (0x30000 ≤ off → off ≤ 0x30FFF → w off v (refuseReg 0 4 s))
        ∧ (0x50000 ≤ off → off < 0x50300 → w off v s) ∧ (0x50300 ≤ off → off ≤ 0x50FFF → w off v (refuseReg 0 6 s))
        ∧ (0x40000 + 8 * 27 ≤ off → off ≤ 0x40FFF → w off v (refuseReg 0 5 s))
        ∧ (∀ n, n < 27 → monitorLive n s = true →
          w (0x40000 + 8 * n) 0x20000 (updSlack n (fun m => { m with seen := false }) s)
          ∧ w (0x40000 + 8 * n + 4) (v % 65536) s ∧ (65536 ≤ v → w (0x40000 + 8 * n + 4) v (refuseReg 0 5 s))))
      ∧ (∀ n, n < vectors fn →
        let at' := (if fn = 0 then 0x100000 else 0x8000) + 16 * n
        let put (f : MsixEntry → MsixEntry) : State := flushPending fn (updFn fn (fun y => msixPut y (f (msixGet y n))) s)
        w at' v (put fun e => { e with addr := e.addr / 2 ^ 32 * 2 ^ 32 + v })
        ∧ w (at' + 4) v (put fun e => { e with addr := e.addr % 2 ^ 32 + v * 2 ^ 32 })
        ∧ w (at' + 8) v (put fun e => { e with data := v })
        ∧ w (at' + 12) v (put fun e => { e with masked := v.testBit 0 }))
      ∧ ((fn = 0 ∧ 0x108000 ≤ off ∧ off ≤ 0x1080FF) ∨ (fn ≠ 0 ∧ 0x8400 ≤ off ∧ off ≤ 0x8407) → w off v (refuseReg fn 8 s)))

/-- Interrupts held are sent, functions come, go and are reset, entries are fetched. On a presented function:
MSIX_UNMASK clears the mask of a vector the function has, or its function mask, or sets MSI-X Enable, and sends
one message for each pending vector nothing holds back; BUS_MASTER_ENABLE posts in order what was held.
VF_ENABLE_SET of 1 to 31 functions gives each one of the highest pairs of the physical function, while it has
them (log entry 187), and of another count, or with some enabled, does nothing; VF_ENABLE_CLEAR resets them
all and returns the pairs; FUNCTION_LEVEL_RESET resets the function, counted, function 0 with every virtual one
(log entry 186); LINK_DOWN does so but where PERST_N is local. COAL_TIMER past its time signals the vector
(completions posted with INT_EN 0 do not start it, log entry 205). SQ_FETCH, link up and READY, of the
pair that arbitration selects (log entry 189): a base pair of either queue that fails its complement faults
the pair with cause 4 before the entry is read (log entry 204), else the entry's address is read: a
failed read faults the pair with its cause, and an entry moves the fetch position and opens its request. Cites:
R28, R29, R31, R32, R41, R42, R46, R53, R54, R57, R58, R577. -/
def Obligations.FunctionsAndFetchComplete : Prop :=
  (∀ (fn : Nat) (s : State), fnLive fn s = true →
    (∀ n, n < vectors fn → exec (.msixUnmask fn (.vector n)) s = .next (settle (inBand (flushPending fn
      (updFn fn (fun f => msixPut f { msixGet f n with masked := false }) s)))))
    ∧ (∀ n, vectors fn ≤ n → exec (.msixUnmask fn (.vector n)) s = .next (settle (inBand (flushPending fn (updFn fn id s)))))
    ∧ exec (.msixUnmask fn .functionMask) s = .next (settle (inBand (flushPending fn (updFn fn (fun f => { f with msixMask := false }) s))))
    ∧ exec (.msixUnmask fn .enable) s = .next (settle (inBand (flushPending fn (updFn fn (fun f => { f with msixEn := true }) s))))
    ∧ (let t := (getFn fn s).held.foldl (fun s o => emit o s) (updFn fn (fun f => { f with busMaster := true, held := [] }) s)
       exec (.busMasterEnable fn) s = .next { t with link := { t.link with
         pairs := t.link.pairs.map fun p => if p.fn == fn then { p with heldCpl := 0 } else p } })
    ∧ (fn = 0 → exec (.functionLevelReset 0) s = .next (settle (countReset 3 (resetPf s))))
    ∧ (fn ≠ 0 → exec (.functionLevelReset fn) s = .next (settle (countReset 3
        { resetFn fn s with sec := { (resetFn fn s).sec with challenge := none } }))))
  ∧ (∀ (s : State), fnLive 0 s = true →
    exec .vfEnableClear s = .next (settle (clearVfs s))
    ∧ (∀ n, n = 0 ∨ 31 < n ∨ (getFn 1 s).enabled = true ∨ s.boot.phase = .understudy → exec (.vfEnableSet n) s = .next s)
    ∧ (∀ n, 1 ≤ n → n ≤ 31 → (getFn 1 s).enabled = false → s.boot.phase ≠ .understudy →
      let given := min n (getFn 0 s).grant
      let t := giveUp 0 given s
      let fns := t.link.fns.mapIdx fun i f => if 1 ≤ i ∧ i ≤ n then Fn.reset true (if i ≤ given then 1 else 0) else f
      exec (.vfEnableSet n) s = .next (settle { t with link := { t.link with fns } })))
  ∧ (∀ (s : State),
    (s.link.up = false ∨ s.link.fetchStopped = true ∨ ready s = false → ∀ got, exec (.sqFetch got) s = .next s)
    ∧ (s.link.up = false → exec .linkDown s = .next s)
    ∧ (s.link.up = true → perstLocal s = false →
      exec .linkDown s = .next (settle (countReset 3 (resetPf { s with link := { s.link with up := false } }))))
    ∧ (s.link.up = true → perstLocal s = true → exec .linkDown s = .next { s with link := { s.link with up := false } })
    ∧ (∀ fn qid p t, getPair fn qid s = some p → p.intEn = true → p.coalTime ≠ 0 → p.coalAt = some t →
      (t + p.coalTime * usT ≤ s.time.mono → exec (.coalTimer fn qid) s = .next (signal fn qid p.vector s))
      ∧ (s.time.mono < t + p.coalTime * usT → exec (.coalTimer fn qid) s = .next s))
    ∧ (s.link.up = true → s.link.fetchStopped = false → ready s = true →
      (arbitrate s = none → ∀ got, exec (.sqFetch got) s = .next s)
      ∧ (∀ p t, arbitrate s = some (p, t) →
        (p.sqBase.ok = false ∨ p.cqBase.ok = false → ∀ got, exec (.sqFetch got) s = .next (settle (baseFault p t)))
        ∧ (p.sqBase.ok = true → p.cqBase.ok = true →
          let t := emit (.fetch p.fn (p.sqBase.n + 64 * p.sqHead)) t
          (exec (.sqFetch (.failed .error)) s = .next (updPair p.fn p.qid (fun p => { p with fault := 1 }) t)
            ∧ exec (.sqFetch (.failed .poison)) s = .next (updPair p.fn p.qid (fun p => { p with fault := 2 }) t)
            ∧ exec (.sqFetch (.failed .timeout)) s = .next (updPair p.fn p.qid (fun p => { p with fault := 3 }) t))
          ∧ (∀ e, exec (.sqFetch (.entry e)) s = .next (settle (openReq (.queue p.fn p.qid) (padTo 64 (e.take 64))
            (updPair p.fn p.qid (fun p => { p with sqHead := (p.sqHead + 1) % p.sqDepth }) t))))))))

/-- A ring with the next sequence number on an idle callboard starts a request; any other is refused, counted, with
its reason. For a host write of a sequence number v below 65,536 to CB_RING, the physical function presented:
with the callboard idle and v the next number, the callboard is busy, NEXT_SEQ is v + 1, from 0xFFFF to 0, and
the 64 bytes of CB_REQUEST open as the server's request (its limit is 10 s for RECAST_IMAGE_LOAD, else 2 s);
otherwise CB_REFUSED rises by one (saturating), CB_REASON is 1 while not idle and else 2, and the request is
left alone. Either way the access is wake source 2. Cites: R59. -/
def Obligations.RingsStartOrAreRefused : Prop :=
  ∀ (v : W32) (s : State), fnLive 0 s = true → v.toNat < 65536 →
    let ends (t : State) : Host.Outcome State Fault Refusal := .next (settle (inBand t))
    (s.cb.state = 0 → v.toNat = s.cb.nextSeq →
      let e := memRead s.cb.request 0 64
      let sec := if fld e 0 2 = 0x0E03 then 10 else 2
      exec (.cbRing v) s = ends (openReq .callboard e { s with cb := { s.cb with
        state := 1, nextSeq := if v.toNat = 0xFFFF then 0 else v.toNat + 1, ringSeq := v.toNat, limit := some (s.time.mono + sec * secT) } }))
    ∧ (s.cb.state ≠ 0 → exec (.cbRing v) s
      = ends { s with cb := { s.cb with refused := min (s.cb.refused + 1) 0xFFFFFFFF, reason := 1, refTotal := s.cb.refTotal + 1 } })
    ∧ (s.cb.state = 0 → v.toNat ≠ s.cb.nextSeq → exec (.cbRing v) s
      = ends { s with cb := { s.cb with refused := min (s.cb.refused + 1) 0xFFFFFFFF, reason := 2, refTotal := s.cb.refTotal + 1 } })

/-- The callboard is acknowledged, its refused count read and cleared, and the hardware ends what the server does
not. On the physical function: an acknowledgement of 1 with the callboard done makes it idle, with it not done
is refused with reason 4, of 0 does nothing, with reserved bits is refused in the callboard's region; reading
CB_REFUSED gives and clears the count. A callboard request still busy 1 s past its server's limit: it is gone,
the failure records take this instant and its opcode and their count rises by one, and ST_E_TIMEOUT stands in
CB_RESPONSE with its CID; before that CB_HW_TIMEOUT changes nothing. Cites: R5, R59, R60, R62, Table 2.11. -/
def Obligations.CallboardComplete : Prop :=
  (∀ (s : State), fnLive 0 s = true →
    let ends (t : State) : Host.Outcome State Fault Refusal := .next (settle (inBand t))
    (s.cb.state = 2 → exec (.cbAck 1) s = ends { s with cb := { s.cb with state := 0 } })
    ∧ (s.cb.state ≠ 2 → exec (.cbAck 1) s
      = ends { s with cb := { s.cb with refused := min (s.cb.refused + 1) 0xFFFFFFFF, reason := 4, refTotal := s.cb.refTotal + 1 } })
    ∧ exec (.cbAck 0) s = ends s
    ∧ (∀ v : W32, 2 ≤ v.toNat → exec (.cbAck v) s = ends (refuseReg 0 2 s))
    ∧ exec .cbRefusedRead s = .next { s with cb := { s.cb with refused := 0 }, out := s.out ++ [.read s.cb.refused] })
  ∧ (∀ (t : Nat) (s : State), s.cb.state = 1 → s.cb.limit = some t →
    (s.time.mono < t + secT → exec .cbHwTimeout s = .next s)
    ∧ (t + secT ≤ s.time.mono →
      let op := fld (memRead s.cb.request 0 64) 0 2
      let cid := fld (memRead s.cb.request 0 64) 4 2
      let s1 := match s.link.reqs.find? fun q => q.src == .callboard with
        | some q => cancelSilent q s
        | none => s
      exec .cbHwTimeout s = .next (settle (cbRespond cid stTimeout 0 0 false { s1 with cb := { s1.cb with
        failCount := sat32 s1.cb.failCount 1, failTime := s1.time.now, failOpcode := op } }))))

/-- Slack monitors measure, counters clear on reading, the time word latches, the sideband target takes its
accesses. SLACK_MEASURE of a powered monitor, 100 us after its last, stores the slack rounded to 2^-12, nearest,
ties to even, saturated, its sign, and the minimum. On a presented physical function: SLK_NEG_SEEN_CLEAR with
bit 17 clears NEG_SEEN, with other bits is refused; SLK_MIN_READ gives the minimum and restarts it (what a read
gives that finds no measurement since is free, log entry 190); a monitor whose domain is off is answered by
the mesh fence and counted; GL_WAKE_CLEAR in S0 clears the bits written; TB_WORD0_READ latches the time word;
FENCE_COUNTER_READ gives and clears a count. While VAUX feeds the sideband target: a write of one of the two
scratch registers stores it; the first of a bad PEC, a byte count not 4, an index past the table and a read-only
register refuses it (log entry 191); in I3C mode the index and the dynamic address are taken; a held SCL
counts a timeout; reading the refused count clears it; SB_MIRROR_TICK in service, 10 ms after the last, copies
the mirrored fields (log entry 192). Cites: R33, R538, R542, R545, R548, R549, R550, R554, R556, R557,
R558, Table 17.9. -/
def Obligations.MonitorsAndSidebandComplete : Prop :=
  (∀ (n : Nat) (num : Int) (den : Nat) (s : State), monitorOn n s = true → backstopLive s = true → 0 < den →
    ((s.pwr.slack[n]?).elim 0 (·.at')) + 100 * usT ≤ s.time.mono →
    let x := satSigned 16 (nearest (num * 4096) den)
    exec (.slackMeasure n num den) s = .next (updSlack n (fun m => { slack := x, neg := decide (x < 0), seen := m.seen || decide (x < 0)
                                                                     min := if m.restart then x else min m.min x, restart := false, at' := s.time.mono }) s))
  ∧ (∀ (n : Nat) (num : Int) (den : Nat) (s : State), monitorOn n s = false ∨ backstopLive s = false
    ∨ s.time.mono < ((s.pwr.slack[n]?).elim 0 (·.at')) + 100 * usT → exec (.slackMeasure n num den) s = .next s)
  ∧ (∀ (a : Int) (b : Nat), 0 < b →
    2 * (nearest a b * b - a) ≤ b ∧ -(b : Int) ≤ 2 * (nearest a b * b - a)
    ∧ (2 * (nearest a b * b - a) = b ∨ 2 * (nearest a b * b - a) = -(b : Int) → nearest a b % 2 = 0))
  ∧ (∀ (s : State), fnLive 0 s = true →
    let ends (t : State) : Host.Outcome State Fault Refusal := .next (settle (inBand t))
    let read (r : Nat) (t : State) : State := { t with out := t.out ++ [.read r] }
    (∀ n, n < 27 → monitorLive n s = true →
      exec (.slkNegSeenClear n 0x20000) s = ends (updSlack n (fun m => { m with seen := false }) s)
      ∧ exec (.slkNegSeenClear n 0) s = ends s
      ∧ (∀ v : W32, v.toNat % 131072 ≠ 0 ∨ 262144 ≤ v.toNat → exec (.slkNegSeenClear n v) s = ends (refuseReg 0 5 s))
      ∧ (∀ m, s.pwr.slack[n]? = some m →
        let w := draw (read (codeOf 16 m.min) s)
        exec (.slkMinRead n) s = .next (updSlack n (fun m => { m with min := signedOf 16 w.1, restart := true }) w.2)))
    ∧ (∀ n d, n < 27 → monitorLive n s = false → monitorDom n = some d →
      (∀ v, exec (.slkNegSeenClear n v) s = ends (updDom d (fun x => { x with fenceWr := sat32 x.fenceWr 1 }) s))
      ∧ exec (.slkMinRead n) s = .next (updDom d (fun x => { x with fenceRd := sat32 x.fenceRd 1 }) (read 0xFFFFFFFF s)))
    ∧ (∀ v : W32,
      (256 ≤ v.toNat → exec (.glWakeClear v) s = ends (refuseReg 0 3 s))
      ∧ (v.toNat < 256 → s.pwr.state = 0 → s.pwr.returning = none →
        exec (.glWakeClear v) s = ends { s with pwr := { s.pwr with pending := s.pwr.pending &&& (255 - v.toNat) } }))
    ∧ (∀ size, size = 4 ∨ size = 8 →
      let w := unle (timeWord (stampNow 0 s))
      let t := read (w % 2 ^ (8 * size)) s
      exec (.tbWord0Read size) s
        = .next { t with time := { t.time with latch := w, latchSeq := (s.time.latchSeq + 1) % 2 ^ 32 } })
    ∧ (∀ d, d < 96 →
      exec (.fenceCounterRead d true) s = .next (updDom d (fun x => { x with fenceWr := 0 }) (read (getDom d s).fenceWr s))
      ∧ exec (.fenceCounterRead d false) s = .next (updDom d (fun x => { x with fenceRd := 0 }) (read (getDom d s).fenceRd s))))
  ∧ (∀ (s : State), s.boot.vaux = true →
    let refused (reason : Nat) : State := { s with sb := { s.sb with refused := min (s.sb.refused + 1) 0xFFFF, reason } }
    (∀ w, w.pecBad = false → w.bytes.length = 4 →
      (w.index = 0x0D → exec (.sbRegisterWrite w) s = .next { s with sb := { s.sb with scratch0 := BitVec.ofNat 32 (unle w.bytes) } })
      ∧ (w.index = 0x0E → exec (.sbRegisterWrite w) s = .next { s with sb := { s.sb with scratch1 := BitVec.ofNat 32 (unle w.bytes) } })
      ∧ (0x0F < w.index → exec (.sbRegisterWrite w) s = .next (refused 2))
      ∧ (w.index < 0x0D ∨ w.index = 0x0F → exec (.sbRegisterWrite w) s = .next (refused 1)))
    ∧ (∀ w, w.pecBad = true → exec (.sbRegisterWrite w) s = .next (refused 3))
    ∧ (∀ w, w.pecBad = false → w.bytes.length ≠ 4 → exec (.sbRegisterWrite w) s = .next (refused 4))
    ∧ (s.boot.straps.sbMode = 1 →
      (∀ i, i < 256 → exec (.sbSetIndex i) s = .next { s with sb := { s.sb with index := i } })
      ∧ (∀ a, a < 128 → exec (.sbDynamicAddress a) s = .next { s with sb := { s.sb with dynAddr := some a } }))
    ∧ exec .sbSclTimeout s = .next (refused 5)
    ∧ exec .sbRefusedRead s = .next { s with
        sb := { s.sb with refused := 0 }, out := s.out ++ [.sideband (s.sb.refused + s.sb.reason * 65536)] })
  ∧ (∀ (s : State), s.boot.phase = .running → s.pwr.state < 3 → s.sb.mirrorAt + 10 * msT ≤ s.time.mono →
    exec .sbMirrorTick s = .next { s with
      sb := { s.sb with mirrorAt := s.time.mono, temp := codeOf 16 s.pwr.temp, power := min (s.pwr.power / 100) 0xFFFF, level := s.pwr.level } })

/-- A request unfinished at its deadline ends as R15 states; a release at its deadline aborts what it waits for; an
orphan past its hold is released. COMMAND_DEADLINE of an open request that no release: past its deadline,
(DEADLINE_US, for INFER_RUN and SOLV_RUN from the instant their DEADLINE_REF names, log entry 256) an
event wait, started or not, ends with ST_OK and no event, a solve as R355 says, another command not yet started
with ST_E_TIMEOUT, a cue stop by its own rule, and every other started one as its group ends a running command,
with ST_E_TIMEOUT; before the deadline, or with no such request, nothing changes. RELEASE_DEADLINE of a release
past its deadline: each running command that names a closing object, or is a closing query batch, ends with
ST_E_ABORTED, and what the release waited for then lets it complete. ORPHAN_HOLD_EXPIRY of an orphan without
dependants whose hold has passed releases it; one whose hold has not passed stays. Cites: R15, R78, R80, R88,
R100, R101, R354, R355. -/
def Obligations.DeadlinesEndRequests : Prop :=
  (∀ (r : ReqRef) (s : State),
    (findReq r s = none → exec (.commandDeadline r) s = .next s ∧ exec (.releaseDeadline r) s = .next s)
    ∧ (∀ q, findReq r s = some q →
      let ends := dueOpt (if q.opcode = 0x0404 then runDeadline q s else if q.opcode = 0x0603 then solveDeadline q s else q.dl) s
      (closingBy r s = [] → exec (.releaseDeadline r) s = .next s
        ∧ (ends = false → exec (.commandDeadline r) s = .next s)
        ∧ (ends = true →
          (q.opcode = 0x000E → exec (.commandDeadline r) s = .next (settle (post q stOk 0 0 none s)))
          ∧ (q.opcode = 0x0603 → exec (.commandDeadline r) s = .next (settle (solveTimeout q s)))
          ∧ (q.opcode ≠ 0x000E → q.opcode ≠ 0x0603 → q.phase = .fetched →
            exec (.commandDeadline r) s = .next (settle (post q stTimeout 0 0 none s)))
          ∧ (q.opcode = 0x0303 → q.phase ≠ .fetched → exec (.commandDeadline r) s = .next (settle (stopDeadline q s)))
          ∧ (q.opcode ≠ 0x000E → q.opcode ≠ 0x0603 → q.opcode ≠ 0x0303 → q.phase ≠ .fetched →
            exec (.commandDeadline r) s = .next (settle (cancelRunning q stTimeout s)))))
      ∧ (closingBy r s ≠ [] →
        exec (.commandDeadline r) s = .next s
        ∧ (dueOpt q.dl s = false → exec (.releaseDeadline r) s = .next s)
        ∧ (dueOpt q.dl s = true →
          let os := closingBy r s
          let batch (x : Req) : Bool := os.any fun o => o.ty == 11 && s.map.batches.any fun b => b.slot == o.slot && b.req == reqRef x
          let names (x : Req) : Bool := holdsRelease q os x || (x.phase == .running && batch x)
          exec (.releaseDeadline r) s
            = .next (settle ((s.link.reqs.filter names).foldl (fun s (x : Req) => cancelRunning x stAborted s) s))))))
  ∧ (∀ (ty slot : Nat) (o : Obj) (t : Nat) (s : State), getObj ty slot s = some o → o.st = .orphan → o.holdAt = some t →
    (s.time.mono < t → exec (.orphanHoldExpiry ty slot) s = .next s)
    ∧ (t ≤ s.time.mono → (∀ x ∈ s.obj.objs, (o.ty, o.slot) ∉ x.deps) →
      exec (.orphanHoldExpiry ty slot) s = .next (settle (releaseAll ((s.obj.objs.filter (isObj o.ty o.slot)).reverse) s))))
end

