-- ==== Sys2Proof/Laws/Dispatch.lean ====
section
/-! SUPPORT. The meaning of each command, one equation per row of the table, so that no proof unfolds `exec`. -/
namespace Sys2Proof.Machine

@[simp] theorem exec_admIdentify (r : ReqRef) (io : Io) (s : State) :
    exec (.admIdentify r io) s = execAdmIdentify r io s := rfl
@[simp] theorem exec_admSessionOpen (r : ReqRef) (io : Io) (s : State) :
    exec (.admSessionOpen r io) s = execAdmSessionOpen r io s := rfl
@[simp] theorem exec_admSessionClose (r : ReqRef) (io : Io) (s : State) :
    exec (.admSessionClose r io) s = execAdmSessionClose r io s := rfl
@[simp] theorem exec_admSessionAdopt (r : ReqRef) (io : Io) (s : State) :
    exec (.admSessionAdopt r io) s = execAdmSessionAdopt r io s := rfl
@[simp] theorem exec_admQueueCreate (r : ReqRef) (io : Io) (s : State) :
    exec (.admQueueCreate r io) s = execAdmQueueCreate r io s := rfl
@[simp] theorem exec_admQueueDelete (r : ReqRef) (io : Io) (s : State) :
    exec (.admQueueDelete r io) s = execAdmQueueDelete r io s := rfl
@[simp] theorem exec_admQueueModify (r : ReqRef) (io : Io) (s : State) :
    exec (.admQueueModify r io) s = execAdmQueueModify r io s := rfl
@[simp] theorem exec_admQueueQuery (r : ReqRef) (io : Io) (s : State) :
    exec (.admQueueQuery r io) s = execAdmQueueQuery r io s := rfl
@[simp] theorem exec_admQueueGrant (r : ReqRef) (io : Io) (s : State) :
    exec (.admQueueGrant r io) s = execAdmQueueGrant r io s := rfl
@[simp] theorem exec_admHandleQuery (r : ReqRef) (io : Io) (s : State) :
    exec (.admHandleQuery r io) s = execAdmHandleQuery r io s := rfl
@[simp] theorem exec_admLimitsRead (r : ReqRef) (io : Io) (s : State) :
    exec (.admLimitsRead r io) s = execAdmLimitsRead r io s := rfl
@[simp] theorem exec_admAbort (r : ReqRef) (io : Io) (s : State) :
    exec (.admAbort r io) s = execAdmAbort r io s := rfl
@[simp] theorem exec_admResetWarm (r : ReqRef) (io : Io) (s : State) :
    exec (.admResetWarm r io) s = execAdmResetWarm r io s := rfl
@[simp] theorem exec_admResetDomain (r : ReqRef) (io : Io) (s : State) :
    exec (.admResetDomain r io) s = execAdmResetDomain r io s := rfl
@[simp] theorem exec_admEventWait (r : ReqRef) (io : Io) (s : State) :
    exec (.admEventWait r io) s = execAdmEventWait r io s := rfl
@[simp] theorem exec_streamOpen (r : ReqRef) (io : Io) (s : State) :
    exec (.streamOpen r io) s = execStreamOpen r io s := rfl
@[simp] theorem exec_streamClose (r : ReqRef) (io : Io) (s : State) :
    exec (.streamClose r io) s = execStreamClose r io s := rfl
@[simp] theorem exec_streamStart (r : ReqRef) (io : Io) (s : State) :
    exec (.streamStart r io) s = execStreamStart r io s := rfl
@[simp] theorem exec_streamStop (r : ReqRef) (io : Io) (s : State) :
    exec (.streamStop r io) s = execStreamStop r io s := rfl
@[simp] theorem exec_streamQuery (r : ReqRef) (io : Io) (s : State) :
    exec (.streamQuery r io) s = execStreamQuery r io s := rfl
@[simp] theorem exec_streamSetWindow (r : ReqRef) (io : Io) (s : State) :
    exec (.streamSetWindow r io) s = execStreamSetWindow r io s := rfl
@[simp] theorem exec_streamFrameRelease (r : ReqRef) (io : Io) (s : State) :
    exec (.streamFrameRelease r io) s = execStreamFrameRelease r io s := rfl
@[simp] theorem exec_filtOpen (r : ReqRef) (io : Io) (s : State) :
    exec (.filtOpen r io) s = execFiltOpen r io s := rfl
@[simp] theorem exec_filtClose (r : ReqRef) (io : Io) (s : State) :
    exec (.filtClose r io) s = execFiltClose r io s := rfl
@[simp] theorem exec_filtLoadBank (r : ReqRef) (io : Io) (s : State) :
    exec (.filtLoadBank r io) s = execFiltLoadBank r io s := rfl
@[simp] theorem exec_filtSwap (r : ReqRef) (io : Io) (s : State) :
    exec (.filtSwap r io) s = execFiltSwap r io s := rfl
@[simp] theorem exec_filtCrossfade (r : ReqRef) (io : Io) (s : State) :
    exec (.filtCrossfade r io) s = execFiltCrossfade r io s := rfl
@[simp] theorem exec_filtSetPhase (r : ReqRef) (io : Io) (s : State) :
    exec (.filtSetPhase r io) s = execFiltSetPhase r io s := rfl
@[simp] theorem exec_filtDcFreeze (r : ReqRef) (io : Io) (s : State) :
    exec (.filtDcFreeze r io) s = execFiltDcFreeze r io s := rfl
@[simp] theorem exec_filtDelayQuery (r : ReqRef) (io : Io) (s : State) :
    exec (.filtDelayQuery r io) s = execFiltDelayQuery r io s := rfl
@[simp] theorem exec_cueLoad (r : ReqRef) (io : Io) (s : State) :
    exec (.cueLoad r io) s = execCueLoad r io s := rfl
@[simp] theorem exec_cueUnload (r : ReqRef) (io : Io) (s : State) :
    exec (.cueUnload r io) s = execCueUnload r io s := rfl
@[simp] theorem exec_cueStart (r : ReqRef) (io : Io) (s : State) :
    exec (.cueStart r io) s = execCueStart r io s := rfl
@[simp] theorem exec_cueStop (r : ReqRef) (io : Io) (s : State) :
    exec (.cueStop r io) s = execCueStop r io s := rfl
@[simp] theorem exec_cueQuery (r : ReqRef) (io : Io) (s : State) :
    exec (.cueQuery r io) s = execCueQuery r io s := rfl
@[simp] theorem exec_cueFlagRead (r : ReqRef) (io : Io) (s : State) :
    exec (.cueFlagRead r io) s = execCueFlagRead r io s := rfl
@[simp] theorem exec_pkgLoad (r : ReqRef) (io : Io) (s : State) :
    exec (.pkgLoad r io) s = execPkgLoad r io s := rfl
@[simp] theorem exec_pkgUnload (r : ReqRef) (io : Io) (s : State) :
    exec (.pkgUnload r io) s = execPkgUnload r io s := rfl
@[simp] theorem exec_instCreate (r : ReqRef) (io : Io) (s : State) :
    exec (.instCreate r io) s = execInstCreate r io s := rfl
@[simp] theorem exec_instDestroy (r : ReqRef) (io : Io) (s : State) :
    exec (.instDestroy r io) s = execInstDestroy r io s := rfl
@[simp] theorem exec_inferRun (r : ReqRef) (io : Io) (s : State) :
    exec (.inferRun r io) s = execInferRun r io s := rfl
@[simp] theorem exec_instQuery (r : ReqRef) (io : Io) (s : State) :
    exec (.instQuery r io) s = execInstQuery r io s := rfl
@[simp] theorem exec_pkgQuery (r : ReqRef) (io : Io) (s : State) :
    exec (.pkgQuery r io) s = execPkgQuery r io s := rfl
@[simp] theorem exec_gridCreate (r : ReqRef) (io : Io) (s : State) :
    exec (.gridCreate r io) s = execGridCreate r io s := rfl
@[simp] theorem exec_gridDestroy (r : ReqRef) (io : Io) (s : State) :
    exec (.gridDestroy r io) s = execGridDestroy r io s := rfl
@[simp] theorem exec_calCreate (r : ReqRef) (io : Io) (s : State) :
    exec (.calCreate r io) s = execCalCreate r io s := rfl
@[simp] theorem exec_calDestroy (r : ReqRef) (io : Io) (s : State) :
    exec (.calDestroy r io) s = execCalDestroy r io s := rfl
@[simp] theorem exec_gridRead (r : ReqRef) (io : Io) (s : State) :
    exec (.gridRead r io) s = execGridRead r io s := rfl
@[simp] theorem exec_gridClear (r : ReqRef) (io : Io) (s : State) :
    exec (.gridClear r io) s = execGridClear r io s := rfl
@[simp] theorem exec_gridVoteSet (r : ReqRef) (io : Io) (s : State) :
    exec (.gridVoteSet r io) s = execGridVoteSet r io s := rfl
@[simp] theorem exec_gridPoseSubmit (r : ReqRef) (io : Io) (s : State) :
    exec (.gridPoseSubmit r io) s = execGridPoseSubmit r io s := rfl
@[simp] theorem exec_gridStatus (r : ReqRef) (io : Io) (s : State) :
    exec (.gridStatus r io) s = execGridStatus r io s := rfl
@[simp] theorem exec_solvLoad (r : ReqRef) (io : Io) (s : State) :
    exec (.solvLoad r io) s = execSolvLoad r io s := rfl
@[simp] theorem exec_solvUnload (r : ReqRef) (io : Io) (s : State) :
    exec (.solvUnload r io) s = execSolvUnload r io s := rfl
@[simp] theorem exec_solvDelta (r : ReqRef) (io : Io) (s : State) :
    exec (.solvDelta r io) s = execSolvDelta r io s := rfl
@[simp] theorem exec_solvRun (r : ReqRef) (io : Io) (s : State) :
    exec (.solvRun r io) s = execSolvRun r io s := rfl
@[simp] theorem exec_solvResult (r : ReqRef) (io : Io) (s : State) :
    exec (.solvResult r io) s = execSolvResult r io s := rfl
@[simp] theorem exec_solvQuery (r : ReqRef) (io : Io) (s : State) :
    exec (.solvQuery r io) s = execSolvQuery r io s := rfl
@[simp] theorem exec_mapCreate (r : ReqRef) (io : Io) (s : State) :
    exec (.mapCreate r io) s = execMapCreate r io s := rfl
@[simp] theorem exec_mapDestroy (r : ReqRef) (io : Io) (s : State) :
    exec (.mapDestroy r io) s = execMapDestroy r io s := rfl
@[simp] theorem exec_mapInsert (r : ReqRef) (io : Io) (s : State) :
    exec (.mapInsert r io) s = execMapInsert r io s := rfl
@[simp] theorem exec_mapDelete (r : ReqRef) (io : Io) (s : State) :
    exec (.mapDelete r io) s = execMapDelete r io s := rfl
@[simp] theorem exec_mapRead (r : ReqRef) (io : Io) (s : State) :
    exec (.mapRead r io) s = execMapRead r io s := rfl
@[simp] theorem exec_mapTraverse (r : ReqRef) (io : Io) (s : State) :
    exec (.mapTraverse r io) s = execMapTraverse r io s := rfl
@[simp] theorem exec_mapDeadheadSet (r : ReqRef) (io : Io) (s : State) :
    exec (.mapDeadheadSet r io) s = execMapDeadheadSet r io s := rfl
@[simp] theorem exec_mapRepot (r : ReqRef) (io : Io) (s : State) :
    exec (.mapRepot r io) s = execMapRepot r io s := rfl
@[simp] theorem exec_mapCheckpoint (r : ReqRef) (io : Io) (s : State) :
    exec (.mapCheckpoint r io) s = execMapCheckpoint r io s := rfl
@[simp] theorem exec_mapRestore (r : ReqRef) (io : Io) (s : State) :
    exec (.mapRestore r io) s = execMapRestore r io s := rfl
@[simp] theorem exec_idxCreate (r : ReqRef) (io : Io) (s : State) :
    exec (.idxCreate r io) s = execIdxCreate r io s := rfl
@[simp] theorem exec_idxDestroy (r : ReqRef) (io : Io) (s : State) :
    exec (.idxDestroy r io) s = execIdxDestroy r io s := rfl
@[simp] theorem exec_idxInsert (r : ReqRef) (io : Io) (s : State) :
    exec (.idxInsert r io) s = execIdxInsert r io s := rfl
@[simp] theorem exec_idxDelete (r : ReqRef) (io : Io) (s : State) :
    exec (.idxDelete r io) s = execIdxDelete r io s := rfl
@[simp] theorem exec_idxRebuild (r : ReqRef) (io : Io) (s : State) :
    exec (.idxRebuild r io) s = execIdxRebuild r io s := rfl
@[simp] theorem exec_srchBatch (r : ReqRef) (io : Io) (s : State) :
    exec (.srchBatch r io) s = execSrchBatch r io s := rfl
@[simp] theorem exec_idxQuery (r : ReqRef) (io : Io) (s : State) :
    exec (.idxQuery r io) s = execIdxQuery r io s := rfl
@[simp] theorem exec_memAlloc (r : ReqRef) (io : Io) (s : State) :
    exec (.memAlloc r io) s = execMemAlloc r io s := rfl
@[simp] theorem exec_memFree (r : ReqRef) (io : Io) (s : State) :
    exec (.memFree r io) s = execMemFree r io s := rfl
@[simp] theorem exec_memCopy (r : ReqRef) (io : Io) (s : State) :
    exec (.memCopy r io) s = execMemCopy r io s := rfl
@[simp] theorem exec_memSeal (r : ReqRef) (io : Io) (s : State) :
    exec (.memSeal r io) s = execMemSeal r io s := rfl
@[simp] theorem exec_memMapBar4 (r : ReqRef) (io : Io) (s : State) :
    exec (.memMapBar4 r io) s = execMemMapBar4 r io s := rfl
@[simp] theorem exec_memUnmapBar4 (r : ReqRef) (io : Io) (s : State) :
    exec (.memUnmapBar4 r io) s = execMemUnmapBar4 r io s := rfl
@[simp] theorem exec_memQuotaSet (r : ReqRef) (io : Io) (s : State) :
    exec (.memQuotaSet r io) s = execMemQuotaSet r io s := rfl
@[simp] theorem exec_memQuotaQuery (r : ReqRef) (io : Io) (s : State) :
    exec (.memQuotaQuery r io) s = execMemQuotaQuery r io s := rfl
@[simp] theorem exec_memStats (r : ReqRef) (io : Io) (s : State) :
    exec (.memStats r io) s = execMemStats r io s := rfl
@[simp] theorem exec_ensForm (r : ReqRef) (io : Io) (s : State) :
    exec (.ensForm r io) s = execEnsForm r io s := rfl
@[simp] theorem exec_ensJoin (r : ReqRef) (io : Io) (s : State) :
    exec (.ensJoin r io) s = execEnsJoin r io s := rfl
@[simp] theorem exec_ensLeave (r : ReqRef) (io : Io) (s : State) :
    exec (.ensLeave r io) s = execEnsLeave r io s := rfl
@[simp] theorem exec_ensRemove (r : ReqRef) (io : Io) (s : State) :
    exec (.ensRemove r io) s = execEnsRemove r io s := rfl
@[simp] theorem exec_ensReshard (r : ReqRef) (io : Io) (s : State) :
    exec (.ensReshard r io) s = execEnsReshard r io s := rfl
@[simp] theorem exec_ensStatus (r : ReqRef) (io : Io) (s : State) :
    exec (.ensStatus r io) s = execEnsStatus r io s := rfl
@[simp] theorem exec_pwrCapSet (r : ReqRef) (io : Io) (s : State) :
    exec (.pwrCapSet r io) s = execPwrCapSet r io s := rfl
@[simp] theorem exec_pwrLevelSet (r : ReqRef) (io : Io) (s : State) :
    exec (.pwrLevelSet r io) s = execPwrLevelSet r io s := rfl
@[simp] theorem exec_pwrStateEnter (r : ReqRef) (io : Io) (s : State) :
    exec (.pwrStateEnter r io) s = execPwrStateEnter r io s := rfl
@[simp] theorem exec_pwrDomainPark (r : ReqRef) (io : Io) (s : State) :
    exec (.pwrDomainPark r io) s = execPwrDomainPark r io s := rfl
@[simp] theorem exec_pwrPadRelease (r : ReqRef) (io : Io) (s : State) :
    exec (.pwrPadRelease r io) s = execPwrPadRelease r io s := rfl
@[simp] theorem exec_pwrStatus (r : ReqRef) (io : Io) (s : State) :
    exec (.pwrStatus r io) s = execPwrStatus r io s := rfl
@[simp] theorem exec_pwrCounters (r : ReqRef) (io : Io) (s : State) :
    exec (.pwrCounters r io) s = execPwrCounters r io s := rfl
@[simp] theorem exec_timeRead (r : ReqRef) (io : Io) (s : State) :
    exec (.timeRead r io) s = execTimeRead r io s := rfl
@[simp] theorem exec_timeSet (r : ReqRef) (io : Io) (s : State) :
    exec (.timeSet r io) s = execTimeSet r io s := rfl
@[simp] theorem exec_timeAdjust (r : ReqRef) (io : Io) (s : State) :
    exec (.timeAdjust r io) s = execTimeAdjust r io s := rfl
@[simp] theorem exec_timePtpConfig (r : ReqRef) (io : Io) (s : State) :
    exec (.timePtpConfig r io) s = execTimePtpConfig r io s := rfl
@[simp] theorem exec_timeAlarmSet (r : ReqRef) (io : Io) (s : State) :
    exec (.timeAlarmSet r io) s = execTimeAlarmSet r io s := rfl
@[simp] theorem exec_timeStatus (r : ReqRef) (io : Io) (s : State) :
    exec (.timeStatus r io) s = execTimeStatus r io s := rfl
@[simp] theorem exec_secQuote (r : ReqRef) (io : Io) (s : State) :
    exec (.secQuote r io) s = execSecQuote r io s := rfl
@[simp] theorem exec_secLifecycle (r : ReqRef) (io : Io) (s : State) :
    exec (.secLifecycle r io) s = execSecLifecycle r io s := rfl
@[simp] theorem exec_secUnlockChallenge (r : ReqRef) (io : Io) (s : State) :
    exec (.secUnlockChallenge r io) s = execSecUnlockChallenge r io s := rfl
@[simp] theorem exec_secUnlock (r : ReqRef) (io : Io) (s : State) :
    exec (.secUnlock r io) s = execSecUnlock r io s := rfl
@[simp] theorem exec_secAlarmPolicy (r : ReqRef) (io : Io) (s : State) :
    exec (.secAlarmPolicy r io) s = execSecAlarmPolicy r io s := rfl
@[simp] theorem exec_secIdentityRead (r : ReqRef) (io : Io) (s : State) :
    exec (.secIdentityRead r io) s = execSecIdentityRead r io s := rfl
@[simp] theorem exec_diagLogRead (r : ReqRef) (io : Io) (s : State) :
    exec (.diagLogRead r io) s = execDiagLogRead r io s := rfl
@[simp] theorem exec_diagCounters (r : ReqRef) (io : Io) (s : State) :
    exec (.diagCounters r io) s = execDiagCounters r io s := rfl
@[simp] theorem exec_diagSelftestRecord (r : ReqRef) (io : Io) (s : State) :
    exec (.diagSelftestRecord r io) s = execDiagSelftestRecord r io s := rfl
@[simp] theorem exec_recastImageLoad (r : ReqRef) (io : Io) (s : State) :
    exec (.recastImageLoad r io) s = execRecastImageLoad r io s := rfl
@[simp] theorem exec_recastCommit (r : ReqRef) (io : Io) (s : State) :
    exec (.recastCommit r io) s = execRecastCommit r io s := rfl
@[simp] theorem exec_recastFallback (r : ReqRef) (io : Io) (s : State) :
    exec (.recastFallback r io) s = execRecastFallback r io s := rfl
@[simp] theorem exec_diagJournalRead (r : ReqRef) (io : Io) (s : State) :
    exec (.diagJournalRead r io) s = execDiagJournalRead r io s := rfl
@[simp] theorem exec_registerWrite (fn off size : Nat) (v : Nat) (s : State) :
    exec (.registerWrite fn off size v) s = execRegisterWrite fn off size v s := rfl
@[simp] theorem exec_qzBaseWrite (fn off size : Nat) (v : Nat) (s : State) :
    exec (.qzBaseWrite fn off size v) s = execQzBaseWrite fn off size v s := rfl
@[simp] theorem exec_qzEnable (fn : Nat) (v : W32) (s : State) :
    exec (.qzEnable fn v) s = execQzEnable fn v s := rfl
@[simp] theorem exec_qzDisable (fn : Nat) (v : W32) (s : State) :
    exec (.qzDisable fn v) s = execQzDisable fn v s := rfl
@[simp] theorem exec_qzCtrlUpdate (fn : Nat) (v : W32) (s : State) :
    exec (.qzCtrlUpdate fn v) s = execQzCtrlUpdate fn v s := rfl
@[simp] theorem exec_sqTailDoorbell (fn off size : Nat) (v : W64) (s : State) :
    exec (.sqTailDoorbell fn off size v) s = execSqTailDoorbell fn off size v s := rfl
@[simp] theorem exec_cqHeadDoorbell (fn off size : Nat) (v : W64) (s : State) :
    exec (.cqHeadDoorbell fn off size v) s = execCqHeadDoorbell fn off size v s := rfl
@[simp] theorem exec_qzDbRefusedRead (fn : Nat) (s : State) :
    exec (.qzDbRefusedRead fn) s = execQzDbRefusedRead fn s := rfl
@[simp] theorem exec_bar4MissRead (s : State) :
    exec .bar4MissRead s = execBar4MissRead s := rfl
@[simp] theorem exec_bar4Access (off : Nat) (acc : Bar4Access) (s : State) :
    exec (.bar4Access off acc) s = execBar4Access off acc s := rfl
@[simp] theorem exec_cbRing (v : W32) (s : State) :
    exec (.cbRing v) s = execCbRing v s := rfl
@[simp] theorem exec_cbAck (v : W32) (s : State) :
    exec (.cbAck v) s = execCbAck v s := rfl
@[simp] theorem exec_cbRefusedRead (s : State) :
    exec .cbRefusedRead s = execCbRefusedRead s := rfl
@[simp] theorem exec_cbHwTimeout (s : State) :
    exec .cbHwTimeout s = execCbHwTimeout s := rfl
@[simp] theorem exec_tbWord0Read (size : Nat) (s : State) :
    exec (.tbWord0Read size) s = execTbWord0Read size s := rfl
@[simp] theorem exec_glWakeClear (v : W32) (s : State) :
    exec (.glWakeClear v) s = execGlWakeClear v s := rfl
@[simp] theorem exec_slkNegSeenClear (n : Nat) (v : W32) (s : State) :
    exec (.slkNegSeenClear n v) s = execSlkNegSeenClear n v s := rfl
@[simp] theorem exec_slkMinRead (n : Nat) (s : State) :
    exec (.slkMinRead n) s = execSlkMinRead n s := rfl
@[simp] theorem exec_fenceCounterRead (dom : Nat) (wr : Bool) (s : State) :
    exec (.fenceCounterRead dom wr) s = execFenceCounterRead dom wr s := rfl
@[simp] theorem exec_msixUnmask (fn : Nat) (u : Unmask) (s : State) :
    exec (.msixUnmask fn u) s = execMsixUnmask fn u s := rfl
@[simp] theorem exec_busMasterEnable (fn : Nat) (s : State) :
    exec (.busMasterEnable fn) s = execBusMasterEnable fn s := rfl
@[simp] theorem exec_vfEnableSet (n : Nat) (s : State) :
    exec (.vfEnableSet n) s = execVfEnableSet n s := rfl
@[simp] theorem exec_vfEnableClear (s : State) :
    exec .vfEnableClear s = execVfEnableClear s := rfl
@[simp] theorem exec_functionLevelReset (fn : Nat) (s : State) :
    exec (.functionLevelReset fn) s = execFunctionLevelReset fn s := rfl
@[simp] theorem exec_linkDown (s : State) :
    exec .linkDown s = execLinkDown s := rfl
@[simp] theorem exec_sqFetch (got : Fetched) (s : State) :
    exec (.sqFetch got) s = execSqFetch got s := rfl
@[simp] theorem exec_coalTimer (fn qid : Nat) (s : State) :
    exec (.coalTimer fn qid) s = execCoalTimer fn qid s := rfl
@[simp] theorem exec_commandDeadline (r : ReqRef) (s : State) :
    exec (.commandDeadline r) s = execCommandDeadline r s := rfl
@[simp] theorem exec_releaseDeadline (r : ReqRef) (s : State) :
    exec (.releaseDeadline r) s = execReleaseDeadline r s := rfl
@[simp] theorem exec_orphanHoldExpiry (ty slot : Nat) (s : State) :
    exec (.orphanHoldExpiry ty slot) s = execOrphanHoldExpiry ty slot s := rfl
@[simp] theorem exec_csiFrameStart (port vc frameNo : Nat) (s : State) :
    exec (.csiFrameStart port vc frameNo) s = execCsiFrameStart port vc frameNo s := rfl
@[simp] theorem exec_csiPacket (port vc : Nat) (p : CsiPacket) (s : State) :
    exec (.csiPacket port vc p) s = execCsiPacket port vc p s := rfl
@[simp] theorem exec_csiFrameEnd (port vc : Nat) (s : State) :
    exec (.csiFrameEnd port vc) s = execCsiFrameEnd port vc s := rfl
@[simp] theorem exec_ethFrameReceived (port : Nat) (f : EthFrame) (s : State) :
    exec (.ethFrameReceived port f) s = execEthFrameReceived port f s := rfl
@[simp] theorem exec_ptpMasterTimeout (s : State) :
    exec .ptpMasterTimeout s = execPtpMasterTimeout s := rfl
@[simp] theorem exec_timeAlarmFire (n : Nat) (s : State) :
    exec (.timeAlarmFire n) s = execTimeAlarmFire n s := rfl
@[simp] theorem exec_spiCnvStrobe (ctrl cs : Nat) (s : State) :
    exec (.spiCnvStrobe ctrl cs) s = execSpiCnvStrobe ctrl cs s := rfl
@[simp] theorem exec_spiDrdyEdge (ctrl cs : Nat) (ns : Nat) (s : State) :
    exec (.spiDrdyEdge ctrl cs ns) s = execSpiDrdyEdge ctrl cs s ns := rfl
@[simp] theorem exec_spiTransactionDone (ctrl : Nat) (words : List Nat) (s : State) :
    exec (.spiTransactionDone ctrl words) s = execSpiTransactionDone ctrl words s := rfl
@[simp] theorem exec_spiDrdyGap (ctrl cs : Nat) (s : State) :
    exec (.spiDrdyGap ctrl cs) s = execSpiDrdyGap ctrl cs s := rfl
@[simp] theorem exec_filtHeldInput (ctrl cs : Nat) (s : State) :
    exec (.filtHeldInput ctrl cs) s = execFiltHeldInput ctrl cs s := rfl
@[simp] theorem exec_encEdge (n : Nat) (a b : Bool) (ns : Nat) (s : State) :
    exec (.encEdge n a b ns) s = execEncEdge n a b s ns := rfl
@[simp] theorem exec_encIndex (n : Nat) (ns : Nat) (s : State) :
    exec (.encIndex n ns) s = execEncIndex n s ns := rfl
@[simp] theorem exec_encSample (n : Nat) (s : State) :
    exec (.encSample n) s = execEncSample n s := rfl
@[simp] theorem exec_cueSlotMissing (sheet set slot : Nat) (s : State) :
    exec (.cueSlotMissing sheet set slot) s = execCueSlotMissing sheet set slot s := rfl
@[simp] theorem exec_cueSetDeadline (sheet set : Nat) (s : State) :
    exec (.cueSetDeadline sheet set) s = execCueSetDeadline sheet set s := rfl
@[simp] theorem exec_visionBandDone (group : Nat) (u : VisionUnit) (s : State) :
    exec (.visionBandDone group u) s = execVisionBandDone group u s := rfl
@[simp] theorem exec_visionNodeDone (sheet set node : Nat) (media : Bool) (s : State) :
    exec (.visionNodeDone sheet set node media) s = execVisionNodeDone sheet set node media s := rfl
@[simp] theorem exec_cueExternalWaitMet (sheet set node : Nat) (s : State) :
    exec (.cueExternalWaitMet sheet set node) s = execCueExternalWaitMet sheet set node s := rfl
@[simp] theorem exec_tileFlagWrite (sheet flag at' : Nat) (bytes : List Byte) (tile : Nat) (writes : List TileWrite) (s : State) :
    exec (.tileFlagWrite sheet flag at' bytes tile writes) s = execTileFlagWrite sheet flag at' bytes s tile writes := rfl
@[simp] theorem exec_taskComplete (tile : Nat) (o : TaskOut) (s : State) :
    exec (.taskComplete tile o) s = execTaskComplete tile o s := rfl
@[simp] theorem exec_taskWatchdog (tile : Nat) (s : State) :
    exec (.taskWatchdog tile) s = execTaskWatchdog tile s := rfl
@[simp] theorem exec_tileSteal (tile : Nat) (s : State) :
    exec (.tileSteal tile) s = execTileSteal tile s := rfl
@[simp] theorem exec_weightLanded (inst layer : Nat) (run : Nat) (s : State) :
    exec (.weightLanded inst layer run) s = execWeightLanded inst layer s run := rfl
@[simp] theorem exec_lateWeightExpiry (inst : Nat) (s : State) :
    exec (.lateWeightExpiry inst) s = execLateWeightExpiry inst s := rfl
@[simp] theorem exec_weightTimeout (inst : Nat) (s : State) :
    exec (.weightTimeout inst) s = execWeightTimeout inst s := rfl
@[simp] theorem exec_flagWaitMet (inst : Nat) (s : State) :
    exec (.flagWaitMet inst) s = execFlagWaitMet inst s := rfl
@[simp] theorem exec_flagWaitExpiry (inst : Nat) (s : State) :
    exec (.flagWaitExpiry inst) s = execFlagWaitExpiry inst s := rfl
@[simp] theorem exec_scatterBatch (grid : Nat) (bytes : List Byte) (tile : Nat) (s : State) :
    exec (.scatterBatch grid bytes tile) s = execScatterBatch grid bytes s tile := rfl
@[simp] theorem exec_epochLimit (grid : Nat) (s : State) :
    exec (.epochLimit grid) s = execEpochLimit grid s := rfl
@[simp] theorem exec_epochClose (grid : Nat) (s : State) :
    exec (.epochClose grid) s = execEpochClose grid s := rfl
@[simp] theorem exec_solveStart (prob : Nat) (s : State) :
    exec (.solveStart prob) s = execSolveStart prob s := rfl
@[simp] theorem exec_solveComplete (prob : Nat) (e : SolveEnd) (s : State) :
    exec (.solveComplete prob e) s = execSolveComplete prob e s := rfl
@[simp] theorem exec_solveDeadline (prob : Nat) (s : State) :
    exec (.solveDeadline prob) s = execSolveDeadline prob s := rfl
@[simp] theorem exec_queryStart (engine : Nat) (s : State) :
    exec (.queryStart engine) s = execQueryStart engine s := rfl
@[simp] theorem exec_queryComplete (batch query : Nat) (bad : Option (Nat × Nat)) (s : State) :
    exec (.queryComplete batch query bad) s = execQueryComplete batch query s bad := rfl
@[simp] theorem exec_srchBatchDeadline (batch : Nat) (s : State) :
    exec (.srchBatchDeadline batch) s = execSrchBatchDeadline batch s := rfl
@[simp] theorem exec_deadheadPass (map : Nat) (s : State) :
    exec (.deadheadPass map) s = execDeadheadPass map s := rfl
@[simp] theorem exec_repotCopyDone (map : Nat) (s : State) :
    exec (.repotCopyDone map) s = execRepotCopyDone map s := rfl
@[simp] theorem exec_repotCommit (map : Nat) (s : State) :
    exec (.repotCommit map) s = execRepotCommit map s := rfl
@[simp] theorem exec_repotPauseExpiry (map : Nat) (s : State) :
    exec (.repotPauseExpiry map) s = execRepotPauseExpiry map s := rfl
@[simp] theorem exec_idxRebuildDone (idx : Nat) (s : State) :
    exec (.idxRebuildDone idx) s = execIdxRebuildDone idx s := rfl
@[simp] theorem exec_scrubRead (f : ScrubFind) (s : State) :
    exec (.scrubRead f) s = execScrubRead f s := rfl
@[simp] theorem exec_granuleRetireDone (granule : Nat) (s : State) :
    exec (.granuleRetireDone granule) s = execGranuleRetireDone granule s := rfl
@[simp] theorem exec_refetchPassEnd (pkg : Nat) (got : HostRead) (s : State) :
    exec (.refetchPassEnd pkg got) s = execRefetchPassEnd pkg got s := rfl
@[simp] theorem exec_refetchRetry (pkg : Nat) (s : State) :
    exec (.refetchRetry pkg) s = execRefetchRetry pkg s := rfl
@[simp] theorem exec_allocMove (slot : Nat) (s : State) :
    exec (.allocMove slot) s = execAllocMove slot s := rfl
@[simp] theorem exec_trellisLinkTrained (port peer : Nat) (s : State) :
    exec (.trellisLinkTrained port peer) s = execTrellisLinkTrained port peer s := rfl
@[simp] theorem exec_trellisHandshakeMessage (port : Nat) (m : Handshake) (s : State) :
    exec (.trellisHandshakeMessage port m) s = execTrellisHandshakeMessage port m s := rfl
@[simp] theorem exec_trellisRefusalRetry (port : Nat) (s : State) :
    exec (.trellisRefusalRetry port) s = execTrellisRefusalRetry port s := rfl
@[simp] theorem exec_trellisRekey (port : Nat) (s : State) :
    exec (.trellisRekey port) s = execTrellisRekey port s := rfl
@[simp] theorem exec_trellisFrameReceived (port : Nat) (tag : FrameTag) (m : TrellisMsg) (s : State) :
    exec (.trellisFrameReceived port tag m) s = execTrellisFrameReceived port tag m s := rfl
@[simp] theorem exec_trellisLinkLost (port : Nat) (s : State) :
    exec (.trellisLinkLost port) s = execTrellisLinkLost port s := rfl
@[simp] theorem exec_memberLoss (member : Nat) (s : State) :
    exec (.memberLoss member) s = execMemberLoss member s := rfl
@[simp] theorem exec_ensTimeSync (offset : Int) (s : State) :
    exec (.ensTimeSync offset) s = execEnsTimeSync offset s := rfl
@[simp] theorem exec_replicaCommit (map shard : Nat) (s : State) :
    exec (.replicaCommit map shard) s = execReplicaCommit map shard s := rfl
@[simp] theorem exec_levelChoiceTick (powerMw : Nat) (tj : Int) (s : State) :
    exec (.levelChoiceTick powerMw tj) s = execLevelChoiceTick powerMw tj s := rfl
@[simp] theorem exec_powerBackstopTick (powerMw : Nat) (tj : Int) (s : State) :
    exec (.powerBackstopTick powerMw tj) s = execPowerBackstopTick powerMw tj s := rfl
@[simp] theorem exec_thermalTrip (tj : Int) (s : State) :
    exec (.thermalTrip tj) s = execThermalTrip tj s := rfl
@[simp] theorem exec_domainIdlePark (dom : Nat) (s : State) :
    exec (.domainIdlePark dom) s = execDomainIdlePark dom s := rfl
@[simp] theorem exec_selftestSliceDone (dom : Nat) (bad : Nat) (s : State) :
    exec (.selftestSliceDone dom bad) s = execSelftestSliceDone dom bad s := rfl
@[simp] theorem exec_domainReturnDone (dom : Nat) (s : State) :
    exec (.domainReturnDone dom) s = execDomainReturnDone dom s := rfl
@[simp] theorem exec_pmeTurnOff (s : State) :
    exec .pmeTurnOff s = execPmeTurnOff s := rfl
@[simp] theorem exec_entryLinkTimeout (s : State) :
    exec .entryLinkTimeout s = execEntryLinkTimeout s := rfl
@[simp] theorem exec_domainGateTimeout (dom : Nat) (s : State) :
    exec (.domainGateTimeout dom) s = execDomainGateTimeout dom s := rfl
@[simp] theorem exec_wakeNEdge (ns : Nat) (s : State) :
    exec (.wakeNEdge ns) s = execWakeNEdge s ns := rfl
@[simp] theorem exec_gpioWakeEdge (n : Nat) (rising : Bool) (ns : Nat) (s : State) :
    exec (.gpioWakeEdge n rising ns) s = execGpioWakeEdge n rising s ns := rfl
@[simp] theorem exec_returnComplete (s : State) :
    exec .returnComplete s = execReturnComplete s := rfl
@[simp] theorem exec_brownOut (s : State) :
    exec .brownOut s = execBrownOut s := rfl
@[simp] theorem exec_powerLoss (vaux : Bool) (s : State) :
    exec (.powerLoss vaux) s = execPowerLoss vaux s := rfl
@[simp] theorem exec_vauxRise (straps : Straps) (s : State) :
    exec (.vauxRise straps) s = execVauxRise straps s := rfl
@[simp] theorem exec_mainPgRise (ns : Nat) (s : State) :
    exec (.mainPgRise ns) s = execMainPgRise s ns := rfl
@[simp] theorem exec_mainPgFall (ns : Nat) (s : State) :
    exec (.mainPgFall ns) s = execMainPgFall s ns := rfl
@[simp] theorem exec_mainPgTimeout (s : State) :
    exec .mainPgTimeout s = execMainPgTimeout s := rfl
@[simp] theorem exec_mainPgReturnTimeout (s : State) :
    exec .mainPgReturnTimeout s = execMainPgReturnTimeout s := rfl
@[simp] theorem exec_resetNAssert (ns : Nat) (s : State) :
    exec (.resetNAssert ns) s = execResetNAssert s ns := rfl
@[simp] theorem exec_resetNRelease (straps : Straps) (ns : Nat) (s : State) :
    exec (.resetNRelease straps ns) s = execResetNRelease straps s ns := rfl
@[simp] theorem exec_perstNAssert (ns : Nat) (s : State) :
    exec (.perstNAssert ns) s = execPerstNAssert s ns := rfl
@[simp] theorem exec_perstNRelease (straps : Straps) (ns : Nat) (s : State) :
    exec (.perstNRelease straps ns) s = execPerstNRelease straps s ns := rfl
@[simp] theorem exec_clkRefLoss (s : State) :
    exec .clkRefLoss s = execClkRefLoss s := rfl
@[simp] theorem exec_clkRefReturn (straps : Straps) (s : State) :
    exec (.clkRefReturn straps) s = execClkRefReturn straps s := rfl
@[simp] theorem exec_pcieRefclkLoss (s : State) :
    exec .pcieRefclkLoss s = execPcieRefclkLoss s := rfl
@[simp] theorem exec_phyRefclkLoss (trellis : Bool) (s : State) :
    exec (.phyRefclkLoss trellis) s = execPhyRefclkLoss trellis s := rfl
@[simp] theorem exec_coldStartReady (failed : List (Nat × Nat)) (s : State) :
    exec (.coldStartReady failed) s = execColdStartReady failed s := rfl
@[simp] theorem exec_bootWatchdog (s : State) :
    exec .bootWatchdog s = execBootWatchdog s := rfl
@[simp] theorem exec_fscClear (s : State) :
    exec .fscClear s = execFscClear s := rfl
@[simp] theorem exec_smWatchdog (s : State) :
    exec .smWatchdog s = execSmWatchdog s := rfl
@[simp] theorem exec_lockstepMismatch (mp : Nat) (s : State) :
    exec (.lockstepMismatch mp) s = execLockstepMismatch mp s := rfl
@[simp] theorem exec_warmResetComplete (s : State) :
    exec .warmResetComplete s = execWarmResetComplete s := rfl
@[simp] theorem exec_recastHandover (s : State) :
    exec .recastHandover s = execRecastHandover s := rfl
@[simp] theorem exec_probationEnd (s : State) :
    exec .probationEnd s = execProbationEnd s := rfl
@[simp] theorem exec_tamperAlarm (sensor : Nat) (detail : Nat) (s : State) :
    exec (.tamperAlarm sensor detail) s = execTamperAlarm sensor detail s := rfl
@[simp] theorem exec_throttleRelease (s : State) :
    exec .throttleRelease s = execThrottleRelease s := rfl
@[simp] theorem exec_challengeExpiry (s : State) :
    exec .challengeExpiry s = execChallengeExpiry s := rfl
@[simp] theorem exec_debugPortExpiry (s : State) :
    exec .debugPortExpiry s = execDebugPortExpiry s := rfl
@[simp] theorem exec_slackMeasure (n : Nat) (num : Int) (den : Nat) (s : State) :
    exec (.slackMeasure n num den) s = execSlackMeasure n num den s := rfl
@[simp] theorem exec_sbRegisterWrite (w : SbWrite) (s : State) :
    exec (.sbRegisterWrite w) s = execSbRegisterWrite w s := rfl
@[simp] theorem exec_sbSetIndex (idx : Nat) (s : State) :
    exec (.sbSetIndex idx) s = execSbSetIndex idx s := rfl
@[simp] theorem exec_sbDynamicAddress (addr : Nat) (s : State) :
    exec (.sbDynamicAddress addr) s = execSbDynamicAddress addr s := rfl
@[simp] theorem exec_sbWakeTransaction (read : Bool) (s : State) :
    exec (.sbWakeTransaction read) s = execSbWakeTransaction read s := rfl
@[simp] theorem exec_sbSclTimeout (s : State) :
    exec .sbSclTimeout s = execSbSclTimeout s := rfl
@[simp] theorem exec_sbRefusedRead (s : State) :
    exec .sbRefusedRead s = execSbRefusedRead s := rfl
@[simp] theorem exec_sbMirrorTick (s : State) :
    exec .sbMirrorTick s = execSbMirrorTick s := rfl
@[simp] theorem exec_sleepEntryGated (s : State) :
    exec .sleepEntryGated s = execSleepEntryGated s := rfl
@[simp] theorem exec_pcieLinkTrained (gen width : Nat) (s : State) :
    exec (.pcieLinkTrained gen width) s = execPcieLinkTrained gen width s := rfl
@[simp] theorem exec_wakeNDriveExpiry (s : State) :
    exec .wakeNDriveExpiry s = execWakeNDriveExpiry s := rfl
@[simp] theorem exec_phyRefclkReturn (trellis : Bool) (s : State) :
    exec (.phyRefclkReturn trellis) s = execPhyRefclkReturn trellis s := rfl
@[simp] theorem exec_startAttemptFailure (reason : Nat) (s : State) :
    exec (.startAttemptFailure reason) s = execStartAttemptFailure reason s := rfl
@[simp] theorem exec_mapCommandDone (r : ReqRef) (bad : Option (Nat × Nat)) (s : State) :
    exec (.mapCommandDone r bad) s = execMapCommandDone r s bad := rfl
@[simp] theorem exec_slewAbsorbed (s : State) :
    exec .slewAbsorbed s = execSlewAbsorbed s := rfl
@[simp] theorem exec_ptpTransmitInterval (port : Nat) (m : PtpOut) (s : State) :
    exec (.ptpTransmitInterval port m) s = execPtpTransmitInterval port m s := rfl

end Sys2Proof.Machine
end

