-- ==== Sys2Proof/Laws/Memory.lean ====
section
/-! SUPPORT. Sparse memories: a read after a write gives what was written, a write leaves every other address
alone, and every operation keeps the canonical form. -/
namespace Sys2Proof.Machine

/-- A lower bound of the keys may be lowered. -/
theorem memFrom_mono {lo hi : Nat} (h : lo ≤ hi) : ∀ {m : Mem}, memFrom hi m = true → memFrom lo m = true
  | [], _ => rfl
  | (k, v) :: m, hm => by
    simp only [memFrom, Bool.and_eq_true, decide_eq_true_eq] at hm ⊢
    exact ⟨⟨by omega, hm.1.2⟩, hm.2⟩

/-- Below every key nothing is listed: the byte reads as zero. -/
theorem memGet_below {a lo : Nat} (h : a < lo) : ∀ {m : Mem}, memFrom lo m = true → memGet m a = 0
  | [], _ => rfl
  | (k, v) :: m, hm => by
    simp only [memFrom, Bool.and_eq_true, decide_eq_true_eq] at hm
    simp only [memGet, if_neg (show ¬ a = k by omega)]
    exact memGet_below (show a < k + 1 by omega) hm.2

/-- Writing a byte at or above a bound keeps the keys above that bound. -/
theorem memSet_from {a lo : Nat} {b : Byte} (h : lo ≤ a) : ∀ {m : Mem}, memFrom lo m = true → memFrom lo (memSet m a b) = true
  | [], _ => by
    by_cases hb : b = 0#8
    · simp [memSet, hb, memFrom]
    · simp [memSet, hb, memFrom, h]
  | (k, v) :: m, hm => by
    simp only [memFrom, Bool.and_eq_true, decide_eq_true_eq] at hm
    by_cases h1 : a < k
    · by_cases hb : b = 0#8
      · simp [memSet, h1, hb, memFrom, hm.1.1, hm.2, show v ≠ 0#8 from hm.1.2]
      · simp [memSet, h1, hb, memFrom, hm.2, show v ≠ 0#8 from hm.1.2, h, Nat.succ_le_of_lt h1]
    · by_cases h2 : a = k
      · by_cases hb : b = 0#8
        · simpa [memSet, h1, h2, hb] using memFrom_mono (show lo ≤ k + 1 by omega) hm.2
        · simp [memSet, h2, hb, memFrom, hm.1.1, hm.2]
      · simp only [memSet, if_neg h1, if_neg h2, memFrom, Bool.and_eq_true, decide_eq_true_eq]
        exact ⟨hm.1, memSet_from (show k + 1 ≤ a by omega) hm.2⟩

/-- Writing one byte keeps the canonical form. -/
theorem memSet_wf {m : Mem} (a : Nat) (b : Byte) (h : Mem.wf m = true) : Mem.wf (memSet m a b) = true :=
  memSet_from (Nat.zero_le a) h

/-- Writing bytes keeps the canonical form. -/
theorem memWrite_wf : ∀ {bs : List Byte} {m : Mem} (a : Nat), Mem.wf m = true → Mem.wf (memWrite m a bs) = true
  | [], _, _, h => h
  | _ :: bs, _, a, h => memWrite_wf (bs := bs) (a + 1) (memSet_wf a _ h)

/-- A byte of a canonical memory after one byte is written. -/
theorem memGet_memSet_from {a x lo : Nat} {b : Byte} : ∀ {m : Mem}, memFrom lo m = true →
    memGet (memSet m a b) x = if x = a then b else memGet m x
  | [], _ => by
    by_cases hb : b = 0#8 <;> by_cases hx : x = a <;> simp [memSet, memGet, hb, hx]
  | (k, v) :: m, hm => by
    simp only [memFrom, Bool.and_eq_true, decide_eq_true_eq] at hm
    by_cases h1 : a < k
    · by_cases hx : x = a
      · have hk : ¬ a = k := by omega
        have h0 : memGet m a = 0 := memGet_below (show a < k + 1 by omega) hm.2
        by_cases hb : b = 0#8 <;> simp [memSet, h1, hb, memGet, hx, hk, h0]
      · by_cases hb : b = 0#8 <;> simp [memSet, h1, hb, memGet, hx]
    · by_cases h2 : a = k
      · subst h2
        by_cases hx : x = a
        · have h0 : memGet m a = 0 := memGet_below (Nat.lt_succ_self a) hm.2
          by_cases hb : b = 0#8 <;> simp [memSet, hb, memGet, hx, h0]
        · by_cases hb : b = 0#8 <;> simp [memSet, hb, memGet, hx]
      · simp only [memSet, if_neg h1, if_neg h2, memGet]
        by_cases hx : x = a
        · simp [hx, h2, memGet_memSet_from (a := a) (x := a) (b := b) hm.2]
        · simp only [memGet_memSet_from (a := a) (x := x) (b := b) hm.2, if_neg hx]

/-- A byte of a canonical memory after one byte is written. -/
theorem memGet_memSet {m : Mem} (a x : Nat) (b : Byte) (h : Mem.wf m = true) :
    memGet (memSet m a b) x = if x = a then b else memGet m x := memGet_memSet_from h

/-- A byte outside the written bytes is unchanged. -/
theorem memGet_memWrite_out : ∀ {bs : List Byte} {m : Mem} {a x : Nat}, Mem.wf m = true → (x < a ∨ a + bs.length ≤ x) →
    memGet (memWrite m a bs) x = memGet m x
  | [], _, _, _, _, _ => rfl
  | b :: bs, m, a, x, h, hx => by
    simp only [List.length_cons] at hx
    simp only [memWrite]
    rw [memGet_memWrite_out (memSet_wf a b h) (by omega), memGet_memSet a x b h, if_neg (by omega)]

/-- A byte among the written bytes is the byte written there. -/
theorem memGet_memWrite_in : ∀ {bs : List Byte} {m : Mem} {a i : Nat}, Mem.wf m = true → i < bs.length →
    memGet (memWrite m a bs) (a + i) = bs[i]?.getD 0
  | [], _, _, _, _, hi => absurd hi (by simp)
  | b :: bs, m, a, i, h, hi => by
    simp only [memWrite]
    cases i with
    | zero =>
      rw [memGet_memWrite_out (memSet_wf a b h) (Or.inl (by omega)), memGet_memSet a _ b h]
      simp
    | succ j =>
      have := memGet_memWrite_in (bs := bs) (a := a + 1) (i := j) (memSet_wf a b h) (by simpa using hi)
      rw [show a + (j + 1) = a + 1 + j by omega, this]
      simp

/-- Reading what was written gives it back. -/
theorem memRead_memWrite {m : Mem} (a : Nat) (bs : List Byte) (h : Mem.wf m = true) :
    memRead (memWrite m a bs) a bs.length = bs := by
  apply List.ext_getElem
  · simp [memRead]
  · intro i h1 h2
    simp only [memRead, List.getElem_map, List.getElem_range]
    rw [memGet_memWrite_in h h2]
    simp [h2]

end Sys2Proof.Machine
end

