-- ==== Sys2Proof/Laws/State.lean ====
section
/-! SUPPORT. What each shared operation leaves alone: one lemma per operation and field of the state, tagged for
`simp`, so that no proof unfolds a record update; then what a changed item reads as. -/
namespace Sys2Proof.Machine
set_option Elab.async false
variable (s : State)

/-! `tick` writes `time` only. -/
@[simp] theorem tick_pending : (tick s).pending = s.pending := rfl
@[simp] theorem tick_out : (tick s).out = s.out := rfl
@[simp] theorem tick_fresh : (tick s).fresh = s.fresh := rfl
@[simp] theorem tick_link : (tick s).link = s.link := rfl
@[simp] theorem tick_cb : (tick s).cb = s.cb := rfl
@[simp] theorem tick_obj : (tick s).obj = s.obj := rfl
@[simp] theorem tick_mem : (tick s).mem = s.mem := rfl
@[simp] theorem tick_sens : (tick s).sens = s.sens := rfl
@[simp] theorem tick_filt : (tick s).filt = s.filt := rfl
@[simp] theorem tick_sheets : (tick s).sheets = s.sheets := rfl
@[simp] theorem tick_vis : (tick s).vis = s.vis := rfl
@[simp] theorem tick_tile : (tick s).tile = s.tile := rfl
@[simp] theorem tick_fus : (tick s).fus = s.fus := rfl
@[simp] theorem tick_probs : (tick s).probs = s.probs := rfl
@[simp] theorem tick_map : (tick s).map = s.map := rfl
@[simp] theorem tick_ens : (tick s).ens = s.ens := rfl
@[simp] theorem tick_pwr : (tick s).pwr = s.pwr := rfl
@[simp] theorem tick_boot : (tick s).boot = s.boot := rfl
@[simp] theorem tick_sec : (tick s).sec = s.sec := rfl
@[simp] theorem tick_sb : (tick s).sb = s.sb := rfl

/-! `draw` writes `fresh` only. -/
@[simp] theorem draw_pending : (draw s).2.pending = s.pending := rfl
@[simp] theorem draw_out : (draw s).2.out = s.out := rfl
@[simp] theorem draw_link : (draw s).2.link = s.link := rfl
@[simp] theorem draw_cb : (draw s).2.cb = s.cb := rfl
@[simp] theorem draw_time : (draw s).2.time = s.time := rfl
@[simp] theorem draw_obj : (draw s).2.obj = s.obj := rfl
@[simp] theorem draw_mem : (draw s).2.mem = s.mem := rfl
@[simp] theorem draw_sens : (draw s).2.sens = s.sens := rfl
@[simp] theorem draw_filt : (draw s).2.filt = s.filt := rfl
@[simp] theorem draw_sheets : (draw s).2.sheets = s.sheets := rfl
@[simp] theorem draw_vis : (draw s).2.vis = s.vis := rfl
@[simp] theorem draw_tile : (draw s).2.tile = s.tile := rfl
@[simp] theorem draw_fus : (draw s).2.fus = s.fus := rfl
@[simp] theorem draw_probs : (draw s).2.probs = s.probs := rfl
@[simp] theorem draw_map : (draw s).2.map = s.map := rfl
@[simp] theorem draw_ens : (draw s).2.ens = s.ens := rfl
@[simp] theorem draw_pwr : (draw s).2.pwr = s.pwr := rfl
@[simp] theorem draw_boot : (draw s).2.boot = s.boot := rfl
@[simp] theorem draw_sec : (draw s).2.sec = s.sec := rfl
@[simp] theorem draw_sb : (draw s).2.sb = s.sb := rfl

/-! `drawBytes` writes `fresh` only. -/
@[simp] theorem drawBytes_pending (n : Nat) : (drawBytes n s).2.pending = s.pending := rfl
@[simp] theorem drawBytes_out (n : Nat) : (drawBytes n s).2.out = s.out := rfl
@[simp] theorem drawBytes_link (n : Nat) : (drawBytes n s).2.link = s.link := rfl
@[simp] theorem drawBytes_cb (n : Nat) : (drawBytes n s).2.cb = s.cb := rfl
@[simp] theorem drawBytes_time (n : Nat) : (drawBytes n s).2.time = s.time := rfl
@[simp] theorem drawBytes_obj (n : Nat) : (drawBytes n s).2.obj = s.obj := rfl
@[simp] theorem drawBytes_mem (n : Nat) : (drawBytes n s).2.mem = s.mem := rfl
@[simp] theorem drawBytes_sens (n : Nat) : (drawBytes n s).2.sens = s.sens := rfl
@[simp] theorem drawBytes_filt (n : Nat) : (drawBytes n s).2.filt = s.filt := rfl
@[simp] theorem drawBytes_sheets (n : Nat) : (drawBytes n s).2.sheets = s.sheets := rfl
@[simp] theorem drawBytes_vis (n : Nat) : (drawBytes n s).2.vis = s.vis := rfl
@[simp] theorem drawBytes_tile (n : Nat) : (drawBytes n s).2.tile = s.tile := rfl
@[simp] theorem drawBytes_fus (n : Nat) : (drawBytes n s).2.fus = s.fus := rfl
@[simp] theorem drawBytes_probs (n : Nat) : (drawBytes n s).2.probs = s.probs := rfl
@[simp] theorem drawBytes_map (n : Nat) : (drawBytes n s).2.map = s.map := rfl
@[simp] theorem drawBytes_ens (n : Nat) : (drawBytes n s).2.ens = s.ens := rfl
@[simp] theorem drawBytes_pwr (n : Nat) : (drawBytes n s).2.pwr = s.pwr := rfl
@[simp] theorem drawBytes_boot (n : Nat) : (drawBytes n s).2.boot = s.boot := rfl
@[simp] theorem drawBytes_sec (n : Nat) : (drawBytes n s).2.sec = s.sec := rfl
@[simp] theorem drawBytes_sb (n : Nat) : (drawBytes n s).2.sb = s.sb := rfl

/-! `updFn` writes `link` only. -/
@[simp] theorem updFn_pending (i : Nat) (f : Fn → Fn) : (updFn i f s).pending = s.pending := rfl
@[simp] theorem updFn_out (i : Nat) (f : Fn → Fn) : (updFn i f s).out = s.out := rfl
@[simp] theorem updFn_fresh (i : Nat) (f : Fn → Fn) : (updFn i f s).fresh = s.fresh := rfl
@[simp] theorem updFn_cb (i : Nat) (f : Fn → Fn) : (updFn i f s).cb = s.cb := rfl
@[simp] theorem updFn_time (i : Nat) (f : Fn → Fn) : (updFn i f s).time = s.time := rfl
@[simp] theorem updFn_obj (i : Nat) (f : Fn → Fn) : (updFn i f s).obj = s.obj := rfl
@[simp] theorem updFn_mem (i : Nat) (f : Fn → Fn) : (updFn i f s).mem = s.mem := rfl
@[simp] theorem updFn_sens (i : Nat) (f : Fn → Fn) : (updFn i f s).sens = s.sens := rfl
@[simp] theorem updFn_filt (i : Nat) (f : Fn → Fn) : (updFn i f s).filt = s.filt := rfl
@[simp] theorem updFn_sheets (i : Nat) (f : Fn → Fn) : (updFn i f s).sheets = s.sheets := rfl
@[simp] theorem updFn_vis (i : Nat) (f : Fn → Fn) : (updFn i f s).vis = s.vis := rfl
@[simp] theorem updFn_tile (i : Nat) (f : Fn → Fn) : (updFn i f s).tile = s.tile := rfl
@[simp] theorem updFn_fus (i : Nat) (f : Fn → Fn) : (updFn i f s).fus = s.fus := rfl
@[simp] theorem updFn_probs (i : Nat) (f : Fn → Fn) : (updFn i f s).probs = s.probs := rfl
@[simp] theorem updFn_map (i : Nat) (f : Fn → Fn) : (updFn i f s).map = s.map := rfl
@[simp] theorem updFn_ens (i : Nat) (f : Fn → Fn) : (updFn i f s).ens = s.ens := rfl
@[simp] theorem updFn_pwr (i : Nat) (f : Fn → Fn) : (updFn i f s).pwr = s.pwr := rfl
@[simp] theorem updFn_boot (i : Nat) (f : Fn → Fn) : (updFn i f s).boot = s.boot := rfl
@[simp] theorem updFn_sec (i : Nat) (f : Fn → Fn) : (updFn i f s).sec = s.sec := rfl
@[simp] theorem updFn_sb (i : Nat) (f : Fn → Fn) : (updFn i f s).sb = s.sb := rfl

/-! `emit` writes `out` only. -/
@[simp] theorem emit_pending (o : Output) : (emit o s).pending = s.pending := rfl
@[simp] theorem emit_fresh (o : Output) : (emit o s).fresh = s.fresh := rfl
@[simp] theorem emit_link (o : Output) : (emit o s).link = s.link := rfl
@[simp] theorem emit_cb (o : Output) : (emit o s).cb = s.cb := rfl
@[simp] theorem emit_time (o : Output) : (emit o s).time = s.time := rfl
@[simp] theorem emit_obj (o : Output) : (emit o s).obj = s.obj := rfl
@[simp] theorem emit_mem (o : Output) : (emit o s).mem = s.mem := rfl
@[simp] theorem emit_sens (o : Output) : (emit o s).sens = s.sens := rfl
@[simp] theorem emit_filt (o : Output) : (emit o s).filt = s.filt := rfl
@[simp] theorem emit_sheets (o : Output) : (emit o s).sheets = s.sheets := rfl
@[simp] theorem emit_vis (o : Output) : (emit o s).vis = s.vis := rfl
@[simp] theorem emit_tile (o : Output) : (emit o s).tile = s.tile := rfl
@[simp] theorem emit_fus (o : Output) : (emit o s).fus = s.fus := rfl
@[simp] theorem emit_probs (o : Output) : (emit o s).probs = s.probs := rfl
@[simp] theorem emit_map (o : Output) : (emit o s).map = s.map := rfl
@[simp] theorem emit_ens (o : Output) : (emit o s).ens = s.ens := rfl
@[simp] theorem emit_pwr (o : Output) : (emit o s).pwr = s.pwr := rfl
@[simp] theorem emit_boot (o : Output) : (emit o s).boot = s.boot := rfl
@[simp] theorem emit_sec (o : Output) : (emit o s).sec = s.sec := rfl
@[simp] theorem emit_sb (o : Output) : (emit o s).sb = s.sb := rfl

/-! `updPair` writes `link` only. -/
@[simp] theorem updPair_pending (fn q : Nat) (f : QPair → QPair) : (updPair fn q f s).pending = s.pending := rfl
@[simp] theorem updPair_out (fn q : Nat) (f : QPair → QPair) : (updPair fn q f s).out = s.out := rfl
@[simp] theorem updPair_fresh (fn q : Nat) (f : QPair → QPair) : (updPair fn q f s).fresh = s.fresh := rfl
@[simp] theorem updPair_cb (fn q : Nat) (f : QPair → QPair) : (updPair fn q f s).cb = s.cb := rfl
@[simp] theorem updPair_time (fn q : Nat) (f : QPair → QPair) : (updPair fn q f s).time = s.time := rfl
@[simp] theorem updPair_obj (fn q : Nat) (f : QPair → QPair) : (updPair fn q f s).obj = s.obj := rfl
@[simp] theorem updPair_mem (fn q : Nat) (f : QPair → QPair) : (updPair fn q f s).mem = s.mem := rfl
@[simp] theorem updPair_sens (fn q : Nat) (f : QPair → QPair) : (updPair fn q f s).sens = s.sens := rfl
@[simp] theorem updPair_filt (fn q : Nat) (f : QPair → QPair) : (updPair fn q f s).filt = s.filt := rfl
@[simp] theorem updPair_sheets (fn q : Nat) (f : QPair → QPair) : (updPair fn q f s).sheets = s.sheets := rfl
@[simp] theorem updPair_vis (fn q : Nat) (f : QPair → QPair) : (updPair fn q f s).vis = s.vis := rfl
@[simp] theorem updPair_tile (fn q : Nat) (f : QPair → QPair) : (updPair fn q f s).tile = s.tile := rfl
@[simp] theorem updPair_fus (fn q : Nat) (f : QPair → QPair) : (updPair fn q f s).fus = s.fus := rfl
@[simp] theorem updPair_probs (fn q : Nat) (f : QPair → QPair) : (updPair fn q f s).probs = s.probs := rfl
@[simp] theorem updPair_map (fn q : Nat) (f : QPair → QPair) : (updPair fn q f s).map = s.map := rfl
@[simp] theorem updPair_ens (fn q : Nat) (f : QPair → QPair) : (updPair fn q f s).ens = s.ens := rfl
@[simp] theorem updPair_pwr (fn q : Nat) (f : QPair → QPair) : (updPair fn q f s).pwr = s.pwr := rfl
@[simp] theorem updPair_boot (fn q : Nat) (f : QPair → QPair) : (updPair fn q f s).boot = s.boot := rfl
@[simp] theorem updPair_sec (fn q : Nat) (f : QPair → QPair) : (updPair fn q f s).sec = s.sec := rfl
@[simp] theorem updPair_sb (fn q : Nat) (f : QPair → QPair) : (updPair fn q f s).sb = s.sb := rfl

/-! `updObj` writes `obj` only. -/
@[simp] theorem updObj_pending (ty slot : Nat) (f : Obj → Obj) : (updObj ty slot f s).pending = s.pending := rfl
@[simp] theorem updObj_out (ty slot : Nat) (f : Obj → Obj) : (updObj ty slot f s).out = s.out := rfl
@[simp] theorem updObj_fresh (ty slot : Nat) (f : Obj → Obj) : (updObj ty slot f s).fresh = s.fresh := rfl
@[simp] theorem updObj_link (ty slot : Nat) (f : Obj → Obj) : (updObj ty slot f s).link = s.link := rfl
@[simp] theorem updObj_cb (ty slot : Nat) (f : Obj → Obj) : (updObj ty slot f s).cb = s.cb := rfl
@[simp] theorem updObj_time (ty slot : Nat) (f : Obj → Obj) : (updObj ty slot f s).time = s.time := rfl
@[simp] theorem updObj_mem (ty slot : Nat) (f : Obj → Obj) : (updObj ty slot f s).mem = s.mem := rfl
@[simp] theorem updObj_sens (ty slot : Nat) (f : Obj → Obj) : (updObj ty slot f s).sens = s.sens := rfl
@[simp] theorem updObj_filt (ty slot : Nat) (f : Obj → Obj) : (updObj ty slot f s).filt = s.filt := rfl
@[simp] theorem updObj_sheets (ty slot : Nat) (f : Obj → Obj) : (updObj ty slot f s).sheets = s.sheets := rfl
@[simp] theorem updObj_vis (ty slot : Nat) (f : Obj → Obj) : (updObj ty slot f s).vis = s.vis := rfl
@[simp] theorem updObj_tile (ty slot : Nat) (f : Obj → Obj) : (updObj ty slot f s).tile = s.tile := rfl
@[simp] theorem updObj_fus (ty slot : Nat) (f : Obj → Obj) : (updObj ty slot f s).fus = s.fus := rfl
@[simp] theorem updObj_probs (ty slot : Nat) (f : Obj → Obj) : (updObj ty slot f s).probs = s.probs := rfl
@[simp] theorem updObj_map (ty slot : Nat) (f : Obj → Obj) : (updObj ty slot f s).map = s.map := rfl
@[simp] theorem updObj_ens (ty slot : Nat) (f : Obj → Obj) : (updObj ty slot f s).ens = s.ens := rfl
@[simp] theorem updObj_pwr (ty slot : Nat) (f : Obj → Obj) : (updObj ty slot f s).pwr = s.pwr := rfl
@[simp] theorem updObj_boot (ty slot : Nat) (f : Obj → Obj) : (updObj ty slot f s).boot = s.boot := rfl
@[simp] theorem updObj_sec (ty slot : Nat) (f : Obj → Obj) : (updObj ty slot f s).sec = s.sec := rfl
@[simp] theorem updObj_sb (ty slot : Nat) (f : Obj → Obj) : (updObj ty slot f s).sb = s.sb := rfl

/-! `dropReq` writes `link` only. -/
@[simp] theorem dropReq_pending (order : Nat) : (dropReq order s).pending = s.pending := rfl
@[simp] theorem dropReq_out (order : Nat) : (dropReq order s).out = s.out := rfl
@[simp] theorem dropReq_fresh (order : Nat) : (dropReq order s).fresh = s.fresh := rfl
@[simp] theorem dropReq_cb (order : Nat) : (dropReq order s).cb = s.cb := rfl
@[simp] theorem dropReq_time (order : Nat) : (dropReq order s).time = s.time := rfl
@[simp] theorem dropReq_obj (order : Nat) : (dropReq order s).obj = s.obj := rfl
@[simp] theorem dropReq_mem (order : Nat) : (dropReq order s).mem = s.mem := rfl
@[simp] theorem dropReq_sens (order : Nat) : (dropReq order s).sens = s.sens := rfl
@[simp] theorem dropReq_filt (order : Nat) : (dropReq order s).filt = s.filt := rfl
@[simp] theorem dropReq_sheets (order : Nat) : (dropReq order s).sheets = s.sheets := rfl
@[simp] theorem dropReq_vis (order : Nat) : (dropReq order s).vis = s.vis := rfl
@[simp] theorem dropReq_tile (order : Nat) : (dropReq order s).tile = s.tile := rfl
@[simp] theorem dropReq_fus (order : Nat) : (dropReq order s).fus = s.fus := rfl
@[simp] theorem dropReq_probs (order : Nat) : (dropReq order s).probs = s.probs := rfl
@[simp] theorem dropReq_map (order : Nat) : (dropReq order s).map = s.map := rfl
@[simp] theorem dropReq_ens (order : Nat) : (dropReq order s).ens = s.ens := rfl
@[simp] theorem dropReq_pwr (order : Nat) : (dropReq order s).pwr = s.pwr := rfl
@[simp] theorem dropReq_boot (order : Nat) : (dropReq order s).boot = s.boot := rfl
@[simp] theorem dropReq_sec (order : Nat) : (dropReq order s).sec = s.sec := rfl
@[simp] theorem dropReq_sb (order : Nat) : (dropReq order s).sb = s.sb := rfl

/-! `cbWrite` writes `cb` only. -/
@[simp] theorem cbWrite_pending (bs : List Byte) : (cbWrite bs s).pending = s.pending := rfl
@[simp] theorem cbWrite_out (bs : List Byte) : (cbWrite bs s).out = s.out := rfl
@[simp] theorem cbWrite_fresh (bs : List Byte) : (cbWrite bs s).fresh = s.fresh := rfl
@[simp] theorem cbWrite_link (bs : List Byte) : (cbWrite bs s).link = s.link := rfl
@[simp] theorem cbWrite_time (bs : List Byte) : (cbWrite bs s).time = s.time := rfl
@[simp] theorem cbWrite_obj (bs : List Byte) : (cbWrite bs s).obj = s.obj := rfl
@[simp] theorem cbWrite_mem (bs : List Byte) : (cbWrite bs s).mem = s.mem := rfl
@[simp] theorem cbWrite_sens (bs : List Byte) : (cbWrite bs s).sens = s.sens := rfl
@[simp] theorem cbWrite_filt (bs : List Byte) : (cbWrite bs s).filt = s.filt := rfl
@[simp] theorem cbWrite_sheets (bs : List Byte) : (cbWrite bs s).sheets = s.sheets := rfl
@[simp] theorem cbWrite_vis (bs : List Byte) : (cbWrite bs s).vis = s.vis := rfl
@[simp] theorem cbWrite_tile (bs : List Byte) : (cbWrite bs s).tile = s.tile := rfl
@[simp] theorem cbWrite_fus (bs : List Byte) : (cbWrite bs s).fus = s.fus := rfl
@[simp] theorem cbWrite_probs (bs : List Byte) : (cbWrite bs s).probs = s.probs := rfl
@[simp] theorem cbWrite_map (bs : List Byte) : (cbWrite bs s).map = s.map := rfl
@[simp] theorem cbWrite_ens (bs : List Byte) : (cbWrite bs s).ens = s.ens := rfl
@[simp] theorem cbWrite_pwr (bs : List Byte) : (cbWrite bs s).pwr = s.pwr := rfl
@[simp] theorem cbWrite_boot (bs : List Byte) : (cbWrite bs s).boot = s.boot := rfl
@[simp] theorem cbWrite_sec (bs : List Byte) : (cbWrite bs s).sec = s.sec := rfl
@[simp] theorem cbWrite_sb (bs : List Byte) : (cbWrite bs s).sb = s.sb := rfl

/-! `updQuota` writes `mem` only. -/
@[simp] theorem updQuota_pending (fn tier : Nat) (f : Quota → Quota) : (updQuota fn tier f s).pending = s.pending := rfl
@[simp] theorem updQuota_out (fn tier : Nat) (f : Quota → Quota) : (updQuota fn tier f s).out = s.out := rfl
@[simp] theorem updQuota_fresh (fn tier : Nat) (f : Quota → Quota) : (updQuota fn tier f s).fresh = s.fresh := rfl
@[simp] theorem updQuota_link (fn tier : Nat) (f : Quota → Quota) : (updQuota fn tier f s).link = s.link := rfl
@[simp] theorem updQuota_cb (fn tier : Nat) (f : Quota → Quota) : (updQuota fn tier f s).cb = s.cb := rfl
@[simp] theorem updQuota_time (fn tier : Nat) (f : Quota → Quota) : (updQuota fn tier f s).time = s.time := rfl
@[simp] theorem updQuota_obj (fn tier : Nat) (f : Quota → Quota) : (updQuota fn tier f s).obj = s.obj := rfl
@[simp] theorem updQuota_sens (fn tier : Nat) (f : Quota → Quota) : (updQuota fn tier f s).sens = s.sens := rfl
@[simp] theorem updQuota_filt (fn tier : Nat) (f : Quota → Quota) : (updQuota fn tier f s).filt = s.filt := rfl
@[simp] theorem updQuota_sheets (fn tier : Nat) (f : Quota → Quota) : (updQuota fn tier f s).sheets = s.sheets := rfl
@[simp] theorem updQuota_vis (fn tier : Nat) (f : Quota → Quota) : (updQuota fn tier f s).vis = s.vis := rfl
@[simp] theorem updQuota_tile (fn tier : Nat) (f : Quota → Quota) : (updQuota fn tier f s).tile = s.tile := rfl
@[simp] theorem updQuota_fus (fn tier : Nat) (f : Quota → Quota) : (updQuota fn tier f s).fus = s.fus := rfl
@[simp] theorem updQuota_probs (fn tier : Nat) (f : Quota → Quota) : (updQuota fn tier f s).probs = s.probs := rfl
@[simp] theorem updQuota_map (fn tier : Nat) (f : Quota → Quota) : (updQuota fn tier f s).map = s.map := rfl
@[simp] theorem updQuota_ens (fn tier : Nat) (f : Quota → Quota) : (updQuota fn tier f s).ens = s.ens := rfl
@[simp] theorem updQuota_pwr (fn tier : Nat) (f : Quota → Quota) : (updQuota fn tier f s).pwr = s.pwr := rfl
@[simp] theorem updQuota_boot (fn tier : Nat) (f : Quota → Quota) : (updQuota fn tier f s).boot = s.boot := rfl
@[simp] theorem updQuota_sec (fn tier : Nat) (f : Quota → Quota) : (updQuota fn tier f s).sec = s.sec := rfl
@[simp] theorem updQuota_sb (fn tier : Nat) (f : Quota → Quota) : (updQuota fn tier f s).sb = s.sb := rfl

/-! `charge` writes `mem` only. -/
@[simp] theorem charge_pending (fn tier n : Nat) : (charge fn tier n s).pending = s.pending := rfl
@[simp] theorem charge_out (fn tier n : Nat) : (charge fn tier n s).out = s.out := rfl
@[simp] theorem charge_fresh (fn tier n : Nat) : (charge fn tier n s).fresh = s.fresh := rfl
@[simp] theorem charge_link (fn tier n : Nat) : (charge fn tier n s).link = s.link := rfl
@[simp] theorem charge_cb (fn tier n : Nat) : (charge fn tier n s).cb = s.cb := rfl
@[simp] theorem charge_time (fn tier n : Nat) : (charge fn tier n s).time = s.time := rfl
@[simp] theorem charge_obj (fn tier n : Nat) : (charge fn tier n s).obj = s.obj := rfl
@[simp] theorem charge_sens (fn tier n : Nat) : (charge fn tier n s).sens = s.sens := rfl
@[simp] theorem charge_filt (fn tier n : Nat) : (charge fn tier n s).filt = s.filt := rfl
@[simp] theorem charge_sheets (fn tier n : Nat) : (charge fn tier n s).sheets = s.sheets := rfl
@[simp] theorem charge_vis (fn tier n : Nat) : (charge fn tier n s).vis = s.vis := rfl
@[simp] theorem charge_tile (fn tier n : Nat) : (charge fn tier n s).tile = s.tile := rfl
@[simp] theorem charge_fus (fn tier n : Nat) : (charge fn tier n s).fus = s.fus := rfl
@[simp] theorem charge_probs (fn tier n : Nat) : (charge fn tier n s).probs = s.probs := rfl
@[simp] theorem charge_map (fn tier n : Nat) : (charge fn tier n s).map = s.map := rfl
@[simp] theorem charge_ens (fn tier n : Nat) : (charge fn tier n s).ens = s.ens := rfl
@[simp] theorem charge_pwr (fn tier n : Nat) : (charge fn tier n s).pwr = s.pwr := rfl
@[simp] theorem charge_boot (fn tier n : Nat) : (charge fn tier n s).boot = s.boot := rfl
@[simp] theorem charge_sec (fn tier n : Nat) : (charge fn tier n s).sec = s.sec := rfl
@[simp] theorem charge_sb (fn tier n : Nat) : (charge fn tier n s).sb = s.sb := rfl

/-! `refund` writes `mem` only. -/
@[simp] theorem refund_pending (fn tier n : Nat) : (refund fn tier n s).pending = s.pending := rfl
@[simp] theorem refund_out (fn tier n : Nat) : (refund fn tier n s).out = s.out := rfl
@[simp] theorem refund_fresh (fn tier n : Nat) : (refund fn tier n s).fresh = s.fresh := rfl
@[simp] theorem refund_link (fn tier n : Nat) : (refund fn tier n s).link = s.link := rfl
@[simp] theorem refund_cb (fn tier n : Nat) : (refund fn tier n s).cb = s.cb := rfl
@[simp] theorem refund_time (fn tier n : Nat) : (refund fn tier n s).time = s.time := rfl
@[simp] theorem refund_obj (fn tier n : Nat) : (refund fn tier n s).obj = s.obj := rfl
@[simp] theorem refund_sens (fn tier n : Nat) : (refund fn tier n s).sens = s.sens := rfl
@[simp] theorem refund_filt (fn tier n : Nat) : (refund fn tier n s).filt = s.filt := rfl
@[simp] theorem refund_sheets (fn tier n : Nat) : (refund fn tier n s).sheets = s.sheets := rfl
@[simp] theorem refund_vis (fn tier n : Nat) : (refund fn tier n s).vis = s.vis := rfl
@[simp] theorem refund_tile (fn tier n : Nat) : (refund fn tier n s).tile = s.tile := rfl
@[simp] theorem refund_fus (fn tier n : Nat) : (refund fn tier n s).fus = s.fus := rfl
@[simp] theorem refund_probs (fn tier n : Nat) : (refund fn tier n s).probs = s.probs := rfl
@[simp] theorem refund_map (fn tier n : Nat) : (refund fn tier n s).map = s.map := rfl
@[simp] theorem refund_ens (fn tier n : Nat) : (refund fn tier n s).ens = s.ens := rfl
@[simp] theorem refund_pwr (fn tier n : Nat) : (refund fn tier n s).pwr = s.pwr := rfl
@[simp] theorem refund_boot (fn tier n : Nat) : (refund fn tier n s).boot = s.boot := rfl
@[simp] theorem refund_sec (fn tier n : Nat) : (refund fn tier n s).sec = s.sec := rfl
@[simp] theorem refund_sb (fn tier n : Nat) : (refund fn tier n s).sb = s.sb := rfl

/-! `quotaRefused` writes `mem` only. -/
@[simp] theorem quotaRefused_pending (fn tier : Nat) : (quotaRefused fn tier s).pending = s.pending := rfl
@[simp] theorem quotaRefused_out (fn tier : Nat) : (quotaRefused fn tier s).out = s.out := rfl
@[simp] theorem quotaRefused_fresh (fn tier : Nat) : (quotaRefused fn tier s).fresh = s.fresh := rfl
@[simp] theorem quotaRefused_link (fn tier : Nat) : (quotaRefused fn tier s).link = s.link := rfl
@[simp] theorem quotaRefused_cb (fn tier : Nat) : (quotaRefused fn tier s).cb = s.cb := rfl
@[simp] theorem quotaRefused_time (fn tier : Nat) : (quotaRefused fn tier s).time = s.time := rfl
@[simp] theorem quotaRefused_obj (fn tier : Nat) : (quotaRefused fn tier s).obj = s.obj := rfl
@[simp] theorem quotaRefused_sens (fn tier : Nat) : (quotaRefused fn tier s).sens = s.sens := rfl
@[simp] theorem quotaRefused_filt (fn tier : Nat) : (quotaRefused fn tier s).filt = s.filt := rfl
@[simp] theorem quotaRefused_sheets (fn tier : Nat) : (quotaRefused fn tier s).sheets = s.sheets := rfl
@[simp] theorem quotaRefused_vis (fn tier : Nat) : (quotaRefused fn tier s).vis = s.vis := rfl
@[simp] theorem quotaRefused_tile (fn tier : Nat) : (quotaRefused fn tier s).tile = s.tile := rfl
@[simp] theorem quotaRefused_fus (fn tier : Nat) : (quotaRefused fn tier s).fus = s.fus := rfl
@[simp] theorem quotaRefused_probs (fn tier : Nat) : (quotaRefused fn tier s).probs = s.probs := rfl
@[simp] theorem quotaRefused_map (fn tier : Nat) : (quotaRefused fn tier s).map = s.map := rfl
@[simp] theorem quotaRefused_ens (fn tier : Nat) : (quotaRefused fn tier s).ens = s.ens := rfl
@[simp] theorem quotaRefused_pwr (fn tier : Nat) : (quotaRefused fn tier s).pwr = s.pwr := rfl
@[simp] theorem quotaRefused_boot (fn tier : Nat) : (quotaRefused fn tier s).boot = s.boot := rfl
@[simp] theorem quotaRefused_sec (fn tier : Nat) : (quotaRefused fn tier s).sec = s.sec := rfl
@[simp] theorem quotaRefused_sb (fn tier : Nat) : (quotaRefused fn tier s).sb = s.sb := rfl

/-! `refuseReg` writes `link` only. -/
@[simp] theorem refuseReg_pending (fn region : Nat) : (refuseReg fn region s).pending = s.pending := rfl
@[simp] theorem refuseReg_out (fn region : Nat) : (refuseReg fn region s).out = s.out := rfl
@[simp] theorem refuseReg_fresh (fn region : Nat) : (refuseReg fn region s).fresh = s.fresh := rfl
@[simp] theorem refuseReg_cb (fn region : Nat) : (refuseReg fn region s).cb = s.cb := rfl
@[simp] theorem refuseReg_time (fn region : Nat) : (refuseReg fn region s).time = s.time := rfl
@[simp] theorem refuseReg_obj (fn region : Nat) : (refuseReg fn region s).obj = s.obj := rfl
@[simp] theorem refuseReg_mem (fn region : Nat) : (refuseReg fn region s).mem = s.mem := rfl
@[simp] theorem refuseReg_sens (fn region : Nat) : (refuseReg fn region s).sens = s.sens := rfl
@[simp] theorem refuseReg_filt (fn region : Nat) : (refuseReg fn region s).filt = s.filt := rfl
@[simp] theorem refuseReg_sheets (fn region : Nat) : (refuseReg fn region s).sheets = s.sheets := rfl
@[simp] theorem refuseReg_vis (fn region : Nat) : (refuseReg fn region s).vis = s.vis := rfl
@[simp] theorem refuseReg_tile (fn region : Nat) : (refuseReg fn region s).tile = s.tile := rfl
@[simp] theorem refuseReg_fus (fn region : Nat) : (refuseReg fn region s).fus = s.fus := rfl
@[simp] theorem refuseReg_probs (fn region : Nat) : (refuseReg fn region s).probs = s.probs := rfl
@[simp] theorem refuseReg_map (fn region : Nat) : (refuseReg fn region s).map = s.map := rfl
@[simp] theorem refuseReg_ens (fn region : Nat) : (refuseReg fn region s).ens = s.ens := rfl
@[simp] theorem refuseReg_pwr (fn region : Nat) : (refuseReg fn region s).pwr = s.pwr := rfl
@[simp] theorem refuseReg_boot (fn region : Nat) : (refuseReg fn region s).boot = s.boot := rfl
@[simp] theorem refuseReg_sec (fn region : Nat) : (refuseReg fn region s).sec = s.sec := rfl
@[simp] theorem refuseReg_sb (fn region : Nat) : (refuseReg fn region s).sb = s.sb := rfl

/-! `measure` writes `sec` only. -/
@[simp] theorem measure_pending (i : Nat) (digest : List Byte) : (measure i digest s).pending = s.pending := rfl
@[simp] theorem measure_out (i : Nat) (digest : List Byte) : (measure i digest s).out = s.out := rfl
@[simp] theorem measure_fresh (i : Nat) (digest : List Byte) : (measure i digest s).fresh = s.fresh := rfl
@[simp] theorem measure_link (i : Nat) (digest : List Byte) : (measure i digest s).link = s.link := rfl
@[simp] theorem measure_cb (i : Nat) (digest : List Byte) : (measure i digest s).cb = s.cb := rfl
@[simp] theorem measure_time (i : Nat) (digest : List Byte) : (measure i digest s).time = s.time := rfl
@[simp] theorem measure_obj (i : Nat) (digest : List Byte) : (measure i digest s).obj = s.obj := rfl
@[simp] theorem measure_mem (i : Nat) (digest : List Byte) : (measure i digest s).mem = s.mem := rfl
@[simp] theorem measure_sens (i : Nat) (digest : List Byte) : (measure i digest s).sens = s.sens := rfl
@[simp] theorem measure_filt (i : Nat) (digest : List Byte) : (measure i digest s).filt = s.filt := rfl
@[simp] theorem measure_sheets (i : Nat) (digest : List Byte) : (measure i digest s).sheets = s.sheets := rfl
@[simp] theorem measure_vis (i : Nat) (digest : List Byte) : (measure i digest s).vis = s.vis := rfl
@[simp] theorem measure_tile (i : Nat) (digest : List Byte) : (measure i digest s).tile = s.tile := rfl
@[simp] theorem measure_fus (i : Nat) (digest : List Byte) : (measure i digest s).fus = s.fus := rfl
@[simp] theorem measure_probs (i : Nat) (digest : List Byte) : (measure i digest s).probs = s.probs := rfl
@[simp] theorem measure_map (i : Nat) (digest : List Byte) : (measure i digest s).map = s.map := rfl
@[simp] theorem measure_ens (i : Nat) (digest : List Byte) : (measure i digest s).ens = s.ens := rfl
@[simp] theorem measure_pwr (i : Nat) (digest : List Byte) : (measure i digest s).pwr = s.pwr := rfl
@[simp] theorem measure_boot (i : Nat) (digest : List Byte) : (measure i digest s).boot = s.boot := rfl
@[simp] theorem measure_sb (i : Nat) (digest : List Byte) : (measure i digest s).sb = s.sb := rfl

/-! `trigger` writes `link` and `out` only. -/
@[simp] theorem trigger_pending (fn v : Nat) : (trigger fn v s).pending = s.pending := by
  simp only [trigger]; (repeat' split) <;> simp
@[simp] theorem trigger_fresh (fn v : Nat) : (trigger fn v s).fresh = s.fresh := by
  simp only [trigger]; (repeat' split) <;> simp
@[simp] theorem trigger_cb (fn v : Nat) : (trigger fn v s).cb = s.cb := by
  simp only [trigger]; (repeat' split) <;> simp
@[simp] theorem trigger_time (fn v : Nat) : (trigger fn v s).time = s.time := by
  simp only [trigger]; (repeat' split) <;> simp
@[simp] theorem trigger_obj (fn v : Nat) : (trigger fn v s).obj = s.obj := by
  simp only [trigger]; (repeat' split) <;> simp
@[simp] theorem trigger_mem (fn v : Nat) : (trigger fn v s).mem = s.mem := by
  simp only [trigger]; (repeat' split) <;> simp
@[simp] theorem trigger_sens (fn v : Nat) : (trigger fn v s).sens = s.sens := by
  simp only [trigger]; (repeat' split) <;> simp
@[simp] theorem trigger_filt (fn v : Nat) : (trigger fn v s).filt = s.filt := by
  simp only [trigger]; (repeat' split) <;> simp
@[simp] theorem trigger_sheets (fn v : Nat) : (trigger fn v s).sheets = s.sheets := by
  simp only [trigger]; (repeat' split) <;> simp
@[simp] theorem trigger_vis (fn v : Nat) : (trigger fn v s).vis = s.vis := by
  simp only [trigger]; (repeat' split) <;> simp
@[simp] theorem trigger_tile (fn v : Nat) : (trigger fn v s).tile = s.tile := by
  simp only [trigger]; (repeat' split) <;> simp
@[simp] theorem trigger_fus (fn v : Nat) : (trigger fn v s).fus = s.fus := by
  simp only [trigger]; (repeat' split) <;> simp
@[simp] theorem trigger_probs (fn v : Nat) : (trigger fn v s).probs = s.probs := by
  simp only [trigger]; (repeat' split) <;> simp
@[simp] theorem trigger_map (fn v : Nat) : (trigger fn v s).map = s.map := by
  simp only [trigger]; (repeat' split) <;> simp
@[simp] theorem trigger_ens (fn v : Nat) : (trigger fn v s).ens = s.ens := by
  simp only [trigger]; (repeat' split) <;> simp
@[simp] theorem trigger_pwr (fn v : Nat) : (trigger fn v s).pwr = s.pwr := by
  simp only [trigger]; (repeat' split) <;> simp
@[simp] theorem trigger_boot (fn v : Nat) : (trigger fn v s).boot = s.boot := by
  simp only [trigger]; (repeat' split) <;> simp
@[simp] theorem trigger_sec (fn v : Nat) : (trigger fn v s).sec = s.sec := by
  simp only [trigger]; (repeat' split) <;> simp
@[simp] theorem trigger_sb (fn v : Nat) : (trigger fn v s).sb = s.sb := by
  simp only [trigger]; (repeat' split) <;> simp

/-! `signal` writes `link` and `out` only. -/
@[simp] theorem signal_pending (fn q v : Nat) : (signal fn q v s).pending = s.pending := by
  simp [signal]
@[simp] theorem signal_fresh (fn q v : Nat) : (signal fn q v s).fresh = s.fresh := by
  simp [signal]
@[simp] theorem signal_cb (fn q v : Nat) : (signal fn q v s).cb = s.cb := by
  simp [signal]
@[simp] theorem signal_time (fn q v : Nat) : (signal fn q v s).time = s.time := by
  simp [signal]
@[simp] theorem signal_obj (fn q v : Nat) : (signal fn q v s).obj = s.obj := by
  simp [signal]
@[simp] theorem signal_mem (fn q v : Nat) : (signal fn q v s).mem = s.mem := by
  simp [signal]
@[simp] theorem signal_sens (fn q v : Nat) : (signal fn q v s).sens = s.sens := by
  simp [signal]
@[simp] theorem signal_filt (fn q v : Nat) : (signal fn q v s).filt = s.filt := by
  simp [signal]
@[simp] theorem signal_sheets (fn q v : Nat) : (signal fn q v s).sheets = s.sheets := by
  simp [signal]
@[simp] theorem signal_vis (fn q v : Nat) : (signal fn q v s).vis = s.vis := by
  simp [signal]
@[simp] theorem signal_tile (fn q v : Nat) : (signal fn q v s).tile = s.tile := by
  simp [signal]
@[simp] theorem signal_fus (fn q v : Nat) : (signal fn q v s).fus = s.fus := by
  simp [signal]
@[simp] theorem signal_probs (fn q v : Nat) : (signal fn q v s).probs = s.probs := by
  simp [signal]
@[simp] theorem signal_map (fn q v : Nat) : (signal fn q v s).map = s.map := by
  simp [signal]
@[simp] theorem signal_ens (fn q v : Nat) : (signal fn q v s).ens = s.ens := by
  simp [signal]
@[simp] theorem signal_pwr (fn q v : Nat) : (signal fn q v s).pwr = s.pwr := by
  simp [signal]
@[simp] theorem signal_boot (fn q v : Nat) : (signal fn q v s).boot = s.boot := by
  simp [signal]
@[simp] theorem signal_sec (fn q v : Nat) : (signal fn q v s).sec = s.sec := by
  simp [signal]
@[simp] theorem signal_sb (fn q v : Nat) : (signal fn q v s).sb = s.sb := by
  simp [signal]

/-! `coalesce` writes `link` and `out` only. -/
@[simp] theorem coalesce_pending (fn q : Nat) (solicit err : Bool) : (coalesce fn q solicit err s).pending = s.pending := by
  simp only [coalesce]; (repeat' split) <;> simp
@[simp] theorem coalesce_fresh (fn q : Nat) (solicit err : Bool) : (coalesce fn q solicit err s).fresh = s.fresh := by
  simp only [coalesce]; (repeat' split) <;> simp
@[simp] theorem coalesce_cb (fn q : Nat) (solicit err : Bool) : (coalesce fn q solicit err s).cb = s.cb := by
  simp only [coalesce]; (repeat' split) <;> simp
@[simp] theorem coalesce_time (fn q : Nat) (solicit err : Bool) : (coalesce fn q solicit err s).time = s.time := by
  simp only [coalesce]; (repeat' split) <;> simp
@[simp] theorem coalesce_obj (fn q : Nat) (solicit err : Bool) : (coalesce fn q solicit err s).obj = s.obj := by
  simp only [coalesce]; (repeat' split) <;> simp
@[simp] theorem coalesce_mem (fn q : Nat) (solicit err : Bool) : (coalesce fn q solicit err s).mem = s.mem := by
  simp only [coalesce]; (repeat' split) <;> simp
@[simp] theorem coalesce_sens (fn q : Nat) (solicit err : Bool) : (coalesce fn q solicit err s).sens = s.sens := by
  simp only [coalesce]; (repeat' split) <;> simp
@[simp] theorem coalesce_filt (fn q : Nat) (solicit err : Bool) : (coalesce fn q solicit err s).filt = s.filt := by
  simp only [coalesce]; (repeat' split) <;> simp
@[simp] theorem coalesce_sheets (fn q : Nat) (solicit err : Bool) : (coalesce fn q solicit err s).sheets = s.sheets := by
  simp only [coalesce]; (repeat' split) <;> simp
@[simp] theorem coalesce_vis (fn q : Nat) (solicit err : Bool) : (coalesce fn q solicit err s).vis = s.vis := by
  simp only [coalesce]; (repeat' split) <;> simp
@[simp] theorem coalesce_tile (fn q : Nat) (solicit err : Bool) : (coalesce fn q solicit err s).tile = s.tile := by
  simp only [coalesce]; (repeat' split) <;> simp
@[simp] theorem coalesce_fus (fn q : Nat) (solicit err : Bool) : (coalesce fn q solicit err s).fus = s.fus := by
  simp only [coalesce]; (repeat' split) <;> simp
@[simp] theorem coalesce_probs (fn q : Nat) (solicit err : Bool) : (coalesce fn q solicit err s).probs = s.probs := by
  simp only [coalesce]; (repeat' split) <;> simp
@[simp] theorem coalesce_map (fn q : Nat) (solicit err : Bool) : (coalesce fn q solicit err s).map = s.map := by
  simp only [coalesce]; (repeat' split) <;> simp
@[simp] theorem coalesce_ens (fn q : Nat) (solicit err : Bool) : (coalesce fn q solicit err s).ens = s.ens := by
  simp only [coalesce]; (repeat' split) <;> simp
@[simp] theorem coalesce_pwr (fn q : Nat) (solicit err : Bool) : (coalesce fn q solicit err s).pwr = s.pwr := by
  simp only [coalesce]; (repeat' split) <;> simp
@[simp] theorem coalesce_boot (fn q : Nat) (solicit err : Bool) : (coalesce fn q solicit err s).boot = s.boot := by
  simp only [coalesce]; (repeat' split) <;> simp
@[simp] theorem coalesce_sec (fn q : Nat) (solicit err : Bool) : (coalesce fn q solicit err s).sec = s.sec := by
  simp only [coalesce]; (repeat' split) <;> simp
@[simp] theorem coalesce_sb (fn q : Nat) (solicit err : Bool) : (coalesce fn q solicit err s).sb = s.sb := by
  simp only [coalesce]; (repeat' split) <;> simp

/-! `pickSlot` writes `fresh` only. -/
@[simp] theorem pickSlot_pending (ty bound : Nat) : (pickSlot ty bound s).2.pending = s.pending := rfl
@[simp] theorem pickSlot_out (ty bound : Nat) : (pickSlot ty bound s).2.out = s.out := rfl
@[simp] theorem pickSlot_link (ty bound : Nat) : (pickSlot ty bound s).2.link = s.link := rfl
@[simp] theorem pickSlot_cb (ty bound : Nat) : (pickSlot ty bound s).2.cb = s.cb := rfl
@[simp] theorem pickSlot_time (ty bound : Nat) : (pickSlot ty bound s).2.time = s.time := rfl
@[simp] theorem pickSlot_obj (ty bound : Nat) : (pickSlot ty bound s).2.obj = s.obj := rfl
@[simp] theorem pickSlot_mem (ty bound : Nat) : (pickSlot ty bound s).2.mem = s.mem := rfl
@[simp] theorem pickSlot_sens (ty bound : Nat) : (pickSlot ty bound s).2.sens = s.sens := rfl
@[simp] theorem pickSlot_filt (ty bound : Nat) : (pickSlot ty bound s).2.filt = s.filt := rfl
@[simp] theorem pickSlot_sheets (ty bound : Nat) : (pickSlot ty bound s).2.sheets = s.sheets := rfl
@[simp] theorem pickSlot_vis (ty bound : Nat) : (pickSlot ty bound s).2.vis = s.vis := rfl
@[simp] theorem pickSlot_tile (ty bound : Nat) : (pickSlot ty bound s).2.tile = s.tile := rfl
@[simp] theorem pickSlot_fus (ty bound : Nat) : (pickSlot ty bound s).2.fus = s.fus := rfl
@[simp] theorem pickSlot_probs (ty bound : Nat) : (pickSlot ty bound s).2.probs = s.probs := rfl
@[simp] theorem pickSlot_map (ty bound : Nat) : (pickSlot ty bound s).2.map = s.map := rfl
@[simp] theorem pickSlot_ens (ty bound : Nat) : (pickSlot ty bound s).2.ens = s.ens := rfl
@[simp] theorem pickSlot_pwr (ty bound : Nat) : (pickSlot ty bound s).2.pwr = s.pwr := rfl
@[simp] theorem pickSlot_boot (ty bound : Nat) : (pickSlot ty bound s).2.boot = s.boot := rfl
@[simp] theorem pickSlot_sec (ty bound : Nat) : (pickSlot ty bound s).2.sec = s.sec := rfl
@[simp] theorem pickSlot_sb (ty bound : Nat) : (pickSlot ty bound s).2.sb = s.sb := rfl

/-! `pickGen` writes `fresh` and `obj` only. -/
@[simp] theorem pickGen_pending (ty slot : Nat) : (pickGen ty slot s).2.pending = s.pending := by
  simp only [pickGen]; split <;> simp
@[simp] theorem pickGen_out (ty slot : Nat) : (pickGen ty slot s).2.out = s.out := by
  simp only [pickGen]; split <;> simp
@[simp] theorem pickGen_link (ty slot : Nat) : (pickGen ty slot s).2.link = s.link := by
  simp only [pickGen]; split <;> simp
@[simp] theorem pickGen_cb (ty slot : Nat) : (pickGen ty slot s).2.cb = s.cb := by
  simp only [pickGen]; split <;> simp
@[simp] theorem pickGen_time (ty slot : Nat) : (pickGen ty slot s).2.time = s.time := by
  simp only [pickGen]; split <;> simp
@[simp] theorem pickGen_mem (ty slot : Nat) : (pickGen ty slot s).2.mem = s.mem := by
  simp only [pickGen]; split <;> simp
@[simp] theorem pickGen_sens (ty slot : Nat) : (pickGen ty slot s).2.sens = s.sens := by
  simp only [pickGen]; split <;> simp
@[simp] theorem pickGen_filt (ty slot : Nat) : (pickGen ty slot s).2.filt = s.filt := by
  simp only [pickGen]; split <;> simp
@[simp] theorem pickGen_sheets (ty slot : Nat) : (pickGen ty slot s).2.sheets = s.sheets := by
  simp only [pickGen]; split <;> simp
@[simp] theorem pickGen_vis (ty slot : Nat) : (pickGen ty slot s).2.vis = s.vis := by
  simp only [pickGen]; split <;> simp
@[simp] theorem pickGen_tile (ty slot : Nat) : (pickGen ty slot s).2.tile = s.tile := by
  simp only [pickGen]; split <;> simp
@[simp] theorem pickGen_fus (ty slot : Nat) : (pickGen ty slot s).2.fus = s.fus := by
  simp only [pickGen]; split <;> simp
@[simp] theorem pickGen_probs (ty slot : Nat) : (pickGen ty slot s).2.probs = s.probs := by
  simp only [pickGen]; split <;> simp
@[simp] theorem pickGen_map (ty slot : Nat) : (pickGen ty slot s).2.map = s.map := by
  simp only [pickGen]; split <;> simp
@[simp] theorem pickGen_ens (ty slot : Nat) : (pickGen ty slot s).2.ens = s.ens := by
  simp only [pickGen]; split <;> simp
@[simp] theorem pickGen_pwr (ty slot : Nat) : (pickGen ty slot s).2.pwr = s.pwr := by
  simp only [pickGen]; split <;> simp
@[simp] theorem pickGen_boot (ty slot : Nat) : (pickGen ty slot s).2.boot = s.boot := by
  simp only [pickGen]; split <;> simp
@[simp] theorem pickGen_sec (ty slot : Nat) : (pickGen ty slot s).2.sec = s.sec := by
  simp only [pickGen]; split <;> simp
@[simp] theorem pickGen_sb (ty slot : Nat) : (pickGen ty slot s).2.sb = s.sb := by
  simp only [pickGen]; split <;> simp

/-! `addObj` writes `fresh` and `obj` only. -/
@[simp] theorem addObj_pending (ty slot fn : Nat) (sess : Option Nat) (deps : List (Nat × Nat)) (sh : Bool) (on st : Nat) : (addObj ty slot fn sess deps sh on st s).2.pending = s.pending := by
  simp [addObj]
@[simp] theorem addObj_out (ty slot fn : Nat) (sess : Option Nat) (deps : List (Nat × Nat)) (sh : Bool) (on st : Nat) : (addObj ty slot fn sess deps sh on st s).2.out = s.out := by
  simp [addObj]
@[simp] theorem addObj_link (ty slot fn : Nat) (sess : Option Nat) (deps : List (Nat × Nat)) (sh : Bool) (on st : Nat) : (addObj ty slot fn sess deps sh on st s).2.link = s.link := by
  simp [addObj]
@[simp] theorem addObj_cb (ty slot fn : Nat) (sess : Option Nat) (deps : List (Nat × Nat)) (sh : Bool) (on st : Nat) : (addObj ty slot fn sess deps sh on st s).2.cb = s.cb := by
  simp [addObj]
@[simp] theorem addObj_time (ty slot fn : Nat) (sess : Option Nat) (deps : List (Nat × Nat)) (sh : Bool) (on st : Nat) : (addObj ty slot fn sess deps sh on st s).2.time = s.time := by
  simp [addObj]
@[simp] theorem addObj_mem (ty slot fn : Nat) (sess : Option Nat) (deps : List (Nat × Nat)) (sh : Bool) (on st : Nat) : (addObj ty slot fn sess deps sh on st s).2.mem = s.mem := by
  simp [addObj]
@[simp] theorem addObj_sens (ty slot fn : Nat) (sess : Option Nat) (deps : List (Nat × Nat)) (sh : Bool) (on st : Nat) : (addObj ty slot fn sess deps sh on st s).2.sens = s.sens := by
  simp [addObj]
@[simp] theorem addObj_filt (ty slot fn : Nat) (sess : Option Nat) (deps : List (Nat × Nat)) (sh : Bool) (on st : Nat) : (addObj ty slot fn sess deps sh on st s).2.filt = s.filt := by
  simp [addObj]
@[simp] theorem addObj_sheets (ty slot fn : Nat) (sess : Option Nat) (deps : List (Nat × Nat)) (sh : Bool) (on st : Nat) : (addObj ty slot fn sess deps sh on st s).2.sheets = s.sheets := by
  simp [addObj]
@[simp] theorem addObj_vis (ty slot fn : Nat) (sess : Option Nat) (deps : List (Nat × Nat)) (sh : Bool) (on st : Nat) : (addObj ty slot fn sess deps sh on st s).2.vis = s.vis := by
  simp [addObj]
@[simp] theorem addObj_tile (ty slot fn : Nat) (sess : Option Nat) (deps : List (Nat × Nat)) (sh : Bool) (on st : Nat) : (addObj ty slot fn sess deps sh on st s).2.tile = s.tile := by
  simp [addObj]
@[simp] theorem addObj_fus (ty slot fn : Nat) (sess : Option Nat) (deps : List (Nat × Nat)) (sh : Bool) (on st : Nat) : (addObj ty slot fn sess deps sh on st s).2.fus = s.fus := by
  simp [addObj]
@[simp] theorem addObj_probs (ty slot fn : Nat) (sess : Option Nat) (deps : List (Nat × Nat)) (sh : Bool) (on st : Nat) : (addObj ty slot fn sess deps sh on st s).2.probs = s.probs := by
  simp [addObj]
@[simp] theorem addObj_map (ty slot fn : Nat) (sess : Option Nat) (deps : List (Nat × Nat)) (sh : Bool) (on st : Nat) : (addObj ty slot fn sess deps sh on st s).2.map = s.map := by
  simp [addObj]
@[simp] theorem addObj_ens (ty slot fn : Nat) (sess : Option Nat) (deps : List (Nat × Nat)) (sh : Bool) (on st : Nat) : (addObj ty slot fn sess deps sh on st s).2.ens = s.ens := by
  simp [addObj]
@[simp] theorem addObj_pwr (ty slot fn : Nat) (sess : Option Nat) (deps : List (Nat × Nat)) (sh : Bool) (on st : Nat) : (addObj ty slot fn sess deps sh on st s).2.pwr = s.pwr := by
  simp [addObj]
@[simp] theorem addObj_boot (ty slot fn : Nat) (sess : Option Nat) (deps : List (Nat × Nat)) (sh : Bool) (on st : Nat) : (addObj ty slot fn sess deps sh on st s).2.boot = s.boot := by
  simp [addObj]
@[simp] theorem addObj_sec (ty slot fn : Nat) (sess : Option Nat) (deps : List (Nat × Nat)) (sh : Bool) (on st : Nat) : (addObj ty slot fn sess deps sh on st s).2.sec = s.sec := by
  simp [addObj]
@[simp] theorem addObj_sb (ty slot fn : Nat) (sess : Option Nat) (deps : List (Nat × Nat)) (sh : Bool) (on st : Nat) : (addObj ty slot fn sess deps sh on st s).2.sb = s.sb := by
  simp [addObj]

/-! `newObj` writes `fresh` and `obj` only. -/
@[simp] theorem newObj_pending (ty bound fn : Nat) (sess : Option Nat) (deps : List (Nat × Nat)) (sh : Bool) (on st : Nat) : (newObj ty bound fn sess deps sh on st s).2.2.pending = s.pending := by
  simp [newObj]
@[simp] theorem newObj_out (ty bound fn : Nat) (sess : Option Nat) (deps : List (Nat × Nat)) (sh : Bool) (on st : Nat) : (newObj ty bound fn sess deps sh on st s).2.2.out = s.out := by
  simp [newObj]
@[simp] theorem newObj_link (ty bound fn : Nat) (sess : Option Nat) (deps : List (Nat × Nat)) (sh : Bool) (on st : Nat) : (newObj ty bound fn sess deps sh on st s).2.2.link = s.link := by
  simp [newObj]
@[simp] theorem newObj_cb (ty bound fn : Nat) (sess : Option Nat) (deps : List (Nat × Nat)) (sh : Bool) (on st : Nat) : (newObj ty bound fn sess deps sh on st s).2.2.cb = s.cb := by
  simp [newObj]
@[simp] theorem newObj_time (ty bound fn : Nat) (sess : Option Nat) (deps : List (Nat × Nat)) (sh : Bool) (on st : Nat) : (newObj ty bound fn sess deps sh on st s).2.2.time = s.time := by
  simp [newObj]
@[simp] theorem newObj_mem (ty bound fn : Nat) (sess : Option Nat) (deps : List (Nat × Nat)) (sh : Bool) (on st : Nat) : (newObj ty bound fn sess deps sh on st s).2.2.mem = s.mem := by
  simp [newObj]
@[simp] theorem newObj_sens (ty bound fn : Nat) (sess : Option Nat) (deps : List (Nat × Nat)) (sh : Bool) (on st : Nat) : (newObj ty bound fn sess deps sh on st s).2.2.sens = s.sens := by
  simp [newObj]
@[simp] theorem newObj_filt (ty bound fn : Nat) (sess : Option Nat) (deps : List (Nat × Nat)) (sh : Bool) (on st : Nat) : (newObj ty bound fn sess deps sh on st s).2.2.filt = s.filt := by
  simp [newObj]
@[simp] theorem newObj_sheets (ty bound fn : Nat) (sess : Option Nat) (deps : List (Nat × Nat)) (sh : Bool) (on st : Nat) : (newObj ty bound fn sess deps sh on st s).2.2.sheets = s.sheets := by
  simp [newObj]
@[simp] theorem newObj_vis (ty bound fn : Nat) (sess : Option Nat) (deps : List (Nat × Nat)) (sh : Bool) (on st : Nat) : (newObj ty bound fn sess deps sh on st s).2.2.vis = s.vis := by
  simp [newObj]
@[simp] theorem newObj_tile (ty bound fn : Nat) (sess : Option Nat) (deps : List (Nat × Nat)) (sh : Bool) (on st : Nat) : (newObj ty bound fn sess deps sh on st s).2.2.tile = s.tile := by
  simp [newObj]
@[simp] theorem newObj_fus (ty bound fn : Nat) (sess : Option Nat) (deps : List (Nat × Nat)) (sh : Bool) (on st : Nat) : (newObj ty bound fn sess deps sh on st s).2.2.fus = s.fus := by
  simp [newObj]
@[simp] theorem newObj_probs (ty bound fn : Nat) (sess : Option Nat) (deps : List (Nat × Nat)) (sh : Bool) (on st : Nat) : (newObj ty bound fn sess deps sh on st s).2.2.probs = s.probs := by
  simp [newObj]
@[simp] theorem newObj_map (ty bound fn : Nat) (sess : Option Nat) (deps : List (Nat × Nat)) (sh : Bool) (on st : Nat) : (newObj ty bound fn sess deps sh on st s).2.2.map = s.map := by
  simp [newObj]
@[simp] theorem newObj_ens (ty bound fn : Nat) (sess : Option Nat) (deps : List (Nat × Nat)) (sh : Bool) (on st : Nat) : (newObj ty bound fn sess deps sh on st s).2.2.ens = s.ens := by
  simp [newObj]
@[simp] theorem newObj_pwr (ty bound fn : Nat) (sess : Option Nat) (deps : List (Nat × Nat)) (sh : Bool) (on st : Nat) : (newObj ty bound fn sess deps sh on st s).2.2.pwr = s.pwr := by
  simp [newObj]
@[simp] theorem newObj_boot (ty bound fn : Nat) (sess : Option Nat) (deps : List (Nat × Nat)) (sh : Bool) (on st : Nat) : (newObj ty bound fn sess deps sh on st s).2.2.boot = s.boot := by
  simp [newObj]
@[simp] theorem newObj_sec (ty bound fn : Nat) (sess : Option Nat) (deps : List (Nat × Nat)) (sh : Bool) (on st : Nat) : (newObj ty bound fn sess deps sh on st s).2.2.sec = s.sec := by
  simp [newObj]
@[simp] theorem newObj_sb (ty bound fn : Nat) (sess : Option Nat) (deps : List (Nat × Nat)) (sh : Bool) (on st : Nat) : (newObj ty bound fn sess deps sh on st s).2.2.sb = s.sb := by
  simp [newObj]

/-! `queueEvent` writes `obj` only. -/
@[simp] theorem queueEvent_pending (dest : Option Nat) (e : Event) : (queueEvent dest e s).pending = s.pending := by
  simp only [queueEvent]; (repeat' split) <;> simp
@[simp] theorem queueEvent_out (dest : Option Nat) (e : Event) : (queueEvent dest e s).out = s.out := by
  simp only [queueEvent]; (repeat' split) <;> simp
@[simp] theorem queueEvent_fresh (dest : Option Nat) (e : Event) : (queueEvent dest e s).fresh = s.fresh := by
  simp only [queueEvent]; (repeat' split) <;> simp
@[simp] theorem queueEvent_link (dest : Option Nat) (e : Event) : (queueEvent dest e s).link = s.link := by
  simp only [queueEvent]; (repeat' split) <;> simp
@[simp] theorem queueEvent_cb (dest : Option Nat) (e : Event) : (queueEvent dest e s).cb = s.cb := by
  simp only [queueEvent]; (repeat' split) <;> simp
@[simp] theorem queueEvent_time (dest : Option Nat) (e : Event) : (queueEvent dest e s).time = s.time := by
  simp only [queueEvent]; (repeat' split) <;> simp
@[simp] theorem queueEvent_mem (dest : Option Nat) (e : Event) : (queueEvent dest e s).mem = s.mem := by
  simp only [queueEvent]; (repeat' split) <;> simp
@[simp] theorem queueEvent_sens (dest : Option Nat) (e : Event) : (queueEvent dest e s).sens = s.sens := by
  simp only [queueEvent]; (repeat' split) <;> simp
@[simp] theorem queueEvent_filt (dest : Option Nat) (e : Event) : (queueEvent dest e s).filt = s.filt := by
  simp only [queueEvent]; (repeat' split) <;> simp
@[simp] theorem queueEvent_sheets (dest : Option Nat) (e : Event) : (queueEvent dest e s).sheets = s.sheets := by
  simp only [queueEvent]; (repeat' split) <;> simp
@[simp] theorem queueEvent_vis (dest : Option Nat) (e : Event) : (queueEvent dest e s).vis = s.vis := by
  simp only [queueEvent]; (repeat' split) <;> simp
@[simp] theorem queueEvent_tile (dest : Option Nat) (e : Event) : (queueEvent dest e s).tile = s.tile := by
  simp only [queueEvent]; (repeat' split) <;> simp
@[simp] theorem queueEvent_fus (dest : Option Nat) (e : Event) : (queueEvent dest e s).fus = s.fus := by
  simp only [queueEvent]; (repeat' split) <;> simp
@[simp] theorem queueEvent_probs (dest : Option Nat) (e : Event) : (queueEvent dest e s).probs = s.probs := by
  simp only [queueEvent]; (repeat' split) <;> simp
@[simp] theorem queueEvent_map (dest : Option Nat) (e : Event) : (queueEvent dest e s).map = s.map := by
  simp only [queueEvent]; (repeat' split) <;> simp
@[simp] theorem queueEvent_ens (dest : Option Nat) (e : Event) : (queueEvent dest e s).ens = s.ens := by
  simp only [queueEvent]; (repeat' split) <;> simp
@[simp] theorem queueEvent_pwr (dest : Option Nat) (e : Event) : (queueEvent dest e s).pwr = s.pwr := by
  simp only [queueEvent]; (repeat' split) <;> simp
@[simp] theorem queueEvent_boot (dest : Option Nat) (e : Event) : (queueEvent dest e s).boot = s.boot := by
  simp only [queueEvent]; (repeat' split) <;> simp
@[simp] theorem queueEvent_sec (dest : Option Nat) (e : Event) : (queueEvent dest e s).sec = s.sec := by
  simp only [queueEvent]; (repeat' split) <;> simp
@[simp] theorem queueEvent_sb (dest : Option Nat) (e : Event) : (queueEvent dest e s).sb = s.sb := by
  simp only [queueEvent]; (repeat' split) <;> simp

/-! `raise` writes `obj` only. -/
@[simp] theorem raise_pending (ev detail : Nat) (src : Option (Nat × Nat)) : (raise ev detail src s).pending = s.pending := by
  simp [raise]
@[simp] theorem raise_out (ev detail : Nat) (src : Option (Nat × Nat)) : (raise ev detail src s).out = s.out := by
  simp [raise]
@[simp] theorem raise_fresh (ev detail : Nat) (src : Option (Nat × Nat)) : (raise ev detail src s).fresh = s.fresh := by
  simp [raise]
@[simp] theorem raise_link (ev detail : Nat) (src : Option (Nat × Nat)) : (raise ev detail src s).link = s.link := by
  simp [raise]
@[simp] theorem raise_cb (ev detail : Nat) (src : Option (Nat × Nat)) : (raise ev detail src s).cb = s.cb := by
  simp [raise]
@[simp] theorem raise_time (ev detail : Nat) (src : Option (Nat × Nat)) : (raise ev detail src s).time = s.time := by
  simp [raise]
@[simp] theorem raise_mem (ev detail : Nat) (src : Option (Nat × Nat)) : (raise ev detail src s).mem = s.mem := by
  simp [raise]
@[simp] theorem raise_sens (ev detail : Nat) (src : Option (Nat × Nat)) : (raise ev detail src s).sens = s.sens := by
  simp [raise]
@[simp] theorem raise_filt (ev detail : Nat) (src : Option (Nat × Nat)) : (raise ev detail src s).filt = s.filt := by
  simp [raise]
@[simp] theorem raise_sheets (ev detail : Nat) (src : Option (Nat × Nat)) : (raise ev detail src s).sheets = s.sheets := by
  simp [raise]
@[simp] theorem raise_vis (ev detail : Nat) (src : Option (Nat × Nat)) : (raise ev detail src s).vis = s.vis := by
  simp [raise]
@[simp] theorem raise_tile (ev detail : Nat) (src : Option (Nat × Nat)) : (raise ev detail src s).tile = s.tile := by
  simp [raise]
@[simp] theorem raise_fus (ev detail : Nat) (src : Option (Nat × Nat)) : (raise ev detail src s).fus = s.fus := by
  simp [raise]
@[simp] theorem raise_probs (ev detail : Nat) (src : Option (Nat × Nat)) : (raise ev detail src s).probs = s.probs := by
  simp [raise]
@[simp] theorem raise_map (ev detail : Nat) (src : Option (Nat × Nat)) : (raise ev detail src s).map = s.map := by
  simp [raise]
@[simp] theorem raise_ens (ev detail : Nat) (src : Option (Nat × Nat)) : (raise ev detail src s).ens = s.ens := by
  simp [raise]
@[simp] theorem raise_pwr (ev detail : Nat) (src : Option (Nat × Nat)) : (raise ev detail src s).pwr = s.pwr := by
  simp [raise]
@[simp] theorem raise_boot (ev detail : Nat) (src : Option (Nat × Nat)) : (raise ev detail src s).boot = s.boot := by
  simp [raise]
@[simp] theorem raise_sec (ev detail : Nat) (src : Option (Nat × Nat)) : (raise ev detail src s).sec = s.sec := by
  simp [raise]
@[simp] theorem raise_sb (ev detail : Nat) (src : Option (Nat × Nat)) : (raise ev detail src s).sb = s.sb := by
  simp [raise]

/-! `raiseTo` writes `obj` only. -/
@[simp] theorem raiseTo_pending (sess ev detail tag : Nat) : (raiseTo sess ev detail tag s).pending = s.pending := by
  simp [raiseTo]
@[simp] theorem raiseTo_out (sess ev detail tag : Nat) : (raiseTo sess ev detail tag s).out = s.out := by
  simp [raiseTo]
@[simp] theorem raiseTo_fresh (sess ev detail tag : Nat) : (raiseTo sess ev detail tag s).fresh = s.fresh := by
  simp [raiseTo]
@[simp] theorem raiseTo_link (sess ev detail tag : Nat) : (raiseTo sess ev detail tag s).link = s.link := by
  simp [raiseTo]
@[simp] theorem raiseTo_cb (sess ev detail tag : Nat) : (raiseTo sess ev detail tag s).cb = s.cb := by
  simp [raiseTo]
@[simp] theorem raiseTo_time (sess ev detail tag : Nat) : (raiseTo sess ev detail tag s).time = s.time := by
  simp [raiseTo]
@[simp] theorem raiseTo_mem (sess ev detail tag : Nat) : (raiseTo sess ev detail tag s).mem = s.mem := by
  simp [raiseTo]
@[simp] theorem raiseTo_sens (sess ev detail tag : Nat) : (raiseTo sess ev detail tag s).sens = s.sens := by
  simp [raiseTo]
@[simp] theorem raiseTo_filt (sess ev detail tag : Nat) : (raiseTo sess ev detail tag s).filt = s.filt := by
  simp [raiseTo]
@[simp] theorem raiseTo_sheets (sess ev detail tag : Nat) : (raiseTo sess ev detail tag s).sheets = s.sheets := by
  simp [raiseTo]
@[simp] theorem raiseTo_vis (sess ev detail tag : Nat) : (raiseTo sess ev detail tag s).vis = s.vis := by
  simp [raiseTo]
@[simp] theorem raiseTo_tile (sess ev detail tag : Nat) : (raiseTo sess ev detail tag s).tile = s.tile := by
  simp [raiseTo]
@[simp] theorem raiseTo_fus (sess ev detail tag : Nat) : (raiseTo sess ev detail tag s).fus = s.fus := by
  simp [raiseTo]
@[simp] theorem raiseTo_probs (sess ev detail tag : Nat) : (raiseTo sess ev detail tag s).probs = s.probs := by
  simp [raiseTo]
@[simp] theorem raiseTo_map (sess ev detail tag : Nat) : (raiseTo sess ev detail tag s).map = s.map := by
  simp [raiseTo]
@[simp] theorem raiseTo_ens (sess ev detail tag : Nat) : (raiseTo sess ev detail tag s).ens = s.ens := by
  simp [raiseTo]
@[simp] theorem raiseTo_pwr (sess ev detail tag : Nat) : (raiseTo sess ev detail tag s).pwr = s.pwr := by
  simp [raiseTo]
@[simp] theorem raiseTo_boot (sess ev detail tag : Nat) : (raiseTo sess ev detail tag s).boot = s.boot := by
  simp [raiseTo]
@[simp] theorem raiseTo_sec (sess ev detail tag : Nat) : (raiseTo sess ev detail tag s).sec = s.sec := by
  simp [raiseTo]
@[simp] theorem raiseTo_sb (sess ev detail tag : Nat) : (raiseTo sess ev detail tag s).sb = s.sb := by
  simp [raiseTo]

/-! `raiseOnceN` writes `obj` only. -/
@[simp] theorem raiseOnceN_pending (n ev : Nat) (src : Nat × Nat) (detail : Nat → Nat) : (raiseOnceN n ev src detail s).pending = s.pending := by
  simp only [raiseOnceN]; (repeat' split) <;> simp
@[simp] theorem raiseOnceN_out (n ev : Nat) (src : Nat × Nat) (detail : Nat → Nat) : (raiseOnceN n ev src detail s).out = s.out := by
  simp only [raiseOnceN]; (repeat' split) <;> simp
@[simp] theorem raiseOnceN_fresh (n ev : Nat) (src : Nat × Nat) (detail : Nat → Nat) : (raiseOnceN n ev src detail s).fresh = s.fresh := by
  simp only [raiseOnceN]; (repeat' split) <;> simp
@[simp] theorem raiseOnceN_link (n ev : Nat) (src : Nat × Nat) (detail : Nat → Nat) : (raiseOnceN n ev src detail s).link = s.link := by
  simp only [raiseOnceN]; (repeat' split) <;> simp
@[simp] theorem raiseOnceN_cb (n ev : Nat) (src : Nat × Nat) (detail : Nat → Nat) : (raiseOnceN n ev src detail s).cb = s.cb := by
  simp only [raiseOnceN]; (repeat' split) <;> simp
@[simp] theorem raiseOnceN_time (n ev : Nat) (src : Nat × Nat) (detail : Nat → Nat) : (raiseOnceN n ev src detail s).time = s.time := by
  simp only [raiseOnceN]; (repeat' split) <;> simp
@[simp] theorem raiseOnceN_mem (n ev : Nat) (src : Nat × Nat) (detail : Nat → Nat) : (raiseOnceN n ev src detail s).mem = s.mem := by
  simp only [raiseOnceN]; (repeat' split) <;> simp
@[simp] theorem raiseOnceN_sens (n ev : Nat) (src : Nat × Nat) (detail : Nat → Nat) : (raiseOnceN n ev src detail s).sens = s.sens := by
  simp only [raiseOnceN]; (repeat' split) <;> simp
@[simp] theorem raiseOnceN_filt (n ev : Nat) (src : Nat × Nat) (detail : Nat → Nat) : (raiseOnceN n ev src detail s).filt = s.filt := by
  simp only [raiseOnceN]; (repeat' split) <;> simp
@[simp] theorem raiseOnceN_sheets (n ev : Nat) (src : Nat × Nat) (detail : Nat → Nat) : (raiseOnceN n ev src detail s).sheets = s.sheets := by
  simp only [raiseOnceN]; (repeat' split) <;> simp
@[simp] theorem raiseOnceN_vis (n ev : Nat) (src : Nat × Nat) (detail : Nat → Nat) : (raiseOnceN n ev src detail s).vis = s.vis := by
  simp only [raiseOnceN]; (repeat' split) <;> simp
@[simp] theorem raiseOnceN_tile (n ev : Nat) (src : Nat × Nat) (detail : Nat → Nat) : (raiseOnceN n ev src detail s).tile = s.tile := by
  simp only [raiseOnceN]; (repeat' split) <;> simp
@[simp] theorem raiseOnceN_fus (n ev : Nat) (src : Nat × Nat) (detail : Nat → Nat) : (raiseOnceN n ev src detail s).fus = s.fus := by
  simp only [raiseOnceN]; (repeat' split) <;> simp
@[simp] theorem raiseOnceN_probs (n ev : Nat) (src : Nat × Nat) (detail : Nat → Nat) : (raiseOnceN n ev src detail s).probs = s.probs := by
  simp only [raiseOnceN]; (repeat' split) <;> simp
@[simp] theorem raiseOnceN_map (n ev : Nat) (src : Nat × Nat) (detail : Nat → Nat) : (raiseOnceN n ev src detail s).map = s.map := by
  simp only [raiseOnceN]; (repeat' split) <;> simp
@[simp] theorem raiseOnceN_ens (n ev : Nat) (src : Nat × Nat) (detail : Nat → Nat) : (raiseOnceN n ev src detail s).ens = s.ens := by
  simp only [raiseOnceN]; (repeat' split) <;> simp
@[simp] theorem raiseOnceN_pwr (n ev : Nat) (src : Nat × Nat) (detail : Nat → Nat) : (raiseOnceN n ev src detail s).pwr = s.pwr := by
  simp only [raiseOnceN]; (repeat' split) <;> simp
@[simp] theorem raiseOnceN_boot (n ev : Nat) (src : Nat × Nat) (detail : Nat → Nat) : (raiseOnceN n ev src detail s).boot = s.boot := by
  simp only [raiseOnceN]; (repeat' split) <;> simp
@[simp] theorem raiseOnceN_sec (n ev : Nat) (src : Nat × Nat) (detail : Nat → Nat) : (raiseOnceN n ev src detail s).sec = s.sec := by
  simp only [raiseOnceN]; (repeat' split) <;> simp
@[simp] theorem raiseOnceN_sb (n ev : Nat) (src : Nat × Nat) (detail : Nat → Nat) : (raiseOnceN n ev src detail s).sb = s.sb := by
  simp only [raiseOnceN]; (repeat' split) <;> simp

/-! `raiseOnce` writes `obj` only. -/
@[simp] theorem raiseOnce_pending (ev : Nat) (src : Nat × Nat) (detail : Nat → Nat) : (raiseOnce ev src detail s).pending = s.pending := raiseOnceN_pending s 1 ev src detail
@[simp] theorem raiseOnce_out (ev : Nat) (src : Nat × Nat) (detail : Nat → Nat) : (raiseOnce ev src detail s).out = s.out := raiseOnceN_out s 1 ev src detail
@[simp] theorem raiseOnce_fresh (ev : Nat) (src : Nat × Nat) (detail : Nat → Nat) : (raiseOnce ev src detail s).fresh = s.fresh := raiseOnceN_fresh s 1 ev src detail
@[simp] theorem raiseOnce_link (ev : Nat) (src : Nat × Nat) (detail : Nat → Nat) : (raiseOnce ev src detail s).link = s.link := raiseOnceN_link s 1 ev src detail
@[simp] theorem raiseOnce_cb (ev : Nat) (src : Nat × Nat) (detail : Nat → Nat) : (raiseOnce ev src detail s).cb = s.cb := raiseOnceN_cb s 1 ev src detail
@[simp] theorem raiseOnce_time (ev : Nat) (src : Nat × Nat) (detail : Nat → Nat) : (raiseOnce ev src detail s).time = s.time := raiseOnceN_time s 1 ev src detail
@[simp] theorem raiseOnce_mem (ev : Nat) (src : Nat × Nat) (detail : Nat → Nat) : (raiseOnce ev src detail s).mem = s.mem := raiseOnceN_mem s 1 ev src detail
@[simp] theorem raiseOnce_sens (ev : Nat) (src : Nat × Nat) (detail : Nat → Nat) : (raiseOnce ev src detail s).sens = s.sens := raiseOnceN_sens s 1 ev src detail
@[simp] theorem raiseOnce_filt (ev : Nat) (src : Nat × Nat) (detail : Nat → Nat) : (raiseOnce ev src detail s).filt = s.filt := raiseOnceN_filt s 1 ev src detail
@[simp] theorem raiseOnce_sheets (ev : Nat) (src : Nat × Nat) (detail : Nat → Nat) : (raiseOnce ev src detail s).sheets = s.sheets := raiseOnceN_sheets s 1 ev src detail
@[simp] theorem raiseOnce_vis (ev : Nat) (src : Nat × Nat) (detail : Nat → Nat) : (raiseOnce ev src detail s).vis = s.vis := raiseOnceN_vis s 1 ev src detail
@[simp] theorem raiseOnce_tile (ev : Nat) (src : Nat × Nat) (detail : Nat → Nat) : (raiseOnce ev src detail s).tile = s.tile := raiseOnceN_tile s 1 ev src detail
@[simp] theorem raiseOnce_fus (ev : Nat) (src : Nat × Nat) (detail : Nat → Nat) : (raiseOnce ev src detail s).fus = s.fus := raiseOnceN_fus s 1 ev src detail
@[simp] theorem raiseOnce_probs (ev : Nat) (src : Nat × Nat) (detail : Nat → Nat) : (raiseOnce ev src detail s).probs = s.probs := raiseOnceN_probs s 1 ev src detail
@[simp] theorem raiseOnce_map (ev : Nat) (src : Nat × Nat) (detail : Nat → Nat) : (raiseOnce ev src detail s).map = s.map := raiseOnceN_map s 1 ev src detail
@[simp] theorem raiseOnce_ens (ev : Nat) (src : Nat × Nat) (detail : Nat → Nat) : (raiseOnce ev src detail s).ens = s.ens := raiseOnceN_ens s 1 ev src detail
@[simp] theorem raiseOnce_pwr (ev : Nat) (src : Nat × Nat) (detail : Nat → Nat) : (raiseOnce ev src detail s).pwr = s.pwr := raiseOnceN_pwr s 1 ev src detail
@[simp] theorem raiseOnce_boot (ev : Nat) (src : Nat × Nat) (detail : Nat → Nat) : (raiseOnce ev src detail s).boot = s.boot := raiseOnceN_boot s 1 ev src detail
@[simp] theorem raiseOnce_sec (ev : Nat) (src : Nat × Nat) (detail : Nat → Nat) : (raiseOnce ev src detail s).sec = s.sec := raiseOnceN_sec s 1 ev src detail
@[simp] theorem raiseOnce_sb (ev : Nat) (src : Nat × Nat) (detail : Nat → Nat) : (raiseOnce ev src detail s).sb = s.sb := raiseOnceN_sb s 1 ev src detail

/-! `addFault` writes `mem` only. -/
@[simp] theorem addFault_pending (f : FaultRec) : (addFault f s).pending = s.pending := by
  simp only [addFault]; (repeat' split) <;> simp
@[simp] theorem addFault_out (f : FaultRec) : (addFault f s).out = s.out := by
  simp only [addFault]; (repeat' split) <;> simp
@[simp] theorem addFault_fresh (f : FaultRec) : (addFault f s).fresh = s.fresh := by
  simp only [addFault]; (repeat' split) <;> simp
@[simp] theorem addFault_link (f : FaultRec) : (addFault f s).link = s.link := by
  simp only [addFault]; (repeat' split) <;> simp
@[simp] theorem addFault_cb (f : FaultRec) : (addFault f s).cb = s.cb := by
  simp only [addFault]; (repeat' split) <;> simp
@[simp] theorem addFault_time (f : FaultRec) : (addFault f s).time = s.time := by
  simp only [addFault]; (repeat' split) <;> simp
@[simp] theorem addFault_obj (f : FaultRec) : (addFault f s).obj = s.obj := by
  simp only [addFault]; (repeat' split) <;> simp
@[simp] theorem addFault_sens (f : FaultRec) : (addFault f s).sens = s.sens := by
  simp only [addFault]; (repeat' split) <;> simp
@[simp] theorem addFault_filt (f : FaultRec) : (addFault f s).filt = s.filt := by
  simp only [addFault]; (repeat' split) <;> simp
@[simp] theorem addFault_sheets (f : FaultRec) : (addFault f s).sheets = s.sheets := by
  simp only [addFault]; (repeat' split) <;> simp
@[simp] theorem addFault_vis (f : FaultRec) : (addFault f s).vis = s.vis := by
  simp only [addFault]; (repeat' split) <;> simp
@[simp] theorem addFault_tile (f : FaultRec) : (addFault f s).tile = s.tile := by
  simp only [addFault]; (repeat' split) <;> simp
@[simp] theorem addFault_fus (f : FaultRec) : (addFault f s).fus = s.fus := by
  simp only [addFault]; (repeat' split) <;> simp
@[simp] theorem addFault_probs (f : FaultRec) : (addFault f s).probs = s.probs := by
  simp only [addFault]; (repeat' split) <;> simp
@[simp] theorem addFault_map (f : FaultRec) : (addFault f s).map = s.map := by
  simp only [addFault]; (repeat' split) <;> simp
@[simp] theorem addFault_ens (f : FaultRec) : (addFault f s).ens = s.ens := by
  simp only [addFault]; (repeat' split) <;> simp
@[simp] theorem addFault_pwr (f : FaultRec) : (addFault f s).pwr = s.pwr := by
  simp only [addFault]; (repeat' split) <;> simp
@[simp] theorem addFault_boot (f : FaultRec) : (addFault f s).boot = s.boot := by
  simp only [addFault]; (repeat' split) <;> simp
@[simp] theorem addFault_sec (f : FaultRec) : (addFault f s).sec = s.sec := by
  simp only [addFault]; (repeat' split) <;> simp
@[simp] theorem addFault_sb (f : FaultRec) : (addFault f s).sb = s.sb := by
  simp only [addFault]; (repeat' split) <;> simp

/-! `mismatch` writes `mem` and `obj` only. -/
@[simp] theorem mismatch_pending (unit index addr : Nat) (src : Nat × Nat) (ended : Nat) : (mismatch unit index addr src ended s).pending = s.pending := by
  simp [mismatch]
@[simp] theorem mismatch_out (unit index addr : Nat) (src : Nat × Nat) (ended : Nat) : (mismatch unit index addr src ended s).out = s.out := by
  simp [mismatch]
@[simp] theorem mismatch_fresh (unit index addr : Nat) (src : Nat × Nat) (ended : Nat) : (mismatch unit index addr src ended s).fresh = s.fresh := by
  simp [mismatch]
@[simp] theorem mismatch_link (unit index addr : Nat) (src : Nat × Nat) (ended : Nat) : (mismatch unit index addr src ended s).link = s.link := by
  simp [mismatch]
@[simp] theorem mismatch_cb (unit index addr : Nat) (src : Nat × Nat) (ended : Nat) : (mismatch unit index addr src ended s).cb = s.cb := by
  simp [mismatch]
@[simp] theorem mismatch_time (unit index addr : Nat) (src : Nat × Nat) (ended : Nat) : (mismatch unit index addr src ended s).time = s.time := by
  simp [mismatch]
@[simp] theorem mismatch_sens (unit index addr : Nat) (src : Nat × Nat) (ended : Nat) : (mismatch unit index addr src ended s).sens = s.sens := by
  simp [mismatch]
@[simp] theorem mismatch_filt (unit index addr : Nat) (src : Nat × Nat) (ended : Nat) : (mismatch unit index addr src ended s).filt = s.filt := by
  simp [mismatch]
@[simp] theorem mismatch_sheets (unit index addr : Nat) (src : Nat × Nat) (ended : Nat) : (mismatch unit index addr src ended s).sheets = s.sheets := by
  simp [mismatch]
@[simp] theorem mismatch_vis (unit index addr : Nat) (src : Nat × Nat) (ended : Nat) : (mismatch unit index addr src ended s).vis = s.vis := by
  simp [mismatch]
@[simp] theorem mismatch_tile (unit index addr : Nat) (src : Nat × Nat) (ended : Nat) : (mismatch unit index addr src ended s).tile = s.tile := by
  simp [mismatch]
@[simp] theorem mismatch_fus (unit index addr : Nat) (src : Nat × Nat) (ended : Nat) : (mismatch unit index addr src ended s).fus = s.fus := by
  simp [mismatch]
@[simp] theorem mismatch_probs (unit index addr : Nat) (src : Nat × Nat) (ended : Nat) : (mismatch unit index addr src ended s).probs = s.probs := by
  simp [mismatch]
@[simp] theorem mismatch_map (unit index addr : Nat) (src : Nat × Nat) (ended : Nat) : (mismatch unit index addr src ended s).map = s.map := by
  simp [mismatch]
@[simp] theorem mismatch_ens (unit index addr : Nat) (src : Nat × Nat) (ended : Nat) : (mismatch unit index addr src ended s).ens = s.ens := by
  simp [mismatch]
@[simp] theorem mismatch_pwr (unit index addr : Nat) (src : Nat × Nat) (ended : Nat) : (mismatch unit index addr src ended s).pwr = s.pwr := by
  simp [mismatch]
@[simp] theorem mismatch_boot (unit index addr : Nat) (src : Nat × Nat) (ended : Nat) : (mismatch unit index addr src ended s).boot = s.boot := by
  simp [mismatch]
@[simp] theorem mismatch_sec (unit index addr : Nat) (src : Nat × Nat) (ended : Nat) : (mismatch unit index addr src ended s).sec = s.sec := by
  simp [mismatch]
@[simp] theorem mismatch_sb (unit index addr : Nat) (src : Nat × Nat) (ended : Nat) : (mismatch unit index addr src ended s).sb = s.sb := by
  simp [mismatch]

/-! `baseFault` writes `link` and `mem` and `obj` only. -/
@[simp] theorem baseFault_pending (p : QPair) : (baseFault p s).pending = s.pending := by
  simp [baseFault]
@[simp] theorem baseFault_out (p : QPair) : (baseFault p s).out = s.out := by
  simp [baseFault]
@[simp] theorem baseFault_fresh (p : QPair) : (baseFault p s).fresh = s.fresh := by
  simp [baseFault]
@[simp] theorem baseFault_cb (p : QPair) : (baseFault p s).cb = s.cb := by
  simp [baseFault]
@[simp] theorem baseFault_time (p : QPair) : (baseFault p s).time = s.time := by
  simp [baseFault]
@[simp] theorem baseFault_sens (p : QPair) : (baseFault p s).sens = s.sens := by
  simp [baseFault]
@[simp] theorem baseFault_filt (p : QPair) : (baseFault p s).filt = s.filt := by
  simp [baseFault]
@[simp] theorem baseFault_sheets (p : QPair) : (baseFault p s).sheets = s.sheets := by
  simp [baseFault]
@[simp] theorem baseFault_vis (p : QPair) : (baseFault p s).vis = s.vis := by
  simp [baseFault]
@[simp] theorem baseFault_tile (p : QPair) : (baseFault p s).tile = s.tile := by
  simp [baseFault]
@[simp] theorem baseFault_fus (p : QPair) : (baseFault p s).fus = s.fus := by
  simp [baseFault]
@[simp] theorem baseFault_probs (p : QPair) : (baseFault p s).probs = s.probs := by
  simp [baseFault]
@[simp] theorem baseFault_map (p : QPair) : (baseFault p s).map = s.map := by
  simp [baseFault]
@[simp] theorem baseFault_ens (p : QPair) : (baseFault p s).ens = s.ens := by
  simp [baseFault]
@[simp] theorem baseFault_pwr (p : QPair) : (baseFault p s).pwr = s.pwr := by
  simp [baseFault]
@[simp] theorem baseFault_boot (p : QPair) : (baseFault p s).boot = s.boot := by
  simp [baseFault]
@[simp] theorem baseFault_sec (p : QPair) : (baseFault p s).sec = s.sec := by
  simp [baseFault]
@[simp] theorem baseFault_sb (p : QPair) : (baseFault p s).sb = s.sb := by
  simp [baseFault]

/-! `postCq` writes `link` and `out` and `mem` and `obj` only. -/
@[simp] theorem postCq_pending (fn q cid st r0 r1 : Nat) (rbuf solicit : Bool) : (postCq fn q cid st r0 r1 rbuf solicit s).pending = s.pending := by
  simp only [postCq]; (repeat' split) <;> simp
@[simp] theorem postCq_fresh (fn q cid st r0 r1 : Nat) (rbuf solicit : Bool) : (postCq fn q cid st r0 r1 rbuf solicit s).fresh = s.fresh := by
  simp only [postCq]; (repeat' split) <;> simp
@[simp] theorem postCq_cb (fn q cid st r0 r1 : Nat) (rbuf solicit : Bool) : (postCq fn q cid st r0 r1 rbuf solicit s).cb = s.cb := by
  simp only [postCq]; (repeat' split) <;> simp
@[simp] theorem postCq_time (fn q cid st r0 r1 : Nat) (rbuf solicit : Bool) : (postCq fn q cid st r0 r1 rbuf solicit s).time = s.time := by
  simp only [postCq]; (repeat' split) <;> simp
@[simp] theorem postCq_sens (fn q cid st r0 r1 : Nat) (rbuf solicit : Bool) : (postCq fn q cid st r0 r1 rbuf solicit s).sens = s.sens := by
  simp only [postCq]; (repeat' split) <;> simp
@[simp] theorem postCq_filt (fn q cid st r0 r1 : Nat) (rbuf solicit : Bool) : (postCq fn q cid st r0 r1 rbuf solicit s).filt = s.filt := by
  simp only [postCq]; (repeat' split) <;> simp
@[simp] theorem postCq_sheets (fn q cid st r0 r1 : Nat) (rbuf solicit : Bool) : (postCq fn q cid st r0 r1 rbuf solicit s).sheets = s.sheets := by
  simp only [postCq]; (repeat' split) <;> simp
@[simp] theorem postCq_vis (fn q cid st r0 r1 : Nat) (rbuf solicit : Bool) : (postCq fn q cid st r0 r1 rbuf solicit s).vis = s.vis := by
  simp only [postCq]; (repeat' split) <;> simp
@[simp] theorem postCq_tile (fn q cid st r0 r1 : Nat) (rbuf solicit : Bool) : (postCq fn q cid st r0 r1 rbuf solicit s).tile = s.tile := by
  simp only [postCq]; (repeat' split) <;> simp
@[simp] theorem postCq_fus (fn q cid st r0 r1 : Nat) (rbuf solicit : Bool) : (postCq fn q cid st r0 r1 rbuf solicit s).fus = s.fus := by
  simp only [postCq]; (repeat' split) <;> simp
@[simp] theorem postCq_probs (fn q cid st r0 r1 : Nat) (rbuf solicit : Bool) : (postCq fn q cid st r0 r1 rbuf solicit s).probs = s.probs := by
  simp only [postCq]; (repeat' split) <;> simp
@[simp] theorem postCq_map (fn q cid st r0 r1 : Nat) (rbuf solicit : Bool) : (postCq fn q cid st r0 r1 rbuf solicit s).map = s.map := by
  simp only [postCq]; (repeat' split) <;> simp
@[simp] theorem postCq_ens (fn q cid st r0 r1 : Nat) (rbuf solicit : Bool) : (postCq fn q cid st r0 r1 rbuf solicit s).ens = s.ens := by
  simp only [postCq]; (repeat' split) <;> simp
@[simp] theorem postCq_pwr (fn q cid st r0 r1 : Nat) (rbuf solicit : Bool) : (postCq fn q cid st r0 r1 rbuf solicit s).pwr = s.pwr := by
  simp only [postCq]; (repeat' split) <;> simp
@[simp] theorem postCq_boot (fn q cid st r0 r1 : Nat) (rbuf solicit : Bool) : (postCq fn q cid st r0 r1 rbuf solicit s).boot = s.boot := by
  simp only [postCq]; (repeat' split) <;> simp
@[simp] theorem postCq_sec (fn q cid st r0 r1 : Nat) (rbuf solicit : Bool) : (postCq fn q cid st r0 r1 rbuf solicit s).sec = s.sec := by
  simp only [postCq]; (repeat' split) <;> simp
@[simp] theorem postCq_sb (fn q cid st r0 r1 : Nat) (rbuf solicit : Bool) : (postCq fn q cid st r0 r1 rbuf solicit s).sb = s.sb := by
  simp only [postCq]; (repeat' split) <;> simp

/-! `cbRespond` writes `cb` and `link` and `out` only. -/
@[simp] theorem cbRespond_pending (cid st r0 r1 : Nat) (rbuf : Bool) : (cbRespond cid st r0 r1 rbuf s).pending = s.pending := by
  simp only [cbRespond]; (repeat' split) <;> simp
@[simp] theorem cbRespond_fresh (cid st r0 r1 : Nat) (rbuf : Bool) : (cbRespond cid st r0 r1 rbuf s).fresh = s.fresh := by
  simp only [cbRespond]; (repeat' split) <;> simp
@[simp] theorem cbRespond_time (cid st r0 r1 : Nat) (rbuf : Bool) : (cbRespond cid st r0 r1 rbuf s).time = s.time := by
  simp only [cbRespond]; (repeat' split) <;> simp
@[simp] theorem cbRespond_obj (cid st r0 r1 : Nat) (rbuf : Bool) : (cbRespond cid st r0 r1 rbuf s).obj = s.obj := by
  simp only [cbRespond]; (repeat' split) <;> simp
@[simp] theorem cbRespond_mem (cid st r0 r1 : Nat) (rbuf : Bool) : (cbRespond cid st r0 r1 rbuf s).mem = s.mem := by
  simp only [cbRespond]; (repeat' split) <;> simp
@[simp] theorem cbRespond_sens (cid st r0 r1 : Nat) (rbuf : Bool) : (cbRespond cid st r0 r1 rbuf s).sens = s.sens := by
  simp only [cbRespond]; (repeat' split) <;> simp
@[simp] theorem cbRespond_filt (cid st r0 r1 : Nat) (rbuf : Bool) : (cbRespond cid st r0 r1 rbuf s).filt = s.filt := by
  simp only [cbRespond]; (repeat' split) <;> simp
@[simp] theorem cbRespond_sheets (cid st r0 r1 : Nat) (rbuf : Bool) : (cbRespond cid st r0 r1 rbuf s).sheets = s.sheets := by
  simp only [cbRespond]; (repeat' split) <;> simp
@[simp] theorem cbRespond_vis (cid st r0 r1 : Nat) (rbuf : Bool) : (cbRespond cid st r0 r1 rbuf s).vis = s.vis := by
  simp only [cbRespond]; (repeat' split) <;> simp
@[simp] theorem cbRespond_tile (cid st r0 r1 : Nat) (rbuf : Bool) : (cbRespond cid st r0 r1 rbuf s).tile = s.tile := by
  simp only [cbRespond]; (repeat' split) <;> simp
@[simp] theorem cbRespond_fus (cid st r0 r1 : Nat) (rbuf : Bool) : (cbRespond cid st r0 r1 rbuf s).fus = s.fus := by
  simp only [cbRespond]; (repeat' split) <;> simp
@[simp] theorem cbRespond_probs (cid st r0 r1 : Nat) (rbuf : Bool) : (cbRespond cid st r0 r1 rbuf s).probs = s.probs := by
  simp only [cbRespond]; (repeat' split) <;> simp
@[simp] theorem cbRespond_map (cid st r0 r1 : Nat) (rbuf : Bool) : (cbRespond cid st r0 r1 rbuf s).map = s.map := by
  simp only [cbRespond]; (repeat' split) <;> simp
@[simp] theorem cbRespond_ens (cid st r0 r1 : Nat) (rbuf : Bool) : (cbRespond cid st r0 r1 rbuf s).ens = s.ens := by
  simp only [cbRespond]; (repeat' split) <;> simp
@[simp] theorem cbRespond_pwr (cid st r0 r1 : Nat) (rbuf : Bool) : (cbRespond cid st r0 r1 rbuf s).pwr = s.pwr := by
  simp only [cbRespond]; (repeat' split) <;> simp
@[simp] theorem cbRespond_boot (cid st r0 r1 : Nat) (rbuf : Bool) : (cbRespond cid st r0 r1 rbuf s).boot = s.boot := by
  simp only [cbRespond]; (repeat' split) <;> simp
@[simp] theorem cbRespond_sec (cid st r0 r1 : Nat) (rbuf : Bool) : (cbRespond cid st r0 r1 rbuf s).sec = s.sec := by
  simp only [cbRespond]; (repeat' split) <;> simp
@[simp] theorem cbRespond_sb (cid st r0 r1 : Nat) (rbuf : Bool) : (cbRespond cid st r0 r1 rbuf s).sb = s.sb := by
  simp only [cbRespond]; (repeat' split) <;> simp

/-! `dma` writes `out` only. -/
@[simp] theorem dma_pending (fn addr : Nat) (bs : List Byte) : (dma fn addr bs s).pending = s.pending := by
  simp only [dma]; split <;> simp
@[simp] theorem dma_fresh (fn addr : Nat) (bs : List Byte) : (dma fn addr bs s).fresh = s.fresh := by
  simp only [dma]; split <;> simp
@[simp] theorem dma_link (fn addr : Nat) (bs : List Byte) : (dma fn addr bs s).link = s.link := by
  simp only [dma]; split <;> simp
@[simp] theorem dma_cb (fn addr : Nat) (bs : List Byte) : (dma fn addr bs s).cb = s.cb := by
  simp only [dma]; split <;> simp
@[simp] theorem dma_time (fn addr : Nat) (bs : List Byte) : (dma fn addr bs s).time = s.time := by
  simp only [dma]; split <;> simp
@[simp] theorem dma_obj (fn addr : Nat) (bs : List Byte) : (dma fn addr bs s).obj = s.obj := by
  simp only [dma]; split <;> simp
@[simp] theorem dma_mem (fn addr : Nat) (bs : List Byte) : (dma fn addr bs s).mem = s.mem := by
  simp only [dma]; split <;> simp
@[simp] theorem dma_sens (fn addr : Nat) (bs : List Byte) : (dma fn addr bs s).sens = s.sens := by
  simp only [dma]; split <;> simp
@[simp] theorem dma_filt (fn addr : Nat) (bs : List Byte) : (dma fn addr bs s).filt = s.filt := by
  simp only [dma]; split <;> simp
@[simp] theorem dma_sheets (fn addr : Nat) (bs : List Byte) : (dma fn addr bs s).sheets = s.sheets := by
  simp only [dma]; split <;> simp
@[simp] theorem dma_vis (fn addr : Nat) (bs : List Byte) : (dma fn addr bs s).vis = s.vis := by
  simp only [dma]; split <;> simp
@[simp] theorem dma_tile (fn addr : Nat) (bs : List Byte) : (dma fn addr bs s).tile = s.tile := by
  simp only [dma]; split <;> simp
@[simp] theorem dma_fus (fn addr : Nat) (bs : List Byte) : (dma fn addr bs s).fus = s.fus := by
  simp only [dma]; split <;> simp
@[simp] theorem dma_probs (fn addr : Nat) (bs : List Byte) : (dma fn addr bs s).probs = s.probs := by
  simp only [dma]; split <;> simp
@[simp] theorem dma_map (fn addr : Nat) (bs : List Byte) : (dma fn addr bs s).map = s.map := by
  simp only [dma]; split <;> simp
@[simp] theorem dma_ens (fn addr : Nat) (bs : List Byte) : (dma fn addr bs s).ens = s.ens := by
  simp only [dma]; split <;> simp
@[simp] theorem dma_pwr (fn addr : Nat) (bs : List Byte) : (dma fn addr bs s).pwr = s.pwr := by
  simp only [dma]; split <;> simp
@[simp] theorem dma_boot (fn addr : Nat) (bs : List Byte) : (dma fn addr bs s).boot = s.boot := by
  simp only [dma]; split <;> simp
@[simp] theorem dma_sec (fn addr : Nat) (bs : List Byte) : (dma fn addr bs s).sec = s.sec := by
  simp only [dma]; split <;> simp
@[simp] theorem dma_sb (fn addr : Nat) (bs : List Byte) : (dma fn addr bs s).sb = s.sb := by
  simp only [dma]; split <;> simp

/-! `post` writes `link` and `out` and `mem` and `obj` and `cb` only. -/
@[simp] theorem post_pending (q : Req) (st r0 r1 : Nat) (data : Option (List Byte)) : (post q st r0 r1 data s).pending = s.pending := by
  simp only [post]; (repeat' split) <;> simp
@[simp] theorem post_fresh (q : Req) (st r0 r1 : Nat) (data : Option (List Byte)) : (post q st r0 r1 data s).fresh = s.fresh := by
  simp only [post]; (repeat' split) <;> simp
@[simp] theorem post_time (q : Req) (st r0 r1 : Nat) (data : Option (List Byte)) : (post q st r0 r1 data s).time = s.time := by
  simp only [post]; (repeat' split) <;> simp
@[simp] theorem post_sens (q : Req) (st r0 r1 : Nat) (data : Option (List Byte)) : (post q st r0 r1 data s).sens = s.sens := by
  simp only [post]; (repeat' split) <;> simp
@[simp] theorem post_filt (q : Req) (st r0 r1 : Nat) (data : Option (List Byte)) : (post q st r0 r1 data s).filt = s.filt := by
  simp only [post]; (repeat' split) <;> simp
@[simp] theorem post_sheets (q : Req) (st r0 r1 : Nat) (data : Option (List Byte)) : (post q st r0 r1 data s).sheets = s.sheets := by
  simp only [post]; (repeat' split) <;> simp
@[simp] theorem post_vis (q : Req) (st r0 r1 : Nat) (data : Option (List Byte)) : (post q st r0 r1 data s).vis = s.vis := by
  simp only [post]; (repeat' split) <;> simp
@[simp] theorem post_tile (q : Req) (st r0 r1 : Nat) (data : Option (List Byte)) : (post q st r0 r1 data s).tile = s.tile := by
  simp only [post]; (repeat' split) <;> simp
@[simp] theorem post_fus (q : Req) (st r0 r1 : Nat) (data : Option (List Byte)) : (post q st r0 r1 data s).fus = s.fus := by
  simp only [post]; (repeat' split) <;> simp
@[simp] theorem post_probs (q : Req) (st r0 r1 : Nat) (data : Option (List Byte)) : (post q st r0 r1 data s).probs = s.probs := by
  simp only [post]; (repeat' split) <;> simp
@[simp] theorem post_map (q : Req) (st r0 r1 : Nat) (data : Option (List Byte)) : (post q st r0 r1 data s).map = s.map := by
  simp only [post]; (repeat' split) <;> simp
@[simp] theorem post_ens (q : Req) (st r0 r1 : Nat) (data : Option (List Byte)) : (post q st r0 r1 data s).ens = s.ens := by
  simp only [post]; (repeat' split) <;> simp
@[simp] theorem post_pwr (q : Req) (st r0 r1 : Nat) (data : Option (List Byte)) : (post q st r0 r1 data s).pwr = s.pwr := by
  simp only [post]; (repeat' split) <;> simp
@[simp] theorem post_boot (q : Req) (st r0 r1 : Nat) (data : Option (List Byte)) : (post q st r0 r1 data s).boot = s.boot := by
  simp only [post]; (repeat' split) <;> simp
@[simp] theorem post_sec (q : Req) (st r0 r1 : Nat) (data : Option (List Byte)) : (post q st r0 r1 data s).sec = s.sec := by
  simp only [post]; (repeat' split) <;> simp
@[simp] theorem post_sb (q : Req) (st r0 r1 : Nat) (data : Option (List Byte)) : (post q st r0 r1 data s).sb = s.sb := by
  simp only [post]; (repeat' split) <;> simp

/-! `postRef` writes `link` and `out` and `mem` and `obj` and `cb` only. -/
@[simp] theorem postRef_pending (r : ReqRef) (st r0 r1 : Nat) (data : Option (List Byte)) : (postRef r st r0 r1 data s).pending = s.pending := by
  simp only [postRef]; (repeat' split) <;> simp
@[simp] theorem postRef_fresh (r : ReqRef) (st r0 r1 : Nat) (data : Option (List Byte)) : (postRef r st r0 r1 data s).fresh = s.fresh := by
  simp only [postRef]; (repeat' split) <;> simp
@[simp] theorem postRef_time (r : ReqRef) (st r0 r1 : Nat) (data : Option (List Byte)) : (postRef r st r0 r1 data s).time = s.time := by
  simp only [postRef]; (repeat' split) <;> simp
@[simp] theorem postRef_sens (r : ReqRef) (st r0 r1 : Nat) (data : Option (List Byte)) : (postRef r st r0 r1 data s).sens = s.sens := by
  simp only [postRef]; (repeat' split) <;> simp
@[simp] theorem postRef_filt (r : ReqRef) (st r0 r1 : Nat) (data : Option (List Byte)) : (postRef r st r0 r1 data s).filt = s.filt := by
  simp only [postRef]; (repeat' split) <;> simp
@[simp] theorem postRef_sheets (r : ReqRef) (st r0 r1 : Nat) (data : Option (List Byte)) : (postRef r st r0 r1 data s).sheets = s.sheets := by
  simp only [postRef]; (repeat' split) <;> simp
@[simp] theorem postRef_vis (r : ReqRef) (st r0 r1 : Nat) (data : Option (List Byte)) : (postRef r st r0 r1 data s).vis = s.vis := by
  simp only [postRef]; (repeat' split) <;> simp
@[simp] theorem postRef_tile (r : ReqRef) (st r0 r1 : Nat) (data : Option (List Byte)) : (postRef r st r0 r1 data s).tile = s.tile := by
  simp only [postRef]; (repeat' split) <;> simp
@[simp] theorem postRef_fus (r : ReqRef) (st r0 r1 : Nat) (data : Option (List Byte)) : (postRef r st r0 r1 data s).fus = s.fus := by
  simp only [postRef]; (repeat' split) <;> simp
@[simp] theorem postRef_probs (r : ReqRef) (st r0 r1 : Nat) (data : Option (List Byte)) : (postRef r st r0 r1 data s).probs = s.probs := by
  simp only [postRef]; (repeat' split) <;> simp
@[simp] theorem postRef_map (r : ReqRef) (st r0 r1 : Nat) (data : Option (List Byte)) : (postRef r st r0 r1 data s).map = s.map := by
  simp only [postRef]; (repeat' split) <;> simp
@[simp] theorem postRef_ens (r : ReqRef) (st r0 r1 : Nat) (data : Option (List Byte)) : (postRef r st r0 r1 data s).ens = s.ens := by
  simp only [postRef]; (repeat' split) <;> simp
@[simp] theorem postRef_pwr (r : ReqRef) (st r0 r1 : Nat) (data : Option (List Byte)) : (postRef r st r0 r1 data s).pwr = s.pwr := by
  simp only [postRef]; (repeat' split) <;> simp
@[simp] theorem postRef_boot (r : ReqRef) (st r0 r1 : Nat) (data : Option (List Byte)) : (postRef r st r0 r1 data s).boot = s.boot := by
  simp only [postRef]; (repeat' split) <;> simp
@[simp] theorem postRef_sec (r : ReqRef) (st r0 r1 : Nat) (data : Option (List Byte)) : (postRef r st r0 r1 data s).sec = s.sec := by
  simp only [postRef]; (repeat' split) <;> simp
@[simp] theorem postRef_sb (r : ReqRef) (st r0 r1 : Nat) (data : Option (List Byte)) : (postRef r st r0 r1 data s).sb = s.sb := by
  simp only [postRef]; (repeat' split) <;> simp

/-! `recharge` writes `mem` and `obj` only. -/
@[simp] theorem recharge_pending (ty slot on st : Nat) : (recharge ty slot on st s).pending = s.pending := by
  simp only [recharge]; (repeat' split) <;> simp
@[simp] theorem recharge_out (ty slot on st : Nat) : (recharge ty slot on st s).out = s.out := by
  simp only [recharge]; (repeat' split) <;> simp
@[simp] theorem recharge_fresh (ty slot on st : Nat) : (recharge ty slot on st s).fresh = s.fresh := by
  simp only [recharge]; (repeat' split) <;> simp
@[simp] theorem recharge_link (ty slot on st : Nat) : (recharge ty slot on st s).link = s.link := by
  simp only [recharge]; (repeat' split) <;> simp
@[simp] theorem recharge_cb (ty slot on st : Nat) : (recharge ty slot on st s).cb = s.cb := by
  simp only [recharge]; (repeat' split) <;> simp
@[simp] theorem recharge_time (ty slot on st : Nat) : (recharge ty slot on st s).time = s.time := by
  simp only [recharge]; (repeat' split) <;> simp
@[simp] theorem recharge_sens (ty slot on st : Nat) : (recharge ty slot on st s).sens = s.sens := by
  simp only [recharge]; (repeat' split) <;> simp
@[simp] theorem recharge_filt (ty slot on st : Nat) : (recharge ty slot on st s).filt = s.filt := by
  simp only [recharge]; (repeat' split) <;> simp
@[simp] theorem recharge_sheets (ty slot on st : Nat) : (recharge ty slot on st s).sheets = s.sheets := by
  simp only [recharge]; (repeat' split) <;> simp
@[simp] theorem recharge_vis (ty slot on st : Nat) : (recharge ty slot on st s).vis = s.vis := by
  simp only [recharge]; (repeat' split) <;> simp
@[simp] theorem recharge_tile (ty slot on st : Nat) : (recharge ty slot on st s).tile = s.tile := by
  simp only [recharge]; (repeat' split) <;> simp
@[simp] theorem recharge_fus (ty slot on st : Nat) : (recharge ty slot on st s).fus = s.fus := by
  simp only [recharge]; (repeat' split) <;> simp
@[simp] theorem recharge_probs (ty slot on st : Nat) : (recharge ty slot on st s).probs = s.probs := by
  simp only [recharge]; (repeat' split) <;> simp
@[simp] theorem recharge_map (ty slot on st : Nat) : (recharge ty slot on st s).map = s.map := by
  simp only [recharge]; (repeat' split) <;> simp
@[simp] theorem recharge_ens (ty slot on st : Nat) : (recharge ty slot on st s).ens = s.ens := by
  simp only [recharge]; (repeat' split) <;> simp
@[simp] theorem recharge_pwr (ty slot on st : Nat) : (recharge ty slot on st s).pwr = s.pwr := by
  simp only [recharge]; (repeat' split) <;> simp
@[simp] theorem recharge_boot (ty slot on st : Nat) : (recharge ty slot on st s).boot = s.boot := by
  simp only [recharge]; (repeat' split) <;> simp
@[simp] theorem recharge_sec (ty slot on st : Nat) : (recharge ty slot on st s).sec = s.sec := by
  simp only [recharge]; (repeat' split) <;> simp
@[simp] theorem recharge_sb (ty slot on st : Nat) : (recharge ty slot on st s).sb = s.sb := by
  simp only [recharge]; (repeat' split) <;> simp

/-! ### What a changed item reads as -/

@[simp] theorem emit_out (o : Output) : (emit o s).out = s.out ++ [o] := rfl
@[simp] theorem draw_fst : (draw s).1 = Config.freeNat s.fresh := rfl
@[simp] theorem draw_fresh : (draw s).2.fresh = s.fresh + 1 := rfl
@[simp] theorem drawBytes_fresh (n : Nat) : (drawBytes n s).2.fresh = s.fresh + n := rfl
@[simp] theorem dropReq_reqs (order : Nat) :
    (dropReq order s).link.reqs = s.link.reqs.filter fun q => !(q.order == order) := rfl

/-- Changing the items that meet `p`, by a change that keeps `p` as it is, changes the first of them found. -/
theorem find?_updIf {α : Type} (p : α → Bool) (f : α → α) (h : ∀ x, p x = true → p (f x) = true) (l : List α) :
    (updIf p f l).find? p = (l.find? p).map f := by
  induction l with
  | nil => rfl
  | cons x l ih =>
    cases hx : p x with
    | true => simp [updIf, hx, h x hx]
    | false => simpa [updIf, hx] using ih

/-- A changed pair reads as the change says. -/
theorem getPair_updPair (fn q : Nat) (f : QPair → QPair) (h : ∀ p, isPair fn q p = true → isPair fn q (f p) = true) :
    getPair fn q (updPair fn q f s) = (getPair fn q s).map f := find?_updIf _ f h _

/-- A changed object reads as the change says. -/
theorem getObj_updObj (ty slot : Nat) (f : Obj → Obj) (h : ∀ o, isObj ty slot o = true → isObj ty slot (f o) = true) :
    getObj ty slot (updObj ty slot f s) = (getObj ty slot s).map f := find?_updIf _ f h _

/-- A changed function reads as the change says. -/
theorem fns_updFn (i : Nat) (f : Fn → Fn) : (updFn i f s).link.fns[i]? = s.link.fns[i]?.map f := by
  simp [updFn]

/-- A change of one function leaves every other as it was. -/
theorem fns_updFn_ne {i j : Nat} (f : Fn → Fn) (h : i ≠ j) : (updFn i f s).link.fns[j]? = s.link.fns[j]? := by
  simp [updFn, h]

/-- A change of a pair leaves the functions alone. -/
@[simp] theorem getFn_updPair (i fn q : Nat) (f : QPair → QPair) : getFn i (updPair fn q f s) = getFn i s := rfl

/-- A request that has ended is open no more, under whatever name it is looked for. -/
theorem dropReq_gone (order : Nat) (q : Req) (h : q ∈ (dropReq order s).link.reqs) : q.order ≠ order := by
  have := (List.mem_filter.mp h).2
  simpa using this

end Sys2Proof.Machine
end

