-- ==== Sys2Proof/Laws/Kept.lean ====
section
/-! SUPPORT. What every meaning keeps: the waiting commands, and the canonical form of every sparse memory. The terms, the shared operations and the serving of a command. -/
namespace Sys2Proof.Machine
set_option Elab.async false
set_option linter.unusedSimpArgs false

/-- A memory in canonical form; the queue is carried along for `simp` alone. -/
def MemOk (_ : List Instr) (m : Mem) : Prop := m.wf = true

/-- Allocations whose memories are in canonical form. -/
def AllocsOk (Q : List Instr) (l : List Alloc) : Prop := ∀ a ∈ l, MemOk Q a.mem

/-- Instances whose memories are in canonical form. -/
def InstsOk (Q : List Instr) (l : List Inst) : Prop := ∀ x ∈ l, MemOk Q x.mem

/-- A state in which the commands `Q` wait and every memory is in its canonical form. -/
structure Kept (Q : List Instr) (t : State) : Prop where
  pending : t.pending = Q
  request : MemOk Q t.cb.request
  data : MemOk Q t.cb.data
  allocs : AllocsOk Q t.mem.allocs
  insts : InstsOk Q t.tile.insts

theorem kept_iff {Q : List Instr} {t : State} : Kept Q t ↔ t.pending = Q ∧ t.memsOk = true := by
  constructor
  · intro ⟨a, b, c, d, e⟩
    refine ⟨a, ?_⟩
    simp only [MemOk, AllocsOk, InstsOk] at *
    simp [State.memsOk, List.all_eq_true, *]
    exact ⟨d, e⟩
  · intro ⟨a, b⟩
    simp only [State.memsOk, Bool.and_eq_true, List.all_eq_true] at b
    exact ⟨a, b.1.1.1, b.1.1.2, b.1.2, b.2⟩

variable {Q : List Instr} {s t : State}

@[simp] theorem Kept.eq_pending (h : Kept Q t) : (t.pending = Q) = True := eq_true h.pending
@[simp] theorem Kept.eq_request (h : Kept Q t) : MemOk Q t.cb.request = True := eq_true h.request
@[simp] theorem Kept.eq_data (h : Kept Q t) : MemOk Q t.cb.data = True := eq_true h.data
@[simp] theorem Kept.eq_allocs (h : Kept Q t) : AllocsOk Q t.mem.allocs = True := eq_true h.allocs
@[simp] theorem Kept.eq_insts (h : Kept Q t) : InstsOk Q t.tile.insts = True := eq_true h.insts

@[simp] theorem kept_mk (a1 a2 a3 a4 a5 a6 a7 a8 a9 a10 a11 a12 a13 a14 a15 a16 a17 a18 a19 a20 a21) :
    Kept Q (State.mk a1 a2 a3 a4 a5 a6 a7 a8 a9 a10 a11 a12 a13 a14 a15 a16 a17 a18 a19 a20 a21) ↔
      a1 = Q ∧ MemOk Q a5.request ∧ MemOk Q a5.data ∧ AllocsOk Q a8.allocs ∧ InstsOk Q a13.insts :=
  ⟨fun ⟨a, b, c, d, e⟩ => ⟨a, b, c, d, e⟩, fun ⟨a, b, c, d, e⟩ => ⟨a, b, c, d, e⟩⟩


theorem kept_ite {c : Prop} [Decidable c] (hs : c → Kept Q s) (ht : ¬c → Kept Q t) : Kept Q (if c then s else t) := by
  split
  · exact hs ‹_›
  · exact ht ‹_›

theorem kept_foldl {α : Type} {f : State → α → State} (hf : ∀ s x, Kept Q s → Kept Q (f s x)) (l : List α) :
    ∀ {s : State}, Kept Q s → Kept Q (l.foldl f s) := by
  induction l with
  | nil => intro s h; exact h
  | cons x l ih => intro s h; exact ih (hf s x h)

@[simp] theorem memOk_nil : MemOk Q [] := rfl
@[simp] theorem memOk_memWrite {m : Mem} {a : Nat} {bs : List Byte} (h : MemOk Q m) : MemOk Q (memWrite m a bs) :=
  memWrite_wf a h

/-! ### Lists of allocations and instances -/

@[simp] theorem allocsOk_nil : AllocsOk Q [] := by simp [AllocsOk]
@[simp] theorem instsOk_nil : InstsOk Q [] := by simp [InstsOk]
@[simp] theorem allocsOk_filter {l : List Alloc} (p : Alloc → Bool) (h : AllocsOk Q l) : AllocsOk Q (l.filter p) :=
  fun a ha => h a (List.mem_filter.mp ha |>.1)
@[simp] theorem instsOk_filter {l : List Inst} (p : Inst → Bool) (h : InstsOk Q l) : InstsOk Q (l.filter p) :=
  fun a ha => h a (List.mem_filter.mp ha |>.1)
@[simp] theorem allocsOk_append {l k : List Alloc} : AllocsOk Q (l ++ k) ↔ AllocsOk Q l ∧ AllocsOk Q k := by
  simp [AllocsOk, or_imp, forall_and]
@[simp] theorem instsOk_append {l k : List Inst} : InstsOk Q (l ++ k) ↔ InstsOk Q l ∧ InstsOk Q k := by
  simp [InstsOk, or_imp, forall_and]
@[simp] theorem allocsOk_cons {a : Alloc} {l : List Alloc} : AllocsOk Q (a :: l) ↔ MemOk Q a.mem ∧ AllocsOk Q l := by
  simp [AllocsOk]
@[simp] theorem instsOk_cons {a : Inst} {l : List Inst} : InstsOk Q (a :: l) ↔ MemOk Q a.mem ∧ InstsOk Q l := by
  simp [InstsOk]
theorem allocsOk_map {l : List Alloc} {f : Alloc → Alloc} (hf : ∀ a, MemOk Q a.mem → MemOk Q (f a).mem)
    (h : AllocsOk Q l) : AllocsOk Q (l.map f) := by
  intro a ha
  obtain ⟨b, hb, rfl⟩ := List.mem_map.mp ha
  exact hf b (h b hb)
theorem instsOk_map {l : List Inst} {f : Inst → Inst} (hf : ∀ a, MemOk Q a.mem → MemOk Q (f a).mem)
    (h : InstsOk Q l) : InstsOk Q (l.map f) := by
  intro a ha
  obtain ⟨b, hb, rfl⟩ := List.mem_map.mp ha
  exact hf b (h b hb)
theorem allocsOk_updIf {l : List Alloc} {p : Alloc → Bool} {f : Alloc → Alloc} (hf : ∀ a, MemOk Q a.mem → MemOk Q (f a).mem)
    (h : AllocsOk Q l) : AllocsOk Q (updIf p f l) :=
  allocsOk_map (fun a ha => by
    split
    · exact hf a ha
    · exact ha) h
theorem instsOk_updIf {l : List Inst} {p : Inst → Bool} {f : Inst → Inst} (hf : ∀ a, MemOk Q a.mem → MemOk Q (f a).mem)
    (h : InstsOk Q l) : InstsOk Q (updIf p f l) :=
  instsOk_map (fun a ha => by
    split
    · exact hf a ha
    · exact ha) h

/-! ### Answers, checks and bodies -/

/-- An answer whose next state is kept. -/
def KeptR (Q : List Instr) : Result → Prop
  | .next t => Kept Q t
  | _ => True

@[simp] theorem keptR_next : KeptR Q (.next t) ↔ Kept Q t := Iff.rfl

/-- What a refusal leaves behind keeps a state. -/
structure FxKept (f : State → State) : Prop where
  keep : ∀ (Q : List Instr) (s : State), Kept Q s → Kept Q (f s)

@[simp] theorem fxKept_id : FxKept id := ⟨fun _ _ h => h⟩
@[simp] theorem fxKept_err {st : Nat} : FxKept (err st).fx := fxKept_id
@[simp] theorem fxKept_fitFail {c n : Nat} : FxKept (fitFail c n).fx := fxKept_id

/-- A check whose value satisfies `P`, and whose refusal keeps every state. -/
def Sat {α : Type} (P : α → Prop) : Except Fail α → Prop
  | .ok a => P a
  | .error f => FxKept f.fx

/-- A check whose refusal keeps every state. -/
def Fine {α : Type} (e : Except Fail α) : Prop := ∀ f, e = .error f → FxKept f.fx

section Checks
variable {α β : Type} {P : α → Prop}

@[simp] theorem sat_ok {a : α} : Sat P (.ok a) ↔ P a := Iff.rfl
@[simp] theorem sat_pure {a : α} : Sat P (pure a : Except Fail α) ↔ P a := Iff.rfl
@[simp] theorem sat_error {f : Fail} : Sat P (.error f) ↔ FxKept f.fx := Iff.rfl
@[simp] theorem sat_throw {f : Fail} : Sat P (throw f : Except Fail α) ↔ FxKept f.fx := Iff.rfl
@[simp] theorem fine_ok {a : α} : Fine (.ok a : Except Fail α) := fun _ h => by cases h
@[simp] theorem fine_pure {a : α} : Fine (pure a : Except Fail α) := fun _ h => by cases h
@[simp] theorem fine_error {f : Fail} : Fine (.error f : Except Fail α) ↔ FxKept f.fx :=
  ⟨fun h => h f rfl, fun h _ e => by cases e; exact h⟩
@[simp] theorem fine_need {b : Bool} {f : Fail} (h : FxKept f.fx) : Fine (need b f) := by
  cases b <;> simp [need, h]
theorem sat_bind {e : Except Fail β} {k : β → Except Fail α} (he : Fine e) (hk : ∀ b, e = .ok b → Sat P (k b)) :
    Sat P (e >>= k) := by
  cases e with
  | error f => exact he f rfl
  | ok b => exact hk b rfl
theorem fine_bind {e : Except Fail β} {k : β → Except Fail α} (he : Fine e) (hk : ∀ b, e = .ok b → Fine (k b)) :
    Fine (e >>= k) := by
  cases e with
  | error f => intro g h; cases h; exact he f rfl
  | ok b => exact hk b rfl
@[simp] theorem fine_map {e : Except Fail β} {k : β → α} (he : Fine e) : Fine (e.map k) := by
  cases e with
  | error f => intro g h; cases h; exact he f rfl
  | ok b => simp [Except.map]
theorem Sat.fine {e : Except Fail α} (h : Sat P e) : Fine e := by
  cases e with
  | error f => simpa using h
  | ok b => simp
end Checks

theorem kept_elim {α : Type} {o : Option α} {f : α → State} (h : Kept Q s) (hf : ∀ a, Kept Q (f a)) :
    Kept Q (o.elim s f) := by
  cases o with
  | none => exact h
  | some a => exact hf a

theorem fine_mapM {α β : Type} {f : α → Except Fail β} (hf : ∀ a, Fine (f a)) (l : List α) : Fine (l.mapM f) := by
  induction l with
  | nil => simp
  | cons a l ih =>
    rw [List.mapM_cons]
    exact fine_bind (hf a) fun _ _ => fine_bind ih fun _ _ => fine_pure

theorem kept_foldl_snd {α β : Type} {f : β × State → α → β × State} (hf : ∀ p x, Kept Q p.2 → Kept Q (f p x).2) (l : List α) :
    ∀ {p : β × State}, Kept Q p.2 → Kept Q (l.foldl f p).2 := by
  induction l with
  | nil => intro p h; exact h
  | cons x l ih => intro p h; exact ih (hf p x h)

/-- The state that a body ends in. -/
theorem Sat.kept {e : Except Fail (State × Done)} {p : State × Done} (h : Sat (fun x => Kept Q x.1) e) (he : e = .ok p) :
    Kept Q p.1 := by
  subst he; exact h

/-! ### Ops -/

@[simp] theorem tick_kept (h : Kept Q s) : Kept Q (tick s) := by
  simp (maxDischargeDepth := 60) [tick, h]
@[simp] theorem draw_kept (h : Kept Q s) : Kept Q (draw s).2 := by
  simp (maxDischargeDepth := 60) [draw, h]
@[simp] theorem drawBytes_kept {a1} (h : Kept Q s) : Kept Q (drawBytes a1 s).2 := by
  simp (maxDischargeDepth := 60) [drawBytes, h]
@[simp] theorem pinPulse_kept {a1 a2 a3 : Nat} {a4 : State → Result} (h : Kept Q s) (hf : ∀ s, Kept Q s → KeptR Q (a4 s)) :
    KeptR Q (pinPulse a1 a2 a3 a4 s) := by
  unfold pinPulse
  split
  · exact h
  · split
    · exact hf s h
    · show KeptR Q (if (draw s).1 % 2 = 0 then .next (draw s).2 else a4 (draw s).2)
      split
      · exact draw_kept h
      · exact hf _ (draw_kept h)
@[simp] theorem updFn_kept {a1 a2} (h : Kept Q s) : Kept Q (updFn a1 a2 s) := by
  simp (maxDischargeDepth := 60) [updFn, h]
@[simp] theorem emit_kept {a1} (h : Kept Q s) : Kept Q (emit a1 s) := by
  simp (maxDischargeDepth := 60) [emit, h]
@[simp] theorem trigger_kept {a1 a2} (h : Kept Q s) : Kept Q (trigger a1 a2 s) := by
  simp only [trigger]; (repeat' split) <;> simp (maxDischargeDepth := 60) [h]
@[simp] theorem updPair_kept {a1 a2 a3} (h : Kept Q s) : Kept Q (updPair a1 a2 a3 s) := by
  simp (maxDischargeDepth := 60) [updPair, h]
@[simp] theorem signal_kept {a1 a2 a3} (h : Kept Q s) : Kept Q (signal a1 a2 a3 s) := by
  simp (maxDischargeDepth := 60) [signal, h]
@[simp] theorem coalesce_kept {a1 a2 a3 a4} (h : Kept Q s) : Kept Q (coalesce a1 a2 a3 a4 s) := by
  simp only [coalesce]; (repeat' split) <;> simp (maxDischargeDepth := 60) [h]
@[simp] theorem updObj_kept {a1 a2 a3} (h : Kept Q s) : Kept Q (updObj a1 a2 a3 s) := by
  simp (maxDischargeDepth := 60) [updObj, h]
@[simp] theorem err_kept {a1} : FxKept (err a1).fx := by
  simp [err]
@[simp] theorem fitFail_kept {a1 a2} : FxKept (fitFail a1 a2).fx := by
  simp [fitFail]
@[simp] theorem lookupHandle_kept {a1 a2 a3 a4} : Fine (lookupHandle a1 a2 a3 a4 s) := by
  simp only [lookupHandle]; (repeat' (first | with_reducible refine fine_bind ?_ (fun _ _ => ?_) | split)) <;> simp
@[simp] theorem limitCheck_kept {a1} : Fine (limitCheck a1 s) := by
  simp [limitCheck]
@[simp] theorem pickSlot_kept {a1 a2} (h : Kept Q s) : Kept Q (pickSlot a1 a2 s).2 := by
  simp (maxDischargeDepth := 60) [pickSlot, h]
@[irreducible] def pickSlotA := fun a1 a2 s => (pickSlot a1 a2 s).1
@[irreducible] def pickSlotS := fun a1 a2 s => (pickSlot a1 a2 s).2
theorem pickSlot_pair {a1 a2} : pickSlot a1 a2 s = (pickSlotA a1 a2 s, pickSlotS a1 a2 s) := by
  simp only [pickSlotA, pickSlotS]
@[simp] theorem pickSlotS_kept {a1 a2} (h : Kept Q s) : Kept Q (pickSlotS a1 a2 s) := by
  unfold pickSlotS; exact pickSlot_kept h
@[simp] theorem pickGen_kept {a1 a2} (h : Kept Q s) : Kept Q (pickGen a1 a2 s).2 := by
  simp only [pickGen, draw]; (repeat' split) <;> simp (maxDischargeDepth := 60) [h]
@[irreducible] def pickGenA := fun a1 a2 s => (pickGen a1 a2 s).1
@[irreducible] def pickGenS := fun a1 a2 s => (pickGen a1 a2 s).2
theorem pickGen_pair {a1 a2} : pickGen a1 a2 s = (pickGenA a1 a2 s, pickGenS a1 a2 s) := by
  simp only [pickGenA, pickGenS]
@[simp] theorem pickGenS_kept {a1 a2} (h : Kept Q s) : Kept Q (pickGenS a1 a2 s) := by
  unfold pickGenS; exact pickGen_kept h
@[simp] theorem addObj_kept {a1 a2 a3 a4 a5 a6 a7 a8} (h : Kept Q s) : Kept Q (addObj a1 a2 a3 a4 a5 a6 a7 a8 s).2 := by
  simp (maxDischargeDepth := 60) [addObj, h]
@[irreducible] def addObjA := fun a1 a2 a3 a4 a5 a6 a7 a8 s => (addObj a1 a2 a3 a4 a5 a6 a7 a8 s).1
@[irreducible] def addObjS := fun a1 a2 a3 a4 a5 a6 a7 a8 s => (addObj a1 a2 a3 a4 a5 a6 a7 a8 s).2
theorem addObj_pair {a1 a2 a3 a4 a5 a6 a7 a8} : addObj a1 a2 a3 a4 a5 a6 a7 a8 s = (addObjA a1 a2 a3 a4 a5 a6 a7 a8 s, addObjS a1 a2 a3 a4 a5 a6 a7 a8 s) := by
  simp only [addObjA, addObjS]
@[simp] theorem addObjS_kept {a1 a2 a3 a4 a5 a6 a7 a8} (h : Kept Q s) : Kept Q (addObjS a1 a2 a3 a4 a5 a6 a7 a8 s) := by
  unfold addObjS; exact addObj_kept h
@[simp] theorem newObj_kept {a1 a2 a3 a4 a5 a6 a7 a8} (h : Kept Q s) : Kept Q (newObj a1 a2 a3 a4 a5 a6 a7 a8 s).2.2 := by
  simp (maxDischargeDepth := 60) [newObj, h]
@[irreducible] def newObjA := fun a1 a2 a3 a4 a5 a6 a7 a8 s => (newObj a1 a2 a3 a4 a5 a6 a7 a8 s).1
@[irreducible] def newObjB := fun a1 a2 a3 a4 a5 a6 a7 a8 s => (newObj a1 a2 a3 a4 a5 a6 a7 a8 s).2.1
@[irreducible] def newObjS := fun a1 a2 a3 a4 a5 a6 a7 a8 s => (newObj a1 a2 a3 a4 a5 a6 a7 a8 s).2.2
theorem newObj_pair {a1 a2 a3 a4 a5 a6 a7 a8} : newObj a1 a2 a3 a4 a5 a6 a7 a8 s = (newObjA a1 a2 a3 a4 a5 a6 a7 a8 s, newObjB a1 a2 a3 a4 a5 a6 a7 a8 s, newObjS a1 a2 a3 a4 a5 a6 a7 a8 s) := by
  simp only [newObjA, newObjB, newObjS]
@[simp] theorem newObjS_kept {a1 a2 a3 a4 a5 a6 a7 a8} (h : Kept Q s) : Kept Q (newObjS a1 a2 a3 a4 a5 a6 a7 a8 s) := by
  unfold newObjS; exact newObj_kept h
@[simp] theorem queueEvent_kept {a1 a2} (h : Kept Q s) : Kept Q (queueEvent a1 a2 s) := by
  unfold queueEvent; (repeat' split) <;> simp (maxDischargeDepth := 60) [h]
@[simp] theorem raise_kept {a1 a2 a3} (h : Kept Q s) : Kept Q (raise a1 a2 a3 s) := by
  simp (maxDischargeDepth := 60) [raise, h]
@[simp] theorem raiseTo_kept {a1 a2 a3 a4} (h : Kept Q s) : Kept Q (raiseTo a1 a2 a3 a4 s) := by
  simp (maxDischargeDepth := 60) [raiseTo, h]
@[simp] theorem raiseOnceN_kept {a1 a2 a3 a4} (h : Kept Q s) : Kept Q (raiseOnceN a1 a2 a3 a4 s) := by
  simp only [raiseOnceN]; (repeat' split) <;> simp (maxDischargeDepth := 60) [h]
@[simp] theorem raiseOnce_kept {a1 a2 a3} (h : Kept Q s) : Kept Q (raiseOnce a1 a2 a3 s) := by
  simp only [raiseOnce]; (repeat' split) <;> simp (maxDischargeDepth := 60) [h]
@[simp] theorem addFault_kept {a1} (h : Kept Q s) : Kept Q (addFault a1 s) := by
  unfold addFault; (repeat' split) <;> simp (maxDischargeDepth := 60) [h]
@[simp] theorem mismatch_kept {a1 a2 a3 a4 a5} (h : Kept Q s) : Kept Q (mismatch a1 a2 a3 a4 a5 s) := by
  simp (maxDischargeDepth := 60) [mismatch, h]
@[simp] theorem fxKept_mismatch {a1 a2 a3 a4 a5} : FxKept (mismatch a1 a2 a3 a4 a5) := ⟨fun _ _ h => mismatch_kept h⟩
@[simp] theorem baseFault_kept {a1} (h : Kept Q s) : Kept Q (baseFault a1 s) := by
  simp (maxDischargeDepth := 60) [baseFault, h]
@[simp] theorem postCq_kept {a1 a2 a3 a4 a5 a6 a7 a8} (h : Kept Q s) : Kept Q (postCq a1 a2 a3 a4 a5 a6 a7 a8 s) := by
  simp only [postCq]; (repeat' split) <;> simp (maxDischargeDepth := 60) [h]
@[simp] theorem cbRespond_kept {a1 a2 a3 a4 a5} (h : Kept Q s) : Kept Q (cbRespond a1 a2 a3 a4 a5 s) := by
  simp only [cbRespond]; (repeat' split) <;> simp (maxDischargeDepth := 60) [h]
@[simp] theorem setServer_kept {a1} (h : Kept Q s) : Kept Q (setServer a1 s) := by
  unfold setServer; (repeat' split) <;> simp (maxDischargeDepth := 60) [h]
@[simp] theorem dropReq_kept {a1} (h : Kept Q s) : Kept Q (dropReq a1 s) := by
  simp (maxDischargeDepth := 60) [dropReq, h]
@[simp] theorem cbWrite_kept {a1} (h : Kept Q s) : Kept Q (cbWrite a1 s) := by
  simp (maxDischargeDepth := 60) [cbWrite, h]
@[simp] theorem dma_kept {a1 a2 a3} (h : Kept Q s) : Kept Q (dma a1 a2 a3 s) := by
  unfold dma; (repeat' split) <;> simp (maxDischargeDepth := 60) [h]
@[simp] theorem post_kept {a1 a2 a3 a4 a5} (h : Kept Q s) : Kept Q (post a1 a2 a3 a4 a5 s) := by
  simp only [post]; (repeat' split) <;> simp (maxDischargeDepth := 60) [h]
@[simp] theorem postRef_kept {a1 a2 a3 a4 a5} (h : Kept Q s) : Kept Q (postRef a1 a2 a3 a4 a5 s) := by
  unfold postRef; (repeat' split) <;> simp (maxDischargeDepth := 60) [h]
@[simp] theorem updQuota_kept {a1 a2 a3} (h : Kept Q s) : Kept Q (updQuota a1 a2 a3 s) := by
  simp (maxDischargeDepth := 60) [updQuota, h]
@[simp] theorem charge_kept {a1 a2 a3} (h : Kept Q s) : Kept Q (charge a1 a2 a3 s) := by
  simp (maxDischargeDepth := 60) [charge, h]
@[simp] theorem refund_kept {a1 a2 a3} (h : Kept Q s) : Kept Q (refund a1 a2 a3 s) := by
  simp (maxDischargeDepth := 60) [refund, h]
@[simp] theorem quotaRefused_kept {a1 a2} (h : Kept Q s) : Kept Q (quotaRefused a1 a2 s) := by
  simp (maxDischargeDepth := 60) [quotaRefused, h]
@[simp] theorem fxKept_quotaRefused {a1 a2} : FxKept (quotaRefused a1 a2) := ⟨fun _ _ h => quotaRefused_kept h⟩
@[simp] theorem quotaPair_kept {a1 a2 a3} : Fine (quotaPair a1 a2 a3 s) := by
  simp [quotaPair]
@[simp] theorem fits_kept {a1 a2} : Fine (fits a1 a2) := by
  simp [fits]
@[simp] theorem fitsQuota_kept {a1 a2 a3} : Fine (fitsQuota a1 a2 a3 s) := by
  simp [fitsQuota]
@[simp] theorem recharge_kept {a1 a2 a3 a4} (h : Kept Q s) : Kept Q (recharge a1 a2 a3 a4 s) := by
  unfold recharge; (repeat' split) <;> simp (maxDischargeDepth := 60) [h]
@[simp] theorem refuseReg_kept {a1 a2} (h : Kept Q s) : Kept Q (refuseReg a1 a2 s) := by
  simp (maxDischargeDepth := 60) [refuseReg, h]
@[simp] theorem measure_kept {a1 a2} (h : Kept Q s) : Kept Q (measure a1 a2 s) := by
  simp (maxDischargeDepth := 60) [measure, h]

/-! ### Release -/

@[simp] theorem freeCsi_kept (h : Kept Q s) : Kept Q (freeCsi s) := by
  simp (maxDischargeDepth := 60) [freeCsi, h]
@[simp] theorem dropStream_kept {a1} (h : Kept Q s) : Kept Q (dropStream a1 s) := by
  simp (maxDischargeDepth := 60) [dropStream, h]
@[simp] theorem dropChan_kept {a1} (h : Kept Q s) : Kept Q (dropChan a1 s) := by
  simp (maxDischargeDepth := 60) [dropChan, h]
@[simp] theorem withdrawTasks_kept {a1} (h : Kept Q s) : Kept Q (withdrawTasks a1 s) := by
  simp (maxDischargeDepth := 60) [withdrawTasks, h]
@[simp] theorem dropInst_kept {a1} (h : Kept Q s) : Kept Q (dropInst a1 s) := by
  simp (maxDischargeDepth := 60) [dropInst, h]
@[simp] theorem dropProblem_kept {a1} (h : Kept Q s) : Kept Q (dropProblem a1 s) := by
  unfold dropProblem; (repeat' split) <;> simp (maxDischargeDepth := 60) [h]
@[simp] theorem dropRecord_kept {a1 a2} (h : Kept Q s) : Kept Q (dropRecord a1 a2 s) := by
  unfold dropRecord; (repeat' split) <;> simp (maxDischargeDepth := 60) [h]
@[simp] theorem releaseObj_kept {a1} (h : Kept Q s) : Kept Q (releaseObj a1 s) := by
  simp (maxDischargeDepth := 60) [releaseObj, h]
@[simp] theorem releaseAll_kept : ∀ {os : List Obj} {s : State}, Kept Q s → Kept Q (releaseAll os s)
  | [], _, h => h
  | _ :: os, _, h => releaseAll_kept (os := os) (releaseObj_kept h)
theorem finishRelease_kept {a1} (h : Kept Q s) (e : finishRelease a1 s = some t) : Kept Q t := by
  simp only [finishRelease] at e; (repeat' split at e) <;> simp at e <;> (try subst e) <;> simp (maxDischargeDepth := 60) [h]
theorem finishWait_kept {a1} (h : Kept Q s) (e : finishWait a1 s = some t) : Kept Q t := by
  simp only [finishWait] at e; (repeat' split at e) <;> simp at e <;> (try subst e) <;> simp (maxDischargeDepth := 60) [h]
theorem settleOne_kept : ∀ {l : List Req} {s t : State}, Kept Q s → settleOne l s = some t → Kept Q t
  | [], _, _, _, e => by cases e
  | q :: l, s, t, h, e => by
    simp only [settleOne] at e
    split at e
    · next hf => cases e; exact finishRelease_kept h hf
    · split at e
      · next hf => cases e; exact finishWait_kept h hf
      · exact settleOne_kept (l := l) h e
@[simp] theorem settleN_kept : ∀ {n : Nat} {s : State}, Kept Q s → Kept Q (settleN n s)
  | 0, _, h => h
  | n + 1, _, h => by
    simp only [settleN]
    split
    · exact h
    · next e => exact settleN_kept (n := n) (settleOne_kept h e)
@[simp] theorem sweepCals_kept (h : Kept Q s) : Kept Q (sweepCals s) := by
  simp (maxDischargeDepth := 60) [sweepCals, h]
@[simp] theorem settle_kept (h : Kept Q s) : Kept Q (settle s) := by
  simp (maxDischargeDepth := 60) [settle, h]
@[simp] theorem ended_kept (h : Kept Q s) : KeptR Q (ended s) := by
  simp (maxDischargeDepth := 60) [ended, h]

/-! ### Serve -/

@[simp] theorem inlineCheck_kept {a1 a2} : Fine (inlineCheck a1 a2) := by
  simp [inlineCheck]
@[simp] theorem both_kept {α β : Type} {a : Except Fail α} {b : Except Fail β} (ha : Fine a) (hb : Fine b) : Fine (both a b) := by
  intro f e
  unfold both at e
  split at e
  · next x y =>
    cases e
    split
    · exact hb _ rfl
    · exact ha _ rfl
  · cases e; exact ha _ rfl
  · cases e; exact hb _ rfl
  · cases e
@[simp] theorem resCheck_kept {a1 a2} : Fine (resCheck a1 a2) := by
  simp [resCheck]
@[simp] theorem handleCheck_kept {a1 a2} : Fine (handleCheck a1 a2 s) := by
  simp only [handleCheck]; (repeat' (first | with_reducible refine fine_bind ?_ (fun _ _ => ?_) | split)) <;> simp
@[simp] theorem adminCheck_kept {a1 a2 a3} : Fine (adminCheck a1 a2 a3 s) := by
  simp only [adminCheck]; (repeat' (first | with_reducible refine fine_bind ?_ (fun _ _ => ?_) | split)) <;> simp
@[simp] theorem readPayload_kept {a1 a2} : Fine (readPayload a1 a2 s) := by
  simp only [readPayload]; (repeat' (first | with_reducible refine fine_bind ?_ (fun _ _ => ?_) | split)) <;> simp
@[simp] theorem cbBus_kept {a1} : Fine (cbBus a1 s) := by
  simp [cbBus]
@[simp] theorem sramMet_kept {a1} (h : Kept Q s) : Kept Q (sramMet a1 s) := by
  unfold sramMet; (repeat' split) <;> simp (maxDischargeDepth := 60) [h]
@[simp] theorem fxKept_sramMet {a1} : FxKept (sramMet a1) := ⟨fun _ _ h => sramMet_kept h⟩
@[simp] theorem sramCheck_kept {a1} : Fine (sramCheck a1) := by
  simp only [sramCheck]; (repeat' (first | with_reducible refine fine_bind ?_ (fun _ _ => ?_) | split)) <;> simp
theorem validate_fine {ci : CmdInfo} {q : Req} {io : Io} (hh : ∀ c, Fine (ci.hands c s)) : Fine (validate ci q io s) := by
  unfold validate
  (repeat' (first | refine fine_bind ?_ (fun _ _ => ?_) | split)) <;> simp [hh]
@[simp] theorem updDom_kept {a1 a2} (h : Kept Q s) : Kept Q (updDom a1 a2 s) := by
  simp (maxDischargeDepth := 60) [updDom, h]
@[simp] theorem startReturn_kept {a1} (h : Kept Q s) : Kept Q (startReturn a1 s) := by
  unfold startReturn
  exact kept_foldl (fun s d h => by split <;> simp (maxDischargeDepth := 60) [h]) _ h
@[simp] theorem markRunning_kept {a1} (h : Kept Q s) : Kept Q (markRunning a1 s) := by
  simp (maxDischargeDepth := 60) [markRunning, h]
@[simp] theorem endServe_kept {a1 a2} (h : Kept Q s) : Kept Q (endServe a1 a2 s) := by
  unfold endServe; (repeat' split) <;> simp (maxDischargeDepth := 60) [h]
theorem runBody_kept {ci : CmdInfo} {body : Body} {q : Req} {c : Ctx} (hb : Sat (fun x => Kept Q x.1) (body c s))
    (h : Kept Q s) : Kept Q (runBody ci body q c s) := by
  unfold runBody
  split
  · next f e =>
    rw [e] at hb
    dsimp only
    split
    · exact post_kept h
    · exact post_kept (hb.keep Q s h)
  · next e =>
    rw [e] at hb
    dsimp only
    repeat' split
    · exact post_kept h
    · exact endServe_kept hb
    · exact startReturn_kept h
theorem serve_kept {ci : CmdInfo} {body : Body} {r : ReqRef} {io : Io} (hh : ∀ c, Fine (ci.hands c s))
    (hb : ∀ c, Sat (fun x => Kept Q x.1) (body c s)) (h : Kept Q s) : KeptR Q (serve ci body r io s) := by
  unfold serve
  show Kept Q _
  split
  · exact h
  · refine settle_kept ?_
    split
    · next e => exact post_kept ((validate_fine hh _ e).keep Q s h)
    · exact runBody_kept (hb _) h
@[simp] theorem releaseBody_kept {a1} (h : Kept Q s) : Sat (fun x => Kept Q x.1) (releaseBody a1 s) := by
  simp only [releaseBody]; (repeat' (first | with_reducible refine sat_bind ?_ (fun _ _ => ?_) | split)) <;> simp (maxDischargeDepth := 60) [h]

end Sys2Proof.Machine
end

