-- ==== Sys2Proof/Laws/KeptSensors.lean ====
section
/-! SUPPORT. What is kept (Laws/Kept.lean) by the operations and rows of the time base, the streams and the filter chain. -/
namespace Sys2Proof.Machine
set_option Elab.async false
set_option linter.unusedSimpArgs false
variable {Q : List Instr} {s t : State}

/-! ### TimeBase -/

@[simp] theorem stepTime_kept {a1} (h : Kept Q s) : Kept Q (stepTime a1 s) := by
  simp (maxDischargeDepth := 60) [stepTime, h]
@[simp] theorem addSlew_kept {a1} (h : Kept Q s) : Kept Q (addSlew a1 s) := by
  simp (maxDischargeDepth := 60) [addSlew, h]
@[simp] theorem enterHoldover_kept (h : Kept Q s) : Kept Q (enterHoldover s) := by
  simp (maxDischargeDepth := 60) [enterHoldover, h]
@[simp] theorem leaveHoldover_kept {a1} (h : Kept Q s) : Kept Q (leaveHoldover a1 s) := by
  simp (maxDischargeDepth := 60) [leaveHoldover, h]
@[simp] theorem ptpAnnounce_kept {a1 a2 a3 a4} (h : Kept Q s) : Kept Q (ptpAnnounce a1 a2 a3 a4 s) := by
  simp only [ptpAnnounce]; (repeat' split) <;> simp (maxDischargeDepth := 60) [h]
@[simp] theorem ptpSync_kept {a1 a2 a3} (h : Kept Q s) : Kept Q (ptpSync a1 a2 a3 s) := by
  simp only [ptpSync]; (repeat' split) <;> simp (maxDischargeDepth := 60) [h]
@[simp] theorem ptpMessage_kept {a1 a2} (h : Kept Q s) : Kept Q (ptpMessage a1 a2 s) := by
  simp only [ptpMessage]; (repeat' split) <;> simp (maxDischargeDepth := 60) [h]
theorem execPtpMasterTimeout_kept (h : Kept Q s) : KeptR Q (execPtpMasterTimeout s) := by
  unfold execPtpMasterTimeout; (repeat' split) <;> simp (maxDischargeDepth := 60) [h]
theorem execSlewAbsorbed_kept (h : Kept Q s) : KeptR Q (execSlewAbsorbed s) := by
  unfold execSlewAbsorbed; (repeat' split) <;> simp (maxDischargeDepth := 60) [h]
@[simp] theorem bodyTimeRead_kept {c} (h : Kept Q s) : Sat (fun x => Kept Q x.1) (bodyTimeRead c s) := by
  simp only [bodyTimeRead]; (repeat' (first | with_reducible refine sat_bind ?_ (fun _ _ => ?_) | split)) <;> simp (maxDischargeDepth := 60) [h]
theorem execTimeRead_kept {a1 a2} (h : Kept Q s) : KeptR Q (execTimeRead a1 a2 s) := 
  serve_kept (fun _ => fine_ok) (fun _ => bodyTimeRead_kept h) h
@[simp] theorem bodyTimeSet_kept {c} (h : Kept Q s) : Sat (fun x => Kept Q x.1) (bodyTimeSet c s) := by
  simp only [bodyTimeSet]; (repeat' (first | with_reducible refine sat_bind ?_ (fun _ _ => ?_) | split)) <;> simp (maxDischargeDepth := 60) [h]
theorem execTimeSet_kept {a1 a2} (h : Kept Q s) : KeptR Q (execTimeSet a1 a2 s) := 
  serve_kept (fun _ => fine_ok) (fun _ => bodyTimeSet_kept h) h
@[simp] theorem bodyTimeAdjust_kept {c} (h : Kept Q s) : Sat (fun x => Kept Q x.1) (bodyTimeAdjust c s) := by
  simp only [bodyTimeAdjust]; (repeat' (first | with_reducible refine sat_bind ?_ (fun _ _ => ?_) | split)) <;> simp (maxDischargeDepth := 60) [h]
theorem execTimeAdjust_kept {a1 a2} (h : Kept Q s) : KeptR Q (execTimeAdjust a1 a2 s) := 
  serve_kept (fun _ => fine_ok) (fun _ => bodyTimeAdjust_kept h) h
@[simp] theorem setPtp_kept {a1} (h : Kept Q s) : Kept Q (setPtp a1 s) := by
  simp (maxDischargeDepth := 60) [setPtp, h]
@[simp] theorem bodyTimePtpConfig_kept {c} (h : Kept Q s) : Sat (fun x => Kept Q x.1) (bodyTimePtpConfig c s) := by
  simp only [bodyTimePtpConfig]; (repeat' (first | with_reducible refine sat_bind ?_ (fun _ _ => ?_) | split)) <;> simp +contextual (maxDischargeDepth := 60) [h, kept_foldl, kept_ite, kept_elim]
theorem execTimePtpConfig_kept {a1 a2} (h : Kept Q s) : KeptR Q (execTimePtpConfig a1 a2 s) := 
  serve_kept (fun _ => fine_ok) (fun _ => bodyTimePtpConfig_kept h) h
@[simp] theorem bodyTimeAlarmSet_kept {c} (h : Kept Q s) : Sat (fun x => Kept Q x.1) (bodyTimeAlarmSet c s) := by
  simp only [bodyTimeAlarmSet]; (repeat' (first | with_reducible refine sat_bind ?_ (fun _ _ => ?_) | split)) <;> simp (maxDischargeDepth := 60) [h]
theorem execTimeAlarmSet_kept {a1 a2} (h : Kept Q s) : KeptR Q (execTimeAlarmSet a1 a2 s) := 
  serve_kept (fun _ => fine_ok) (fun _ => bodyTimeAlarmSet_kept h) h
@[simp] theorem bodyTimeStatus_kept {c} (h : Kept Q s) : Sat (fun x => Kept Q x.1) (bodyTimeStatus c s) := by
  simp only [bodyTimeStatus]; (repeat' (first | with_reducible refine sat_bind ?_ (fun _ _ => ?_) | split)) <;> simp (maxDischargeDepth := 60) [h]
theorem execTimeStatus_kept {a1 a2} (h : Kept Q s) : KeptR Q (execTimeStatus a1 a2 s) := 
  serve_kept (fun _ => fine_ok) (fun _ => bodyTimeStatus_kept h) h
@[simp] theorem alarmFall_kept {a1} (h : Kept Q s) : Kept Q (alarmFall a1 s) := by
  simp (maxDischargeDepth := 60) [alarmFall, h]
theorem execPtpTransmitInterval_kept {a1 a2} (h : Kept Q s) : KeptR Q (execPtpTransmitInterval a1 a2 s) := by
  unfold execPtpTransmitInterval; (repeat' split) <;> simp (maxDischargeDepth := 60) [h]

/-! ### Streams -/

@[simp] theorem rateCheck_kept {a1 a2} : Fine (rateCheck a1 a2) := by
  simp only [rateCheck]; (repeat' (first | with_reducible refine fine_bind ?_ (fun _ _ => ?_) | split)) <;> simp
@[simp] theorem openLow_kept {a1 a2} (h : Kept Q s) : Sat (fun x => Kept Q x.1) (openLow a1 a2 s) := by
  simp only [openLow, draw]; (repeat' (first | with_reducible refine sat_bind ?_ (fun _ _ => ?_) | split)) <;> simp (maxDischargeDepth := 60) [h]
@[simp] theorem openStream_kept {a1 a2} (h : Kept Q s) : Sat (fun x => Kept Q x.1) (openStream a1 a2 s) := by
  simp only [openStream, newObj_pair]; (repeat' (first | with_reducible refine sat_bind ?_ (fun _ _ => ?_) | split)) <;> simp (maxDischargeDepth := 60) [h]
@[simp] theorem bodyStreamOpen_kept {c} (h : Kept Q s) : Sat (fun x => Kept Q x.1) (bodyStreamOpen c s) := by
  simp only [bodyStreamOpen]; (repeat' (first | with_reducible refine sat_bind ?_ (fun _ _ => ?_) | split)) <;> simp (maxDischargeDepth := 60) [h]
theorem execStreamOpen_kept {a1 a2} (h : Kept Q s) : KeptR Q (execStreamOpen a1 a2 s) := 
  serve_kept (fun _ => by simp only [iStreamOpen]; (repeat' (first | with_reducible refine fine_bind ?_ (fun _ _ => ?_) | split)) <;> simp) (fun _ => bodyStreamOpen_kept h) h
@[simp] theorem updStream_kept {a1 a2} (h : Kept Q s) : Kept Q (updStream a1 a2 s) := by
  simp (maxDischargeDepth := 60) [updStream, h]
@[simp] theorem takeCal_kept {a1} (h : Kept Q s) : Kept Q (takeCal a1 s) := by
  unfold takeCal; (repeat' split) <;> simp (maxDischargeDepth := 60) [h]
@[simp] theorem updLow_kept {a1 a2} (h : Kept Q s) : Kept Q (updLow a1 a2 s) := by
  simp (maxDischargeDepth := 60) [updLow, h]
@[simp] theorem target_kept {a1} : Fine (target a1 s) := by
  simp only [target]; (repeat' (first | with_reducible refine fine_bind ?_ (fun _ _ => ?_) | split)) <;> simp
@[simp] theorem bodyStreamClose_kept {c} (h : Kept Q s) : Sat (fun x => Kept Q x.1) (bodyStreamClose c s) := by
  simp only [bodyStreamClose]; (repeat' (first | with_reducible refine sat_bind ?_ (fun _ _ => ?_) | split)) <;> simp (maxDischargeDepth := 60) [h]
theorem execStreamClose_kept {a1 a2} (h : Kept Q s) : KeptR Q (execStreamClose a1 a2 s) := 
  serve_kept (fun _ => fine_ok) (fun _ => bodyStreamClose_kept h) h
@[simp] theorem bodyStreamStart_kept {c} (h : Kept Q s) : Sat (fun x => Kept Q x.1) (bodyStreamStart c s) := by
  simp only [bodyStreamStart]; (repeat' (first | with_reducible refine sat_bind ?_ (fun _ _ => ?_) | split)) <;> simp (maxDischargeDepth := 60) [h]
theorem execStreamStart_kept {a1 a2} (h : Kept Q s) : KeptR Q (execStreamStart a1 a2 s) := 
  serve_kept (fun _ => fine_ok) (fun _ => bodyStreamStart_kept h) h
@[simp] theorem stopStream_kept {a1} (h : Kept Q s) : Kept Q (stopStream a1 s) := by
  simp (maxDischargeDepth := 60) [stopStream, h]
@[simp] theorem bodyStreamStop_kept {c} (h : Kept Q s) : Sat (fun x => Kept Q x.1) (bodyStreamStop c s) := by
  simp only [bodyStreamStop]; (repeat' (first | with_reducible refine sat_bind ?_ (fun _ _ => ?_) | split)) <;> simp (maxDischargeDepth := 60) [h]
theorem execStreamStop_kept {a1 a2} (h : Kept Q s) : KeptR Q (execStreamStop a1 a2 s) := 
  serve_kept (fun _ => fine_ok) (fun _ => bodyStreamStop_kept h) h
@[simp] theorem bodyStreamQuery_kept {c} (h : Kept Q s) : Sat (fun x => Kept Q x.1) (bodyStreamQuery c s) := by
  simp only [bodyStreamQuery]; (repeat' (first | with_reducible refine sat_bind ?_ (fun _ _ => ?_) | split)) <;> simp (maxDischargeDepth := 60) [h]
theorem execStreamQuery_kept {a1 a2} (h : Kept Q s) : KeptR Q (execStreamQuery a1 a2 s) := 
  serve_kept (fun _ => fine_ok) (fun _ => bodyStreamQuery_kept h) h
@[simp] theorem bodyStreamSetWindow_kept {c} (h : Kept Q s) : Sat (fun x => Kept Q x.1) (bodyStreamSetWindow c s) := by
  simp only [bodyStreamSetWindow]; (repeat' (first | with_reducible refine sat_bind ?_ (fun _ _ => ?_) | split)) <;> simp (maxDischargeDepth := 60) [h]
theorem execStreamSetWindow_kept {a1 a2} (h : Kept Q s) : KeptR Q (execStreamSetWindow a1 a2 s) := 
  serve_kept (fun _ => fine_ok) (fun _ => bodyStreamSetWindow_kept h) h
@[simp] theorem freeBuf_kept {a1 a2} (h : Kept Q s) : Kept Q (freeBuf a1 a2 s) := by
  simp (maxDischargeDepth := 60) [freeBuf, h]
@[simp] theorem bodyStreamFrameRelease_kept {c} (h : Kept Q s) : Sat (fun x => Kept Q x.1) (bodyStreamFrameRelease c s) := by
  simp only [bodyStreamFrameRelease]; (repeat' (first | with_reducible refine sat_bind ?_ (fun _ _ => ?_) | split)) <;> simp (maxDischargeDepth := 60) [h]
theorem execStreamFrameRelease_kept {a1 a2} (h : Kept Q s) : KeptR Q (execStreamFrameRelease a1 a2 s) := 
  serve_kept (fun _ => fine_ok) (fun _ => bodyStreamFrameRelease_kept h) h
@[simp] theorem countPort_kept {a1 a2} (h : Kept Q s) : Kept Q (countPort a1 a2 s) := by
  simp (maxDischargeDepth := 60) [countPort, h]
@[simp] theorem lowBlock_kept {a1 a2 a3 a4 a5 a6 a7} (h : Kept Q s) : Kept Q (lowBlock a1 a2 a3 a4 a5 a6 a7 s) := by
  simp only [lowBlock]; (repeat' split) <;> simp (maxDischargeDepth := 60) [h]
@[simp] theorem updEnc_kept {a1 a2} (h : Kept Q s) : Kept Q (updEnc a1 a2 s) := by
  simp (maxDischargeDepth := 60) [updEnc, h]
theorem execEncEdge_kept {a1 a2 a3 a5} (h : Kept Q s) : KeptR Q (execEncEdge a1 a2 a3 s a5) := by
  unfold execEncEdge; exact pinPulse_kept h fun s h => by (show Kept Q _); (repeat' split) <;> simp +contextual (maxDischargeDepth := 60) [h, kept_foldl, kept_ite]
theorem execEncIndex_kept {a1 a3} (h : Kept Q s) : KeptR Q (execEncIndex a1 s a3) := by
  unfold execEncIndex; exact pinPulse_kept h fun s h => by (show Kept Q _); (repeat' split) <;> simp +contextual (maxDischargeDepth := 60) [h, kept_foldl, kept_ite]
@[simp] theorem encSample_kept {a1 a2} (h : Kept Q s) : Kept Q (encSample a1 a2 s) := by
  simp (maxDischargeDepth := 60) [encSample, h]
theorem execEncSample_kept {a1} (h : Kept Q s) : KeptR Q (execEncSample a1 s) := by
  unfold execEncSample; (repeat' split) <;> simp (maxDischargeDepth := 60) [h]

/-! ### Filters -/

@[simp] theorem updChan_kept {a1 a2} (h : Kept Q s) : Kept Q (updChan a1 a2 s) := by
  simp (maxDischargeDepth := 60) [updChan, h]
@[simp] theorem feed_kept {a1 a2 a3 a4} (h : Kept Q s) : Kept Q (feed a1 a2 a3 a4 s) := by
  simp only [feed]; (repeat' split) <;> simp (maxDischargeDepth := 60) [h]
@[simp] theorem resume_kept {a1} (h : Kept Q s) : Kept Q (resume a1 s) := by
  unfold resume; (repeat' split) <;> simp (maxDischargeDepth := 60) [h]
@[simp] theorem heldInput_kept {a1} (h : Kept Q s) : Kept Q (heldInput a1 s) := by
  simp only [heldInput]; (repeat' split) <;> simp (maxDischargeDepth := 60) [h]
@[simp] theorem updSel_kept {a1 a2 a3} (h : Kept Q s) : Kept Q (updSel a1 a2 a3 s) := by
  simp (maxDischargeDepth := 60) [updSel, h]
@[simp] theorem spiStart_kept {a1 a2 a3} (h : Kept Q s) : Kept Q (spiStart a1 a2 a3 s) := by
  simp (maxDischargeDepth := 60) [spiStart, h]
@[simp] theorem strobe_kept {a1 a2} (h : Kept Q s) : Kept Q (strobe a1 a2 s) := by
  simp only [strobe]; (repeat' split) <;> simp (maxDischargeDepth := 60) [h]
theorem execSpiCnvStrobe_kept {a1 a2} (h : Kept Q s) : KeptR Q (execSpiCnvStrobe a1 a2 s) := by
  unfold execSpiCnvStrobe; (repeat' split) <;> simp (maxDischargeDepth := 60) [h]
theorem execSpiDrdyEdge_kept {a1 a2 a4} (h : Kept Q s) : KeptR Q (execSpiDrdyEdge a1 a2 s a4) := by
  unfold execSpiDrdyEdge; exact pinPulse_kept h fun s h => by (show Kept Q _); (repeat' split) <;> simp +contextual (maxDischargeDepth := 60) [h, kept_foldl, kept_ite]
theorem execSpiTransactionDone_kept {a1 a2} (h : Kept Q s) : KeptR Q (execSpiTransactionDone a1 a2 s) := by
  unfold execSpiTransactionDone
  show Kept Q _
  split
  · exact h
  · dsimp only
    refine settle_kept ?_
    generalize hs : List.foldl _ _ _ = s2
    have h2 : Kept Q s2 := by
      rw [← hs]
      exact kept_foldl (fun s c h => by split <;> simp (maxDischargeDepth := 60) [h]) _ (by simp [h])
    split <;> simp (maxDischargeDepth := 60) [h2]
theorem execSpiDrdyGap_kept {a1 a2} (h : Kept Q s) : KeptR Q (execSpiDrdyGap a1 a2 s) := by
  unfold execSpiDrdyGap; (repeat' split) <;> simp +contextual (maxDischargeDepth := 60) [h, kept_foldl, kept_ite, kept_elim]
theorem execFiltHeldInput_kept {a1 a2} (h : Kept Q s) : KeptR Q (execFiltHeldInput a1 a2 s) := by
  unfold execFiltHeldInput; (repeat' split) <;> simp +contextual (maxDischargeDepth := 60) [h, kept_foldl, kept_ite, kept_elim]
@[simp] theorem bodyFiltOpen_kept {c} (h : Kept Q s) : Sat (fun x => Kept Q x.1) (bodyFiltOpen c s) := by
  simp only [bodyFiltOpen, addObj_pair]; (repeat' (first | with_reducible refine sat_bind ?_ (fun _ _ => ?_) | split)) <;> simp (maxDischargeDepth := 60) [h]
theorem execFiltOpen_kept {a1 a2} (h : Kept Q s) : KeptR Q (execFiltOpen a1 a2 s) := 
  serve_kept (fun _ => by simp only [iFiltOpen]; (repeat' (first | with_reducible refine fine_bind ?_ (fun _ _ => ?_) | split)) <;> simp) (fun _ => bodyFiltOpen_kept h) h
theorem execFiltClose_kept {a1 a2} (h : Kept Q s) : KeptR Q (execFiltClose a1 a2 s) := 
  serve_kept (fun _ => fine_ok) (fun _ => releaseBody_kept h) h
@[simp] theorem chanOf_kept {a1} : Fine (chanOf a1 s) := by
  simp only [chanOf]; (repeat' (first | with_reducible refine fine_bind ?_ (fun _ _ => ?_) | split)) <;> simp
@[simp] theorem bodyFiltLoadBank_kept {c} (h : Kept Q s) : Sat (fun x => Kept Q x.1) (bodyFiltLoadBank c s) := by
  simp only [bodyFiltLoadBank]; (repeat' (first | with_reducible refine sat_bind ?_ (fun _ _ => ?_) | split)) <;> simp (maxDischargeDepth := 60) [h]
theorem execFiltLoadBank_kept {a1 a2} (h : Kept Q s) : KeptR Q (execFiltLoadBank a1 a2 s) := 
  serve_kept (fun _ => fine_ok) (fun _ => bodyFiltLoadBank_kept h) h
@[simp] theorem macCheck_kept {a1 a2} : Fine (macCheck a1 a2 s) := by
  simp [macCheck]
@[simp] theorem bodyFiltSwap_kept {c} (h : Kept Q s) : Sat (fun x => Kept Q x.1) (bodyFiltSwap c s) := by
  simp only [bodyFiltSwap]; (repeat' (first | with_reducible refine sat_bind ?_ (fun _ _ => ?_) | split)) <;> simp (maxDischargeDepth := 60) [h]
theorem execFiltSwap_kept {a1 a2} (h : Kept Q s) : KeptR Q (execFiltSwap a1 a2 s) := 
  serve_kept (fun _ => fine_ok) (fun _ => bodyFiltSwap_kept h) h
@[simp] theorem bodyFiltCrossfade_kept {c} (h : Kept Q s) : Sat (fun x => Kept Q x.1) (bodyFiltCrossfade c s) := by
  simp only [bodyFiltCrossfade]; (repeat' (first | with_reducible refine sat_bind ?_ (fun _ _ => ?_) | split)) <;> simp (maxDischargeDepth := 60) [h]
theorem execFiltCrossfade_kept {a1 a2} (h : Kept Q s) : KeptR Q (execFiltCrossfade a1 a2 s) := 
  serve_kept (fun _ => fine_ok) (fun _ => bodyFiltCrossfade_kept h) h
@[simp] theorem bodyFiltSetPhase_kept {c} (h : Kept Q s) : Sat (fun x => Kept Q x.1) (bodyFiltSetPhase c s) := by
  simp only [bodyFiltSetPhase]; (repeat' (first | with_reducible refine sat_bind ?_ (fun _ _ => ?_) | split)) <;> simp (maxDischargeDepth := 60) [h]
theorem execFiltSetPhase_kept {a1 a2} (h : Kept Q s) : KeptR Q (execFiltSetPhase a1 a2 s) := 
  serve_kept (fun _ => fine_ok) (fun _ => bodyFiltSetPhase_kept h) h
@[simp] theorem bodyFiltDcFreeze_kept {c} (h : Kept Q s) : Sat (fun x => Kept Q x.1) (bodyFiltDcFreeze c s) := by
  simp only [bodyFiltDcFreeze]; (repeat' (first | with_reducible refine sat_bind ?_ (fun _ _ => ?_) | split)) <;> simp (maxDischargeDepth := 60) [h]
theorem execFiltDcFreeze_kept {a1 a2} (h : Kept Q s) : KeptR Q (execFiltDcFreeze a1 a2 s) := 
  serve_kept (fun _ => fine_ok) (fun _ => bodyFiltDcFreeze_kept h) h
@[simp] theorem bodyFiltDelayQuery_kept {c} (h : Kept Q s) : Sat (fun x => Kept Q x.1) (bodyFiltDelayQuery c s) := by
  simp only [bodyFiltDelayQuery]; (repeat' (first | with_reducible refine sat_bind ?_ (fun _ _ => ?_) | split)) <;> simp (maxDischargeDepth := 60) [h]
theorem execFiltDelayQuery_kept {a1 a2} (h : Kept Q s) : KeptR Q (execFiltDelayQuery a1 a2 s) := 
  serve_kept (fun _ => fine_ok) (fun _ => bodyFiltDelayQuery_kept h) h

end Sys2Proof.Machine
end

