-- ==== Sys2Proof/Laws/KeptVision.lean ====
section
/-! SUPPORT. What is kept (Laws/Kept.lean) by the cue engine and by the reception of frames. -/
namespace Sys2Proof.Machine
set_option Elab.async false
set_option linter.unusedSimpArgs false
variable {Q : List Instr} {s t : State}

/-! ### Cue -/

@[simp] theorem sheetFit_kept {a1 a2} : Fine (sheetFit a1 a2 s) := by
  simp only [sheetFit]; (repeat' (first | with_reducible refine fine_bind ?_ (fun _ _ => ?_) | split)) <;> simp
@[simp] theorem checkSheet_kept {a1} : Fine (checkSheet a1) := by
  simp only [checkSheet]; (repeat' (first | with_reducible refine fine_bind ?_ (fun _ _ => ?_) | split)) <;> simp
@[simp] theorem bodyCueLoad_kept {c} (h : Kept Q s) : Sat (fun x => Kept Q x.1) (bodyCueLoad c s) := by
  simp only [bodyCueLoad, newObj_pair]; (repeat' (first | with_reducible refine sat_bind ?_ (fun _ _ => ?_) | split)) <;> simp (maxDischargeDepth := 60) [h]
theorem execCueLoad_kept {a1 a2} (h : Kept Q s) : KeptR Q (execCueLoad a1 a2 s) := 
  serve_kept (fun _ => fine_ok) (fun _ => bodyCueLoad_kept h) h

/-! ### CueRun -/

@[simp] theorem updSheet_kept {a1 a2} (h : Kept Q s) : Kept Q (updSheet a1 a2 s) := by
  simp (maxDischargeDepth := 60) [updSheet, h]
@[simp] theorem freeUnit_kept {a1 a2 a3} (h : Kept Q s) : Kept Q (freeUnit a1 a2 a3 s) := by
  simp (maxDischargeDepth := 60) [freeUnit, h]
@[simp] theorem spreadErrors_kept {a1} (h : Kept Q s) : Kept Q (spreadErrors a1 s) := by
  unfold spreadErrors; split <;> first | exact h | exact kept_foldl (fun _ _ h => by dsimp only; (repeat' split) <;> simp (maxDischargeDepth := 60) [h]) _ h
@[simp] theorem releaseFrame_kept {a1 a2} (h : Kept Q s) : Kept Q (releaseFrame a1 a2 s) := by
  unfold releaseFrame; (repeat' split) <;> simp (maxDischargeDepth := 60) [h]
@[simp] theorem releaseSetFrames_kept {a1} (h : Kept Q s) : Kept Q (releaseSetFrames a1 s) := by
  unfold releaseSetFrames; split <;> first | exact h | exact kept_foldl (fun _ _ h => by dsimp only; (repeat' split) <;> simp (maxDischargeDepth := 60) [h]) _ h
@[simp] theorem sweepFrame_kept {a1 a2 a3} (h : Kept Q s) : Kept Q (sweepFrame a1 a2 a3 s) := by
  unfold sweepFrame; (repeat' split) <;> simp (maxDischargeDepth := 60) [h]
@[simp] theorem sweepFrames_kept {a1} (h : Kept Q s) : Kept Q (sweepFrames a1 s) := by
  unfold sweepFrames; (repeat' split) <;> simp +contextual (maxDischargeDepth := 60) [h, kept_foldl, kept_ite, kept_elim]
@[simp] theorem finishSets_kept {a1} (h : Kept Q s) : Kept Q (finishSets a1 s) := by
  simp (maxDischargeDepth := 60) [finishSets, h]
@[simp] theorem unbind_kept {a1} (h : Kept Q s) : Kept Q (unbind a1 s) := by
  simp (maxDischargeDepth := 60) [unbind, h]
@[simp] theorem finishStop_kept {a1} (h : Kept Q s) : Kept Q (finishStop a1 s) := by
  unfold finishStop; (repeat' split) <;> simp (maxDischargeDepth := 60) [h]
@[simp] theorem runOn_kept {a1 a2 a3 a4} (h : Kept Q s) : Kept Q (runOn a1 a2 a3 a4 s) := by
  simp (maxDischargeDepth := 60) [runOn, h]
@[simp] theorem giveUnits_kept {g k : Nat} : ∀ {n : Nat} {s : State}, Kept Q s → Kept Q (giveUnits g k n s)
  | 0, _, h => h
  | n + 1, _, h => by
    simp only [giveUnits]
    repeat' split
    · exact h
    · exact h
    · exact giveUnits_kept (n := n) (by simp (maxDischargeDepth := 60) [h])
@[simp] theorem giveWork_kept {a1} (h : Kept Q s) : Kept Q (giveWork a1 s) := by
  simp (maxDischargeDepth := 60) [giveWork, h]
@[simp] theorem advanceSheet_kept {a1} (h : Kept Q s) : Kept Q (advanceSheet a1 s) := by
  simp only [advanceSheet]; (repeat' split) <;> simp (maxDischargeDepth := 60) [h]
@[simp] theorem triggerFrame_kept {a1 a2 a3 a4 a5} (h : Kept Q s) : Kept Q (triggerFrame a1 a2 a3 a4 a5 s) := by
  unfold triggerFrame; (repeat' split) <;> simp (maxDischargeDepth := 60) [h]
@[simp] theorem slotFrame_kept {a1 a2 a3 a4} (h : Kept Q s) : Kept Q (slotFrame a1 a2 a3 a4 s) := by
  unfold slotFrame; (repeat' split) <;> simp (maxDischargeDepth := 60) [h]
@[simp] theorem cueFrameStart_kept {a1 a2 a3 a4} (h : Kept Q s) : Kept Q (cueFrameStart a1 a2 a3 a4 s) := by
  unfold cueFrameStart
  split
  · exact h
  · refine advanceSheet_kept (kept_foldl (fun s c h => ?_) _ h)
    split
    · exact h
    · split <;> simp (maxDischargeDepth := 60) [h]
@[simp] theorem cueFrameMoved_kept {a1} (h : Kept Q s) : Kept Q (cueFrameMoved a1 s) := by
  unfold cueFrameMoved; (repeat' split) <;> simp +contextual (maxDischargeDepth := 60) [h, kept_foldl, kept_ite, kept_elim]
@[simp] theorem abandon_kept {a1 a2 a3} (h : Kept Q s) : Kept Q (abandon a1 a2 a3 s) := by
  simp (maxDischargeDepth := 60) [abandon, h]
theorem execCueSlotMissing_kept {a1 a2 a3} (h : Kept Q s) : KeptR Q (execCueSlotMissing a1 a2 a3 s) := by
  unfold execCueSlotMissing; (repeat' split) <;> simp (maxDischargeDepth := 60) [h]
theorem execCueSetDeadline_kept {a1 a2} (h : Kept Q s) : KeptR Q (execCueSetDeadline a1 a2 s) := by
  unfold execCueSetDeadline; (repeat' split) <;> simp (maxDischargeDepth := 60) [h]
theorem execVisionBandDone_kept {a1 a2} (h : Kept Q s) : KeptR Q (execVisionBandDone a1 a2 s) := by
  unfold execVisionBandDone; (repeat' split) <;> simp (maxDischargeDepth := 60) [h]
theorem execVisionNodeDone_kept {a1 a2 a3 a4} (h : Kept Q s) : KeptR Q (execVisionNodeDone a1 a2 a3 a4 s) := by
  simp only [execVisionNodeDone]; (repeat' split) <;> simp (maxDischargeDepth := 60) [h]
theorem execCueExternalWaitMet_kept {a1 a2 a3} (h : Kept Q s) : KeptR Q (execCueExternalWaitMet a1 a2 a3 s) := by
  simp only [execCueExternalWaitMet]; (repeat' split) <;> simp (maxDischargeDepth := 60) [h]
@[simp] theorem writeFlag_kept {a1 a2 a3 a4} (h : Kept Q s) : Kept Q (writeFlag a1 a2 a3 a4 s) := by
  unfold writeFlag; (repeat' split) <;> simp (maxDischargeDepth := 60) [h]
@[simp] theorem sheetArg_kept {a1} : Fine (sheetArg a1 s) := by
  simp only [sheetArg]; (repeat' (first | with_reducible refine fine_bind ?_ (fun _ _ => ?_) | split)) <;> simp
@[simp] theorem bodyCueUnload_kept {c} (h : Kept Q s) : Sat (fun x => Kept Q x.1) (bodyCueUnload c s) := by
  simp only [bodyCueUnload]; (repeat' (first | with_reducible refine sat_bind ?_ (fun _ _ => ?_) | split)) <;> simp (maxDischargeDepth := 60) [h]
theorem execCueUnload_kept {a1 a2} (h : Kept Q s) : KeptR Q (execCueUnload a1 a2 s) := 
  serve_kept (fun _ => fine_ok) (fun _ => bodyCueUnload_kept h) h
@[simp] theorem bodyCueStart_kept {c} (h : Kept Q s) : Sat (fun x => Kept Q x.1) (bodyCueStart c s) := by
  simp only [bodyCueStart]
  refine sat_bind (by simp) fun _ _ => sat_bind (fine_mapM (fun _ => by simp) _) fun _ _ => sat_bind (by simp) fun _ _ => ?_
  repeat' split
  · simp
  · refine sat_bind (by simp) fun _ _ => sat_bind (by simp) fun _ _ => ?_
    simp (maxDischargeDepth := 60) [h]
  · simp
theorem execCueStart_kept {a1 a2} (h : Kept Q s) : KeptR Q (execCueStart a1 a2 s) := 
  serve_kept (fun _ => fine_ok) (fun _ => bodyCueStart_kept h) h
@[simp] theorem bodyCueStop_kept {c} (h : Kept Q s) : Sat (fun x => Kept Q x.1) (bodyCueStop c s) := by
  simp only [bodyCueStop]; (repeat' (first | with_reducible refine sat_bind ?_ (fun _ _ => ?_) | split)) <;> simp +contextual (maxDischargeDepth := 60) [h, kept_foldl, kept_ite, kept_elim]
theorem execCueStop_kept {a1 a2} (h : Kept Q s) : KeptR Q (execCueStop a1 a2 s) := 
  serve_kept (fun _ => fine_ok) (fun _ => bodyCueStop_kept h) h
@[simp] theorem stopDeadline_kept {a1} (h : Kept Q s) : Kept Q (stopDeadline a1 s) := by
  unfold stopDeadline; (repeat' split) <;> simp +contextual (maxDischargeDepth := 60) [h, kept_foldl, kept_ite, kept_elim]
@[simp] theorem bodyCueQuery_kept {c} (h : Kept Q s) : Sat (fun x => Kept Q x.1) (bodyCueQuery c s) := by
  simp only [bodyCueQuery]; (repeat' (first | with_reducible refine sat_bind ?_ (fun _ _ => ?_) | split)) <;> simp (maxDischargeDepth := 60) [h]
theorem execCueQuery_kept {a1 a2} (h : Kept Q s) : KeptR Q (execCueQuery a1 a2 s) := 
  serve_kept (fun _ => fine_ok) (fun _ => bodyCueQuery_kept h) h
@[simp] theorem bodyCueFlagRead_kept {c} (h : Kept Q s) : Sat (fun x => Kept Q x.1) (bodyCueFlagRead c s) := by
  simp only [bodyCueFlagRead]; (repeat' (first | with_reducible refine sat_bind ?_ (fun _ _ => ?_) | split)) <;> simp (maxDischargeDepth := 60) [h]
theorem execCueFlagRead_kept {a1 a2} (h : Kept Q s) : KeptR Q (execCueFlagRead a1 a2 s) := 
  serve_kept (fun _ => fine_ok) (fun _ => bodyCueFlagRead_kept h) h

/-! ### Frames -/

@[simp] theorem judgeEvent_kept {a1 a2 a3} (h : Kept Q s) : Kept Q (judgeEvent a1 a2 a3 s) := by
  unfold judgeEvent; (repeat' split) <;> simp (maxDischargeDepth := 60) [h]
@[simp] theorem startFrame_kept {a1 a2 a3 a4 a5 a6} (h : Kept Q s) : Kept Q (startFrame a1 a2 a3 a4 a5 a6 s) := by
  unfold startFrame; (repeat' split) <;> simp (maxDischargeDepth := 60) [h]
@[simp] theorem updFrame_kept {a1 a2} (h : Kept Q s) : Kept Q (updFrame a1 a2 s) := by
  simp (maxDischargeDepth := 60) [updFrame, h]
@[simp] theorem endFrame_kept {a1 a2} (h : Kept Q s) : Kept Q (endFrame a1 a2 s) := by
  unfold endFrame; (repeat' split) <;> simp (maxDischargeDepth := 60) [h]
theorem execCsiFrameStart_kept {a1 a2 a3} (h : Kept Q s) : KeptR Q (execCsiFrameStart a1 a2 a3 s) := by
  simp only [execCsiFrameStart]; (repeat' split) <;> simp (maxDischargeDepth := 60) [h]
theorem execCsiPacket_kept {a1 a2 a3} (h : Kept Q s) : KeptR Q (execCsiPacket a1 a2 a3 s) := by
  simp only [execCsiPacket]; (repeat' split) <;> simp (maxDischargeDepth := 60) [h]
theorem execCsiFrameEnd_kept {a1 a2} (h : Kept Q s) : KeptR Q (execCsiFrameEnd a1 a2 s) := by
  unfold execCsiFrameEnd; (repeat' split) <;> simp (maxDischargeDepth := 60) [h]
@[simp] theorem putData_kept {a1 a2 a3} (h : Kept Q s) : Kept Q (putData a1 a2 a3 s) := by
  simp (maxDischargeDepth := 60) [putData, h]
@[simp] theorem endData_kept {a1 a2} (h : Kept Q s) : Kept Q (endData a1 a2 s) := by
  simp (maxDischargeDepth := 60) [endData, h]
@[simp] theorem beginData_kept {a1 a2 a3 a4 a5 a6} (h : Kept Q s) : Kept Q (beginData a1 a2 a3 a4 a5 a6 s) := by
  simp only [beginData]; (repeat' split) <;> simp (maxDischargeDepth := 60) [h]
@[simp] theorem ethDrop_kept {a1 a2} (h : Kept Q s) : Kept Q (ethDrop a1 a2 s) := by
  simp (maxDischargeDepth := 60) [ethDrop, h]
@[simp] theorem gvspNoLeader_kept {a1 a2 a3} (h : Kept Q s) : Kept Q (gvspNoLeader a1 a2 a3 s) := by
  simp only [gvspNoLeader, draw]; (repeat' split) <;> simp (maxDischargeDepth := 60) [h]
@[simp] theorem gvspPacket_kept {a1 a2 a3} (h : Kept Q s) : Kept Q (gvspPacket a1 a2 a3 s) := by
  unfold gvspPacket; (repeat' split) <;> simp +contextual (maxDischargeDepth := 60) [h, kept_foldl, kept_ite, kept_elim]
@[simp] theorem ssfImage_kept {a1 a2 a3} (h : Kept Q s) : Kept Q (ssfImage a1 a2 a3 s) := by
  simp only [ssfImage]; (repeat' split) <;> simp +contextual (maxDischargeDepth := 60) [h, kept_foldl, kept_ite, kept_elim]
@[simp] theorem ssfLow_kept {a1 a2 a3} (h : Kept Q s) : Kept Q (ssfLow a1 a2 a3 s) := by
  unfold ssfLow; (repeat' split) <;> simp +contextual (maxDischargeDepth := 60) [h, kept_foldl, kept_ite, kept_elim]
@[simp] theorem ssfDatagram_kept {a1 a2 a3} (h : Kept Q s) : Kept Q (ssfDatagram a1 a2 a3 s) := by
  simp only [ssfDatagram]; (repeat' split) <;> simp (maxDischargeDepth := 60) [h]
@[simp] theorem netReply_kept {a1 a2} (h : Kept Q s) : Kept Q (netReply a1 a2 s) := by
  simp only [netReply]; (repeat' split) <;> simp (maxDischargeDepth := 60) [h]
@[simp] theorem udpDatagram_kept {a1 a2 a3 a4} (h : Kept Q s) : Kept Q (udpDatagram a1 a2 a3 a4 s) := by
  unfold udpDatagram; (repeat' split) <;> simp (maxDischargeDepth := 60) [h]
theorem execEthFrameReceived_kept {a1 a2} (h : Kept Q s) : KeptR Q (execEthFrameReceived a1 a2 s) := by
  unfold execEthFrameReceived; (repeat' split) <;> simp (maxDischargeDepth := 60) [h]

end Sys2Proof.Machine
end

