-- ==== Sys2Proof/Laws/KeptTiles.lean ====
section
/-! SUPPORT. What is kept (Laws/Kept.lean) by allocations, packages, instances and tiles. -/
namespace Sys2Proof.Machine
set_option Elab.async false
set_option linter.unusedSimpArgs false
variable {Q : List Instr} {s t : State}

/-! ### Memory -/

@[simp] theorem write_ok {a : Alloc} {o : Nat} {bs : List Byte} (h : MemOk Q a.mem) : MemOk Q (a.write o bs).mem := by
  simp [Alloc.write, h]

@[simp] theorem updAlloc_kept {n : Nat} {f : Alloc → Alloc} (hf : ∀ a, MemOk Q a.mem → MemOk Q (f a).mem) (h : Kept Q s) :
    Kept Q (updAlloc n f s) := by
  simp (maxDischargeDepth := 60) [updAlloc, h, allocsOk_updIf hf]
@[simp] theorem updAlloc_write_kept {n o : Nat} {bs : List Byte} (h : Kept Q s) : Kept Q (updAlloc n (Alloc.write o bs) s) :=
  updAlloc_kept (fun _ h => write_ok h) h
@[simp] theorem poisonMet_kept {a1 a2} (h : Kept Q s) : Kept Q (poisonMet a1 a2 s) := by
  simp (maxDischargeDepth := 60) [poisonMet, h]
@[simp] theorem fxKept_poisonMet {a1 a2} : FxKept (poisonMet a1 a2) := ⟨fun _ _ h => poisonMet_kept h⟩
@[simp] theorem objectPoison_kept {a1 a2 a3} (h : Kept Q s) : Kept Q (objectPoison a1 a2 a3 s) := by
  simp (maxDischargeDepth := 60) [objectPoison, h]
@[simp] theorem fxKept_objectPoison {a1 a2 a3} : FxKept (objectPoison a1 a2 a3) := ⟨fun _ _ h => objectPoison_kept h⟩
@[simp] theorem pairMet_kept {a1 a2} (h : Kept Q s) : Kept Q (pairMet a1 a2 s) := by
  simp (maxDischargeDepth := 60) [pairMet, h]
@[simp] theorem fxKept_pairMet {a1 a2} : FxKept (pairMet a1 a2) := ⟨fun _ _ h => pairMet_kept h⟩
@[simp] theorem allocRead_kept {a1 a2 a3} : Fine (allocRead a1 a2 a3 s) := by
  simp only [allocRead]; (repeat' (first | with_reducible refine fine_bind ?_ (fun _ _ => ?_) | split)) <;> simp
@[simp] theorem placeAlloc_kept {a1 a2} (h : Kept Q s) : Kept Q (placeAlloc a1 a2 s).2.2 := by
  simp only [placeAlloc, draw]; (repeat' split) <;> simp (maxDischargeDepth := 60) [h]
@[irreducible] def placeAllocA := fun a1 a2 s => (placeAlloc a1 a2 s).1
@[irreducible] def placeAllocB := fun a1 a2 s => (placeAlloc a1 a2 s).2.1
@[irreducible] def placeAllocS := fun a1 a2 s => (placeAlloc a1 a2 s).2.2
theorem placeAlloc_pair {a1 a2} : placeAlloc a1 a2 s = (placeAllocA a1 a2 s, placeAllocB a1 a2 s, placeAllocS a1 a2 s) := by
  simp only [placeAllocA, placeAllocB, placeAllocS]
@[simp] theorem placeAllocS_kept {a1 a2} (h : Kept Q s) : Kept Q (placeAllocS a1 a2 s) := by
  unfold placeAllocS; exact placeAlloc_kept h
@[simp] theorem bodyMemAlloc_kept {c} (h : Kept Q s) : Sat (fun x => Kept Q x.1) (bodyMemAlloc c s) := by
  simp only [bodyMemAlloc, newObj_pair, placeAlloc_pair]; (repeat' (first | with_reducible refine sat_bind ?_ (fun _ _ => ?_) | split)) <;> simp (maxDischargeDepth := 60) [h]
theorem execMemAlloc_kept {a1 a2} (h : Kept Q s) : KeptR Q (execMemAlloc a1 a2 s) := 
  serve_kept (fun _ => fine_ok) (fun _ => bodyMemAlloc_kept h) h
@[simp] theorem allocArg_kept {a1} : Fine (allocArg a1 s) := by
  simp only [allocArg]; (repeat' (first | with_reducible refine fine_bind ?_ (fun _ _ => ?_) | split)) <;> simp
@[simp] theorem bodyMemFree_kept {c} (h : Kept Q s) : Sat (fun x => Kept Q x.1) (bodyMemFree c s) := by
  simp only [bodyMemFree]; (repeat' (first | with_reducible refine sat_bind ?_ (fun _ _ => ?_) | split)) <;> simp (maxDischargeDepth := 60) [h]
theorem execMemFree_kept {a1 a2} (h : Kept Q s) : KeptR Q (execMemFree a1 a2 s) := 
  serve_kept (fun _ => fine_ok) (fun _ => bodyMemFree_kept h) h
@[simp] theorem copyIn_kept {a1 a2} (h : Kept Q s) : Kept Q (copyIn a1 a2 s).1 := by
  simp only [copyIn]; (repeat' split) <;> simp (maxDischargeDepth := 60) [h]
@[irreducible] def copyInS := fun a1 a2 s => (copyIn a1 a2 s).1
@[irreducible] def copyInB := fun a1 a2 s => (copyIn a1 a2 s).2
theorem copyIn_pair {a1 a2} : copyIn a1 a2 s = (copyInS a1 a2 s, copyInB a1 a2 s) := by
  simp only [copyInS, copyInB]
@[simp] theorem copyInS_kept {a1 a2} (h : Kept Q s) : Kept Q (copyInS a1 a2 s) := by
  unfold copyInS; exact copyIn_kept h
@[simp] theorem copyOut_kept {a1 a2} (h : Kept Q s) : Kept Q (copyOut a1 a2 s).1 := by
  simp only [copyOut]; (repeat' split) <;> simp (maxDischargeDepth := 60) [h]
@[irreducible] def copyOutS := fun a1 a2 s => (copyOut a1 a2 s).1
@[irreducible] def copyOutB := fun a1 a2 s => (copyOut a1 a2 s).2
theorem copyOut_pair {a1 a2} : copyOut a1 a2 s = (copyOutS a1 a2 s, copyOutB a1 a2 s) := by
  simp only [copyOutS, copyOutB]
@[simp] theorem copyOutS_kept {a1 a2} (h : Kept Q s) : Kept Q (copyOutS a1 a2 s) := by
  unfold copyOutS; exact copyOut_kept h
@[simp] theorem bodyMemCopy_kept {c} (h : Kept Q s) : Sat (fun x => Kept Q x.1) (bodyMemCopy c s) := by
  simp only [bodyMemCopy, copyIn_pair, copyOut_pair]; (repeat' (first | with_reducible refine sat_bind ?_ (fun _ _ => ?_) | split)) <;> simp (maxDischargeDepth := 60) [h]
theorem execMemCopy_kept {a1 a2} (h : Kept Q s) : KeptR Q (execMemCopy a1 a2 s) := 
  serve_kept (fun _ => fine_ok) (fun _ => bodyMemCopy_kept h) h
@[simp] theorem bodyMemSeal_kept {c} (h : Kept Q s) : Sat (fun x => Kept Q x.1) (bodyMemSeal c s) := by
  simp only [bodyMemSeal, draw]; (repeat' (first | with_reducible refine sat_bind ?_ (fun _ _ => ?_) | split)) <;> simp (maxDischargeDepth := 60) [h]
theorem execMemSeal_kept {a1 a2} (h : Kept Q s) : KeptR Q (execMemSeal a1 a2 s) := 
  serve_kept (fun _ => fine_ok) (fun _ => bodyMemSeal_kept h) h
@[simp] theorem windowChoice_kept {a1} (h : Kept Q s) : Kept Q (windowChoice a1 s).2 := by
  simp (maxDischargeDepth := 60) [windowChoice, h]
@[irreducible] def windowChoiceA := fun a1 s => (windowChoice a1 s).1
@[irreducible] def windowChoiceS := fun a1 s => (windowChoice a1 s).2
theorem windowChoice_pair {a1} : windowChoice a1 s = (windowChoiceA a1 s, windowChoiceS a1 s) := by
  simp only [windowChoiceA, windowChoiceS]
@[simp] theorem windowChoiceS_kept {a1} (h : Kept Q s) : Kept Q (windowChoiceS a1 s) := by
  unfold windowChoiceS; exact windowChoice_kept h
@[simp] theorem bodyMemMapBar4_kept {c} (h : Kept Q s) : Sat (fun x => Kept Q x.1) (bodyMemMapBar4 c s) := by
  simp only [bodyMemMapBar4]
  refine sat_bind (by simp) fun a _ => sat_bind (by simp) fun _ _ => ?_
  split
  · split
    · next p s' e =>
      have h' : Kept Q s' := by
        have := windowChoice_kept (a1 := pagesOf a) h
        rw [e] at this; exact this
      simp (maxDischargeDepth := 60) [h']
    · simp
  · exact sat_bind (by simp) fun _ _ => by simp (maxDischargeDepth := 60) [h]
theorem execMemMapBar4_kept {a1 a2} (h : Kept Q s) : KeptR Q (execMemMapBar4 a1 a2 s) := 
  serve_kept (fun _ => fine_ok) (fun _ => bodyMemMapBar4_kept h) h
@[simp] theorem bodyMemUnmapBar4_kept {c} (h : Kept Q s) : Sat (fun x => Kept Q x.1) (bodyMemUnmapBar4 c s) := by
  simp only [bodyMemUnmapBar4]; (repeat' (first | with_reducible refine sat_bind ?_ (fun _ _ => ?_) | split)) <;> simp (maxDischargeDepth := 60) [h]
theorem execMemUnmapBar4_kept {a1 a2} (h : Kept Q s) : KeptR Q (execMemUnmapBar4 a1 a2 s) := 
  serve_kept (fun _ => fine_ok) (fun _ => bodyMemUnmapBar4_kept h) h
@[simp] theorem bar4Miss_kept (h : Kept Q s) : Kept Q (bar4Miss s) := by
  simp (maxDischargeDepth := 60) [bar4Miss, h]
theorem execBar4Access_kept {a1 a2} (h : Kept Q s) : KeptR Q (execBar4Access a1 a2 s) := by
  unfold execBar4Access
  refine ended_kept ?_
  split
  · exact h
  · split
    · split
      · simp (maxDischargeDepth := 60) [h]
      · split <;> simp (maxDischargeDepth := 60) [h]
    · split <;> simp (maxDischargeDepth := 60) +contextual [h]
theorem execBar4MissRead_kept (h : Kept Q s) : KeptR Q (execBar4MissRead s) := by
  unfold execBar4MissRead; (repeat' split) <;> simp (maxDischargeDepth := 60) [h]
@[simp] theorem bodyMemQuotaSet_kept {c} (h : Kept Q s) : Sat (fun x => Kept Q x.1) (bodyMemQuotaSet c s) := by
  simp only [bodyMemQuotaSet]; (repeat' (first | with_reducible refine sat_bind ?_ (fun _ _ => ?_) | split)) <;> simp (maxDischargeDepth := 60) [h]
theorem execMemQuotaSet_kept {a1 a2} (h : Kept Q s) : KeptR Q (execMemQuotaSet a1 a2 s) := 
  serve_kept (fun _ => fine_ok) (fun _ => bodyMemQuotaSet_kept h) h
@[simp] theorem bodyMemQuotaQuery_kept {c} (h : Kept Q s) : Sat (fun x => Kept Q x.1) (bodyMemQuotaQuery c s) := by
  simp only [bodyMemQuotaQuery]; (repeat' (first | with_reducible refine sat_bind ?_ (fun _ _ => ?_) | split)) <;> simp (maxDischargeDepth := 60) [h]
theorem execMemQuotaQuery_kept {a1 a2} (h : Kept Q s) : KeptR Q (execMemQuotaQuery a1 a2 s) := 
  serve_kept (fun _ => fine_ok) (fun _ => bodyMemQuotaQuery_kept h) h
@[simp] theorem bodyMemStats_kept {c} (h : Kept Q s) : Sat (fun x => Kept Q x.1) (bodyMemStats c s) := by
  simp only [bodyMemStats]; (repeat' (first | with_reducible refine sat_bind ?_ (fun _ _ => ?_) | split)) <;> simp (maxDischargeDepth := 60) [h]
theorem execMemStats_kept {a1 a2} (h : Kept Q s) : KeptR Q (execMemStats a1 a2 s) := 
  serve_kept (fun _ => fine_ok) (fun _ => bodyMemStats_kept h) h
@[simp] theorem moveAlloc_kept {a1 a2} (h : Kept Q s) : Kept Q (moveAlloc a1 a2 s) := by
  simp only [moveAlloc]; (repeat' split) <;> simp (maxDischargeDepth := 60) [h]
theorem execAllocMove_kept {a1} (h : Kept Q s) : KeptR Q (execAllocMove a1 s) := by
  unfold execAllocMove; (repeat' split) <;> simp (maxDischargeDepth := 60) [h]

/-! ### Sched -/

@[simp] theorem checkSched_kept {a1} : Fine (checkSched a1) := by
  simp only [checkSched]; (repeat' (first | with_reducible refine fine_bind ?_ (fun _ _ => ?_) | split)) <;> simp

/-! ### Blocks -/

@[simp] theorem quarantineBytes_kept {a1} (h : Kept Q s) : Kept Q (quarantineBytes a1 s) := by
  simp (maxDischargeDepth := 60) [quarantineBytes, h]
@[simp] theorem refillPool_kept (h : Kept Q s) : Kept Q (refillPool s) := by
  unfold refillPool; (repeat' split) <;> simp (maxDischargeDepth := 60) [h]
theorem takeGranule_kept (h : Kept Q s) (e : takeGranule s = some t) : Kept Q t := by
  simp only [takeGranule] at e; (repeat' split at e) <;> simp at e <;> (try subst e) <;> simp (maxDischargeDepth := 60) [h]
@[simp] theorem updPkg_kept {a1 a2} (h : Kept Q s) : Kept Q (updPkg a1 a2 s) := by
  simp (maxDischargeDepth := 60) [updPkg, h]
@[simp] theorem startRefetch_kept {a1} (h : Kept Q s) : Kept Q (startRefetch a1 s) := by
  simp (maxDischargeDepth := 60) [startRefetch, h]
@[simp] theorem quarantine_kept {a1 a2} (h : Kept Q s) : Kept Q (quarantine a1 a2 s) := by
  simp only [quarantine, draw]; (repeat' split) <;> simp (maxDischargeDepth := 60) [h]

/-! ### Package -/

@[simp] theorem checkPkg_kept {a1} : Fine (checkPkg a1) := by
  simp only [checkPkg]; (repeat' (first | with_reducible refine fine_bind ?_ (fun _ _ => ?_) | split)) <;> simp
@[simp] theorem pkgFit_kept {a1 a2} : Fine (pkgFit a1 a2 s) := by
  simp only [pkgFit]; (repeat' (first | with_reducible refine fine_bind ?_ (fun _ _ => ?_) | split)) <;> simp
@[simp] theorem bodyPkgLoad_kept {c} (h : Kept Q s) : Sat (fun x => Kept Q x.1) (bodyPkgLoad c s) := by
  simp only [bodyPkgLoad, newObj_pair]; (repeat' (first | with_reducible refine sat_bind ?_ (fun _ _ => ?_) | split)) <;> simp (maxDischargeDepth := 60) [h]
theorem execPkgLoad_kept {a1 a2} (h : Kept Q s) : KeptR Q (execPkgLoad a1 a2 s) := 
  serve_kept (fun _ => fine_ok) (fun _ => bodyPkgLoad_kept h) h
@[simp] theorem pkgArg_kept {a1} : Fine (pkgArg a1 s) := by
  simp only [pkgArg]; (repeat' (first | with_reducible refine fine_bind ?_ (fun _ _ => ?_) | split)) <;> simp
@[simp] theorem bodyPkgUnload_kept {c} (h : Kept Q s) : Sat (fun x => Kept Q x.1) (bodyPkgUnload c s) := by
  simp only [bodyPkgUnload]; (repeat' (first | with_reducible refine sat_bind ?_ (fun _ _ => ?_) | split)) <;> simp (maxDischargeDepth := 60) [h]
theorem execPkgUnload_kept {a1 a2} (h : Kept Q s) : KeptR Q (execPkgUnload a1 a2 s) := 
  serve_kept (fun _ => fine_ok) (fun _ => bodyPkgUnload_kept h) h
@[simp] theorem bodyPkgQuery_kept {c} (h : Kept Q s) : Sat (fun x => Kept Q x.1) (bodyPkgQuery c s) := by
  simp only [bodyPkgQuery]; (repeat' (first | with_reducible refine sat_bind ?_ (fun _ _ => ?_) | split)) <;> simp (maxDischargeDepth := 60) [h]
theorem execPkgQuery_kept {a1 a2} (h : Kept Q s) : KeptR Q (execPkgQuery a1 a2 s) := 
  serve_kept (fun _ => fine_ok) (fun _ => bodyPkgQuery_kept h) h

/-! ### Tile -/

@[simp] theorem updInst_kept {n : Nat} {f : Inst → Inst} (hf : ∀ a, MemOk Q a.mem → MemOk Q (f a).mem) (h : Kept Q s) :
    Kept Q (updInst n f s) := by
  simp (maxDischargeDepth := 60) [updInst, h, instsOk_updIf hf]
@[simp] theorem updHead_kept {a1 a2} (h : Kept Q s) : Kept Q (updHead a1 a2 s) := by
  simp (maxDischargeDepth := 60) [updHead, h]
@[simp] theorem updRun_kept {a1 a2 a3} (h : Kept Q s) : Kept Q (updRun a1 a2 a3 s) := by
  simp (maxDischargeDepth := 60) [updRun, h]
@[simp] theorem putTile_kept {a1} (h : Kept Q s) : Kept Q (putTile a1 s) := by
  simp (maxDischargeDepth := 60) [putTile, h]
@[simp] theorem putPool_kept {a1 a2} (h : Kept Q s) : Kept Q (putPool a1 a2 s) := by
  simp (maxDischargeDepth := 60) [putPool, h]
@[simp] theorem placeTasks_kept {c : Nat} : ∀ {n : Nat} {s : State}, Kept Q s → Kept Q (placeTasks c n s)
  | 0, _, h => h
  | n + 1, _, h => by
    simp only [placeTasks]
    split
    · exact placeTasks_kept (n := n) (by simp (maxDischargeDepth := 60) [h])
    · exact h
@[simp] theorem startTask_kept {a1 a2} (h : Kept Q s) : Kept Q (startTask a1 a2 s) := by
  simp (maxDischargeDepth := 60) [startTask, h]
@[simp] theorem takeTask_kept {a1} (h : Kept Q s) : Kept Q (takeTask a1 s) := by
  simp only [takeTask]; (repeat' split) <;> simp (maxDischargeDepth := 60) [h]
@[simp] theorem pump_kept {a1} (h : Kept Q s) : Kept Q (pump a1 s) := by
  unfold pump
  exact placeTasks_kept (kept_foldl (fun _ _ h => takeTask_kept h) _ (placeTasks_kept h))
@[simp] theorem releaseTasks_kept {a1} (h : Kept Q s) : Kept Q (releaseTasks a1 s) := by
  simp only [releaseTasks]; (repeat' split) <;> simp (maxDischargeDepth := 60) [h]
@[simp] theorem releaseAllTasks_kept (h : Kept Q s) : Kept Q (releaseAllTasks s) := by
  unfold releaseAllTasks
  exact kept_foldl (fun _ _ h => releaseTasks_kept h) _ h
@[simp] theorem pumpAll_kept (h : Kept Q s) : Kept Q (pumpAll s) := by
  unfold pumpAll
  exact releaseAllTasks_kept (kept_foldl (fun _ _ h => takeTask_kept h) _ (kept_foldl (fun _ _ h => pump_kept h) _ h))
@[simp] theorem signalPort_kept {a1 a2 a3 a4 a5} (h : Kept Q s) : Kept Q (signalPort a1 a2 a3 a4 a5 s) := by
  unfold signalPort; (repeat' split) <;> simp (maxDischargeDepth := 60) [h]
@[simp] theorem signalRest_kept {a1 a2 a3} (h : Kept Q s) : Kept Q (signalRest a1 a2 a3 s) := by
  unfold signalRest
  exact kept_foldl (fun _ _ h => by split <;> simp (maxDischargeDepth := 60) [h]) _ h
@[simp] theorem releaseInputs_kept {a1 a2} (h : Kept Q s) : Kept Q (releaseInputs a1 a2 s) := by
  unfold releaseInputs
  exact kept_foldl (fun _ _ h => by
    split
    · split <;> simp (maxDischargeDepth := 60) [h]
    · exact h) _ h
@[simp] theorem fillSlots_kept {a1} (h : Kept Q s) : Kept Q (fillSlots a1 s) := by
  unfold fillSlots; (repeat' split) <;> simp (maxDischargeDepth := 60) [h]
@[simp] theorem stopStalled_kept {a1} (h : Kept Q s) : Kept Q (stopStalled a1 s) := by
  simp (maxDischargeDepth := 60) [stopStalled, h]
@[simp] theorem endRun_kept {a1 a2 a3} (h : Kept Q s) : Kept Q (endRun a1 a2 a3 s) := by
  unfold endRun
  split
  · exact h
  · extract_lets st s1 s2 s3 s4
    have h1 : Kept Q s1 := by simp only [s1]; split <;> simp (maxDischargeDepth := 60) [h]
    have h2 : Kept Q s2 := releaseInputs_kept h1
    have h3 : Kept Q s3 := stopStalled_kept (withdrawTasks_kept h2)
    have h4 : Kept Q s4 := fillSlots_kept (updInst_kept (fun a ha => by simpa [countRun] using ha) h3)
    simp (maxDischargeDepth := 60) [h4]
@[simp] theorem endHead_kept {a1 a2} (h : Kept Q s) : Kept Q (endHead a1 a2 s) := by
  simp only [endHead]; (repeat' split) <;> simp_all (maxDischargeDepth := 60)
@[simp] theorem toTasks_kept {a1} (h : Kept Q s) : Kept Q (toTasks a1 s) := by
  simp only [toTasks, draw]; (repeat' split) <;> simp (maxDischargeDepth := 60) [h]
@[simp] theorem trySlot_kept {a1} (h : Kept Q s) : Kept Q (trySlot a1 s) := by
  simp only [trySlot]; (repeat' split) <;> simp (maxDischargeDepth := 60) [h]
@[simp] theorem tryFlag_kept {a1} (h : Kept Q s) : Kept Q (tryFlag a1 s) := by
  simp only [tryFlag]; (repeat' split) <;> simp (maxDischargeDepth := 60) [h]
@[simp] theorem startRun_kept {a1} (h : Kept Q s) : Kept Q (startRun a1 s) := by
  unfold startRun; (repeat' split) <;> simp (maxDischargeDepth := 60) [h]
@[simp] theorem kick_kept {i : Nat} : ∀ {n : Nat} {s : State}, Kept Q s → Kept Q (kick i n s)
  | 0, _, h => h
  | n + 1, _, h => by
    simp only [kick]
    split
    · exact kick_kept (n := n) (endRun_kept h)
    · split
      · split
        · exact kick_kept (n := n) (startRun_kept h)
        · exact h
      · exact h
@[simp] theorem advanceInst_kept {a1} (h : Kept Q s) : Kept Q (advanceInst a1 s) := by
  simp (maxDischargeDepth := 60) [advanceInst, h]
@[simp] theorem layerDone_kept {a1} (h : Kept Q s) : Kept Q (layerDone a1 s) := by
  simp only [layerDone]; (repeat' split) <;> simp (maxDischargeDepth := 60) [h]
@[simp] theorem taskWrite_kept {a1 a2} (h : Kept Q s) : Kept Q (taskWrite a1 a2 s).2 := by
  simp only [taskWrite]; (repeat' split) <;> simp_all (maxDischargeDepth := 60)
@[irreducible] def taskWriteA := fun a1 a2 s => (taskWrite a1 a2 s).1
@[irreducible] def taskWriteS := fun a1 a2 s => (taskWrite a1 a2 s).2
theorem taskWrite_pair {a1 a2} : taskWrite a1 a2 s = (taskWriteA a1 a2 s, taskWriteS a1 a2 s) := by
  simp only [taskWriteA, taskWriteS]
@[simp] theorem taskWriteS_kept {a1 a2} (h : Kept Q s) : Kept Q (taskWriteS a1 a2 s) := by
  unfold taskWriteS; exact taskWrite_kept h
@[simp] theorem taskWrites_kept {a1 a2} (h : Kept Q s) : Kept Q (taskWrites a1 a2 s).2 := by
  unfold taskWrites
  have key : ∀ (l : List TileWrite) (p : Nat × State), Kept Q p.2 → Kept Q (l.foldl (fun (st, s) w =>
      let (e, s) := taskWrite a1 w s
      (if st = stOk then e else st, s)) p).2 := by
    intro l
    induction l with
    | nil => exact fun _ h => h
    | cons w l ih => exact fun p hp => ih _ (taskWrite_kept (a1 := a1) (a2 := w) hp)
  exact key _ (stOk, s) h
@[irreducible] def taskWritesA := fun a1 a2 s => (taskWrites a1 a2 s).1
@[irreducible] def taskWritesS := fun a1 a2 s => (taskWrites a1 a2 s).2
theorem taskWrites_pair {a1 a2} : taskWrites a1 a2 s = (taskWritesA a1 a2 s, taskWritesS a1 a2 s) := by
  simp only [taskWritesA, taskWritesS]
@[simp] theorem taskWritesS_kept {a1 a2} (h : Kept Q s) : Kept Q (taskWritesS a1 a2 s) := by
  unfold taskWritesS; exact taskWrites_kept h
@[simp] theorem tileMediaError_kept {a1 a2 a3 a4} (h : Kept Q s) : Kept Q (tileMediaError a1 a2 a3 a4 s) := by
  unfold tileMediaError; (repeat' split) <;> simp (maxDischargeDepth := 60) [h]
@[simp] theorem endTaskRun_kept {a1 a2} (h : Kept Q s) : Kept Q (endTaskRun a1 a2 s) := by
  unfold endTaskRun; (repeat' split) <;> simp (maxDischargeDepth := 60) [h]
@[simp] theorem freeTile_kept {a1} (h : Kept Q s) : Kept Q (freeTile a1 s) := by
  simp (maxDischargeDepth := 60) [freeTile, h]
@[simp] theorem endLayer_kept {a1 a2} (h : Kept Q s) : Kept Q (endLayer a1 a2 s) := by
  unfold endLayer; (repeat' split) <;> simp (maxDischargeDepth := 60) [h]
theorem execTaskComplete_kept {a1 a2} (h : Kept Q s) : KeptR Q (execTaskComplete a1 a2 s) := by
  simp only [execTaskComplete, taskWrites_pair]; (repeat' split) <;> simp +contextual (maxDischargeDepth := 60) [h, kept_foldl, kept_ite, kept_elim]
theorem execTileFlagWrite_kept {a1 a2 a3 a4 a6 a7} (h : Kept Q s) : KeptR Q (execTileFlagWrite a1 a2 a3 a4 s a6 a7) := by
  simp only [execTileFlagWrite, taskWrites_pair]; (repeat' split) <;> simp (maxDischargeDepth := 60) [h]
theorem execTaskWatchdog_kept {a1} (h : Kept Q s) : KeptR Q (execTaskWatchdog a1 s) := by
  simp only [execTaskWatchdog]; (repeat' split) <;> simp (maxDischargeDepth := 60) [h]
theorem execTileSteal_kept {a1} (h : Kept Q s) : KeptR Q (execTileSteal a1 s) := by
  simp only [execTileSteal]; (repeat' split) <;> simp (maxDischargeDepth := 60) [h]
@[simp] theorem unstall_kept {a1 a2} (h : Kept Q s) : Kept Q (unstall a1 a2 s) := by
  simp (maxDischargeDepth := 60) [unstall, h]
@[simp] theorem quarantineRead_kept {a1 a2} (h : Kept Q s) : Kept Q (quarantineRead a1 a2 s) := by
  unfold quarantineRead; (repeat' split) <;> simp +contextual (maxDischargeDepth := 60) [h, kept_foldl, kept_ite, kept_elim]
@[simp] theorem blockFault_kept {a1 a2} (h : Kept Q s) : Kept Q (blockFault a1 a2 s) := by
  simp (maxDischargeDepth := 60) [blockFault, h]
theorem execWeightLanded_kept {a1 a2 a4} (h : Kept Q s) : KeptR Q (execWeightLanded a1 a2 s a4) := by
  simp only [execWeightLanded]; (repeat' split) <;> simp (maxDischargeDepth := 60) [h]
@[simp] theorem stopLate_kept {a1 a2} (h : Kept Q s) : Kept Q (stopLate a1 a2 s) := by
  unfold stopLate
  split
  · exact h
  · dsimp only
    exact ⟨h.pending, h.request, h.data, h.allocs, instsOk_updIf (fun _ ha => ha) h.insts⟩
theorem execLateWeightExpiry_kept {a1} (h : Kept Q s) : KeptR Q (execLateWeightExpiry a1 s) := by
  unfold execLateWeightExpiry; (repeat' split) <;> simp (maxDischargeDepth := 60) [h]
theorem execWeightTimeout_kept {a1} (h : Kept Q s) : KeptR Q (execWeightTimeout a1 s) := by
  unfold execWeightTimeout; (repeat' split) <;> simp (maxDischargeDepth := 60) [h]
theorem execFlagWaitMet_kept {a1} (h : Kept Q s) : KeptR Q (execFlagWaitMet a1 s) := by
  unfold execFlagWaitMet; (repeat' split) <;> simp (maxDischargeDepth := 60) [h]
theorem execFlagWaitExpiry_kept {a1} (h : Kept Q s) : KeptR Q (execFlagWaitExpiry a1 s) := by
  simp only [execFlagWaitExpiry]; (repeat' split) <;> simp (maxDischargeDepth := 60) [h]
@[simp] theorem checkBinds_kept {c : Ctx} : ∀ {l : List (PortRec × (Nat × Nat × Bool))} {i : Nat}, Fine (checkBinds c s l i)
  | [], _ => fine_ok
  | (p, hd, buf, rsv) :: rest, i => by
    simp only [checkBinds]
    refine fine_bind (by simp) fun _ _ => fine_bind (by simp) fun _ _ => fine_bind (by simp) fun _ _ =>
      fine_bind (by simp) fun _ _ => ?_
    split
    · exact fun f h => by cases h; exact fxKept_id
    · exact fine_bind (checkBinds_kept (l := rest)) fun _ _ => fine_ok
@[simp] theorem bodyInstCreate_kept {c} (h : Kept Q s) : Sat (fun x => Kept Q x.1) (bodyInstCreate c s) := by
  simp only [bodyInstCreate, newObj_pair]; (repeat' (first | with_reducible refine sat_bind ?_ (fun _ _ => ?_) | split)) <;> simp (maxDischargeDepth := 60) [h]
theorem execInstCreate_kept {a1 a2} (h : Kept Q s) : KeptR Q (execInstCreate a1 a2 s) := 
  serve_kept (fun _ => by simp only [iInstCreate]; (repeat' (first | with_reducible refine fine_bind ?_ (fun _ _ => ?_) | split)) <;> simp) (fun _ => bodyInstCreate_kept h) h
@[simp] theorem instArg_kept {a1} : Fine (instArg a1 s) := by
  simp only [instArg]; (repeat' (first | with_reducible refine fine_bind ?_ (fun _ _ => ?_) | split)) <;> simp
@[simp] theorem abortQueued_kept {a1} (h : Kept Q s) : Kept Q (abortQueued a1 s).2 := by
  unfold abortQueued
  exact kept_foldl (fun _ _ h => endRun_kept h) _ h
@[irreducible] def abortQueuedA := fun a1 s => (abortQueued a1 s).1
@[irreducible] def abortQueuedS := fun a1 s => (abortQueued a1 s).2
theorem abortQueued_pair {a1} : abortQueued a1 s = (abortQueuedA a1 s, abortQueuedS a1 s) := by
  simp only [abortQueuedA, abortQueuedS]
@[simp] theorem abortQueuedS_kept {a1} (h : Kept Q s) : Kept Q (abortQueuedS a1 s) := by
  unfold abortQueuedS; exact abortQueued_kept h
@[simp] theorem bodyInstDestroy_kept {c} (h : Kept Q s) : Sat (fun x => Kept Q x.1) (bodyInstDestroy c s) := by
  simp only [bodyInstDestroy, abortQueued_pair]
  refine sat_bind (by simp) fun x _ => sat_bind (releaseBody_kept h).fine fun p e => ?_
  exact updInst_kept (fun _ h => h) (abortQueuedS_kept ((releaseBody_kept h).kept e))
theorem execInstDestroy_kept {a1 a2} (h : Kept Q s) : KeptR Q (execInstDestroy a1 a2 s) := 
  serve_kept (fun _ => fine_ok) (fun _ => bodyInstDestroy_kept h) h
@[simp] theorem bodyInferRun_kept {c} (h : Kept Q s) : Sat (fun x => Kept Q x.1) (bodyInferRun c s) := by
  simp only [bodyInferRun]
  refine sat_bind (by simp) fun _ _ => ?_
  split
  · refine sat_bind (by simp) fun _ _ => sat_bind (by simp) fun _ _ => ?_
    exact pumpAll_kept (kick_kept (fillSlots_kept (updInst_kept (fun _ h => h) (markRunning_kept (by simp [h])))))
  · simp
theorem execInferRun_kept {a1 a2} (h : Kept Q s) : KeptR Q (execInferRun a1 a2 s) := 
  serve_kept (fun _ => fine_ok) (fun _ => bodyInferRun_kept h) h
@[simp] theorem bodyInstQuery_kept {c} (h : Kept Q s) : Sat (fun x => Kept Q x.1) (bodyInstQuery c s) := by
  simp only [bodyInstQuery]
  exact sat_bind (by simp) fun _ _ => h
theorem execInstQuery_kept {a1 a2} (h : Kept Q s) : KeptR Q (execInstQuery a1 a2 s) := 
  serve_kept (fun _ => fine_ok) (fun _ => bodyInstQuery_kept h) h
@[simp] theorem cancelRun_kept {a1 a2} (h : Kept Q s) : Kept Q (cancelRun a1 a2 s) := by
  simp only [cancelRun]; (repeat' split) <;> simp_all (maxDischargeDepth := 60)

end Sys2Proof.Machine
end

