-- ==== Sys2Proof/Laws/KeptSolver.lean ====
section
/-! SUPPORT. What is kept (Laws/Kept.lean) by the solver, fusion and the journal. -/
namespace Sys2Proof.Machine
set_option Elab.async false
set_option linter.unusedSimpArgs false
variable {Q : List Instr} {s t : State}

/-! ### Solver -/

@[simp] theorem updProb_kept {a1 a2} (h : Kept Q s) : Kept Q (updProb a1 a2 s) := by
  simp (maxDischargeDepth := 60) [updProb, h]
@[simp] theorem placeGsus_kept {a1} : Fine (placeGsus a1 s) := by
  simp only [placeGsus]; (repeat' (first | with_reducible refine fine_bind ?_ (fun _ _ => ?_) | split)) <;> simp
@[simp] theorem holdClaim_kept {a1 a2} (h : Kept Q s) : Kept Q (holdClaim a1 a2 s) := by
  simp (maxDischargeDepth := 60) [holdClaim, h]
@[simp] theorem bodySolvLoad_kept {c} (h : Kept Q s) : Sat (fun x => Kept Q x.1) (bodySolvLoad c s) := by
  simp only [bodySolvLoad, draw, newObj_pair]; (repeat' (first | with_reducible refine sat_bind ?_ (fun _ _ => ?_) | split)) <;> simp (maxDischargeDepth := 60) [h]
theorem execSolvLoad_kept {a1 a2} (h : Kept Q s) : KeptR Q (execSolvLoad a1 a2 s) := 
  serve_kept (fun _ => by simp only [iSolvLoad]; (repeat' (first | with_reducible refine fine_bind ?_ (fun _ _ => ?_) | split)) <;> simp) (fun _ => bodySolvLoad_kept h) h
@[simp] theorem probArg_kept {a1} : Fine (probArg a1 s) := by
  simp only [probArg]; (repeat' (first | with_reducible refine fine_bind ?_ (fun _ _ => ?_) | split)) <;> simp
@[simp] theorem allocBatch_kept {a1} : Fine (allocBatch a1 s) := by
  simp only [allocBatch]; (repeat' (first | with_reducible refine fine_bind ?_ (fun _ _ => ?_) | split)) <;> simp
@[simp] theorem bodySolvDelta_kept {c} (h : Kept Q s) : Sat (fun x => Kept Q x.1) (bodySolvDelta c s) := by
  simp only [bodySolvDelta]; (repeat' (first | with_reducible refine sat_bind ?_ (fun _ _ => ?_) | split)) <;> simp (maxDischargeDepth := 60) [h]
theorem execSolvDelta_kept {a1 a2} (h : Kept Q s) : KeptR Q (execSolvDelta a1 a2 s) := 
  serve_kept (fun _ => by simp only [iSolvDelta]; (repeat' (first | with_reducible refine fine_bind ?_ (fun _ _ => ?_) | split)) <;> simp) (fun _ => bodySolvDelta_kept h) h
@[simp] theorem bodySolvRun_kept {c} (h : Kept Q s) : Sat (fun x => Kept Q x.1) (bodySolvRun c s) := by
  simp only [bodySolvRun]; (repeat' (first | with_reducible refine sat_bind ?_ (fun _ _ => ?_) | split)) <;> simp (maxDischargeDepth := 60) [h]
theorem execSolvRun_kept {a1 a2} (h : Kept Q s) : KeptR Q (execSolvRun a1 a2 s) := 
  serve_kept (fun _ => by simp only [iSolvRun]; (repeat' (first | with_reducible refine fine_bind ?_ (fun _ _ => ?_) | split)) <;> simp) (fun _ => bodySolvRun_kept h) h
@[simp] theorem dropRun_kept {a1 a2} (h : Kept Q s) : Kept Q (dropRun a1 a2 s) := by
  unfold dropRun; (repeat' split) <;> simp (maxDischargeDepth := 60) [h]
theorem execSolveStart_kept {a1} (h : Kept Q s) : KeptR Q (execSolveStart a1 s) := by
  unfold execSolveStart; (repeat' split) <;> simp +contextual (maxDischargeDepth := 60) [h, kept_foldl, kept_ite, kept_elim]
@[simp] theorem publishPoses_kept {a1 a2 a3} (h : Kept Q s) : Kept Q (publishPoses a1 a2 a3 s) := by
  simp (maxDischargeDepth := 60) [publishPoses, h]
@[simp] theorem deliver_kept {a1 a2 a3} (h : Kept Q s) : Kept Q (deliver a1 a2 a3 s) := by
  unfold deliver; (repeat' split) <;> simp (maxDischargeDepth := 60) [h]
@[simp] theorem completeSolve_kept {a1 a2} (h : Kept Q s) : Kept Q (completeSolve a1 a2 s) := by
  simp only [completeSolve]; (repeat' split) <;> simp (maxDischargeDepth := 60) [h]
@[simp] theorem badProblem_kept {a1 a2 a3 a4 a5 a6} (h : Kept Q s) : Kept Q (badProblem a1 a2 a3 a4 a5 a6 s) := by
  unfold badProblem; (repeat' split) <;> simp (maxDischargeDepth := 60) [h]
theorem execSolveComplete_kept {a1 a2} (h : Kept Q s) : KeptR Q (execSolveComplete a1 a2 s) := by
  unfold execSolveComplete; (repeat' split) <;> simp (maxDischargeDepth := 60) [h]
@[simp] theorem staleRun_kept {a1 a2} (h : Kept Q s) : Kept Q (staleRun a1 a2 s) := by
  simp only [staleRun, draw, drawBytes]; (repeat' split) <;> simp (maxDischargeDepth := 60) [h]
@[simp] theorem pastDeadline_kept {a1 a2} (h : Kept Q s) : Kept Q (pastDeadline a1 a2 s) := by
  unfold pastDeadline; (repeat' split) <;> simp (maxDischargeDepth := 60) [h]
theorem execSolveDeadline_kept {a1} (h : Kept Q s) : KeptR Q (execSolveDeadline a1 s) := by
  unfold execSolveDeadline; (repeat' split) <;> simp (maxDischargeDepth := 60) [h]
@[simp] theorem solveTimeout_kept {a1} (h : Kept Q s) : Kept Q (solveTimeout a1 s) := by
  unfold solveTimeout; (repeat' split) <;> simp (maxDischargeDepth := 60) [h]
@[simp] theorem cancelSolve_kept {a1 a2} (h : Kept Q s) : Kept Q (cancelSolve a1 a2 s) := by
  unfold cancelSolve; (repeat' split) <;> simp (maxDischargeDepth := 60) [h]
@[simp] theorem abortGroup_kept {a1} (h : Kept Q s) : Kept Q (abortGroup a1 s) := by
  unfold abortGroup; (repeat' split) <;> simp +contextual (maxDischargeDepth := 60) [h, kept_foldl, kept_ite, kept_elim]
@[simp] theorem bodySolvUnload_kept {c} (h : Kept Q s) : Sat (fun x => Kept Q x.1) (bodySolvUnload c s) := by
  simp only [bodySolvUnload]
  refine sat_bind (by simp) fun x _ => sat_bind (releaseBody_kept h).fine fun p e => ?_
  exact kept_foldl (fun _ _ h => postRef_kept h) _ (updProb_kept ((releaseBody_kept h).kept e))
theorem execSolvUnload_kept {a1 a2} (h : Kept Q s) : KeptR Q (execSolvUnload a1 a2 s) := 
  serve_kept (fun _ => fine_ok) (fun _ => bodySolvUnload_kept h) h
@[simp] theorem bodySolvResult_kept {c} (h : Kept Q s) : Sat (fun x => Kept Q x.1) (bodySolvResult c s) := by
  simp only [bodySolvResult]; (repeat' (first | with_reducible refine sat_bind ?_ (fun _ _ => ?_) | split)) <;> simp (maxDischargeDepth := 60) [h]
theorem execSolvResult_kept {a1 a2} (h : Kept Q s) : KeptR Q (execSolvResult a1 a2 s) := 
  serve_kept (fun _ => fine_ok) (fun _ => bodySolvResult_kept h) h
@[simp] theorem bodySolvQuery_kept {c} (h : Kept Q s) : Sat (fun x => Kept Q x.1) (bodySolvQuery c s) := by
  simp only [bodySolvQuery]; (repeat' (first | with_reducible refine sat_bind ?_ (fun _ _ => ?_) | split)) <;> simp (maxDischargeDepth := 60) [h]
theorem execSolvQuery_kept {a1 a2} (h : Kept Q s) : KeptR Q (execSolvQuery a1 a2 s) := 
  serve_kept (fun _ => fine_ok) (fun _ => bodySolvQuery_kept h) h

/-! ### Fusion -/

@[simp] theorem replaceCal_kept {a1 a2} (h : Kept Q s) : Kept Q (replaceCal a1 a2 s) := by
  simp (maxDischargeDepth := 60) [replaceCal, h]
@[simp] theorem bodyCalCreate_kept {c} (h : Kept Q s) : Sat (fun x => Kept Q x.1) (bodyCalCreate c s) := by
  simp only [bodyCalCreate, newObj_pair]; (repeat' (first | with_reducible refine sat_bind ?_ (fun _ _ => ?_) | split)) <;> simp +contextual (maxDischargeDepth := 60) [h, kept_foldl, kept_ite, kept_elim]
theorem execCalCreate_kept {a1 a2} (h : Kept Q s) : KeptR Q (execCalCreate a1 a2 s) := 
  serve_kept (fun _ => by simp only [iCalCreate]; (repeat' (first | with_reducible refine fine_bind ?_ (fun _ _ => ?_) | split)) <;> simp) (fun _ => bodyCalCreate_kept h) h
@[simp] theorem bodyCalDestroy_kept {c} (h : Kept Q s) : Sat (fun x => Kept Q x.1) (bodyCalDestroy c s) := by
  simp only [bodyCalDestroy]; (repeat' (first | with_reducible refine sat_bind ?_ (fun _ _ => ?_) | split)) <;> simp (maxDischargeDepth := 60) [h]
theorem execCalDestroy_kept {a1 a2} (h : Kept Q s) : KeptR Q (execCalDestroy a1 a2 s) := 
  serve_kept (fun _ => fine_ok) (fun _ => bodyCalDestroy_kept h) h
@[simp] theorem updGrid_kept {a1 a2} (h : Kept Q s) : Kept Q (updGrid a1 a2 s) := by
  simp (maxDischargeDepth := 60) [updGrid, h]
@[simp] theorem egoPkgOf_kept {a1} : Fine (egoPkgOf a1 s) := by
  simp only [egoPkgOf]; (repeat' (first | with_reducible refine fine_bind ?_ (fun _ _ => ?_) | split)) <;> simp
@[simp] theorem bodyGridCreate_kept {c} (h : Kept Q s) : Sat (fun x => Kept Q x.1) (bodyGridCreate c s) := by
  simp only [bodyGridCreate, draw, newObj_pair]; (repeat' (first | with_reducible refine sat_bind ?_ (fun _ _ => ?_) | split)) <;> simp (maxDischargeDepth := 60) [h]
theorem execGridCreate_kept {a1 a2} (h : Kept Q s) : KeptR Q (execGridCreate a1 a2 s) := 
  serve_kept (fun _ => fine_ok) (fun _ => bodyGridCreate_kept h) h
@[simp] theorem gridArg_kept {a1} : Fine (gridArg a1 s) := by
  simp only [gridArg]; (repeat' (first | with_reducible refine fine_bind ?_ (fun _ _ => ?_) | split)) <;> simp
@[simp] theorem bodyGridDestroy_kept {c} (h : Kept Q s) : Sat (fun x => Kept Q x.1) (bodyGridDestroy c s) := by
  simp only [bodyGridDestroy]
  exact sat_bind (releaseBody_kept h).fine fun p e => updGrid_kept ((releaseBody_kept h).kept e)
theorem execGridDestroy_kept {a1 a2} (h : Kept Q s) : KeptR Q (execGridDestroy a1 a2 s) := 
  serve_kept (fun _ => fine_ok) (fun _ => bodyGridDestroy_kept h) h
@[simp] theorem bodyGridRead_kept {c} (h : Kept Q s) : Sat (fun x => Kept Q x.1) (bodyGridRead c s) := by
  simp only [bodyGridRead]; (repeat' (first | with_reducible refine sat_bind ?_ (fun _ _ => ?_) | split)) <;> simp (maxDischargeDepth := 60) [h]
theorem execGridRead_kept {a1 a2} (h : Kept Q s) : KeptR Q (execGridRead a1 a2 s) := 
  serve_kept (fun _ => fine_ok) (fun _ => bodyGridRead_kept h) h
@[simp] theorem applyPend_kept {a1} (h : Kept Q s) : Kept Q (applyPend a1 s) := by
  unfold applyPend
  split
  · exact h
  · exact kept_foldl (fun _ x h => by cases x <;> simp (maxDischargeDepth := 60) [h]) _ (updGrid_kept h)
@[simp] theorem pendChange_kept {a1 a2} (h : Kept Q s) : Kept Q (pendChange a1 a2 s) := by
  simp only [pendChange]; (repeat' split) <;> simp (maxDischargeDepth := 60) [h]
@[simp] theorem dropPend_kept {a1} (h : Kept Q s) : Kept Q (dropPend a1 s) := by
  simp (maxDischargeDepth := 60) [dropPend, h]
@[simp] theorem bodyGridClear_kept {c} (h : Kept Q s) : Sat (fun x => Kept Q x.1) (bodyGridClear c s) := by
  simp only [bodyGridClear]; (repeat' (first | with_reducible refine sat_bind ?_ (fun _ _ => ?_) | split)) <;> simp (maxDischargeDepth := 60) [h]
theorem execGridClear_kept {a1 a2} (h : Kept Q s) : KeptR Q (execGridClear a1 a2 s) := 
  serve_kept (fun _ => fine_ok) (fun _ => bodyGridClear_kept h) h
@[simp] theorem bodyGridVoteSet_kept {c} (h : Kept Q s) : Sat (fun x => Kept Q x.1) (bodyGridVoteSet c s) := by
  simp only [bodyGridVoteSet]; (repeat' (first | with_reducible refine sat_bind ?_ (fun _ _ => ?_) | split)) <;> simp (maxDischargeDepth := 60) [h]
theorem execGridVoteSet_kept {a1 a2} (h : Kept Q s) : KeptR Q (execGridVoteSet a1 a2 s) := 
  serve_kept (fun _ => fine_ok) (fun _ => bodyGridVoteSet_kept h) h
@[simp] theorem adoptCals_kept {a1} (h : Kept Q s) : Kept Q (adoptCals a1 s) := by
  unfold adoptCals; (repeat' split) <;> simp +contextual (maxDischargeDepth := 60) [h, kept_foldl, kept_ite, kept_elim]
@[simp] theorem updEpoch_kept {a1 a2 a3} (h : Kept Q s) : Kept Q (updEpoch a1 a2 a3 s) := by
  simp (maxDischargeDepth := 60) [updEpoch, h]
@[simp] theorem dropBatch_kept {a1} (h : Kept Q s) : Kept Q (dropBatch a1 s) := by
  simp (maxDischargeDepth := 60) [dropBatch, h]
@[simp] theorem liftPose_kept {a1 a2 a3} (h : Kept Q s) : Kept Q (liftPose a1 a2 a3 s).2 := by
  unfold liftPose; (repeat' split) <;> simp (maxDischargeDepth := 60) [h]
@[irreducible] def liftPoseA := fun a1 a2 a3 s => (liftPose a1 a2 a3 s).1
@[irreducible] def liftPoseS := fun a1 a2 a3 s => (liftPose a1 a2 a3 s).2
theorem liftPose_pair {a1 a2 a3} : liftPose a1 a2 a3 s = (liftPoseA a1 a2 a3 s, liftPoseS a1 a2 a3 s) := by
  simp only [liftPoseA, liftPoseS]
@[simp] theorem liftPoseS_kept {a1 a2 a3} (h : Kept Q s) : Kept Q (liftPoseS a1 a2 a3 s) := by
  unfold liftPoseS; exact liftPose_kept h
@[simp] theorem takeBatch_kept {a1 a2 a3 a4 a5 a6} (h : Kept Q s) : Kept Q (takeBatch a1 a2 a3 a4 a5 a6 s).2 := by
  simp only [takeBatch, draw, liftPose_pair]; (repeat' split) <;> simp (maxDischargeDepth := 60) [h]
@[irreducible] def takeBatchA := fun a1 a2 a3 a4 a5 a6 s => (takeBatch a1 a2 a3 a4 a5 a6 s).1
@[irreducible] def takeBatchS := fun a1 a2 a3 a4 a5 a6 s => (takeBatch a1 a2 a3 a4 a5 a6 s).2
theorem takeBatch_pair {a1 a2 a3 a4 a5 a6} : takeBatch a1 a2 a3 a4 a5 a6 s = (takeBatchA a1 a2 a3 a4 a5 a6 s, takeBatchS a1 a2 a3 a4 a5 a6 s) := by
  simp only [takeBatchA, takeBatchS]
@[simp] theorem takeBatchS_kept {a1 a2 a3 a4 a5 a6} (h : Kept Q s) : Kept Q (takeBatchS a1 a2 a3 a4 a5 a6 s) := by
  unfold takeBatchS; exact takeBatch_kept h
@[simp] theorem enterBatch_kept {a1 a2 a3 a4 a5} (h : Kept Q s) : Kept Q (enterBatch a1 a2 a3 a4 a5 s) := by
  simp only [enterBatch, takeBatch_pair]; (repeat' split) <;> simp (maxDischargeDepth := 60) [h]
@[simp] theorem openEpoch_kept {a1 a2} (h : Kept Q s) : Kept Q (openEpoch a1 a2 s) := by
  simp (maxDischargeDepth := 60) [openEpoch, h]
theorem execScatterBatch_kept {a1 a2 a4} (h : Kept Q s) : KeptR Q (execScatterBatch a1 a2 s a4) := by
  simp only [execScatterBatch]; (repeat' split) <;> simp +contextual (maxDischargeDepth := 60) [h, kept_foldl, kept_ite, kept_elim]
theorem execEpochLimit_kept {a1} (h : Kept Q s) : KeptR Q (execEpochLimit a1 s) := by
  unfold execEpochLimit; (repeat' split) <;> simp +contextual (maxDischargeDepth := 60) [h, kept_foldl, kept_ite, kept_elim]
@[simp] theorem judgeSensors_kept {a1 a2} (h : Kept Q s) : Kept Q (judgeSensors a1 a2 s) := by
  unfold judgeSensors
  split
  · exact h
  · exact kept_foldl (fun _ x h => by dsimp only; split <;> simp (maxDischargeDepth := 60) [h]) _ (updGrid_kept h)
@[simp] theorem gateReject_kept {a1 a2 a3} (h : Kept Q s) : Kept Q (gateReject a1 a2 a3 s) := by
  simp (maxDischargeDepth := 60) [gateReject, h]
@[simp] theorem addMeas_kept {a1 a2} (h : Kept Q s) : Kept Q (addMeas a1 a2 s) := by
  simp (maxDischargeDepth := 60) [addMeas, h]
@[simp] theorem gatePose_kept {a1 a2 a3 a4 a5 a6 a7} (h : Kept Q s) : Kept Q (gatePose a1 a2 a3 a4 a5 a6 a7 s) := by
  simp only [gatePose]; (repeat' split) <;> simp (maxDischargeDepth := 60) [h]
@[simp] theorem measureJoints_kept {a1 a2} (h : Kept Q s) : Kept Q (measureJoints a1 a2 s) := by
  unfold measureJoints; (repeat' split) <;> simp +contextual (maxDischargeDepth := 60) [h, kept_foldl, kept_ite, kept_elim]
@[simp] theorem measureHost_kept {a1 a2 a3 a4 a5 a6} (h : Kept Q s) : Kept Q (measureHost a1 a2 a3 a4 a5 a6 s) := by
  unfold measureHost; (repeat' split) <;> simp (maxDischargeDepth := 60) [h]
@[simp] theorem measureRest_kept {a1 a2} (h : Kept Q s) : Kept Q (measureRest a1 a2 s) := by
  simp (maxDischargeDepth := 60) [measureRest, h]
@[simp] theorem measureSensor_kept {a1 a2 a3} (h : Kept Q s) : Kept Q (measureSensor a1 a2 a3 s) := by
  unfold measureSensor; (repeat' split) <;> simp +contextual (maxDischargeDepth := 60) [h, kept_foldl, kept_ite, kept_elim]
@[simp] theorem loadWindow_kept {a1 a2} (h : Kept Q s) : Kept Q (loadWindow a1 a2 s) := by
  unfold loadWindow; (repeat' split) <;> simp (maxDischargeDepth := 60) [h]
@[simp] theorem egoRun_kept {a1 a2} (h : Kept Q s) : Kept Q (egoRun a1 a2 s) := by
  unfold egoRun; (repeat' split) <;> simp (maxDischargeDepth := 60) [h]
@[simp] theorem liftBatches_kept {a1 a2} (h : Kept Q s) : Kept Q (liftBatches a1 a2 s).2 := by
  unfold liftBatches
  refine kept_foldl_snd (fun p b hp => ?_) _ (p := ([], s)) h
  simp only [liftPose_pair]
  (repeat' split) <;> simp +contextual (maxDischargeDepth := 60) [hp, kept_elim]
@[irreducible] def liftBatchesA := fun a1 a2 s => (liftBatches a1 a2 s).1
@[irreducible] def liftBatchesS := fun a1 a2 s => (liftBatches a1 a2 s).2
theorem liftBatches_pair {a1 a2} : liftBatches a1 a2 s = (liftBatchesA a1 a2 s, liftBatchesS a1 a2 s) := by
  simp only [liftBatchesA, liftBatchesS]
@[simp] theorem liftBatchesS_kept {a1 a2} (h : Kept Q s) : Kept Q (liftBatchesS a1 a2 s) := by
  unfold liftBatchesS; exact liftBatches_kept h
@[simp] theorem closeLifts_kept {a1 a2} (h : Kept Q s) : Kept Q (closeLifts a1 a2 s) := by
  unfold closeLifts; split <;> first | exact h | exact kept_foldl (fun _ _ h => by dsimp only; (repeat' split) <;> simp (maxDischargeDepth := 60) [h]) _ h
@[simp] theorem closeEpoch_kept {a1 a2} (h : Kept Q s) : Kept Q (closeEpoch a1 a2 s) := by
  simp only [closeEpoch, liftBatches_pair]; (repeat' split) <;> simp +contextual (maxDischargeDepth := 60) [h, kept_foldl, kept_ite, kept_elim]
theorem execEpochClose_kept {a1} (h : Kept Q s) : KeptR Q (execEpochClose a1 s) := by
  unfold execEpochClose; (repeat' split) <;> simp (maxDischargeDepth := 60) [h]
@[simp] theorem bodyGridPoseSubmit_kept {c} (h : Kept Q s) : Sat (fun x => Kept Q x.1) (bodyGridPoseSubmit c s) := by
  simp only [bodyGridPoseSubmit]; (repeat' (first | with_reducible refine sat_bind ?_ (fun _ _ => ?_) | split)) <;> simp (maxDischargeDepth := 60) [h]
theorem execGridPoseSubmit_kept {a1 a2} (h : Kept Q s) : KeptR Q (execGridPoseSubmit a1 a2 s) := 
  serve_kept (fun _ => fine_ok) (fun _ => bodyGridPoseSubmit_kept h) h
@[simp] theorem bodyGridStatus_kept {c} (h : Kept Q s) : Sat (fun x => Kept Q x.1) (bodyGridStatus c s) := by
  simp only [bodyGridStatus]; (repeat' (first | with_reducible refine sat_bind ?_ (fun _ _ => ?_) | split)) <;> simp (maxDischargeDepth := 60) [h]
theorem execGridStatus_kept {a1 a2} (h : Kept Q s) : KeptR Q (execGridStatus a1 a2 s) := 
  serve_kept (fun _ => fine_ok) (fun _ => bodyGridStatus_kept h) h

/-! ### Journal -/

@[simp] theorem journalRoom_kept : Fine (journalRoom s) := by
  simp [journalRoom]
@[simp] theorem journalPut_kept {a1} (h : Kept Q s) : Kept Q (journalPut a1 s) := by
  simp (maxDischargeDepth := 60) [journalPut, h]
@[simp] theorem journalBegin_kept {a1 a2 a3 a4 a5} (h : Kept Q s) : Kept Q (journalBegin a1 a2 a3 a4 a5 s).2 := by
  simp (maxDischargeDepth := 60) [journalBegin, h]
@[irreducible] def journalBeginA := fun a1 a2 a3 a4 a5 s => (journalBegin a1 a2 a3 a4 a5 s).1
@[irreducible] def journalBeginS := fun a1 a2 a3 a4 a5 s => (journalBegin a1 a2 a3 a4 a5 s).2
theorem journalBegin_pair {a1 a2 a3 a4 a5} : journalBegin a1 a2 a3 a4 a5 s = (journalBeginA a1 a2 a3 a4 a5 s, journalBeginS a1 a2 a3 a4 a5 s) := by
  simp only [journalBeginA, journalBeginS]
@[simp] theorem journalBeginS_kept {a1 a2 a3 a4 a5} (h : Kept Q s) : Kept Q (journalBeginS a1 a2 a3 a4 a5 s) := by
  unfold journalBeginS; exact journalBegin_kept h
@[simp] theorem journalStep_kept {a1 a2 a3} (h : Kept Q s) : Kept Q (journalStep a1 a2 a3 s) := by
  unfold journalStep; (repeat' split) <;> simp (maxDischargeDepth := 60) [h]
@[simp] theorem repost_kept {a1 a2 a3 a4} (h : Kept Q s) : Kept Q (repost a1 a2 a3 a4 s) := by
  unfold repost; (repeat' split) <;> simp (maxDischargeDepth := 60) [h]
@[simp] theorem journalProgress_kept {a1 a2 a3} (h : Kept Q s) : Kept Q (journalProgress a1 a2 a3 s) := by
  unfold journalProgress; (repeat' split) <;> simp +contextual (maxDischargeDepth := 60) [h, kept_foldl, kept_ite, kept_elim]

end Sys2Proof.Machine
end

