-- ==== Sys2Proof/Laws/KeptMaps.lean ====
section
/-! SUPPORT. What is kept (Laws/Kept.lean) by maps, indexes, queries and ensembles. -/
namespace Sys2Proof.Machine
set_option Elab.async false
set_option linter.unusedSimpArgs false
variable {Q : List Instr} {s t : State}

/-! ### MapStore -/

@[simp] theorem updMap_kept {a1 a2} (h : Kept Q s) : Kept Q (updMap a1 a2 s) := by
  simp (maxDischargeDepth := 60) [updMap, h]

/-! ### Map -/

@[simp] theorem updPort_kept {a1 a2} (h : Kept Q s) : Kept Q (updPort a1 a2 s) := by
  simp (maxDischargeDepth := 60) [updPort, h]
@[simp] theorem contextMet_kept {a1 a2} (h : Kept Q s) : Kept Q (contextMet a1 a2 s) := by
  unfold contextMet; (repeat' split) <;> simp (maxDischargeDepth := 60) [h]
@[simp] theorem sendTo_kept {a1 a2} (h : Kept Q s) : Kept Q (sendTo a1 a2 s) := by
  simp (maxDischargeDepth := 60) [sendTo, h]
@[simp] theorem mapOf_kept {a1} : Fine (mapOf a1 s) := by
  simp only [mapOf]; (repeat' (first | with_reducible refine fine_bind ?_ (fun _ _ => ?_) | split)) <;> simp
@[simp] theorem mapQuorum_kept {a1} : Fine (mapQuorum a1 s) := by
  simp [mapQuorum]
@[simp] theorem mapArg_kept {a1} : Fine (mapArg a1 s) := by
  simp only [mapArg]; (repeat' (first | with_reducible refine fine_bind ?_ (fun _ _ => ?_) | split)) <;> simp
@[simp] theorem anchorMet_kept {a1} (h : Kept Q s) : Kept Q (anchorMet a1 s) := by
  simp (maxDischargeDepth := 60) [anchorMet, h]
@[simp] theorem fxKept_anchorMet {a1} : FxKept (anchorMet a1) := ⟨fun _ _ h => anchorMet_kept h⟩
@[simp] theorem anchorCheck_kept {a1 a2} : Fine (anchorCheck a1 a2) := by
  simp [anchorCheck]
@[simp] theorem addMap_kept {a1 a2 a3} (h : Kept Q s) : Kept Q (addMap a1 a2 a3 s).1 := by
  simp (maxDischargeDepth := 60) [addMap, h]
@[irreducible] def addMapS := fun a1 a2 a3 s => (addMap a1 a2 a3 s).1
@[irreducible] def addMapB := fun a1 a2 a3 s => (addMap a1 a2 a3 s).2
theorem addMap_pair {a1 a2 a3} : addMap a1 a2 a3 s = (addMapS a1 a2 a3 s, addMapB a1 a2 a3 s) := by
  simp only [addMapS, addMapB]
@[simp] theorem addMapS_kept {a1 a2 a3} (h : Kept Q s) : Kept Q (addMapS a1 a2 a3 s) := by
  unfold addMapS; exact addMap_kept h
@[simp] theorem mapFit_kept {a1 a2} : Fine (mapFit a1 a2 s) := by
  simp only [mapFit]; (repeat' (first | with_reducible refine fine_bind ?_ (fun _ _ => ?_) | split)) <;> simp
@[simp] theorem bodyMapCreate_kept {c} (h : Kept Q s) : Sat (fun x => Kept Q x.1) (bodyMapCreate c s) := by
  simp only [bodyMapCreate, addMap_pair]; (repeat' (first | with_reducible refine sat_bind ?_ (fun _ _ => ?_) | split)) <;> simp (maxDischargeDepth := 60) [h]
theorem execMapCreate_kept {a1 a2} (h : Kept Q s) : KeptR Q (execMapCreate a1 a2 s) := 
  serve_kept (fun _ => fine_ok) (fun _ => bodyMapCreate_kept h) h
@[simp] theorem startMove_kept {a1 a2} (h : Kept Q s) : Kept Q (startMove a1 a2 s) := by
  unfold startMove; (repeat' split) <;> simp (maxDischargeDepth := 60) [h]
@[simp] theorem advanceReshard_kept {a1} (h : Kept Q s) : Kept Q (advanceReshard a1 s) := by
  unfold advanceReshard; (repeat' split) <;> simp (maxDischargeDepth := 60) [h]
@[simp] theorem stopReshard_kept {a1 a2} (h : Kept Q s) : Kept Q (stopReshard a1 a2 s) := by
  unfold stopReshard; (repeat' split) <;> simp (maxDischargeDepth := 60) [h]
@[simp] theorem endRepot_kept {a1 a2 a3 a4} (h : Kept Q s) : Kept Q (endRepot a1 a2 a3 a4 s) := by
  simp only [endRepot]; (repeat' split) <;> simp (maxDischargeDepth := 60) [h]
@[simp] theorem rollBack_kept {a1 a2} (h : Kept Q s) : Kept Q (rollBack a1 a2 s) := by
  unfold rollBack; (repeat' split) <;> simp (maxDischargeDepth := 60) [h]
@[simp] theorem stopRepot_kept {a1 a2} (h : Kept Q s) : Kept Q (stopRepot a1 a2 s) := by
  unfold stopRepot; (repeat' split) <;> simp (maxDischargeDepth := 60) [h]
@[simp] theorem bodyMapDestroy_kept {c} (h : Kept Q s) : Sat (fun x => Kept Q x.1) (bodyMapDestroy c s) := by
  simp only [bodyMapDestroy]
  exact sat_bind (releaseBody_kept h).fine fun p e => rollBack_kept ((releaseBody_kept h).kept e)
theorem execMapDestroy_kept {a1 a2} (h : Kept Q s) : KeptR Q (execMapDestroy a1 a2 s) := 
  serve_kept (fun _ => fine_ok) (fun _ => bodyMapDestroy_kept h) h
@[simp] theorem admitCtx_kept {a1 a2 a3} (h : Kept Q s) : Kept Q (admitCtx a1 a2 a3 s) := by
  simp (maxDischargeDepth := 60) [admitCtx, h]
@[simp] theorem dropCtx_kept {a1} (h : Kept Q s) : Kept Q (dropCtx a1 s) := by
  simp (maxDischargeDepth := 60) [dropCtx, h]
@[simp] theorem recCheck_kept {a1 a2} : Fine (recCheck a1 a2) := by
  simp only [recCheck]; (repeat' (first | with_reducible refine fine_bind ?_ (fun _ _ => ?_) | split)) <;> simp
@[simp] theorem bodyMapInsert_kept {c} (h : Kept Q s) : Sat (fun x => Kept Q x.1) (bodyMapInsert c s) := by
  simp only [bodyMapInsert]; (repeat' (first | with_reducible refine sat_bind ?_ (fun _ _ => ?_) | split)) <;> simp (maxDischargeDepth := 60) [h]
theorem execMapInsert_kept {a1 a2} (h : Kept Q s) : KeptR Q (execMapInsert a1 a2 s) := 
  serve_kept (fun _ => fine_ok) (fun _ => bodyMapInsert_kept h) h
@[simp] theorem bodyMapDelete_kept {c} (h : Kept Q s) : Sat (fun x => Kept Q x.1) (bodyMapDelete c s) := by
  simp only [bodyMapDelete]; (repeat' (first | with_reducible refine sat_bind ?_ (fun _ _ => ?_) | split)) <;> simp (maxDischargeDepth := 60) [h]
theorem execMapDelete_kept {a1 a2} (h : Kept Q s) : KeptR Q (execMapDelete a1 a2 s) := 
  serve_kept (fun _ => fine_ok) (fun _ => bodyMapDelete_kept h) h
@[simp] theorem bodyMapRead_kept {c} (h : Kept Q s) : Sat (fun x => Kept Q x.1) (bodyMapRead c s) := by
  simp only [bodyMapRead]; (repeat' (first | with_reducible refine sat_bind ?_ (fun _ _ => ?_) | split)) <;> simp (maxDischargeDepth := 60) [h]
theorem execMapRead_kept {a1 a2} (h : Kept Q s) : KeptR Q (execMapRead a1 a2 s) := 
  serve_kept (fun _ => fine_ok) (fun _ => bodyMapRead_kept h) h
@[simp] theorem bodyMapTraverse_kept {c} (h : Kept Q s) : Sat (fun x => Kept Q x.1) (bodyMapTraverse c s) := by
  simp only [bodyMapTraverse]; (repeat' (first | with_reducible refine sat_bind ?_ (fun _ _ => ?_) | split)) <;> simp (maxDischargeDepth := 60) [h]
theorem execMapTraverse_kept {a1 a2} (h : Kept Q s) : KeptR Q (execMapTraverse a1 a2 s) := 
  serve_kept (fun _ => fine_ok) (fun _ => bodyMapTraverse_kept h) h
@[simp] theorem endCtx_kept {a1 a2 a3 a4 a5} (h : Kept Q s) : Kept Q (endCtx a1 a2 a3 a4 a5 s) := by
  simp (maxDischargeDepth := 60) [endCtx, h]
@[simp] theorem raiseRetired_kept {a1 a2} (h : Kept Q s) : Kept Q (raiseRetired a1 a2 s) := by
  unfold raiseRetired; (repeat' split) <;> simp +contextual (maxDischargeDepth := 60) [h, kept_foldl, kept_ite, kept_elim]
@[simp] theorem sendShard_kept {m : Nat} {b : State × List (Nat × Nat × Nat)} {n : Nat} (h : Kept Q b.1) :
    Kept Q (sendShard m b n).1 := by
  unfold sendShard
  obtain ⟨s, l⟩ := b
  dsimp only
  split
  · exact h
  · exact kept_foldl (fun _ _ h => sendTo_kept h) _ (updMap_kept h)

theorem sendShards_kept {m : Nat} : ∀ {l : List Nat} {b : State × List (Nat × Nat × Nat)}, Kept Q b.1 →
    Kept Q (l.foldl (sendShard m) b).1
  | [], _, h => h
  | _ :: l, _, h => sendShards_kept (l := l) (sendShard_kept h)
@[simp] theorem finishWrite_kept {a1 a2 a3 a4 a5} (h : Kept Q s) : Kept Q (finishWrite a1 a2 a3 a4 a5 s) := by
  unfold finishWrite
  have h1 := sendShards_kept (m := a1.map) (l := a2.eraseDups) (b := (s, [])) h
  split
  next s' acks e =>
    rw [e] at h1
    dsimp only
    split <;> simp (maxDischargeDepth := 60) [show Kept Q s' from h1]
@[simp] theorem mapPoisonMet_kept {a1} (h : Kept Q s) : Kept Q (mapPoisonMet a1 s) := by
  simp (maxDischargeDepth := 60) [mapPoisonMet, h]
@[simp] theorem fxKept_mapPoisonMet {a1} : FxKept (mapPoisonMet a1) := ⟨fun _ _ h => mapPoisonMet_kept h⟩
@[simp] theorem doneInsert_kept {a1 a2 a3} (h : Kept Q s) : Kept Q (doneInsert a1 a2 a3 s) := by
  simp only [doneInsert]; (repeat' split) <;> simp (maxDischargeDepth := 60) [h]
@[simp] theorem doneDelete_kept {a1 a2 a3} (h : Kept Q s) : Kept Q (doneDelete a1 a2 a3 s) := by
  simp only [doneDelete]; (repeat' split) <;> simp (maxDischargeDepth := 60) [h]
@[simp] theorem doneRead_kept {a1 a2 a3} (h : Kept Q s) : Kept Q (doneRead a1 a2 a3 s) := by
  simp only [doneRead]; (repeat' split) <;> simp (maxDischargeDepth := 60) [h]
@[simp] theorem doneTraverse_kept {a1 a2 a3} (h : Kept Q s) : Kept Q (doneTraverse a1 a2 a3 s) := by
  simp only [doneTraverse]; (repeat' split) <;> simp (maxDischargeDepth := 60) [h]
theorem execMapCommandDone_kept {a1 a3} (h : Kept Q s) : KeptR Q (execMapCommandDone a1 s a3) := by
  unfold execMapCommandDone; (repeat' split) <;> simp (maxDischargeDepth := 60) [h]
@[simp] theorem shardAcked_kept {a1 a2 a3 a4} (h : Kept Q s) : Kept Q (shardAcked a1 a2 a3 a4 s) := by
  unfold shardAcked; (repeat' split) <;> simp +contextual (maxDischargeDepth := 60) [h, kept_foldl, kept_ite, kept_elim]
@[simp] theorem bodyMapDeadheadSet_kept {c} (h : Kept Q s) : Sat (fun x => Kept Q x.1) (bodyMapDeadheadSet c s) := by
  simp only [bodyMapDeadheadSet]; (repeat' (first | with_reducible refine sat_bind ?_ (fun _ _ => ?_) | split)) <;> simp (maxDischargeDepth := 60) [h]
theorem execMapDeadheadSet_kept {a1 a2} (h : Kept Q s) : KeptR Q (execMapDeadheadSet a1 a2 s) := 
  serve_kept (fun _ => fine_ok) (fun _ => bodyMapDeadheadSet_kept h) h
@[simp] theorem dhIndex_kept {a1} (h : Kept Q s) : Kept Q (dhIndex a1 s) := by
  unfold dhIndex; (repeat' split) <;> simp (maxDischargeDepth := 60) [h]
theorem execDeadheadPass_kept {a1} (h : Kept Q s) : KeptR Q (execDeadheadPass a1 s) := by
  unfold execDeadheadPass; (repeat' split) <;> simp (maxDischargeDepth := 60) [h]
@[simp] theorem targetShort_kept {a1 a2} (h : Kept Q s) : Kept Q (targetShort a1 a2 s).2 := by
  simp only [targetShort, draw]; (repeat' split) <;> simp (maxDischargeDepth := 60) [h]
@[irreducible] def targetShortA := fun a1 a2 s => (targetShort a1 a2 s).1
@[irreducible] def targetShortS := fun a1 a2 s => (targetShort a1 a2 s).2
theorem targetShort_pair {a1 a2} : targetShort a1 a2 s = (targetShortA a1 a2 s, targetShortS a1 a2 s) := by
  simp only [targetShortA, targetShortS]
@[simp] theorem targetShortS_kept {a1 a2} (h : Kept Q s) : Kept Q (targetShortS a1 a2 s) := by
  unfold targetShortS; exact targetShort_kept h
@[simp] theorem targetFits_kept {a1} (h : Kept Q s) : Sat (Kept Q) (targetFits a1 s) := by
  simp only [targetFits, draw]; (repeat' (first | with_reducible refine sat_bind ?_ (fun _ _ => ?_) | split)) <;> simp (maxDischargeDepth := 60) [h]
@[simp] theorem startRepot_kept {a1 a2 a3 a4 a5 a6} (h : Kept Q s) : Kept Q (startRepot a1 a2 a3 a4 a5 a6 s) := by
  simp only [startRepot, journalBegin_pair]; (repeat' split) <;> simp (maxDischargeDepth := 60) [h]
@[simp] theorem bodyMapRepot_kept {c} (h : Kept Q s) : Sat (fun x => Kept Q x.1) (bodyMapRepot c s) := by
  simp only [bodyMapRepot]
  refine sat_bind (by simp) fun _ _ => sat_bind (by simp) fun _ _ => sat_bind (by simp) fun _ _ =>
    sat_bind (by simp) fun _ _ => sat_bind (by simp) fun _ _ => sat_bind (by simp) fun _ _ => sat_bind (by simp) fun _ _ => ?_
  generalize hp : (if prm c 1 1 = 1 then _ else _ : Nat × State) = p
  have h1 : Kept Q p.2 := by
    subst hp
    split
    · exact targetShort_kept h
    · exact h
  exact sat_bind (targetFits_kept h1).fine fun s' e => by
    have h2 : Kept Q s' := by
      have := targetFits_kept (a1 := p.1) h1
      rw [e] at this; exact this
    simp (maxDischargeDepth := 60) [h2]
theorem execMapRepot_kept {a1 a2} (h : Kept Q s) : KeptR Q (execMapRepot a1 a2 s) := 
  serve_kept (fun _ => fine_ok) (fun _ => bodyMapRepot_kept h) h
theorem execRepotCopyDone_kept {a1} (h : Kept Q s) : KeptR Q (execRepotCopyDone a1 s) := by
  unfold execRepotCopyDone; (repeat' split) <;> simp (maxDischargeDepth := 60) [h]
@[simp] theorem commitRepot_kept {a1 a2} (h : Kept Q s) : Kept Q (commitRepot a1 a2 s) := by
  simp only [commitRepot]; (repeat' split) <;> simp (maxDischargeDepth := 60) [h]
@[simp] theorem releaseRepot_kept {a1 a2 a3} (h : Kept Q s) : Kept Q (releaseRepot a1 a2 a3 s) := by
  simp (maxDischargeDepth := 60) [releaseRepot, h]
theorem execRepotCommit_kept {a1} (h : Kept Q s) : KeptR Q (execRepotCommit a1 s) := by
  unfold execRepotCommit
  show Kept Q _
  split
  · exact h
  · split
    · simp (maxDischargeDepth := 60) [h]
    · split
      · exact h
      · split
        · exact h
        · split
          next x s1 e =>
            have h1 : Kept Q s1 := by
              have := draw_kept h
              rw [e] at this; exact this
            dsimp only
            refine settle_kept ?_
            split <;> simp (maxDischargeDepth := 60) [h1]
theorem execRepotPauseExpiry_kept {a1} (h : Kept Q s) : KeptR Q (execRepotPauseExpiry a1 s) := by
  unfold execRepotPauseExpiry; (repeat' split) <;> simp (maxDischargeDepth := 60) [h]
@[simp] theorem ckptHands_kept {a1} : Fine (ckptHands a1 s) := by
  simp only [ckptHands]; (repeat' (first | with_reducible refine fine_bind ?_ (fun _ _ => ?_) | split)) <;> simp
@[simp] theorem ckptAlloc_kept {a1} : Fine (ckptAlloc a1 s) := by
  simp only [ckptAlloc]; (repeat' (first | with_reducible refine fine_bind ?_ (fun _ _ => ?_) | split)) <;> simp
@[simp] theorem bodyMapCheckpoint_kept {c} (h : Kept Q s) : Sat (fun x => Kept Q x.1) (bodyMapCheckpoint c s) := by
  simp only [bodyMapCheckpoint, drawBytes]; (repeat' (first | with_reducible refine sat_bind ?_ (fun _ _ => ?_) | split)) <;> simp (maxDischargeDepth := 60) [h]
theorem execMapCheckpoint_kept {a1 a2} (h : Kept Q s) : KeptR Q (execMapCheckpoint a1 a2 s) := 
  serve_kept (fun _ => by simp [iMapCheckpoint]) (fun _ => bodyMapCheckpoint_kept h) h
@[simp] theorem bodyMapRestore_kept {c} (h : Kept Q s) : Sat (fun x => Kept Q x.1) (bodyMapRestore c s) := by
  simp only [bodyMapRestore, addMap_pair]; (repeat' (first | with_reducible refine sat_bind ?_ (fun _ _ => ?_) | split)) <;> simp (maxDischargeDepth := 60) [h]
theorem execMapRestore_kept {a1 a2} (h : Kept Q s) : KeptR Q (execMapRestore a1 a2 s) := 
  serve_kept (fun _ => by simp [iMapRestore]) (fun _ => bodyMapRestore_kept h) h

/-! ### Search -/

@[simp] theorem updIdx_kept {a1 a2} (h : Kept Q s) : Kept Q (updIdx a1 a2 s) := by
  simp (maxDischargeDepth := 60) [updIdx, h]
@[simp] theorem bodyIdxCreate_kept {c} (h : Kept Q s) : Sat (fun x => Kept Q x.1) (bodyIdxCreate c s) := by
  simp only [bodyIdxCreate, newObj_pair]; (repeat' (first | with_reducible refine sat_bind ?_ (fun _ _ => ?_) | split)) <;> simp (maxDischargeDepth := 60) [h]
theorem execIdxCreate_kept {a1 a2} (h : Kept Q s) : KeptR Q (execIdxCreate a1 a2 s) := 
  serve_kept (fun _ => fine_ok) (fun _ => bodyIdxCreate_kept h) h
@[simp] theorem idxArgOf_kept {a1} : Fine (idxArgOf a1 s) := by
  simp only [idxArgOf]; (repeat' (first | with_reducible refine fine_bind ?_ (fun _ _ => ?_) | split)) <;> simp
@[simp] theorem endRebuild_kept {a1 a2 a3 a4} (h : Kept Q s) : Kept Q (endRebuild a1 a2 a3 a4 s) := by
  unfold endRebuild; (repeat' split) <;> simp (maxDischargeDepth := 60) [h]
@[simp] theorem stopRebuild_kept {a1 a2} (h : Kept Q s) : Kept Q (stopRebuild a1 a2 s) := by
  unfold stopRebuild; (repeat' split) <;> simp (maxDischargeDepth := 60) [h]
@[simp] theorem bodyIdxDestroy_kept {c} (h : Kept Q s) : Sat (fun x => Kept Q x.1) (bodyIdxDestroy c s) := by
  simp only [bodyIdxDestroy]
  exact sat_bind (releaseBody_kept h).fine fun p e => endRebuild_kept ((releaseBody_kept h).kept e)
theorem execIdxDestroy_kept {a1 a2} (h : Kept Q s) : KeptR Q (execIdxDestroy a1 a2 s) := 
  serve_kept (fun _ => fine_ok) (fun _ => bodyIdxDestroy_kept h) h
@[simp] theorem idxPoisonMet_kept {a1} (h : Kept Q s) : Kept Q (idxPoisonMet a1 s) := by
  simp (maxDischargeDepth := 60) [idxPoisonMet, h]
@[simp] theorem fxKept_idxPoisonMet {a1} : FxKept (idxPoisonMet a1) := ⟨fun _ _ h => idxPoisonMet_kept h⟩
@[simp] theorem itemsRead_kept {a1 a2} : Fine (itemsRead a1 a2) := by
  simp [itemsRead]
@[simp] theorem bodyIdxInsert_kept {c} (h : Kept Q s) : Sat (fun x => Kept Q x.1) (bodyIdxInsert c s) := by
  simp only [bodyIdxInsert]; (repeat' (first | with_reducible refine sat_bind ?_ (fun _ _ => ?_) | split)) <;> simp (maxDischargeDepth := 60) [h]
theorem execIdxInsert_kept {a1 a2} (h : Kept Q s) : KeptR Q (execIdxInsert a1 a2 s) := 
  serve_kept (fun _ => fine_ok) (fun _ => bodyIdxInsert_kept h) h
@[simp] theorem bodyIdxDelete_kept {c} (h : Kept Q s) : Sat (fun x => Kept Q x.1) (bodyIdxDelete c s) := by
  simp only [bodyIdxDelete]; (repeat' (first | with_reducible refine sat_bind ?_ (fun _ _ => ?_) | split)) <;> simp (maxDischargeDepth := 60) [h]
theorem execIdxDelete_kept {a1 a2} (h : Kept Q s) : KeptR Q (execIdxDelete a1 a2 s) := 
  serve_kept (fun _ => fine_ok) (fun _ => bodyIdxDelete_kept h) h
@[simp] theorem bodyIdxRebuild_kept {c} (h : Kept Q s) : Sat (fun x => Kept Q x.1) (bodyIdxRebuild c s) := by
  simp only [bodyIdxRebuild, journalBegin_pair]; (repeat' (first | with_reducible refine sat_bind ?_ (fun _ _ => ?_) | split)) <;> simp (maxDischargeDepth := 60) [h]
theorem execIdxRebuild_kept {a1 a2} (h : Kept Q s) : KeptR Q (execIdxRebuild a1 a2 s) := 
  serve_kept (fun _ => fine_ok) (fun _ => bodyIdxRebuild_kept h) h
theorem execIdxRebuildDone_kept {a1} (h : Kept Q s) : KeptR Q (execIdxRebuildDone a1 s) := by
  unfold execIdxRebuildDone
  show Kept Q _
  split
  · exact h
  · split
    · exact h
    · split
      · simp (maxDischargeDepth := 60) [h]
      · split
        · exact settle_kept (endRebuild_kept (idxPoisonMet_kept h))
        · extract_lets x1 s1 s2 s3
          have h1 : Kept Q s1 := journalProgress_kept h
          have h3 : Kept Q s3 := updIdx_kept (journalStep_kept h1)
          split
          · exact settle_kept (endRebuild_kept h1)
          · have h4 : Kept Q (draw s3).2 := draw_kept h3
            refine settle_kept ?_
            split
            · exact endRebuild_kept h4
            · exact h4
@[simp] theorem bodySrchBatch_kept {c} (h : Kept Q s) : Sat (fun x => Kept Q x.1) (bodySrchBatch c s) := by
  simp only [bodySrchBatch, newObj_pair]; (repeat' (first | with_reducible refine sat_bind ?_ (fun _ _ => ?_) | split)) <;> simp +contextual (maxDischargeDepth := 60) [h, kept_foldl, kept_ite, kept_elim]
theorem execSrchBatch_kept {a1 a2} (h : Kept Q s) : KeptR Q (execSrchBatch a1 a2 s) := 
  serve_kept (fun _ => by simp only [iSrchBatch]; (repeat' (first | with_reducible refine fine_bind ?_ (fun _ _ => ?_) | split)) <;> simp) (fun _ => bodySrchBatch_kept h) h
@[simp] theorem updBatch_kept {a1 a2} (h : Kept Q s) : Kept Q (updBatch a1 a2 s) := by
  simp (maxDischargeDepth := 60) [updBatch, h]
@[simp] theorem updQuery_kept {a1 a2 a3} (h : Kept Q s) : Kept Q (updQuery a1 a2 a3 s) := by
  simp (maxDischargeDepth := 60) [updQuery, h]
theorem execQueryStart_kept {a1} (h : Kept Q s) : KeptR Q (execQueryStart a1 s) := by
  unfold execQueryStart; (repeat' split) <;> simp (maxDischargeDepth := 60) [h]
@[simp] theorem endBatch_kept {a1} (h : Kept Q s) : Kept Q (endBatch a1 s) := by
  unfold endBatch; (repeat' split) <;> simp (maxDischargeDepth := 60) [h]
@[simp] theorem deliverQuery_kept {a1 a2} (h : Kept Q s) : Kept Q (deliverQuery a1 a2 s) := by
  unfold deliverQuery; (repeat' split) <;> simp (maxDischargeDepth := 60) [h]
@[simp] theorem answer_kept {a1 a2 a3 a4 a5} (h : Kept Q s) : Kept Q (answer a1 a2 a3 a4 a5 s) := by
  simp only [answer]; (repeat' split) <;> simp (maxDischargeDepth := 60) [h]
theorem execQueryComplete_kept {a1 a2 a4} (h : Kept Q s) : KeptR Q (execQueryComplete a1 a2 s a4) := by
  simp only [execQueryComplete]; (repeat' split) <;> simp (maxDischargeDepth := 60) [h]
@[simp] theorem cutBatch_kept {a1 a2} (h : Kept Q s) : Kept Q (cutBatch a1 a2 s) := by
  simp (maxDischargeDepth := 60) [cutBatch, h]
theorem execSrchBatchDeadline_kept {a1} (h : Kept Q s) : KeptR Q (execSrchBatchDeadline a1 s) := by
  unfold execSrchBatchDeadline; (repeat' split) <;> simp (maxDischargeDepth := 60) [h]
@[simp] theorem bodyIdxQuery_kept {c} (h : Kept Q s) : Sat (fun x => Kept Q x.1) (bodyIdxQuery c s) := by
  simp only [bodyIdxQuery]; (repeat' (first | with_reducible refine sat_bind ?_ (fun _ _ => ?_) | split)) <;> simp (maxDischargeDepth := 60) [h]
theorem execIdxQuery_kept {a1 a2} (h : Kept Q s) : KeptR Q (execIdxQuery a1 a2 s) := 
  serve_kept (fun _ => fine_ok) (fun _ => bodyIdxQuery_kept h) h
@[simp] theorem cancelMap_kept {a1 a2} (h : Kept Q s) : Kept Q (cancelMap a1 a2 s) := by
  simp only [cancelMap]; (repeat' split) <;> simp (maxDischargeDepth := 60) [h]

/-! ### Ensembles -/

/-- A body goes on from a state with room at the target. -/
theorem sat_targetFits {α : Type} {P : α → Prop} {n : Nat} {k : State → Except Fail α} (h : Kept Q s)
    (hk : ∀ t, Kept Q t → Sat P (k t)) : Sat P (targetFits n s >>= k) :=
  sat_bind (targetFits_kept h).fine fun t e => hk t (by
    have := targetFits_kept (a1 := n) h
    rw [e] at this; exact this)

@[simp] theorem updEns_kept {a1} (h : Kept Q s) : Kept Q (updEns a1 s) := by
  simp (maxDischargeDepth := 60) [updEns, h]
@[simp] theorem raiseEns_kept {a1 a2} (h : Kept Q s) : Kept Q (raiseEns a1 a2 s) := by
  simp (maxDischargeDepth := 60) [raiseEns, h]
@[simp] theorem changeRef_kept {a1} (h : Kept Q s) : Kept Q (changeRef a1 s) := by
  simp only [changeRef]; (repeat' split) <;> simp (maxDischargeDepth := 60) [h]
@[simp] theorem dropHeld_kept {a1} (h : Kept Q s) : Kept Q (dropHeld a1 s) := by
  simp (maxDischargeDepth := 60) [dropHeld, h]
@[simp] theorem ensCheck_kept {a1} : Fine (ensCheck a1 s) := by
  simp only [ensCheck]; (repeat' (first | with_reducible refine fine_bind ?_ (fun _ _ => ?_) | split)) <;> simp
@[simp] theorem bodyEnsForm_kept {c} (h : Kept Q s) : Sat (fun x => Kept Q x.1) (bodyEnsForm c s) := by
  simp only [bodyEnsForm, newObj_pair]; (repeat' (first | with_reducible refine sat_bind ?_ (fun _ _ => ?_) | split)) <;> simp (maxDischargeDepth := 60) [h]
theorem execEnsForm_kept {a1 a2} (h : Kept Q s) : KeptR Q (execEnsForm a1 a2 s) := 
  serve_kept (fun _ => fine_ok) (fun _ => bodyEnsForm_kept h) h
@[simp] theorem bodyEnsJoin_kept {c} (h : Kept Q s) : Sat (fun x => Kept Q x.1) (bodyEnsJoin c s) := by
  simp only [bodyEnsJoin]; (repeat' (first | with_reducible refine sat_bind ?_ (fun _ _ => ?_) | split)) <;> simp (maxDischargeDepth := 60) [h]
theorem execEnsJoin_kept {a1 a2} (h : Kept Q s) : KeptR Q (execEnsJoin a1 a2 s) := 
  serve_kept (fun _ => fine_ok) (fun _ => bodyEnsJoin_kept h) h
@[simp] theorem finishJoin_kept (h : Kept Q s) : Kept Q (finishJoin s) := by
  simp only [finishJoin, newObj_pair]; (repeat' split) <;> simp +contextual (maxDischargeDepth := 60) [h, kept_foldl, kept_ite, kept_elim]
@[simp] theorem dropJoin_kept {a1} (h : Kept Q s) : Kept Q (dropJoin a1 s) := by
  unfold dropJoin; (repeat' split) <;> simp (maxDischargeDepth := 60) [h]
@[simp] theorem startReplica_kept {a1 a2} (h : Kept Q s) : Kept Q (startReplica a1 a2 s) := by
  simp only [startReplica, journalBegin_pair]; (repeat' split) <;> simp (maxDischargeDepth := 60) [h]
@[simp] theorem unwait_kept {a1 a2 a3} (h : Kept Q s) : Kept Q (unwait a1 a2 a3 s) := by
  unfold unwait; (repeat' split) <;> simp +contextual (maxDischargeDepth := 60) [h, kept_foldl, kept_ite, kept_elim]
@[simp] theorem mapAfter_kept {a1 a3} (h : Kept Q s) : Kept Q (mapAfter a1 s a3) := by
  unfold mapAfter; (repeat' split) <;> simp +contextual (maxDischargeDepth := 60) [h, kept_foldl, kept_ite, kept_elim]
@[simp] theorem rehome_kept {a1 a3} (h : Kept Q s) : Kept Q (rehome a1 s a3) := by
  simp only [rehome, draw, newObj_pair]; (repeat' split) <;> simp (maxDischargeDepth := 60) [h]
@[simp] theorem loseMember_kept {a1} (h : Kept Q s) : Kept Q (loseMember a1 s) := by
  unfold loseMember; (repeat' split) <;> simp +contextual (maxDischargeDepth := 60) [h, kept_foldl, kept_ite, kept_elim]
@[simp] theorem loseQuorum_kept (h : Kept Q s) : Kept Q (loseQuorum s) := by
  unfold loseQuorum; (repeat' split) <;> simp +contextual (maxDischargeDepth := 60) [h, kept_foldl, kept_ite, kept_elim]
@[simp] theorem rejoin_kept {a1} (h : Kept Q s) : Kept Q (rejoin a1 s) := by
  simp (maxDischargeDepth := 60) [rejoin, h]
@[simp] theorem agree_kept {a1} (h : Kept Q s) : Kept Q (agree a1 s) := by
  unfold agree; (repeat' split) <;> simp +contextual (maxDischargeDepth := 60) [h, kept_foldl, kept_ite, kept_elim]
theorem execMemberLoss_kept {a1} (h : Kept Q s) : KeptR Q (execMemberLoss a1 s) := by
  simp only [execMemberLoss]; (repeat' split) <;> simp (maxDischargeDepth := 60) [h]
@[simp] theorem commitReplica_kept {a1 a2 a3 a4} (h : Kept Q s) : Kept Q (commitReplica a1 a2 a3 a4 s) := by
  simp only [commitReplica]; (repeat' split) <;> simp (maxDischargeDepth := 60) [h]
@[simp] theorem linksDown_kept (h : Kept Q s) : Kept Q (linksDown s) := by
  simp (maxDischargeDepth := 60) [linksDown, h]
@[simp] theorem finishLeave_kept (h : Kept Q s) : Kept Q (finishLeave s) := by
  simp only [finishLeave]; (repeat' split) <;> simp (maxDischargeDepth := 60) [h]
theorem execReplicaCommit_kept {a1 a2} (h : Kept Q s) : KeptR Q (execReplicaCommit a1 a2 s) := by
  unfold execReplicaCommit; (repeat' split) <;> simp (maxDischargeDepth := 60) [h]
@[simp] theorem ensArg_kept : Fine (ensArg s) := by
  simp only [ensArg]; (repeat' (first | with_reducible refine fine_bind ?_ (fun _ _ => ?_) | split)) <;> simp
@[simp] theorem bodyEnsLeave_kept {c} (h : Kept Q s) : Sat (fun x => Kept Q x.1) (bodyEnsLeave c s) := by
  simp only [bodyEnsLeave, journalBegin_pair]
  refine sat_bind (by simp) fun e _ => sat_bind (by simp) fun _ _ => sat_bind (by simp) fun _ _ => ?_
  refine sat_targetFits (Q := Q) (kept_foldl_snd (fun p x hp => ?_) _ (p := (0, s)) h) fun t ht => ?_
  · exact targetShort_kept hp
  · simp (maxDischargeDepth := 60) [ht]
theorem execEnsLeave_kept {a1 a2} (h : Kept Q s) : KeptR Q (execEnsLeave a1 a2 s) := by
  unfold execEnsLeave
  have hs : KeptR Q (serve iEnsLeave bodyEnsLeave a1 a2 s) := serve_kept (fun _ => fine_ok) (fun _ => bodyEnsLeave_kept h) h
  split
  · next e => rw [e] at hs; exact settle_kept (finishLeave_kept hs)
  · exact hs
@[simp] theorem dropLeave_kept {a1} (h : Kept Q s) : Kept Q (dropLeave a1 s) := by
  unfold dropLeave; (repeat' split) <;> simp (maxDischargeDepth := 60) [h]
@[simp] theorem bodyEnsRemove_kept {c} (h : Kept Q s) : Sat (fun x => Kept Q x.1) (bodyEnsRemove c s) := by
  simp only [bodyEnsRemove]; (repeat' (first | with_reducible refine sat_bind ?_ (fun _ _ => ?_) | split)) <;> simp +contextual (maxDischargeDepth := 60) [h, kept_foldl, kept_ite, kept_elim]
theorem execEnsRemove_kept {a1 a2} (h : Kept Q s) : KeptR Q (execEnsRemove a1 a2 s) := 
  serve_kept (fun _ => fine_ok) (fun _ => bodyEnsRemove_kept h) h
@[simp] theorem bodyEnsReshard_kept {c} (h : Kept Q s) : Sat (fun x => Kept Q x.1) (bodyEnsReshard c s) := by
  simp only [bodyEnsReshard]
  refine sat_bind (by simp) fun e _ => ?_
  split
  · refine sat_bind (by simp) fun _ _ => sat_bind (by simp) fun _ _ => sat_bind (by simp) fun _ _ =>
      sat_bind (by simp) fun _ _ => sat_bind (by simp) fun _ _ => sat_bind (by simp) fun _ _ => sat_bind (by simp) fun _ _ => ?_
    refine sat_targetFits (Q := Q) (kept_foldl_snd (fun p x hp => ?_) _ (p := (0, s)) h) fun t ht => updMap_kept ht
    exact targetShort_kept hp
  · simp
theorem execEnsReshard_kept {a1 a2} (h : Kept Q s) : KeptR Q (execEnsReshard a1 a2 s) := by
  unfold execEnsReshard
  have hs : KeptR Q (serve iEnsReshard bodyEnsReshard a1 a2 s) := serve_kept (fun _ => by simp [iEnsReshard]) (fun _ => bodyEnsReshard_kept h) h
  split
  · next e => rw [e] at hs; exact settle_kept (kept_foldl (fun _ _ h => advanceReshard_kept h) _ hs)
  · exact hs
@[simp] theorem bodyEnsStatus_kept {c} (h : Kept Q s) : Sat (fun x => Kept Q x.1) (bodyEnsStatus c s) := by
  simp only [bodyEnsStatus]; (repeat' (first | with_reducible refine sat_bind ?_ (fun _ _ => ?_) | split)) <;> simp (maxDischargeDepth := 60) [h]
theorem execEnsStatus_kept {a1 a2} (h : Kept Q s) : KeptR Q (execEnsStatus a1 a2 s) := 
  serve_kept (fun _ => fine_ok) (fun _ => bodyEnsStatus_kept h) h
@[simp] theorem refusePort_kept {a1 a2} (h : Kept Q s) : Kept Q (refusePort a1 a2 s) := by
  simp (maxDischargeDepth := 60) [refusePort, h]
theorem execTrellisLinkTrained_kept {a1 a2} (h : Kept Q s) : KeptR Q (execTrellisLinkTrained a1 a2 s) := by
  simp only [execTrellisLinkTrained]; (repeat' split) <;> simp (maxDischargeDepth := 60) [h]
@[simp] theorem portUp_kept {a1 a2} (h : Kept Q s) : Kept Q (portUp a1 a2 s) := by
  simp only [portUp]; (repeat' split) <;> simp (maxDischargeDepth := 60) [h]
@[simp] theorem rekeyed_kept {a1 a2} (h : Kept Q s) : Kept Q (rekeyed a1 a2 s) := by
  simp (maxDischargeDepth := 60) [rekeyed, h]
theorem execTrellisHandshakeMessage_kept {a1 a2} (h : Kept Q s) : KeptR Q (execTrellisHandshakeMessage a1 a2 s) := by
  simp only [execTrellisHandshakeMessage]; (repeat' split) <;> simp (maxDischargeDepth := 60) [h]
theorem execTrellisRefusalRetry_kept {a1} (h : Kept Q s) : KeptR Q (execTrellisRefusalRetry a1 s) := by
  unfold execTrellisRefusalRetry; (repeat' split) <;> simp (maxDischargeDepth := 60) [h]
theorem execTrellisRekey_kept {a1} (h : Kept Q s) : KeptR Q (execTrellisRekey a1 s) := by
  simp only [execTrellisRekey]; (repeat' split) <;> simp (maxDischargeDepth := 60) [h]
@[simp] theorem foreignMap_kept {a1 a2} (h : Kept Q s) : Kept Q (foreignMap a1 a2 s) := by
  simp only [foreignMap, drawBytes]; (repeat' split) <;> simp (maxDischargeDepth := 60) [h]
@[simp] theorem holdShard_kept {a1 a2} (h : Kept Q s) : Kept Q (holdShard a1 a2 s) := by
  unfold holdShard; (repeat' split) <;> simp (maxDischargeDepth := 60) [h]
@[simp] theorem frameIn_kept {a1 a2} (h : Kept Q s) : Kept Q (frameIn a1 a2 s) := by
  unfold frameIn; (repeat' split) <;> simp (maxDischargeDepth := 60) [h]
theorem execTrellisFrameReceived_kept {a1 a2 a3} (h : Kept Q s) : KeptR Q (execTrellisFrameReceived a1 a2 a3 s) := by
  simp only [execTrellisFrameReceived]; (repeat' split) <;> simp (maxDischargeDepth := 60) [h]
theorem execTrellisLinkLost_kept {a1} (h : Kept Q s) : KeptR Q (execTrellisLinkLost a1 s) := by
  unfold execTrellisLinkLost; (repeat' split) <;> simp +contextual (maxDischargeDepth := 60) [h, kept_foldl, kept_ite, kept_elim]
theorem execEnsTimeSync_kept {a1} (h : Kept Q s) : KeptR Q (execEnsTimeSync a1 s) := by
  simp only [execEnsTimeSync]; (repeat' split) <;> simp (maxDischargeDepth := 60) [h]
@[simp] theorem cancelEns_kept {a1 a2} (h : Kept Q s) : Kept Q (cancelEns a1 a2 s) := by
  simp only [cancelEns]; (repeat' split) <;> simp (maxDischargeDepth := 60) [h]

end Sys2Proof.Machine
end

