-- ==== Sys2Proof/Laws/KeptPower.lean ====
section
/-! SUPPORT. What is kept (Laws/Kept.lean) by power, cancellation, sessions and security. -/
namespace Sys2Proof.Machine
set_option Elab.async false
set_option linter.unusedSimpArgs false
variable {Q : List Instr} {s t : State}

/-! ### Power -/

@[simp] theorem limitFault_kept {a1} (h : Kept Q s) : Kept Q (limitFault a1 s) := by
  simp (maxDischargeDepth := 60) [limitFault, h]
@[simp] theorem limFix_kept (h : Kept Q s) : Kept Q (limFix s) := by
  simp only [limFix]; (repeat' split) <;> simp (maxDischargeDepth := 60) [h]
@[simp] theorem setLevel_kept {a1} (h : Kept Q s) : Kept Q (setLevel a1 s) := by
  simp only [setLevel]; (repeat' split) <;> simp (maxDischargeDepth := 60) [h]
theorem execLevelChoiceTick_kept {a1 a2} (h : Kept Q s) : KeptR Q (execLevelChoiceTick a1 a2 s) := by
  simp only [execLevelChoiceTick]; (repeat' split) <;> simp (maxDischargeDepth := 60) [h]
@[simp] theorem forceSlower_kept {a1} (h : Kept Q s) : Kept Q (forceSlower a1 s) := by
  unfold forceSlower; (repeat' split) <;> simp (maxDischargeDepth := 60) [h]
@[simp] theorem thermTrip_kept (h : Kept Q s) : Kept Q (thermTrip s) := by
  simp (maxDischargeDepth := 60) [thermTrip, h]
@[simp] theorem backstopPower_kept {a1} (h : Kept Q s) : Kept Q (backstopPower a1 s) := by
  simp only [backstopPower]; (repeat' split) <;> simp (maxDischargeDepth := 60) [h]
@[simp] theorem backstopThermal_kept {a1} (h : Kept Q s) : Kept Q (backstopThermal a1 s) := by
  simp only [backstopThermal]; (repeat' split) <;> simp (maxDischargeDepth := 60) [h]
theorem execPowerBackstopTick_kept {a1 a2} (h : Kept Q s) : KeptR Q (execPowerBackstopTick a1 a2 s) := by
  simp only [execPowerBackstopTick]; (repeat' split) <;> simp (maxDischargeDepth := 60) [h]
@[simp] theorem gateDom_kept {a1} (h : Kept Q s) : Kept Q (gateDom a1 s) := by
  unfold gateDom; (repeat' split) <;> simp (maxDischargeDepth := 60) [h]
@[simp] theorem startTest_kept {a1 a2} (h : Kept Q s) : Kept Q (startTest a1 a2 s) := by
  simp (maxDischargeDepth := 60) [startTest, h]
@[simp] theorem parkDom_kept {a1 a2} (h : Kept Q s) : Kept Q (parkDom a1 a2 s) := by
  simp only [parkDom]; (repeat' split) <;> simp (maxDischargeDepth := 60) [h]
@[simp] theorem releasePads_kept {a1} (h : Kept Q s) : Kept Q (releasePads a1 s) := by
  unfold releasePads; (repeat' split) <;> simp +contextual (maxDischargeDepth := 60) [h, kept_foldl, kept_ite, kept_elim]
@[simp] theorem domBack_kept {a1} (h : Kept Q s) : Kept Q (domBack a1 s) := by
  simp (maxDischargeDepth := 60) [domBack, h]
theorem execDomainReturnDone_kept {a1} (h : Kept Q s) : KeptR Q (execDomainReturnDone a1 s) := by
  simp only [execDomainReturnDone]; (repeat' split) <;> simp (maxDischargeDepth := 60) [h]
@[simp] theorem markBusy_kept (h : Kept Q s) : Kept Q (markBusy s) := by
  simp (maxDischargeDepth := 60) [markBusy, h]
theorem execDomainIdlePark_kept {a1} (h : Kept Q s) : KeptR Q (execDomainIdlePark a1 s) := by
  simp only [execDomainIdlePark]; (repeat' split) <;> simp (maxDischargeDepth := 60) [h]
@[simp] theorem fence_kept {a1 a2 a3} (h : Kept Q s) : Kept Q (fence a1 a2 a3 s) := by
  simp (maxDischargeDepth := 60) [fence, h]
@[simp] theorem belowMin_kept {a1} (h : Kept Q s) : Kept Q (belowMin a1 s) := by
  unfold belowMin; (repeat' split) <;> simp +contextual (maxDischargeDepth := 60) [h, kept_foldl, kept_ite, kept_elim]
@[simp] theorem judgeTest_kept {a1 a2} (h : Kept Q s) : Kept Q (judgeTest a1 a2 s) := by
  unfold judgeTest; (repeat' split) <;> simp +contextual (maxDischargeDepth := 60) [h, kept_foldl, kept_ite, kept_elim]
@[simp] theorem countTest_kept {a1 a2} (h : Kept Q s) : Kept Q (countTest a1 a2 s) := by
  simp (maxDischargeDepth := 60) [countTest, h]
@[simp] theorem endTestReq_kept {a1 a2 a3} (h : Kept Q s) : Kept Q (endTestReq a1 a2 a3 s) := by
  unfold endTestReq; (repeat' split) <;> simp (maxDischargeDepth := 60) [h]
theorem execSelftestSliceDone_kept {a1 a2} (h : Kept Q s) : KeptR Q (execSelftestSliceDone a1 a2 s) := by
  simp only [execSelftestSliceDone]; (repeat' split) <;> simp (maxDischargeDepth := 60) [h]
@[simp] theorem bodyPwrCapSet_kept {c} (h : Kept Q s) : Sat (fun x => Kept Q x.1) (bodyPwrCapSet c s) := by
  simp only [bodyPwrCapSet]; (repeat' (first | with_reducible refine sat_bind ?_ (fun _ _ => ?_) | split)) <;> simp (maxDischargeDepth := 60) [h]
theorem execPwrCapSet_kept {a1 a2} (h : Kept Q s) : KeptR Q (execPwrCapSet a1 a2 s) := 
  serve_kept (fun _ => fine_ok) (fun _ => bodyPwrCapSet_kept h) h
@[simp] theorem bodyPwrLevelSet_kept {c} (h : Kept Q s) : Sat (fun x => Kept Q x.1) (bodyPwrLevelSet c s) := by
  simp only [bodyPwrLevelSet]; (repeat' (first | with_reducible refine sat_bind ?_ (fun _ _ => ?_) | split)) <;> simp (maxDischargeDepth := 60) [h]
theorem execPwrLevelSet_kept {a1 a2} (h : Kept Q s) : KeptR Q (execPwrLevelSet a1 a2 s) := 
  serve_kept (fun _ => fine_ok) (fun _ => bodyPwrLevelSet_kept h) h
@[simp] theorem logPower_kept {a1 a2 a3 a4} (h : Kept Q s) : Kept Q (logPower a1 a2 a3 a4 s) := by
  simp (maxDischargeDepth := 60) [logPower, h]
@[simp] theorem refusePark_kept {a1 a2} (h : Kept Q s) : Kept Q (refusePark a1 a2 s) := by
  simp (maxDischargeDepth := 60) [refusePark, h]
@[simp] theorem fxKept_refusePark {a1 a2} : FxKept (refusePark a1 a2) := ⟨fun _ _ h => refusePark_kept h⟩
@[simp] theorem bodyPwrDomainPark_kept {c} (h : Kept Q s) : Sat (fun x => Kept Q x.1) (bodyPwrDomainPark c s) := by
  simp only [bodyPwrDomainPark]; (repeat' (first | with_reducible refine sat_bind ?_ (fun _ _ => ?_) | split)) <;> simp (maxDischargeDepth := 60) [h]
theorem execPwrDomainPark_kept {a1 a2} (h : Kept Q s) : KeptR Q (execPwrDomainPark a1 a2 s) := 
  serve_kept (fun _ => fine_ok) (fun _ => bodyPwrDomainPark_kept h) h
@[simp] theorem bodyPwrPadRelease_kept {c} (h : Kept Q s) : Sat (fun x => Kept Q x.1) (bodyPwrPadRelease c s) := by
  simp only [bodyPwrPadRelease]; (repeat' (first | with_reducible refine sat_bind ?_ (fun _ _ => ?_) | split)) <;> simp +contextual (maxDischargeDepth := 60) [h, kept_foldl, kept_ite, kept_elim]
theorem execPwrPadRelease_kept {a1 a2} (h : Kept Q s) : KeptR Q (execPwrPadRelease a1 a2 s) := 
  serve_kept (fun _ => fine_ok) (fun _ => bodyPwrPadRelease_kept h) h
@[simp] theorem bodyPwrStatus_kept {c} (h : Kept Q s) : Sat (fun x => Kept Q x.1) (bodyPwrStatus c s) := by
  simp only [bodyPwrStatus]; (repeat' (first | with_reducible refine sat_bind ?_ (fun _ _ => ?_) | split)) <;> simp (maxDischargeDepth := 60) [h]
theorem execPwrStatus_kept {a1 a2} (h : Kept Q s) : KeptR Q (execPwrStatus a1 a2 s) := 
  serve_kept (fun _ => fine_ok) (fun _ => bodyPwrStatus_kept h) h
@[simp] theorem bodyPwrCounters_kept {c} (h : Kept Q s) : Sat (fun x => Kept Q x.1) (bodyPwrCounters c s) := by
  simp only [bodyPwrCounters]; (repeat' (first | with_reducible refine sat_bind ?_ (fun _ _ => ?_) | split)) <;> simp (maxDischargeDepth := 60) [h]
theorem execPwrCounters_kept {a1 a2} (h : Kept Q s) : KeptR Q (execPwrCounters a1 a2 s) := 
  serve_kept (fun _ => fine_ok) (fun _ => bodyPwrCounters_kept h) h
@[simp] theorem raiseReady_kept (h : Kept Q s) : Kept Q (raiseReady s) := by
  simp (maxDischargeDepth := 60) [raiseReady, h]
@[simp] theorem restoreDoms_kept (h : Kept Q s) : Kept Q (restoreDoms s) := by
  simp (maxDischargeDepth := 60) [restoreDoms, h]
@[simp] theorem beginReturn_kept {a1 a2 a3} (h : Kept Q s) : Kept Q (beginReturn a1 a2 a3 s) := by
  simp only [beginReturn]; (repeat' split) <;> simp (maxDischargeDepth := 60) [h]
@[simp] theorem countAbort_kept {a1 a2 a3} (h : Kept Q s) : Kept Q (countAbort a1 a2 a3 s) := by
  simp (maxDischargeDepth := 60) [countAbort, h]
@[simp] theorem abortEntry_kept {a1 a2} (h : Kept Q s) : Kept Q (abortEntry a1 a2 s) := by
  unfold abortEntry; (repeat' split) <;> simp (maxDischargeDepth := 60) [h]

/-! ### Cancel -/

@[simp] theorem reopen_kept {a1} (h : Kept Q s) : Kept Q (reopen a1 s) := by
  simp (maxDischargeDepth := 60) [reopen, h]
@[simp] theorem dropRecast_kept {a1} (h : Kept Q s) : Kept Q (dropRecast a1 s) := by
  unfold dropRecast; (repeat' split) <;> simp (maxDischargeDepth := 60) [h]
@[simp] theorem cancelRunning_kept {a1 a2} (h : Kept Q s) : Kept Q (cancelRunning a1 a2 s) := by
  simp only [cancelRunning]; (repeat' split) <;> simp (maxDischargeDepth := 60) [h]
@[simp] theorem cancel_kept {a1 a2} (h : Kept Q s) : Kept Q (cancel a1 a2 s) := by
  unfold cancel; (repeat' split) <;> simp (maxDischargeDepth := 60) [h]
@[simp] theorem hidePair_kept {a1 a2 a3} (h : Kept Q s) : Kept Q (hidePair a1 a2 a3 s) := by
  simp (maxDischargeDepth := 60) [hidePair, h]
@[simp] theorem cancelSilent_kept {a1} (h : Kept Q s) : Kept Q (cancelSilent a1 s) := by
  unfold cancelSilent; (repeat' split) <;> simp (maxDischargeDepth := 60) [h]
@[simp] theorem cancelAll_kept {a1} (h : Kept Q s) : Kept Q (cancelAll a1 s) := by
  unfold cancelAll; (repeat' split) <;> simp +contextual (maxDischargeDepth := 60) [h, kept_foldl, kept_ite, kept_elim]
@[simp] theorem timeOut_kept {a1} (h : Kept Q s) : Kept Q (timeOut a1 s) := by
  unfold timeOut; (repeat' split) <;> simp (maxDischargeDepth := 60) [h]
theorem execCommandDeadline_kept {a1} (h : Kept Q s) : KeptR Q (execCommandDeadline a1 s) := by
  simp only [execCommandDeadline]; (repeat' split) <;> simp (maxDischargeDepth := 60) [h]
theorem execReleaseDeadline_kept {a1} (h : Kept Q s) : KeptR Q (execReleaseDeadline a1 s) := by
  unfold execReleaseDeadline; (repeat' split) <;> simp +contextual (maxDischargeDepth := 60) [h, kept_foldl, kept_ite, kept_elim]
theorem execOrphanHoldExpiry_kept {a1 a2} (h : Kept Q s) : KeptR Q (execOrphanHoldExpiry a1 a2 s) := by
  simp only [execOrphanHoldExpiry]; (repeat' split) <;> simp (maxDischargeDepth := 60) [h]

/-! ### Sessions -/

@[simp] theorem bodyAdmSessionOpen_kept {c} (h : Kept Q s) : Sat (fun x => Kept Q x.1) (bodyAdmSessionOpen c s) := by
  simp only [bodyAdmSessionOpen, newObj_pair]; (repeat' (first | with_reducible refine sat_bind ?_ (fun _ _ => ?_) | split)) <;> simp (maxDischargeDepth := 60) [h]
theorem execAdmSessionOpen_kept {a1 a2} (h : Kept Q s) : KeptR Q (execAdmSessionOpen a1 a2 s) := 
  serve_kept (fun _ => fine_ok) (fun _ => bodyAdmSessionOpen_kept h) h
@[simp] theorem stopSheet_kept {a1} (h : Kept Q s) : Kept Q (stopSheet a1 s) := by
  unfold stopSheet; (repeat' split) <;> simp +contextual (maxDischargeDepth := 60) [h, kept_foldl, kept_ite, kept_elim]
@[simp] theorem stopInput_kept {a1} (h : Kept Q s) : Kept Q (stopInput a1 s) := by
  unfold stopInput; (repeat' split) <;> simp (maxDischargeDepth := 60) [h]
@[simp] theorem orphan_kept {a1 a2} (h : Kept Q s) : Kept Q (orphan a1 a2 s) := by
  simp only [orphan]; (repeat' split) <;> simp (maxDischargeDepth := 60) [h]
@[simp] theorem endWork_kept {a1} (h : Kept Q s) : Kept Q (endWork a1 s) := by
  simp only [endWork, abortQueued_pair]; (repeat' split) <;> simp +contextual (maxDischargeDepth := 60) [h, kept_foldl, kept_ite, kept_elim]
@[simp] theorem beginClose_kept {a1 a2} (h : Kept Q s) : Kept Q (beginClose a1 a2 s).2.2 := by
  unfold beginClose
  exact kept_foldl (fun _ _ h => endWork_kept h) _ (kept_foldl (fun _ _ h => orphan_kept h) _
    (kept_foldl (fun _ _ h => stopInput_kept h) _ h))
@[irreducible] def beginCloseA := fun a1 a2 s => (beginClose a1 a2 s).1
@[irreducible] def beginCloseB := fun a1 a2 s => (beginClose a1 a2 s).2.1
@[irreducible] def beginCloseS := fun a1 a2 s => (beginClose a1 a2 s).2.2
theorem beginClose_pair {a1 a2} : beginClose a1 a2 s = (beginCloseA a1 a2 s, beginCloseB a1 a2 s, beginCloseS a1 a2 s) := by
  simp only [beginCloseA, beginCloseB, beginCloseS]
@[simp] theorem beginCloseS_kept {a1 a2} (h : Kept Q s) : Kept Q (beginCloseS a1 a2 s) := by
  unfold beginCloseS; exact beginClose_kept h
@[simp] theorem closeNow_kept {a1 a2} (h : Kept Q s) : Kept Q (closeNow a1 a2 s) := by
  simp only [closeNow, beginClose_pair]; (repeat' split) <;> simp (maxDischargeDepth := 60) [h]
@[simp] theorem closeSessions_kept {a1} (h : Kept Q s) : Kept Q (closeSessions a1 s) := by
  unfold closeSessions; (repeat' split) <;> simp +contextual (maxDischargeDepth := 60) [h, kept_foldl, kept_ite, kept_elim]
@[simp] theorem bodyAdmSessionClose_kept {c} (h : Kept Q s) : Sat (fun x => Kept Q x.1) (bodyAdmSessionClose c s) := by
  simp only [bodyAdmSessionClose, beginClose_pair]; (repeat' (first | with_reducible refine sat_bind ?_ (fun _ _ => ?_) | split)) <;> simp (maxDischargeDepth := 60) [h]
theorem execAdmSessionClose_kept {a1 a2} (h : Kept Q s) : KeptR Q (execAdmSessionClose a1 a2 s) := 
  serve_kept (fun _ => fine_ok) (fun _ => bodyAdmSessionClose_kept h) h
@[simp] theorem adoptArg_kept {a1} : Fine (adoptArg a1 s) := by
  simp [adoptArg]
@[simp] theorem bodyAdmSessionAdopt_kept {c} (h : Kept Q s) : Sat (fun x => Kept Q x.1) (bodyAdmSessionAdopt c s) := by
  simp only [bodyAdmSessionAdopt]; (repeat' (first | with_reducible refine sat_bind ?_ (fun _ _ => ?_) | split)) <;> simp (maxDischargeDepth := 60) [h]
theorem execAdmSessionAdopt_kept {a1 a2} (h : Kept Q s) : KeptR Q (execAdmSessionAdopt a1 a2 s) := 
  serve_kept (fun _ => by simp only [iAdmSessionAdopt]; (repeat' (first | with_reducible refine fine_bind ?_ (fun _ _ => ?_) | split)) <;> simp) (fun _ => bodyAdmSessionAdopt_kept h) h
@[simp] theorem bodyAdmHandleQuery_kept {c} (h : Kept Q s) : Sat (fun x => Kept Q x.1) (bodyAdmHandleQuery c s) := by
  simp only [bodyAdmHandleQuery]; (repeat' (first | with_reducible refine sat_bind ?_ (fun _ _ => ?_) | split)) <;> simp (maxDischargeDepth := 60) [h]
theorem execAdmHandleQuery_kept {a1 a2} (h : Kept Q s) : KeptR Q (execAdmHandleQuery a1 a2 s) := 
  serve_kept (fun _ => fine_ok) (fun _ => bodyAdmHandleQuery_kept h) h
@[simp] theorem bodyAdmEventWait_kept {c} (h : Kept Q s) : Sat (fun x => Kept Q x.1) (bodyAdmEventWait c s) := by
  simp only [bodyAdmEventWait]; (repeat' (first | with_reducible refine sat_bind ?_ (fun _ _ => ?_) | split)) <;> simp (maxDischargeDepth := 60) [h]
theorem execAdmEventWait_kept {a1 a2} (h : Kept Q s) : KeptR Q (execAdmEventWait a1 a2 s) := 
  serve_kept (fun _ => fine_ok) (fun _ => bodyAdmEventWait_kept h) h

/-! ### Security -/

@[simp] theorem pushBoot_kept {a1 a2 a3} (h : Kept Q s) : Kept Q (pushBoot a1 a2 a3 s) := by
  simp (maxDischargeDepth := 60) [pushBoot, h]
@[simp] theorem policyReset_kept (h : Kept Q s) : Kept Q (policyReset s) := by
  simp (maxDischargeDepth := 60) [policyReset, h]
@[simp] theorem policyFix_kept (h : Kept Q s) : Kept Q (policyFix s) := by
  unfold policyFix; (repeat' split) <;> simp (maxDischargeDepth := 60) [h]
@[simp] theorem eraseKeys_kept (h : Kept Q s) : Kept Q (eraseKeys s) := by
  simp (maxDischargeDepth := 60) [eraseKeys, h]
@[simp] theorem haltAct_kept (h : Kept Q s) : Kept Q (haltAct s) := by
  unfold haltAct; (repeat' split) <;> simp +contextual (maxDischargeDepth := 60) [h, kept_foldl, kept_ite, kept_elim]
@[simp] theorem throttleAct_kept {a1} (h : Kept Q s) : Kept Q (throttleAct a1 s) := by
  simp (maxDischargeDepth := 60) [throttleAct, h]
@[simp] theorem recordAlarm_kept {a1 a2 a3} (h : Kept Q s) : Kept Q (recordAlarm a1 a2 a3 s) := by
  simp (maxDischargeDepth := 60) [recordAlarm, h]
@[simp] theorem alarm_kept {a1 a2} (h : Kept Q s) : Kept Q (alarm a1 a2 s) := by
  simp only [alarm]; (repeat' split) <;> simp (maxDischargeDepth := 60) [h]
theorem execTamperAlarm_kept {a1 a2} (h : Kept Q s) : KeptR Q (execTamperAlarm a1 a2 s) := by
  unfold execTamperAlarm; (repeat' split) <;> simp (maxDischargeDepth := 60) [h]
@[simp] theorem actLatched_kept (h : Kept Q s) : Kept Q (actLatched s) := by
  unfold actLatched; (repeat' split) <;> simp +contextual (maxDischargeDepth := 60) [h, kept_foldl, kept_ite, kept_elim]
theorem execThrottleRelease_kept (h : Kept Q s) : KeptR Q (execThrottleRelease s) := by
  simp (maxDischargeDepth := 60) [execThrottleRelease, h]
theorem execThermalTrip_kept {a1} (h : Kept Q s) : KeptR Q (execThermalTrip a1 s) := by
  unfold execThermalTrip; (repeat' split) <;> simp (maxDischargeDepth := 60) [h]
@[simp] theorem closePort_kept {a1} (h : Kept Q s) : Kept Q (closePort a1 s) := by
  unfold closePort; (repeat' split) <;> simp (maxDischargeDepth := 60) [h]
theorem execChallengeExpiry_kept (h : Kept Q s) : KeptR Q (execChallengeExpiry s) := by
  unfold execChallengeExpiry; (repeat' split) <;> simp (maxDischargeDepth := 60) [h]
theorem execDebugPortExpiry_kept (h : Kept Q s) : KeptR Q (execDebugPortExpiry s) := by
  unfold execDebugPortExpiry; (repeat' split) <;> simp (maxDischargeDepth := 60) [h]
@[simp] theorem useChallenge_kept (h : Kept Q s) : Kept Q (useChallenge s) := by
  simp (maxDischargeDepth := 60) [useChallenge, h]
@[simp] theorem fxKept_useChallenge : FxKept (useChallenge) := ⟨fun _ _ h => useChallenge_kept h⟩
@[simp] theorem tokenCheck_kept {a1 a2} : Fine (tokenCheck a1 a2 s) := by
  simp only [tokenCheck]; (repeat' (first | with_reducible refine fine_bind ?_ (fun _ _ => ?_) | split)) <;> simp
@[simp] theorem acceptToken_kept {a1} (h : Kept Q s) : Kept Q (acceptToken a1 s) := by
  simp (maxDischargeDepth := 60) [acceptToken, h]
@[simp] theorem bodySecQuote_kept {c} (h : Kept Q s) : Sat (fun x => Kept Q x.1) (bodySecQuote c s) := by
  simp only [bodySecQuote]; (repeat' (first | with_reducible refine sat_bind ?_ (fun _ _ => ?_) | split)) <;> simp (maxDischargeDepth := 60) [h]
theorem execSecQuote_kept {a1 a2} (h : Kept Q s) : KeptR Q (execSecQuote a1 a2 s) := 
  serve_kept (fun _ => fine_ok) (fun _ => bodySecQuote_kept h) h
@[simp] theorem lifeBurn_kept {a1 a2 a3} (h : Kept Q s) : Kept Q (lifeBurn a1 a2 a3 s) := by
  simp only [lifeBurn, drawBytes]; (repeat' split) <;> simp (maxDischargeDepth := 60) [h]
@[simp] theorem measureLife_kept (h : Kept Q s) : Kept Q (measureLife s) := by
  simp (maxDischargeDepth := 60) [measureLife, h]
@[simp] theorem lifeMove_kept {a1 a2 a3} (h : Kept Q s) : Kept Q (lifeMove a1 a2 a3 s) := by
  simp only [lifeMove]; (repeat' split) <;> simp (maxDischargeDepth := 60) [h]
@[simp] theorem bodySecLifecycle_kept {c} (h : Kept Q s) : Sat (fun x => Kept Q x.1) (bodySecLifecycle c s) := by
  simp only [bodySecLifecycle]; (repeat' (first | with_reducible refine sat_bind ?_ (fun _ _ => ?_) | split)) <;> simp (maxDischargeDepth := 60) [h]
theorem execSecLifecycle_kept {a1 a2} (h : Kept Q s) : KeptR Q (execSecLifecycle a1 a2 s) := 
  serve_kept (fun _ => fine_ok) (fun _ => bodySecLifecycle_kept h) h
@[simp] theorem bodySecUnlockChallenge_kept {c} (h : Kept Q s) : Sat (fun x => Kept Q x.1) (bodySecUnlockChallenge c s) := by
  simp only [bodySecUnlockChallenge, drawBytes]; (repeat' (first | with_reducible refine sat_bind ?_ (fun _ _ => ?_) | split)) <;> simp (maxDischargeDepth := 60) [h]
theorem execSecUnlockChallenge_kept {a1 a2} (h : Kept Q s) : KeptR Q (execSecUnlockChallenge a1 a2 s) := 
  serve_kept (fun _ => fine_ok) (fun _ => bodySecUnlockChallenge_kept h) h
@[simp] theorem bodySecUnlock_kept {c} (h : Kept Q s) : Sat (fun x => Kept Q x.1) (bodySecUnlock c s) := by
  simp only [bodySecUnlock]; (repeat' (first | with_reducible refine sat_bind ?_ (fun _ _ => ?_) | split)) <;> simp (maxDischargeDepth := 60) [h]
theorem execSecUnlock_kept {a1 a2} (h : Kept Q s) : KeptR Q (execSecUnlock a1 a2 s) := 
  serve_kept (fun _ => fine_ok) (fun _ => bodySecUnlock_kept h) h
@[simp] theorem bodySecAlarmPolicy_kept {c} (h : Kept Q s) : Sat (fun x => Kept Q x.1) (bodySecAlarmPolicy c s) := by
  simp only [bodySecAlarmPolicy]; (repeat' (first | with_reducible refine sat_bind ?_ (fun _ _ => ?_) | split)) <;> simp (maxDischargeDepth := 60) [h]
theorem execSecAlarmPolicy_kept {a1 a2} (h : Kept Q s) : KeptR Q (execSecAlarmPolicy a1 a2 s) := 
  serve_kept (fun _ => fine_ok) (fun _ => bodySecAlarmPolicy_kept h) h
@[simp] theorem bodySecIdentityRead_kept {c} (h : Kept Q s) : Sat (fun x => Kept Q x.1) (bodySecIdentityRead c s) := by
  simp only [bodySecIdentityRead]; (repeat' (first | with_reducible refine sat_bind ?_ (fun _ _ => ?_) | split)) <;> simp (maxDischargeDepth := 60) [h]
theorem execSecIdentityRead_kept {a1 a2} (h : Kept Q s) : KeptR Q (execSecIdentityRead a1 a2 s) := 
  serve_kept (fun _ => fine_ok) (fun _ => bodySecIdentityRead_kept h) h

end Sys2Proof.Machine
end

