-- ==== Sys2Proof/Laws/KeptBoot.lean ====
section
/-! SUPPORT. What is kept (Laws/Kept.lean) by starts and resets, recasting and sleep. -/
namespace Sys2Proof.Machine
set_option Elab.async false
set_option linter.unusedSimpArgs false
variable {Q : List Instr} {s t : State}

/-! ### Boot -/

@[simp] theorem countReset_kept {a1} (h : Kept Q s) : Kept Q (countReset a1 s) := by
  simp (maxDischargeDepth := 60) [countReset, h]
@[simp] theorem powerReset_kept (h : Kept Q s) : Kept Q (powerReset s) := by
  unfold powerReset
  have h0 : Kept Q { State.reset with
      pending := s.pending, out := s.out, fresh := s.fresh
      boot := keepPins s.boot State.reset.boot, sec := keepOtp s.sec State.reset.sec } :=
    ⟨h.pending, rfl, rfl, fun a ha => (by cases ha), fun a ha => (by cases ha)⟩
  have h1 := policyReset_kept h0
  exact ⟨h1.pending, h1.request, h1.data, h1.allocs, h1.insts⟩
@[simp] theorem coldReset_kept (h : Kept Q s) : Kept Q (coldReset s) := by
  simp (maxDischargeDepth := 60) [coldReset, h]
@[simp] theorem hold_kept (h : Kept Q s) : Kept Q (hold s) := by
  simp (maxDischargeDepth := 60) [hold, h]
@[simp] theorem enterUnderstudy_kept {a1} (h : Kept Q s) : Kept Q (enterUnderstudy a1 s) := by
  simp (maxDischargeDepth := 60) [enterUnderstudy, h]
@[simp] theorem serviceFix_kept (h : Kept Q s) : Kept Q (serviceFix s) := by
  unfold serviceFix; (repeat' split) <;> simp (maxDischargeDepth := 60) [h]
@[simp] theorem latchedAtStart_kept (h : Kept Q s) : Kept Q (latchedAtStart s) := by
  unfold latchedAtStart; (repeat' split) <;> simp +contextual (maxDischargeDepth := 60) [h, kept_foldl, kept_ite, kept_elim]
@[simp] theorem startStep2_kept (h : Kept Q s) : Kept Q (startStep2 s) := by
  unfold startStep2
  dsimp only
  generalize hs : latchedAtStart _ = s2
  have h2 : Kept Q s2 := by
    rw [← hs]
    simp (maxDischargeDepth := 60) [h]
  (repeat' split) <;> simp (maxDischargeDepth := 60) [h2]
@[simp] theorem startCold_kept (h : Kept Q s) : Kept Q (startCold s) := by
  simp (maxDischargeDepth := 60) [startCold, h]
@[simp] theorem tryStart_kept (h : Kept Q s) : Kept Q (tryStart s) := by
  unfold tryStart; (repeat' split) <;> simp (maxDischargeDepth := 60) [h]
@[simp] theorem failStart_kept {a1} (h : Kept Q s) : Kept Q (failStart a1 s) := by
  simp (maxDischargeDepth := 60) [failStart, h]
@[simp] theorem raiseMain_kept (h : Kept Q s) : Kept Q (raiseMain s) := by
  simp (maxDischargeDepth := 60) [raiseMain, h]
@[simp] theorem powerLost_kept (h : Kept Q s) : Kept Q (powerLost s) := by
  simp only [powerLost]; (repeat' split) <;> simp (maxDischargeDepth := 60) [h]
theorem execVauxRise_kept {a1} (h : Kept Q s) : KeptR Q (execVauxRise a1 s) := by
  unfold execVauxRise; (repeat' split) <;> simp (maxDischargeDepth := 60) [h]
theorem execPowerLoss_kept {a1} (h : Kept Q s) : KeptR Q (execPowerLoss a1 s) := by
  unfold execPowerLoss; (repeat' split) <;> simp (maxDischargeDepth := 60) [h]
theorem execMainPgRise_kept {a2} (h : Kept Q s) : KeptR Q (execMainPgRise s a2) := by
  unfold execMainPgRise; exact pinPulse_kept h fun s h => by (show Kept Q _); (repeat' split) <;> simp +contextual (maxDischargeDepth := 60) [h, kept_foldl, kept_ite]
theorem execMainPgFall_kept {a2} (h : Kept Q s) : KeptR Q (execMainPgFall s a2) := by
  unfold execMainPgFall; exact pinPulse_kept h fun s h => by (show Kept Q _); (repeat' split) <;> simp +contextual (maxDischargeDepth := 60) [h, kept_foldl, kept_ite]
theorem execMainPgTimeout_kept (h : Kept Q s) : KeptR Q (execMainPgTimeout s) := by
  unfold execMainPgTimeout; (repeat' split) <;> simp (maxDischargeDepth := 60) [h]
theorem execMainPgReturnTimeout_kept (h : Kept Q s) : KeptR Q (execMainPgReturnTimeout s) := by
  unfold execMainPgReturnTimeout; (repeat' split) <;> simp (maxDischargeDepth := 60) [h]
@[simp] theorem pinReset_kept (h : Kept Q s) : Kept Q (pinReset s) := by
  simp only [pinReset]; (repeat' split) <;> simp (maxDischargeDepth := 60) [h]
theorem execResetNAssert_kept {a2} (h : Kept Q s) : KeptR Q (execResetNAssert s a2) := by
  unfold execResetNAssert; exact pinPulse_kept h fun s h => by (show Kept Q _); (repeat' split) <;> simp +contextual (maxDischargeDepth := 60) [h, kept_foldl, kept_ite]
theorem execResetNRelease_kept {a1 a3} (h : Kept Q s) : KeptR Q (execResetNRelease a1 s a3) := by
  unfold execResetNRelease; exact pinPulse_kept h fun s h => by (show Kept Q _); (repeat' split) <;> simp +contextual (maxDischargeDepth := 60) [h, kept_foldl, kept_ite]
theorem execPerstNAssert_kept {a2} (h : Kept Q s) : KeptR Q (execPerstNAssert s a2) := by
  unfold execPerstNAssert; exact pinPulse_kept h fun s h => by (show Kept Q _); (repeat' split) <;> simp +contextual (maxDischargeDepth := 60) [h, kept_foldl, kept_ite]
theorem execClkRefLoss_kept (h : Kept Q s) : KeptR Q (execClkRefLoss s) := by
  simp only [execClkRefLoss]; (repeat' split) <;> simp (maxDischargeDepth := 60) [h]
theorem execClkRefReturn_kept {a1} (h : Kept Q s) : KeptR Q (execClkRefReturn a1 s) := by
  unfold execClkRefReturn; (repeat' split) <;> simp (maxDischargeDepth := 60) [h]
@[simp] theorem applyUcal_kept (h : Kept Q s) : Kept Q (applyUcal s) := by
  unfold applyUcal; (repeat' split) <;> simp (maxDischargeDepth := 60) [h]
@[simp] theorem startTest8_kept {a1 a3} (h : Kept Q s) : Kept Q (startTest8 a1 s a3) := by
  unfold startTest8; (repeat' split) <;> simp (maxDischargeDepth := 60) [h]
@[simp] theorem serveAgain_kept {a1 a2} (h : Kept Q s) : Kept Q (serveAgain a1 a2 s) := by
  simp only [serveAgain]; (repeat' split) <;> simp (maxDischargeDepth := 60) [h]
theorem execColdStartReady_kept {a1} (h : Kept Q s) : KeptR Q (execColdStartReady a1 s) := by
  simp only [execColdStartReady]; (repeat' split) <;> simp +contextual (maxDischargeDepth := 60) [h, kept_foldl, kept_ite, kept_elim]
theorem execBootWatchdog_kept (h : Kept Q s) : KeptR Q (execBootWatchdog s) := by
  unfold execBootWatchdog; (repeat' split) <;> simp (maxDischargeDepth := 60) [h]
@[simp] theorem raiseFloor_kept {a1} (h : Kept Q s) : Kept Q (raiseFloor a1 s) := by
  unfold raiseFloor; (repeat' split) <;> simp (maxDischargeDepth := 60) [h]
theorem execFscClear_kept (h : Kept Q s) : KeptR Q (execFscClear s) := by
  simp only [execFscClear]; (repeat' split) <;> simp (maxDischargeDepth := 60) [h]
@[simp] theorem dropJournalled_kept (h : Kept Q s) : Kept Q (dropJournalled s) := by
  simp (maxDischargeDepth := 60) [dropJournalled, h]
@[simp] theorem warmReset_kept {a1} (h : Kept Q s) : Kept Q (warmReset a1 s) := by
  simp (maxDischargeDepth := 60) [warmReset, h]
@[simp] theorem dueReset_kept (h : Kept Q s) : Kept Q (dueReset s) := by
  unfold dueReset; (repeat' split) <;> simp (maxDischargeDepth := 60) [h]
@[simp] theorem leaveUnderstudy_kept (h : Kept Q s) : Kept Q (leaveUnderstudy s) := by
  simp (maxDischargeDepth := 60) [leaveUnderstudy, h]
@[simp] theorem serviceReset_kept {a1} (h : Kept Q s) : Kept Q (serviceReset a1 s) := by
  unfold serviceReset; (repeat' split) <;> simp (maxDischargeDepth := 60) [h]
theorem execSmWatchdog_kept (h : Kept Q s) : KeptR Q (execSmWatchdog s) := by
  simp (maxDischargeDepth := 60) [execSmWatchdog, h]
theorem execLockstepMismatch_kept {a1} (h : Kept Q s) : KeptR Q (execLockstepMismatch a1 s) := by
  unfold execLockstepMismatch; (repeat' split) <;> simp (maxDischargeDepth := 60) [h]
theorem execAdmResetWarm_kept {a1 a2} (h : Kept Q s) : KeptR Q (execAdmResetWarm a1 a2 s) := by
  unfold execAdmResetWarm
  show Kept Q _
  split
  · exact h
  · split
    · next e => exact settle_kept (post_kept ((validate_fine (fun _ => fine_ok) _ e).keep Q s h))
    · dsimp only
      split <;> simp (maxDischargeDepth := 60) [h]
@[simp] theorem countForward_kept (h : Kept Q s) : Kept Q (countForward s) := by
  simp (maxDischargeDepth := 60) [countForward, h]
@[simp] theorem countBack_kept (h : Kept Q s) : Kept Q (countBack s) := by
  simp (maxDischargeDepth := 60) [countBack, h]
@[simp] theorem replayMap_kept {a2} (h : Kept Q s) : Kept Q (replayMap s a2) := by
  unfold replayMap; (repeat' split) <;> simp (maxDischargeDepth := 60) [h]
@[simp] theorem replayIdx_kept {a2} (h : Kept Q s) : Kept Q (replayIdx s a2) := by
  unfold replayIdx; (repeat' split) <;> simp (maxDischargeDepth := 60) [h]
@[simp] theorem replayReplicas_kept (h : Kept Q s) : Kept Q (replayReplicas s) := by
  unfold replayReplicas; (repeat' split) <;> simp +contextual (maxDischargeDepth := 60) [h, kept_foldl, kept_ite, kept_elim]
@[simp] theorem replayLeave_kept (h : Kept Q s) : Kept Q (replayLeave s) := by
  unfold replayLeave; (repeat' split) <;> simp (maxDischargeDepth := 60) [h]
@[simp] theorem endRecast_kept {a1} (h : Kept Q s) : Kept Q (endRecast a1 s) := by
  simp (maxDischargeDepth := 60) [endRecast, h]
@[simp] theorem takeFallback_kept (h : Kept Q s) : Kept Q (takeFallback s) := by
  simp (maxDischargeDepth := 60) [takeFallback, h]
@[simp] theorem replayRecast_kept (h : Kept Q s) : Kept Q (replayRecast s) := by
  unfold replayRecast; (repeat' split) <;> simp (maxDischargeDepth := 60) [h]
@[simp] theorem replay_kept (h : Kept Q s) : Kept Q (replay s) := by
  unfold replay; (repeat' split) <;> simp +contextual (maxDischargeDepth := 60) [h, kept_foldl, kept_ite, kept_elim]
theorem execWarmResetComplete_kept (h : Kept Q s) : KeptR Q (execWarmResetComplete s) := by
  simp only [execWarmResetComplete]; (repeat' split) <;> simp (maxDischargeDepth := 60) [h]
theorem execStartAttemptFailure_kept {a1} (h : Kept Q s) : KeptR Q (execStartAttemptFailure a1 s) := by
  unfold execStartAttemptFailure; (repeat' split) <;> simp (maxDischargeDepth := 60) [h]

/-! ### Recast -/

@[simp] theorem loadUcal_kept {a1} (h : Kept Q s) : Sat (fun x => Kept Q x.1) (loadUcal a1 s) := by
  simp only [loadUcal, draw]; (repeat' (first | with_reducible refine sat_bind ?_ (fun _ _ => ?_) | split)) <;> simp (maxDischargeDepth := 60) [h]
@[simp] theorem loadUnderstudy_kept {a1} (h : Kept Q s) : Kept Q (loadUnderstudy a1 s) := by
  simp only [loadUnderstudy]; (repeat' split) <;> simp (maxDischargeDepth := 60) [h]
@[simp] theorem bodyRecastImageLoad_kept {c} (h : Kept Q s) : Sat (fun x => Kept Q x.1) (bodyRecastImageLoad c s) := by
  simp only [bodyRecastImageLoad]; (repeat' (first | with_reducible refine sat_bind ?_ (fun _ _ => ?_) | split)) <;> simp (maxDischargeDepth := 60) [h]
theorem execRecastImageLoad_kept {a1 a2} (h : Kept Q s) : KeptR Q (execRecastImageLoad a1 a2 s) := 
  serve_kept (fun _ => fine_ok) (fun _ => bodyRecastImageLoad_kept h) h
@[simp] theorem floorOk_kept {a1} : Fine (floorOk a1 s) := by
  simp [floorOk]
@[simp] theorem bodyRecastCommit_kept {c} (h : Kept Q s) : Sat (fun x => Kept Q x.1) (bodyRecastCommit c s) := by
  simp only [bodyRecastCommit, journalBegin_pair]; (repeat' (first | with_reducible refine sat_bind ?_ (fun _ _ => ?_) | split)) <;> simp (maxDischargeDepth := 60) [h]
theorem execRecastCommit_kept {a1 a2} (h : Kept Q s) : KeptR Q (execRecastCommit a1 a2 s) := 
  serve_kept (fun _ => fine_ok) (fun _ => bodyRecastCommit_kept h) h
@[simp] theorem bodyRecastFallback_kept {c} (h : Kept Q s) : Sat (fun x => Kept Q x.1) (bodyRecastFallback c s) := by
  simp only [bodyRecastFallback, journalBegin_pair]; (repeat' (first | with_reducible refine sat_bind ?_ (fun _ _ => ?_) | split)) <;> simp (maxDischargeDepth := 60) [h]
theorem execRecastFallback_kept {a1 a2} (h : Kept Q s) : KeptR Q (execRecastFallback a1 a2 s) := 
  serve_kept (fun _ => fine_ok) (fun _ => bodyRecastFallback_kept h) h
@[simp] theorem measureImage_kept (h : Kept Q s) : Kept Q (measureImage s) := by
  unfold measureImage; (repeat' split) <;> simp (maxDischargeDepth := 60) [h]
theorem execRecastHandover_kept (h : Kept Q s) : KeptR Q (execRecastHandover s) := by
  simp only [execRecastHandover, draw]; (repeat' split) <;> simp (maxDischargeDepth := 60) [h]
theorem execProbationEnd_kept (h : Kept Q s) : KeptR Q (execProbationEnd s) := by
  unfold execProbationEnd; (repeat' split) <;> simp (maxDischargeDepth := 60) [h]
@[simp] theorem bodyDiagLogRead_kept {c} (h : Kept Q s) : Sat (fun x => Kept Q x.1) (bodyDiagLogRead c s) := by
  simp only [bodyDiagLogRead]; (repeat' (first | with_reducible refine sat_bind ?_ (fun _ _ => ?_) | split)) <;> simp (maxDischargeDepth := 60) [h]
theorem execDiagLogRead_kept {a1 a2} (h : Kept Q s) : KeptR Q (execDiagLogRead a1 a2 s) := 
  serve_kept (fun _ => fine_ok) (fun _ => bodyDiagLogRead_kept h) h
@[simp] theorem diagClear_kept {a1} (h : Kept Q s) : Kept Q (diagClear a1 s) := by
  unfold diagClear; (repeat' split) <;> simp (maxDischargeDepth := 60) [h]
@[simp] theorem bodyDiagCounters_kept {c} (h : Kept Q s) : Sat (fun x => Kept Q x.1) (bodyDiagCounters c s) := by
  simp only [bodyDiagCounters]; (repeat' (first | with_reducible refine sat_bind ?_ (fun _ _ => ?_) | split)) <;> simp (maxDischargeDepth := 60) [h]
theorem execDiagCounters_kept {a1 a2} (h : Kept Q s) : KeptR Q (execDiagCounters a1 a2 s) := 
  serve_kept (fun _ => fine_ok) (fun _ => bodyDiagCounters_kept h) h
@[simp] theorem bodyDiagSelftestRecord_kept {c} (h : Kept Q s) : Sat (fun x => Kept Q x.1) (bodyDiagSelftestRecord c s) := by
  simp only [bodyDiagSelftestRecord]; (repeat' (first | with_reducible refine sat_bind ?_ (fun _ _ => ?_) | split)) <;> simp (maxDischargeDepth := 60) [h]
theorem execDiagSelftestRecord_kept {a1 a2} (h : Kept Q s) : KeptR Q (execDiagSelftestRecord a1 a2 s) := 
  serve_kept (fun _ => fine_ok) (fun _ => bodyDiagSelftestRecord_kept h) h
@[simp] theorem bodyDiagJournalRead_kept {c} (h : Kept Q s) : Sat (fun x => Kept Q x.1) (bodyDiagJournalRead c s) := by
  simp only [bodyDiagJournalRead]; (repeat' (first | with_reducible refine sat_bind ?_ (fun _ _ => ?_) | split)) <;> simp (maxDischargeDepth := 60) [h]
theorem execDiagJournalRead_kept {a1 a2} (h : Kept Q s) : KeptR Q (execDiagJournalRead a1 a2 s) := 
  serve_kept (fun _ => fine_ok) (fun _ => bodyDiagJournalRead_kept h) h
@[simp] theorem abortRuns_kept {a1} (h : Kept Q s) : Kept Q (abortRuns a1 s) := by
  unfold abortRuns; (repeat' split) <;> simp +contextual (maxDischargeDepth := 60) [h, kept_foldl, kept_ite, kept_elim]
@[simp] theorem stopQuad_kept {a1} (h : Kept Q s) : Kept Q (stopQuad a1 s) := by
  simp (maxDischargeDepth := 60) [stopQuad, h]
@[simp] theorem abortSets_kept {a1} (h : Kept Q s) : Kept Q (abortSets a1 s) := by
  unfold abortSets; (repeat' split) <;> simp +contextual (maxDischargeDepth := 60) [h, kept_foldl, kept_ite, kept_elim]
@[simp] theorem abortSearch_kept {a1} (h : Kept Q s) : Kept Q (abortSearch a1 s) := by
  unfold abortSearch; (repeat' split) <;> simp +contextual (maxDischargeDepth := 60) [h, kept_foldl, kept_ite, kept_elim]
@[simp] theorem restartChain_kept (h : Kept Q s) : Kept Q (restartChain s) := by
  unfold restartChain; (repeat' split) <;> simp +contextual (maxDischargeDepth := 60) [h, kept_foldl, kept_ite, kept_elim]
@[simp] theorem cutFrames_kept {a1} (h : Kept Q s) : Kept Q (cutFrames a1 s) := by
  simp (maxDischargeDepth := 60) [cutFrames, h]
@[simp] theorem abortDomain_kept {a1} (h : Kept Q s) : Kept Q (abortDomain a1 s) := by
  unfold abortDomain
  split
  · simp (maxDischargeDepth := 60) [h]
  · split
    · extract_lets s1 clear
      have h1 : Kept Q s1 := abortRuns_kept h
      exact ⟨h1.pending, h1.request, h1.data,
        allocsOk_map (fun a ha => by simp only [clear]; split <;> simp [ha]) h1.allocs, h1.insts⟩
    · (repeat' split) <;> simp (maxDischargeDepth := 60) [h]
@[simp] theorem resetCommon_kept (h : Kept Q s) : Kept Q (resetCommon s) := by
  simp (maxDischargeDepth := 60) [resetCommon, h]
@[simp] theorem bodyAdmResetDomain_kept {c} (h : Kept Q s) : Sat (fun x => Kept Q x.1) (bodyAdmResetDomain c s) := by
  simp only [bodyAdmResetDomain]; (repeat' (first | with_reducible refine sat_bind ?_ (fun _ _ => ?_) | split)) <;> simp_all (maxDischargeDepth := 60)
theorem execAdmResetDomain_kept {a1 a2} (h : Kept Q s) : KeptR Q (execAdmResetDomain a1 a2 s) := 
  serve_kept (fun _ => fine_ok) (fun _ => bodyAdmResetDomain_kept h) h

/-! ### Sleep -/

@[simp] theorem refuseEntry_kept {a1 a2} (h : Kept Q s) : Kept Q (refuseEntry a1 a2 s) := by
  simp (maxDischargeDepth := 60) [refuseEntry, h]
@[simp] theorem fxKept_refuseEntry {a1 a2} : FxKept (refuseEntry a1 a2) := ⟨fun _ _ h => refuseEntry_kept h⟩
@[simp] theorem gateEntry_kept {a1 a3} (h : Kept Q s) : Kept Q (gateEntry a1 s a3) := by
  simp only [gateEntry]; (repeat' split) <;> simp (maxDischargeDepth := 60) [h]
@[simp] theorem beginEntry_kept {a1 a2 a3 a4 a5} (h : Kept Q s) : Kept Q (beginEntry a1 a2 a3 a4 a5 s) := by
  unfold beginEntry; (repeat' split) <;> simp +contextual (maxDischargeDepth := 60) [h, kept_foldl, kept_ite, kept_elim]
@[simp] theorem bodyPwrStateEnter_kept {c} (h : Kept Q s) : Sat (fun x => Kept Q x.1) (bodyPwrStateEnter c s) := by
  simp only [bodyPwrStateEnter]; (repeat' (first | with_reducible refine sat_bind ?_ (fun _ _ => ?_) | split)) <;> simp (maxDischargeDepth := 60) [h]
theorem execPwrStateEnter_kept {a1 a2} (h : Kept Q s) : KeptR Q (execPwrStateEnter a1 a2 s) := 
  serve_kept (fun _ => fine_ok) (fun _ => bodyPwrStateEnter_kept h) h
@[simp] theorem countWake_kept {a1} (h : Kept Q s) : Kept Q (countWake a1 s) := by
  simp (maxDischargeDepth := 60) [countWake, h]
@[simp] theorem startWake_kept {a1 a2} (h : Kept Q s) : Kept Q (startWake a1 a2 s) := by
  unfold startWake; (repeat' split) <;> simp (maxDischargeDepth := 60) [h]
@[simp] theorem replayLatch_kept (h : Kept Q s) : Kept Q (replayLatch s) := by
  unfold replayLatch; (repeat' split) <;> simp (maxDischargeDepth := 60) [h]
@[simp] theorem wake_kept {a1 a2} (h : Kept Q s) : Kept Q (wake a1 a2 s) := by
  simp only [wake, draw]; (repeat' split) <;> simp (maxDischargeDepth := 60) [h]
@[simp] theorem inBand_kept (h : Kept Q s) : Kept Q (inBand s) := by
  simp (maxDischargeDepth := 60) [inBand, h]
theorem execWakeNEdge_kept {a2} (h : Kept Q s) : KeptR Q (execWakeNEdge s a2) := by
  unfold execWakeNEdge; exact pinPulse_kept h fun s h => by (show Kept Q _); (repeat' split) <;> simp +contextual (maxDischargeDepth := 60) [h, kept_foldl, kept_ite]
theorem execGpioWakeEdge_kept {a1 a2 a4} (h : Kept Q s) : KeptR Q (execGpioWakeEdge a1 a2 s a4) := by
  unfold execGpioWakeEdge; exact pinPulse_kept h fun s h => by (show Kept Q _); (repeat' split) <;> simp +contextual (maxDischargeDepth := 60) [h, kept_foldl, kept_ite]
theorem execSbWakeTransaction_kept {a1} (h : Kept Q s) : KeptR Q (execSbWakeTransaction a1 s) := by
  simp only [execSbWakeTransaction]; (repeat' split) <;> simp (maxDischargeDepth := 60) [h]
theorem execTimeAlarmFire_kept {a1} (h : Kept Q s) : KeptR Q (execTimeAlarmFire a1 s) := by
  unfold execTimeAlarmFire; (repeat' split) <;> simp (maxDischargeDepth := 60) [h]
@[simp] theorem reachState_kept {a1 a2} (h : Kept Q s) : Kept Q (reachState a1 a2 s) := by
  simp (maxDischargeDepth := 60) [reachState, h]
@[simp] theorem entryDone_kept {a1} (h : Kept Q s) : Kept Q (entryDone a1 s) := by
  unfold entryDone; (repeat' split) <;> simp +contextual (maxDischargeDepth := 60) [h, kept_foldl, kept_ite, kept_elim]
@[simp] theorem gatePorts_kept (h : Kept Q s) : Kept Q (gatePorts s) := by
  simp only [gatePorts]; (repeat' split) <;> simp +contextual (maxDischargeDepth := 60) [h, kept_foldl, kept_ite, kept_elim]
@[simp] theorem enterS4_kept (h : Kept Q s) : Kept Q (enterS4 s) := by
  simp (maxDischargeDepth := 60) [enterS4, h]
theorem execSleepEntryGated_kept (h : Kept Q s) : KeptR Q (execSleepEntryGated s) := by
  simp only [execSleepEntryGated]; (repeat' split) <;> simp (maxDischargeDepth := 60) [h]
@[simp] theorem abortLate_kept {a1} (h : Kept Q s) : Kept Q (abortLate a1 s) := by
  unfold abortLate; (repeat' split) <;> simp (maxDischargeDepth := 60) [h]
theorem execEntryLinkTimeout_kept (h : Kept Q s) : KeptR Q (execEntryLinkTimeout s) := by
  unfold execEntryLinkTimeout; (repeat' split) <;> simp (maxDischargeDepth := 60) [h]
theorem execDomainGateTimeout_kept {a1} (h : Kept Q s) : KeptR Q (execDomainGateTimeout a1 s) := by
  simp only [execDomainGateTimeout]; (repeat' split) <;> simp (maxDischargeDepth := 60) [h]
@[simp] theorem linkToL2_kept (h : Kept Q s) : Kept Q (linkToL2 s) := by
  simp (maxDischargeDepth := 60) [linkToL2, h]
@[simp] theorem enterS3_kept (h : Kept Q s) : Kept Q (enterS3 s) := by
  simp (maxDischargeDepth := 60) [enterS3, h]
theorem execPmeTurnOff_kept (h : Kept Q s) : KeptR Q (execPmeTurnOff s) := by
  simp only [execPmeTurnOff, draw]; (repeat' split) <;> simp +contextual (maxDischargeDepth := 60) [h, kept_foldl, kept_ite, kept_elim]
@[simp] theorem restoreM_kept (h : Kept Q s) : Kept Q (restoreM s).2 := by
  unfold restoreM; (repeat' split) <;> simp (maxDischargeDepth := 60) [h]
@[irreducible] def restoreMA := fun s => (restoreM s).1
@[irreducible] def restoreMS := fun s => (restoreM s).2
theorem restoreM_pair : restoreM s = (restoreMA s, restoreMS s) := by
  simp only [restoreMA, restoreMS]
@[simp] theorem restoreMS_kept (h : Kept Q s) : Kept Q (restoreMS s) := by
  unfold restoreMS; exact restoreM_kept h
@[simp] theorem haltedDoms_kept (h : Kept Q s) : Kept Q (haltedDoms s) := by
  unfold haltedDoms; (repeat' split) <;> simp (maxDischargeDepth := 60) [h]
@[simp] theorem endReturn_kept {a1 a2 a3} (h : Kept Q s) : Kept Q (endReturn a1 a2 a3 s) := by
  simp only [endReturn]; (repeat' split) <;> simp (maxDischargeDepth := 60) [h]
theorem execReturnComplete_kept (h : Kept Q s) : KeptR Q (execReturnComplete s) := by
  simp only [execReturnComplete, restoreM_pair]; (repeat' split) <;> simp (maxDischargeDepth := 60) [h]
theorem execBrownOut_kept (h : Kept Q s) : KeptR Q (execBrownOut s) := by
  unfold execBrownOut; (repeat' split) <;> simp (maxDischargeDepth := 60) [h]
@[simp] theorem releaseWakeN_kept (h : Kept Q s) : Kept Q (releaseWakeN s) := by
  unfold releaseWakeN; (repeat' split) <;> simp (maxDischargeDepth := 60) [h]
theorem execPcieLinkTrained_kept {a1 a2} (h : Kept Q s) : KeptR Q (execPcieLinkTrained a1 a2 s) := by
  simp only [execPcieLinkTrained]; (repeat' split) <;> simp (maxDischargeDepth := 60) [h]
theorem execWakeNDriveExpiry_kept (h : Kept Q s) : KeptR Q (execWakeNDriveExpiry s) := by
  unfold execWakeNDriveExpiry; (repeat' split) <;> simp (maxDischargeDepth := 60) [h]
theorem execPerstNRelease_kept {a1 a3} (h : Kept Q s) : KeptR Q (execPerstNRelease a1 s a3) := by
  unfold execPerstNRelease; exact pinPulse_kept h fun s h => by (show Kept Q _); (repeat' split) <;> simp +contextual (maxDischargeDepth := 60) [h, kept_foldl, kept_ite]

end Sys2Proof.Machine
end

