-- ==== Sys2Proof/Laws/KeptHost.lean ====
section
/-! SUPPORT. What is kept (Laws/Kept.lean) by the host link, the register maps and the scrubber. -/
namespace Sys2Proof.Machine
set_option Elab.async false
set_option linter.unusedSimpArgs false
variable {Q : List Instr} {s t : State}

/-! ### Admin -/

@[simp] theorem bodyAdmIdentify_kept {c} (h : Kept Q s) : Sat (fun x => Kept Q x.1) (bodyAdmIdentify c s) := by
  simp only [bodyAdmIdentify]; (repeat' (first | with_reducible refine sat_bind ?_ (fun _ _ => ?_) | split)) <;> simp (maxDischargeDepth := 60) [h]
theorem execAdmIdentify_kept {a1 a2} (h : Kept Q s) : KeptR Q (execAdmIdentify a1 a2 s) := 
  serve_kept (fun _ => fine_ok) (fun _ => bodyAdmIdentify_kept h) h
@[simp] theorem deletePair_kept {a1 a2} (h : Kept Q s) : Kept Q (deletePair a1 a2 s) := by
  simp (maxDischargeDepth := 60) [deletePair, h]
@[simp] theorem giveUp_kept {a1 a2} (h : Kept Q s) : Kept Q (giveUp a1 a2 s) := by
  unfold giveUp; (repeat' split) <;> simp +contextual (maxDischargeDepth := 60) [h, kept_foldl, kept_ite, kept_elim]
@[simp] theorem bodyAdmQueueCreate_kept {c} (h : Kept Q s) : Sat (fun x => Kept Q x.1) (bodyAdmQueueCreate c s) := by
  simp only [bodyAdmQueueCreate]; (repeat' (first | with_reducible refine sat_bind ?_ (fun _ _ => ?_) | split)) <;> simp (maxDischargeDepth := 60) [h]
theorem execAdmQueueCreate_kept {a1 a2} (h : Kept Q s) : KeptR Q (execAdmQueueCreate a1 a2 s) := 
  serve_kept (fun _ => fine_ok) (fun _ => bodyAdmQueueCreate_kept h) h
@[simp] theorem bodyAdmQueueDelete_kept {c} (h : Kept Q s) : Sat (fun x => Kept Q x.1) (bodyAdmQueueDelete c s) := by
  simp only [bodyAdmQueueDelete]; (repeat' (first | with_reducible refine sat_bind ?_ (fun _ _ => ?_) | split)) <;> simp (maxDischargeDepth := 60) [h]
theorem execAdmQueueDelete_kept {a1 a2} (h : Kept Q s) : KeptR Q (execAdmQueueDelete a1 a2 s) := 
  serve_kept (fun _ => fine_ok) (fun _ => bodyAdmQueueDelete_kept h) h
@[simp] theorem bodyAdmQueueModify_kept {c} (h : Kept Q s) : Sat (fun x => Kept Q x.1) (bodyAdmQueueModify c s) := by
  simp only [bodyAdmQueueModify]; (repeat' (first | with_reducible refine sat_bind ?_ (fun _ _ => ?_) | split)) <;> simp (maxDischargeDepth := 60) [h]
theorem execAdmQueueModify_kept {a1 a2} (h : Kept Q s) : KeptR Q (execAdmQueueModify a1 a2 s) := 
  serve_kept (fun _ => fine_ok) (fun _ => bodyAdmQueueModify_kept h) h
@[simp] theorem bodyAdmQueueQuery_kept {c} (h : Kept Q s) : Sat (fun x => Kept Q x.1) (bodyAdmQueueQuery c s) := by
  simp only [bodyAdmQueueQuery]; (repeat' (first | with_reducible refine sat_bind ?_ (fun _ _ => ?_) | split)) <;> simp (maxDischargeDepth := 60) [h]
theorem execAdmQueueQuery_kept {a1 a2} (h : Kept Q s) : KeptR Q (execAdmQueueQuery a1 a2 s) := 
  serve_kept (fun _ => fine_ok) (fun _ => bodyAdmQueueQuery_kept h) h
@[simp] theorem bodyAdmQueueGrant_kept {c} (h : Kept Q s) : Sat (fun x => Kept Q x.1) (bodyAdmQueueGrant c s) := by
  simp only [bodyAdmQueueGrant]; (repeat' (first | with_reducible refine sat_bind ?_ (fun _ _ => ?_) | split)) <;> simp (maxDischargeDepth := 60) [h]
theorem execAdmQueueGrant_kept {a1 a2} (h : Kept Q s) : KeptR Q (execAdmQueueGrant a1 a2 s) := 
  serve_kept (fun _ => fine_ok) (fun _ => bodyAdmQueueGrant_kept h) h
@[simp] theorem bodyAdmLimitsRead_kept {c} (h : Kept Q s) : Sat (fun x => Kept Q x.1) (bodyAdmLimitsRead c s) := by
  simp only [bodyAdmLimitsRead]; (repeat' (first | with_reducible refine sat_bind ?_ (fun _ _ => ?_) | split)) <;> simp (maxDischargeDepth := 60) [h]
theorem execAdmLimitsRead_kept {a1 a2} (h : Kept Q s) : KeptR Q (execAdmLimitsRead a1 a2 s) := 
  serve_kept (fun _ => fine_ok) (fun _ => bodyAdmLimitsRead_kept h) h
@[simp] theorem bodyAdmAbort_kept {c} (h : Kept Q s) : Sat (fun x => Kept Q x.1) (bodyAdmAbort c s) := by
  simp only [bodyAdmAbort]; (repeat' (first | with_reducible refine sat_bind ?_ (fun _ _ => ?_) | split)) <;> simp (maxDischargeDepth := 60) [h]
theorem execAdmAbort_kept {a1 a2} (h : Kept Q s) : KeptR Q (execAdmAbort a1 a2 s) := 
  serve_kept (fun _ => fine_ok) (fun _ => bodyAdmAbort_kept h) h

/-! ### Link -/

@[simp] theorem hostWrite_kept {fn : Nat} {f : State → State} (hf : Kept Q (f s)) (h : Kept Q s) : KeptR Q (hostWrite fn f s) := by
  unfold hostWrite
  show Kept Q _
  split
  · exact settle_kept (inBand_kept hf)
  · exact h
@[simp] theorem hostRead_kept {fn : Nat} {f : State → State} (hf : Kept Q (f s)) (h : Kept Q s) : KeptR Q (hostRead fn f s) := by
  unfold hostRead
  show Kept Q _
  split
  · exact hf
  · exact h
@[simp] theorem refuseQz_kept {a1} (h : Kept Q s) : Kept Q (refuseQz a1 s) := by
  simp (maxDischargeDepth := 60) [refuseQz, h]
@[simp] theorem breakLow_kept {a1} (h : Kept Q s) : Kept Q (breakLow a1 s) := by
  unfold breakLow; (repeat' split) <;> simp (maxDischargeDepth := 60) [h]
@[simp] theorem breakHold_kept {a1} (h : Kept Q s) : Kept Q (breakHold a1 s) := by
  simp (maxDischargeDepth := 60) [breakHold, h]
@[simp] theorem refuseCommit_kept {a1 a2} (h : Kept Q s) : Kept Q (refuseCommit a1 a2 s) := by
  simp (maxDischargeDepth := 60) [refuseCommit, h]
@[simp] theorem writeHalf_kept {a1 a2 a3 a4} (h : Kept Q s) : Kept Q (writeHalf a1 a2 a3 a4 s) := by
  unfold writeHalf; (repeat' split) <;> simp (maxDischargeDepth := 60) [h]
@[simp] theorem refuseShape_kept {a1} (h : Kept Q s) : Kept Q (refuseShape a1 s) := by
  simp (maxDischargeDepth := 60) [refuseShape, h]
@[simp] theorem writeBase_kept {a1 a2 a3 a4} (h : Kept Q s) : Kept Q (writeBase a1 a2 a3 a4 s) := by
  simp only [writeBase]; (repeat' split) <;> simp (maxDischargeDepth := 60) [h]
theorem execQzBaseWrite_kept {a1 a2 a3 a4} (h : Kept Q s) : KeptR Q (execQzBaseWrite a1 a2 a3 a4 s) := by
  unfold execQzBaseWrite; (repeat' split) <;> simp +contextual (maxDischargeDepth := 60) [h, kept_foldl, kept_ite, kept_elim]
@[simp] theorem writeDepth_kept {a1 a2} (h : Kept Q s) : Kept Q (writeDepth a1 a2 s) := by
  simp only [writeDepth]; (repeat' split) <;> simp (maxDischargeDepth := 60) [h]
@[simp] theorem enableZero_kept {a1 a2 a3} (h : Kept Q s) : Kept Q (enableZero a1 a2 a3 s) := by
  simp (maxDischargeDepth := 60) [enableZero, h]
@[simp] theorem writeCtrl_kept {a1 a2} (h : Kept Q s) : Kept Q (writeCtrl a1 a2 s) := by
  simp only [writeCtrl]; (repeat' split) <;> simp (maxDischargeDepth := 60) [h]
@[simp] theorem hostCtrl_kept {a1 a2} (h : Kept Q s) : KeptR Q (hostCtrl a1 a2 s) := by
  unfold hostCtrl; (repeat' split) <;> simp +contextual (maxDischargeDepth := 60) [h, kept_foldl, kept_ite, kept_elim]
theorem execQzEnable_kept {a1 a2} (h : Kept Q s) : KeptR Q (execQzEnable a1 a2 s) := by
  simp (maxDischargeDepth := 60) [execQzEnable, h]
theorem execQzDisable_kept {a1 a2} (h : Kept Q s) : KeptR Q (execQzDisable a1 a2 s) := by
  simp (maxDischargeDepth := 60) [execQzDisable, h]
theorem execQzCtrlUpdate_kept {a1 a2} (h : Kept Q s) : KeptR Q (execQzCtrlUpdate a1 a2 s) := by
  simp (maxDischargeDepth := 60) [execQzCtrlUpdate, h]
theorem execQzDbRefusedRead_kept {a1} (h : Kept Q s) : KeptR Q (execQzDbRefusedRead a1 s) := by
  unfold execQzDbRefusedRead; (repeat' split) <;> simp +contextual (maxDischargeDepth := 60) [h, kept_foldl, kept_ite, kept_elim]
@[simp] theorem refuseDb_kept {a1 a2 a3} (h : Kept Q s) : Kept Q (refuseDb a1 a2 a3 s) := by
  simp (maxDischargeDepth := 60) [refuseDb, h]
@[simp] theorem ringTail_kept {a1 a2 a3 a4} (h : Kept Q s) : Kept Q (ringTail a1 a2 a3 a4 s) := by
  unfold ringTail; (repeat' split) <;> simp (maxDischargeDepth := 60) [h]
@[simp] theorem ringHead_kept {a1 a2 a3 a4} (h : Kept Q s) : Kept Q (ringHead a1 a2 a3 a4 s) := by
  unfold ringHead; (repeat' split) <;> simp (maxDischargeDepth := 60) [h]
@[simp] theorem doorbell_kept {a1 a2 a3 a4} (h : Kept Q s) : Kept Q (doorbell a1 a2 a3 a4 s) := by
  simp only [doorbell, draw]; (repeat' split) <;> simp (maxDischargeDepth := 60) [h]
theorem execSqTailDoorbell_kept {a1 a2 a3 a4} (h : Kept Q s) : KeptR Q (execSqTailDoorbell a1 a2 a3 a4 s) := by
  unfold execSqTailDoorbell
  refine hostWrite_kept ?_ h
  (repeat' split) <;> simp (maxDischargeDepth := 60) [h]
theorem execCqHeadDoorbell_kept {a1 a2 a3 a4} (h : Kept Q s) : KeptR Q (execCqHeadDoorbell a1 a2 a3 a4 s) := by
  unfold execCqHeadDoorbell
  refine hostWrite_kept ?_ h
  (repeat' split) <;> simp (maxDischargeDepth := 60) [h]
theorem execCoalTimer_kept {a1 a2} (h : Kept Q s) : KeptR Q (execCoalTimer a1 a2 s) := by
  unfold execCoalTimer; (repeat' split) <;> simp (maxDischargeDepth := 60) [h]
@[simp] theorem sendPending_kept {a1 a3} (h : Kept Q s) : Kept Q (sendPending a1 s a3) := by
  simp (maxDischargeDepth := 60) [sendPending, h]
@[simp] theorem flushPending_kept {a1} (h : Kept Q s) : Kept Q (flushPending a1 s) := by
  unfold flushPending; (repeat' split) <;> simp +contextual (maxDischargeDepth := 60) [h, kept_foldl, kept_ite, kept_elim]
theorem execMsixUnmask_kept {a1 a2} (h : Kept Q s) : KeptR Q (execMsixUnmask a1 a2 s) := by
  unfold execMsixUnmask; (repeat' split) <;> simp (maxDischargeDepth := 60) [h]
theorem execBusMasterEnable_kept {a1} (h : Kept Q s) : KeptR Q (execBusMasterEnable a1 s) := by
  unfold execBusMasterEnable; (repeat' split) <;> simp +contextual (maxDischargeDepth := 60) [h, kept_foldl, kept_ite, kept_elim]
theorem execVfEnableSet_kept {a1} (h : Kept Q s) : KeptR Q (execVfEnableSet a1 s) := by
  unfold execVfEnableSet; (repeat' split) <;> simp (maxDischargeDepth := 60) [h]
@[simp] theorem resetFn_kept {a1} (h : Kept Q s) : Kept Q (resetFn a1 s) := by
  simp (maxDischargeDepth := 60) [resetFn, h]
@[simp] theorem clearVfs_kept (h : Kept Q s) : Kept Q (clearVfs s) := by
  unfold clearVfs; (repeat' split) <;> simp +contextual (maxDischargeDepth := 60) [h, kept_foldl, kept_ite, kept_elim]
theorem execVfEnableClear_kept (h : Kept Q s) : KeptR Q (execVfEnableClear s) := by
  unfold execVfEnableClear; (repeat' split) <;> simp (maxDischargeDepth := 60) [h]
@[simp] theorem resetPf_kept (h : Kept Q s) : Kept Q (resetPf s) := by
  simp (maxDischargeDepth := 60) [resetPf, h]
theorem execFunctionLevelReset_kept {a1} (h : Kept Q s) : KeptR Q (execFunctionLevelReset a1 s) := by
  unfold execFunctionLevelReset; (repeat' split) <;> simp (maxDischargeDepth := 60) [h]
@[simp] theorem linkFalls_kept (h : Kept Q s) : Kept Q (linkFalls s) := by
  simp only [linkFalls]; (repeat' split) <;> simp (maxDischargeDepth := 60) [h]
theorem execLinkDown_kept (h : Kept Q s) : KeptR Q (execLinkDown s) := by
  simp (maxDischargeDepth := 60) [execLinkDown, h]
theorem execPcieRefclkLoss_kept (h : Kept Q s) : KeptR Q (execPcieRefclkLoss s) := by
  simp (maxDischargeDepth := 60) [execPcieRefclkLoss, h]
@[simp] theorem freeParams_kept {a1 a2} (h : Kept Q s) : Kept Q (freeParams a1 a2 s).2 := by
  unfold freeParams; (repeat' split) <;> simp (maxDischargeDepth := 60) [h]
@[irreducible] def freeParamsA := fun a1 a2 s => (freeParams a1 a2 s).1
@[irreducible] def freeParamsS := fun a1 a2 s => (freeParams a1 a2 s).2
theorem freeParams_pair {a1 a2} : freeParams a1 a2 s = (freeParamsA a1 a2 s, freeParamsS a1 a2 s) := by
  simp only [freeParamsA, freeParamsS]
@[simp] theorem freeParamsS_kept {a1 a2} (h : Kept Q s) : Kept Q (freeParamsS a1 a2 s) := by
  unfold freeParamsS; exact freeParams_kept h
@[simp] theorem openReq_kept {a1 a2} (h : Kept Q s) : Kept Q (openReq a1 a2 s) := by
  simp only [openReq, freeParams_pair]; (repeat' split) <;> simp (maxDischargeDepth := 60) [h]
theorem arbitrate_kept {p : QPair} (h : Kept Q s) (e : arbitrate s = some (p, t)) : Kept Q t := by
  unfold arbitrate at e
  extract_lets take l name at e
  have ht : ∀ x s, Kept Q s → Kept Q (take x s).2 := fun x s h => updPair_kept h
  have key : ∀ {o : Option (QPair × State)}, (∀ y, o = some y → Kept Q y.2) → o = some (p, t) → Kept Q t :=
    fun ho he => ho _ he
  refine key (fun y hy => ?_) e
  repeat' split at hy
  · cases hy; exact ht _ _ (by simp [h])
  · cases hy; exact ht _ _ (by simp [h])
  · cases hy; exact ht _ _ (by simp [h])
  · obtain ⟨z, -, rfl⟩ := Option.map_eq_some_iff.mp hy
    exact ht _ _ (by simp [h])

theorem execSqFetch_kept {got : Fetched} (h : Kept Q s) : KeptR Q (execSqFetch got s) := by
  unfold execSqFetch
  show Kept Q _
  split
  · exact h
  · split
    · exact h
    · next p s1 e =>
      have h1 : Kept Q s1 := arbitrate_kept h e
      split
      · simp (maxDischargeDepth := 60) [h1]
      · split <;> simp (maxDischargeDepth := 60) [h1]
@[simp] theorem refuseCb_kept {a1} (h : Kept Q s) : Kept Q (refuseCb a1 s) := by
  simp (maxDischargeDepth := 60) [refuseCb, h]
@[simp] theorem ring_kept {a1} (h : Kept Q s) : Kept Q (ring a1 s) := by
  unfold ring; (repeat' split) <;> simp (maxDischargeDepth := 60) [h]
@[simp] theorem ack_kept {a1} (h : Kept Q s) : Kept Q (ack a1 s) := by
  unfold ack; (repeat' split) <;> simp (maxDischargeDepth := 60) [h]
theorem execCbRing_kept {a1} (h : Kept Q s) : KeptR Q (execCbRing a1 s) := by
  simp (maxDischargeDepth := 60) [execCbRing, h]
theorem execCbAck_kept {a1} (h : Kept Q s) : KeptR Q (execCbAck a1 s) := by
  simp (maxDischargeDepth := 60) [execCbAck, h]
theorem execCbRefusedRead_kept (h : Kept Q s) : KeptR Q (execCbRefusedRead s) := by
  simp (maxDischargeDepth := 60) [execCbRefusedRead, h]
theorem execCbHwTimeout_kept (h : Kept Q s) : KeptR Q (execCbHwTimeout s) := by
  unfold execCbHwTimeout; (repeat' split) <;> simp +contextual (maxDischargeDepth := 60) [h, kept_foldl, kept_ite, kept_elim]

/-! ### Registers -/

@[simp] theorem updSlack_kept {a1 a2} (h : Kept Q s) : Kept Q (updSlack a1 a2 s) := by
  simp (maxDischargeDepth := 60) [updSlack, h]
theorem execSlackMeasure_kept {a1 a2 a3} (h : Kept Q s) : KeptR Q (execSlackMeasure a1 a2 a3 s) := by
  unfold execSlackMeasure; (repeat' split) <;> simp (maxDischargeDepth := 60) [h]
@[simp] theorem countFence_kept {a1 a2} (h : Kept Q s) : Kept Q (countFence a1 a2 s) := by
  unfold countFence; (repeat' split) <;> simp (maxDischargeDepth := 60) [h]
theorem execSlkMinRead_kept {a1} (h : Kept Q s) : KeptR Q (execSlkMinRead a1 s) := by
  unfold execSlkMinRead; (repeat' split) <;> simp +contextual (maxDischargeDepth := 60) [h, kept_foldl, kept_ite, kept_elim]
@[simp] theorem clearSeen_kept {a1 a2} (h : Kept Q s) : Kept Q (clearSeen a1 a2 s) := by
  unfold clearSeen; (repeat' split) <;> simp (maxDischargeDepth := 60) [h]
theorem execSlkNegSeenClear_kept {a1 a2} (h : Kept Q s) : KeptR Q (execSlkNegSeenClear a1 a2 s) := by
  unfold execSlkNegSeenClear; (repeat' split) <;> simp (maxDischargeDepth := 60) [h]
@[simp] theorem clearWake_kept {a1} (h : Kept Q s) : Kept Q (clearWake a1 s) := by
  unfold clearWake; (repeat' split) <;> simp (maxDischargeDepth := 60) [h]
theorem execGlWakeClear_kept {a1} (h : Kept Q s) : KeptR Q (execGlWakeClear a1 s) := by
  simp (maxDischargeDepth := 60) [execGlWakeClear, h]
theorem execTbWord0Read_kept {a1} (h : Kept Q s) : KeptR Q (execTbWord0Read a1 s) := by
  unfold execTbWord0Read; (repeat' split) <;> simp (maxDischargeDepth := 60) [h]
theorem execFenceCounterRead_kept {a1 a2} (h : Kept Q s) : KeptR Q (execFenceCounterRead a1 a2 s) := by
  unfold execFenceCounterRead; (repeat' split) <;> simp (maxDischargeDepth := 60) [h]
@[simp] theorem writeMsix_kept {a1 a2 a3} (h : Kept Q s) : Kept Q (writeMsix a1 a2 a3 s) := by
  simp (maxDischargeDepth := 60) [writeMsix, h]
@[simp] theorem writeCb_kept {a1 a2} (h : Kept Q s) : Kept Q (writeCb a1 a2 s) := by
  unfold writeCb; (repeat' split) <;> simp (maxDischargeDepth := 60) [h]
@[simp] theorem writeSlack_kept {a1 a2} (h : Kept Q s) : Kept Q (writeSlack a1 a2 s) := by
  simp only [writeSlack]; (repeat' split) <;> simp (maxDischargeDepth := 60) [h]
@[simp] theorem write4_kept {a1 a2 a3} (h : Kept Q s) : Kept Q (write4 a1 a2 a3 s) := by
  simp only [write4]; (repeat' split) <;> simp (maxDischargeDepth := 60) [h]
theorem execRegisterWrite_kept {a1 a2 a3 a4} (h : Kept Q s) : KeptR Q (execRegisterWrite a1 a2 a3 a4 s) := by
  unfold execRegisterWrite; (repeat' split) <;> simp +contextual (maxDischargeDepth := 60) [h, kept_foldl, kept_ite, kept_elim]
@[simp] theorem refuseSb_kept {a1} (h : Kept Q s) : Kept Q (refuseSb a1 s) := by
  simp (maxDischargeDepth := 60) [refuseSb, h]
theorem execSbRegisterWrite_kept {a1} (h : Kept Q s) : KeptR Q (execSbRegisterWrite a1 s) := by
  unfold execSbRegisterWrite; (repeat' split) <;> simp (maxDischargeDepth := 60) [h]
theorem execSbSetIndex_kept {a1} (h : Kept Q s) : KeptR Q (execSbSetIndex a1 s) := by
  unfold execSbSetIndex; (repeat' split) <;> simp (maxDischargeDepth := 60) [h]
theorem execSbDynamicAddress_kept {a1} (h : Kept Q s) : KeptR Q (execSbDynamicAddress a1 s) := by
  unfold execSbDynamicAddress; (repeat' split) <;> simp (maxDischargeDepth := 60) [h]
theorem execSbSclTimeout_kept (h : Kept Q s) : KeptR Q (execSbSclTimeout s) := by
  unfold execSbSclTimeout; (repeat' split) <;> simp (maxDischargeDepth := 60) [h]
theorem execSbRefusedRead_kept (h : Kept Q s) : KeptR Q (execSbRefusedRead s) := by
  unfold execSbRefusedRead; (repeat' split) <;> simp (maxDischargeDepth := 60) [h]
theorem execSbMirrorTick_kept (h : Kept Q s) : KeptR Q (execSbMirrorTick s) := by
  unfold execSbMirrorTick; (repeat' split) <;> simp (maxDischargeDepth := 60) [h]
theorem execPhyRefclkLoss_kept {a1} (h : Kept Q s) : KeptR Q (execPhyRefclkLoss a1 s) := by
  simp only [execPhyRefclkLoss]; (repeat' split) <;> simp (maxDischargeDepth := 60) [h]
theorem execPhyRefclkReturn_kept {a1} (h : Kept Q s) : KeptR Q (execPhyRefclkReturn a1 s) := by
  simp (maxDischargeDepth := 60) [execPhyRefclkReturn, h]

/-! ### Scrub -/

@[simp] theorem putLog_kept {a1} (h : Kept Q s) : Kept Q (putLog a1 s) := by
  simp (maxDischargeDepth := 60) [putLog, h]
@[simp] theorem retire_kept {a1 a2} (h : Kept Q s) : Kept Q (retire a1 a2 s) := by
  unfold retire
  dsimp only
  split
  · simp (maxDischargeDepth := 60) [h]
  · next s1 e =>
    have h1 : Kept Q s1 := takeGranule_kept h e
    simp (maxDischargeDepth := 60) [h1]
@[simp] theorem correctedAt_kept {a1 a2 a3} (h : Kept Q s) : Kept Q (correctedAt a1 a2 a3 s) := by
  simp only [correctedAt]; (repeat' split) <;> simp (maxDischargeDepth := 60) [h]
@[simp] theorem ueRecord_kept {a1 a2 a3 a4} (h : Kept Q s) : Kept Q (ueRecord a1 a2 a3 a4 s) := by
  simp (maxDischargeDepth := 60) [ueRecord, h]
@[simp] theorem ueObject_kept {a1 a2 a3 a4} (h : Kept Q s) : Kept Q (ueObject a1 a2 a3 a4 s) := by
  simp (maxDischargeDepth := 60) [ueObject, h]
@[simp] theorem uePair_kept {a1 a2 a3} (h : Kept Q s) : Kept Q (uePair a1 a2 a3 s) := by
  simp (maxDischargeDepth := 60) [uePair, h]
@[simp] theorem poisonAlloc_kept {a1 a2 a3 a4} (h : Kept Q s) : Kept Q (poisonAlloc a1 a2 a3 a4 s) := by
  unfold poisonAlloc
  split
  · exact h
  · split
    · exact h
    · dsimp only
      split
      · exact uePair_kept ⟨h.pending, h.request, h.data,
          allocsOk_map (fun x hx => by (repeat' split) <;> exact hx) h.allocs, h.insts⟩
      · exact ueObject_kept ⟨h.pending, h.request, h.data,
          allocsOk_map (fun x hx => by (repeat' split) <;> exact hx) h.allocs, h.insts⟩
@[simp] theorem badBlock_kept {a1 a2 a3 a4} (h : Kept Q s) : Kept Q (badBlock a1 a2 a3 a4 s) := by
  unfold badBlock; (repeat' split) <;> simp (maxDischargeDepth := 60) [h]
@[simp] theorem badImage_kept {a1 a2 a3} (h : Kept Q s) : Kept Q (badImage a1 a2 a3 s) := by
  unfold badImage; (repeat' split) <;> simp (maxDischargeDepth := 60) [h]
@[simp] theorem badStored_kept {a1 a2 a3} (h : Kept Q s) : Kept Q (badStored a1 a2 a3 s) := by
  unfold badStored; (repeat' split) <;> simp (maxDischargeDepth := 60) [h]
@[simp] theorem uncorrectable_kept {a1 a2 a3} (h : Kept Q s) : Kept Q (uncorrectable a1 a2 a3 s) := by
  unfold uncorrectable; (repeat' split) <;> simp (maxDischargeDepth := 60) [h]
theorem execScrubRead_kept {a1} (h : Kept Q s) : KeptR Q (execScrubRead a1 s) := by
  unfold execScrubRead; (repeat' split) <;> simp (maxDischargeDepth := 60) [h]
theorem execGranuleRetireDone_kept {a1} (h : Kept Q s) : KeptR Q (execGranuleRetireDone a1 s) := by
  simp (maxDischargeDepth := 60) [execGranuleRetireDone, h]
@[simp] theorem endDeadRuns_kept {a1} (h : Kept Q s) : Kept Q (endDeadRuns a1 s) := by
  unfold endDeadRuns; (repeat' split) <;> simp +contextual (maxDischargeDepth := 60) [h, kept_foldl, kept_ite, kept_elim]
@[simp] theorem giveUpBlocks_kept {a1 a2} (h : Kept Q s) : Kept Q (giveUpBlocks a1 a2 s) := by
  simp (maxDischargeDepth := 60) [giveUpBlocks, h]
@[simp] theorem restoreBlock_kept {a1 a3} (h : Kept Q s) : Kept Q (restoreBlock a1 s a3) := by
  simp (maxDischargeDepth := 60) [restoreBlock, h]
theorem takeGranules_kept : ∀ {n : Nat} {s t : State}, Kept Q s → takeGranules n s = some t → Kept Q t
  | 0, _, _, h, e => by cases e; exact h
  | n + 1, _, _, h, e => by
    simp only [takeGranules] at e
    obtain ⟨u, hu, he⟩ := Option.bind_eq_some_iff.mp e
    exact takeGranules_kept (n := n) (takeGranule_kept h hu) he
@[simp] theorem passFailed_kept {a1 a2 a3} (h : Kept Q s) : Kept Q (passFailed a1 a2 a3 s) := by
  unfold passFailed; (repeat' split) <;> simp (maxDischargeDepth := 60) [h]
@[simp] theorem undecoded_kept {a1} (h : Kept Q s) : Kept Q (undecoded a1 s) := by
  simp (maxDischargeDepth := 60) [undecoded, h]
theorem execRefetchPassEnd_kept {a1 a2} (h : Kept Q s) : KeptR Q (execRefetchPassEnd a1 a2 s) := by
  unfold execRefetchPassEnd
  show Kept Q _
  split
  · exact h
  · split
    · exact h
    · split
      · exact h
      · next p _ _ r _ _ =>
        have h1 : Kept Q { s with fresh := s.fresh + p.blocks.length } := ⟨h.pending, h.request, h.data, h.allocs, h.insts⟩
        dsimp only
        split
        · exact settle_kept (passFailed_kept h1)
        · split
          · exact settle_kept (giveUpBlocks_kept (raise_kept h1))
          · split
            · exact settle_kept (giveUpBlocks_kept (kept_foldl (fun _ _ h => undecoded_kept h) _ h1))
            · split
              · exact settle_kept (giveUpBlocks_kept h1)
              · next s1 e =>
                have h2 := kept_foldl (f := restoreBlock a1) (fun s x h => restoreBlock_kept h) (retained p r s.fresh) (takeGranules_kept h1 e)
                simp (maxDischargeDepth := 60) [h2]
theorem execRefetchRetry_kept {a1} (h : Kept Q s) : KeptR Q (execRefetchRetry a1 s) := by
  unfold execRefetchRetry; (repeat' split) <;> simp (maxDischargeDepth := 60) [h]

end Sys2Proof.Machine
end

