-- ==== Sys2Proof/Laws/Serve.lean ====
section
/-! SUPPORT. What serving one command does (R84): one lemma for each way it can go. -/
namespace Sys2Proof.Machine

/-- A ready command whose own steps succeed is carried out and answers as they say. -/
theorem serve_of_ready {ci : CmdInfo} {body : Body} {r : ReqRef} {io : Io} {s s' : State} {q : Req} {c : Ctx}
    {d : Done} (h : IsReady ci r io s q c) (hb : body c s = .ok (s', d)) :
    serve ci body r io s = .next (settle (endServe q d s')) := by
  unfold IsReady readyCtx at h
  unfold serve
  cases hst : startable ci.opcode r s with
  | none => simp [hst] at h
  | some q0 =>
    simp only [hst] at h
    cases hv : validate ci q0 io s with
    | error f => simp [hv] at h
    | ok c0 =>
      simp only [hv] at h
      split at h
      · next hd =>
        cases h
        have hf : ((ci.doms c s).filter fun d => !domOn d s) = [] := by
          simpa [List.filter_eq_nil_iff, List.all_eq_true] using hd
        simp [hv, runBody, hb, hf]
      · cases h

/-- A ready command whose own steps 8 or 9 fail ends with that failure's status. -/
theorem serve_of_refused {ci : CmdInfo} {body : Body} {r : ReqRef} {io : Io} {s : State} {q : Req} {c : Ctx}
    {f : Fail} (h : IsReady ci r io s q c) (hb : body c s = .error f) :
    serve ci body r io s = refusedWith q f s := by
  unfold IsReady readyCtx at h
  unfold serve refusedWith
  cases hst : startable ci.opcode r s with
  | none => simp [hst] at h
  | some q0 =>
    simp only [hst] at h
    cases hv : validate ci q0 io s with
    | error f => simp [hv] at h
    | ok c0 =>
      simp only [hv] at h
      split at h
      · rename_i hd
        cases h
        have none_off : (ci.doms c s).filter (fun d => !domOn d s) = [] := by
          simpa [List.filter_eq_nil_iff, List.all_eq_true] using hd
        simp [hv, runBody, hb, none_off]
      · cases h

/-- A command that is not fetched, or may not start yet, changes nothing. -/
theorem serve_of_not_startable {ci : CmdInfo} {body : Body} {r : ReqRef} {io : Io} {s : State}
    (h : startable ci.opcode r s = none) : serve ci body r io s = .next s := by
  simp [serve, h]

/-- A command that validation refuses ends with the refusal's status (R84). -/
theorem serve_of_invalid {ci : CmdInfo} {body : Body} {r : ReqRef} {io : Io} {s : State} {q : Req} {f : Fail}
    (h : startable ci.opcode r s = some q) (hv : validate ci q io s = .error f) :
    serve ci body r io s = refusedWith q f s := by
  simp [serve, h, hv, refusedWith]

/-- A served command always answers a next state (R18). -/
theorem serve_next (ci : CmdInfo) (body : Body) (r : ReqRef) (io : Io) (s : State) :
    ∃ t, serve ci body r io s = .next t := ⟨_, rfl⟩

/-- The context of a ready command belongs to its request. -/
theorem IsReady.startable {ci : CmdInfo} {r : ReqRef} {io : Io} {s : State} {q : Req} {c : Ctx}
    (h : IsReady ci r io s q c) : startable ci.opcode r s = some q := by
  unfold IsReady readyCtx at h
  split at h
  · cases h
  · next hs =>
    split at h
    · cases h
    · split at h
      · cases h; exact hs
      · cases h

end Sys2Proof.Machine
end

