-- ==== Sys2Proof/Machine/Reads.lean ====
section
/-! DEFINITION. What every register of BAR0, BAR2 and the sideband target reads as (R2, R33, R34, R51, R471, R537,
R539, R540, R545, R547 to R551, R553, R556, Tables 0.1, 2.5, 2.11, 17.2, 17.4 to 17.9). Reading changes nothing but
through the rows that say so (the fields marked RC, and the time word's latch). -/
namespace Sys2Proof.Machine

/-- Register bits from fields given as value and lowest bit. -/
def packBits (l : List (Nat × Nat)) : Nat := (l.map fun x => x.1 * 2 ^ x.2).sum

/-- A truth value as a bit. -/
def bit (b : Bool) : Nat := if b then 1 else 0

/-- The 32-bit word at byte `off` of a block of bytes. -/
def wordAt (bs : List Byte) (off : Nat) : Nat := fld bs off 4

/-- The low or the high word of a 64-bit value, by the offset that is read. -/
def halfAt (v off : Nat) : Nat := if off % 8 = 0 then v % 2 ^ 32 else v / 2 ^ 32 % 2 ^ 32

/-- The identification registers (Table 0.1); the rest of their region is reserved. -/
def readId (off : Nat) (s : State) : Nat := natAt (idWords ++ [idFirmware s]) (off / 4)

/-- `QZ_STATUS` (Table 2.5). -/
def qzStatus (fn : Nat) (s : State) : Nat :=
  let p := getPair fn 0 s
  let cause := p.elim 0 (·.fault)
  packBits [(bit (ready s), 0), (bit p.isSome, 1), (bit (cause != 0), 2), (cause, 8)]

/-- The queue-zero registers and link counters (Table 2.5). -/
def readQz (fn off : Nat) (s : State) : Nat :=
  let f := getFn fn s
  if off < 0x1008 then halfAt f.sq.pair.v.toNat off
  else if off < 0x1010 then halfAt f.sq.pair.c.toNat off
  else if off < 0x1018 then halfAt f.cq.pair.v.toNat off
  else if off < 0x1020 then halfAt f.cq.pair.c.toNat off
  else if off = 0x1020 then packBits [(f.sqDepthM1, 0), (f.cqDepthM1, 16)]
  else if off = 0x1024 then packBits [(bit f.enable, 0), (bit f.intEn, 1), (f.vector, 16)]
  else if off = 0x1028 then qzStatus fn s
  else if off = 0x102C then f.grant
  else if off = 0x1030 then f.dbRefused
  else if off = 0x1034 then packBits [(f.dbQueue, 0), (f.dbReason, 16)]
  else if off = 0x1038 ∧ fn = 0 then s.link.bar4Miss
  else 0

/-- The callboard page (Table 2.11). -/
def readCb (off : Nat) (s : State) : Nat :=
  if off = 0x10004 then packBits [(s.cb.state, 0), (s.cb.server, 2), (s.cb.nextSeq, 16)]
  else if off = 0x1000C then bit s.cb.intEn
  else if off = 0x10010 then s.cb.refused
  else if off = 0x10014 then s.cb.reason
  else if inR 0x10040 off 0x1007F then unle (memRead s.cb.request (off - 0x10040) 4)
  else if inR 0x10080 off 0x1008F then wordAt s.cb.response (off - 0x10080)
  else if inR 0x10400 off 0x10FFF then unle (memRead s.cb.data (off - 0x10400) 4)
  else 0

/-- The pads-held mask, bits as `PWR_PAD_RELEASE`. -/
def padsHeld (s : State) : Nat := maskBits (padDoms.map fun d => (getDom d s).pads)

/-- `BOOT_STATUS` (Table 17.4). -/
def bootStatus (s : State) : Nat :=
  let b := s.boot
  packBits [(b.lastReason, 0), (b.usReason, 8), (b.bank, 16), (b.straps.bootSrc, 18), (bit b.ucalApplied, 20), (b.lastReset, 24)]

/-- An entry of Table 14.6 is in progress. -/
def entering (s : State) : Bool := s.pwr.sleep.isSome && s.pwr.state == 0 && s.pwr.returning.isNone

/-- `GL_STATUS` (Table 17.2). -/
def glStatus (s : State) : Nat :=
  packBits [(s.pwr.state % 4, 0), (bit (entering s), 3), (bit s.pwr.returning.isSome, 4), (bit s.pwr.regLow, 5), (bit s.boot.vaux, 6),
    (bit (s.sec.service.n == 1), 7), (lifecycle s, 8), (bit s.sec.halted, 11), (bit s.sec.erased, 12)]

/-- A failure record's bytes, zero while no such fault has occurred (Table 17.5). -/
def failBytes (f : Option FaultRec) : List Byte := f.elim (zeros 64) faultBytes

/-- Ghost-light status, boot and failure records (Tables 17.2, 17.4, 17.5). -/
def readGl (off : Nat) (s : State) : Nat :=
  let lim (p : Comp) : Nat := if off % 8 = 0 then p.v.toNat % 2 ^ 32 else p.c.toNat % 2 ^ 32
  if off = 0x20000 then glStatus s
  else if off = 0x20004 then packBits [(s.pwr.pending, 0), (s.pwr.armed, 8), (padsHeld s, 16)]
  else if off = 0x20008 then s.pwr.brownouts
  else if inR 0x20010 off 0x20017 then lim s.pwr.cap
  else if inR 0x20018 off 0x2001F then lim s.pwr.tj
  else if inR 0x20020 off 0x20027 then lim s.sec.policy
  else if off = 0x20028 then maskBits [s.pwr.capDefault, s.pwr.tjDefault, s.pwr.polDefault, s.boot.fscBad]
  else if off = 0x20100 then bootStatus s
  else if off = 0x20104 then s.boot.fsc.v.toNat % 2 ^ 32
  else if off = 0x20108 then s.boot.fsc.c.toNat % 2 ^ 32
  else if off = 0x2010C then s.boot.readyMs
  else if off = 0x20200 then s.mem.failUeSeq
  else if inR 0x20240 off 0x2027F then wordAt (failBytes s.mem.failUe) (off - 0x20240)
  else if off = 0x20280 then s.mem.failCmSeq
  else if inR 0x202C0 off 0x202FF then wordAt (failBytes s.mem.failCm) (off - 0x202C0)
  else if off = 0x20300 then s.cb.failCount
  else if inR 0x20310 off 0x2031F then wordAt (timeWord { t := s.cb.failTime, tag := 0 }) (off - 0x20310)
  else if off = 0x20320 then s.cb.failOpcode
  else 0

/-- The time-base readout (Table 17.6): the latched word, not the present one. -/
def readTb (off : Nat) (s : State) : Nat :=
  let t := s.time
  if off < 0x30010 then t.latch / 2 ^ (8 * (off - 0x30000)) % 2 ^ 32
  else if off = 0x30010 then t.latchSeq
  else if off = 0x30014 then
    packBits [(t.servo, 0), (bit (t.ptp.role != 0 || followsMember s), 2), (t.steps % 65536, 16)]
  else if off = 0x30018 then codeOf 32 (presentRate t)
  else if off = 0x3001C then min (holdoverT s / msT) 0xFFFFFFFF
  else 0

/-- The pace in force after any backstop cut, MHz (Table 17.7, R463). -/
def paceMhz (s : State) : Nat := 10 * paceOf s.pwr.level * (8 - s.pwr.eighths) / 8

/-- A slack monitor's register, or the slack summary (Table 17.7). -/
def readSlack (off : Nat) (s : State) : Nat :=
  let n := (off - 0x40000) / 8
  if n < 27 then
    let m := (s.pwr.slack[n]?).getD Slack.zero
    if !monitorLive n s then 0xFFFFFFFF
    else if off % 8 = 0 then packBits [(codeOf 16 m.slack, 0), (bit m.neg, 16), (bit m.seen, 17)]
    else codeOf 16 m.min
  else if off = 0x40100 then maskBits (s.pwr.slack.mapIdx fun n (m : Slack) => monitorOn n s && m.neg)
  else if off = 0x40104 then packBits [(s.pwr.level, 0), (paceMhz s, 16)]
  else 0

/-- A domain's fence counters (R550). -/
def readFence (off : Nat) (s : State) : Nat :=
  let x := getDom ((off - 0x50000) / 8) s
  if 0x50300 ≤ off then 0 else if off % 8 = 0 then x.fenceRd else x.fenceWr

/-- A word of the MSI-X table (R551): address, data, vector control. -/
def readMsix (fn rel : Nat) (s : State) : Nat :=
  let e := msixGet (getFn fn s) (rel / 16)
  match rel % 16 / 4 with
  | 0 => e.addr % 2 ^ 32
  | 1 => e.addr / 2 ^ 32 % 2 ^ 32
  | 2 => e.data
  | _ => bit e.masked

/-- A word of the pending bit array (R551): bit n of the array for vector n. -/
def readPba (fn rel : Nat) (s : State) : Nat :=
  maskBits ((List.range 32).map fun i => (msixGet (getFn fn s) (8 * rel + i)).pending)

/-- A naturally aligned 4-byte read of BAR0: reserved offsets read zero (R34, R537). The queue-zero registers do not
answer while Stage Manager cannot serve them. -/
def bar0Word (fn off : Nat) (s : State) : Nat :=
  match regionOf fn off with
  | 0 => readId off s
  | 1 => if queuesLive s then readQz fn off s else 0xFFFFFFFF
  | 2 => readCb off s
  | 3 => readGl off s
  | 4 => readTb off s
  | 5 => readSlack off s
  | 6 => readFence off s
  | 7 => readMsix fn (off - (if fn = 0 then 0x100000 else 0x8000)) s
  | 8 => readPba fn (off - (if fn = 0 then 0x108000 else 0x8400)) s
  | _ => 0

/-- What a BAR0 read returns (R33): 4 or 8 bytes, naturally aligned; any other read returns all ones. An 8-byte read
returns both words as they stand at one instant (R540). -/
def bar0Read (fn off size : Nat) (s : State) : Nat :=
  if (size ≠ 4 ∧ size ≠ 8) ∨ off % size ≠ 0 then 2 ^ (8 * size) - 1
  else if size = 4 then bar0Word fn off s
  else bar0Word fn off s + bar0Word fn (off + 4) s * 2 ^ 32

/-- What a read of a doorbell returns (R33, R51): the last accepted index; nothing else lies in BAR2. A pair that is not
created has accepted no index. DESIGN CHOICE [210]. -/
def bar2Read (fn off size : Nat) (s : State) : Nat :=
  if (size ≠ 4 ∧ size ≠ 8) ∨ off % size ≠ 0 then 2 ^ (8 * size) - 1
  else if !queuesLive s then 2 ^ (8 * size) - 1
  else if off % 16 = 0 then (getPair fn (off / 16) s).elim 0 (·.sqTail)
  else if off % 16 = 8 then (getPair fn (off / 16) s).elim 0 (·.cqHead)
  else 0

/-- The sideband registers (Table 17.9); an absent index reads zero (R556). -/
def sbRead (i : Nat) (s : State) : Nat :=
  if i = 0 then 0x4B470901
  else if inR 1 i 4 then wordAt s.sec.serial (4 * (i - 1))
  else match i with
  | 5 => packBits [(s.pwr.state, 0), (bit (ready s), 3), (s.cb.server, 4), (lifecycle s, 6), (bit s.sec.halted, 9), (bit s.sec.erased, 10),
      (bit (entering s), 11), (bit s.pwr.returning.isSome, 12)]
  | 6 => s.sb.temp
  | 7 => packBits [(s.sb.power, 0), (s.sb.level, 16)]
  | 8 => bootStatus s
  | 9 => packBits [(s.boot.fsc.n % 4, 0), (bit (!s.boot.fsc.ok), 2)]
  | 10 => packBits [(sat16 s.sec.alarms, 0), (s.sec.lastSensor, 16), (s.sec.lastAction, 19)]
  | 11 => packBits [(s.pwr.pending, 0), (s.pwr.armed, 8), (padsHeld s, 16)]
  | 12 => packBits [(bit s.pwr.regLow, 0), (bit s.boot.vaux, 1), (sat16 s.pwr.brownouts, 16)]
  | 13 => s.sb.scratch0.toNat
  | 14 => s.sb.scratch1.toNat
  | 15 => packBits [(s.sb.refused, 0), (s.sb.reason, 16)]
  | _ => 0

end Sys2Proof.Machine
end

