-- ==== Sys2Proof/Tests/Slice0.lean ====
section
/-! SUPPORT. The model's own tests: a small state in service, the well-formedness smoke test, and one witness for
each hypothesis of the statements. -/
open Sys2Proof Sys2Proof.Machine
namespace Sys2Proof.Tests
set_option Elab.async false

/-- An object of function 0 that session 0 owns, generation 1. -/
def ob (ty slot : Nat) (deps : List (Nat × Nat) := []) : Obj :=
  { ty, slot, gen := 1, fn := 0, sess := if ty = 1 then none else some 0, st := .live, deps, order := slot, shared := false
    chOn := 0, chSt := 0, holdS := 0, holdAt := none }

/-- The handle of such an object. -/
def hd (ty slot : Nat) : W64 := mkHandle (ob ty slot)

/-- Session 0, the administrator's. -/
def sess0 : Session := { slot := 0, tag := 0, holdS := 60, admin := true, events := [], lost := 0, close := none }

/-- A pair of function 0. -/
def pair (qid : Nat) : QPair := newPair 0 qid (Comp.of 0x10000) (Comp.of 0x20000) 64 64 0 true

/-- An allocation of 4 KiB in stacked memory whose byte 1 is 5. -/
def alloc0 : Alloc :=
  { slot := 0, size := 4096, onchip := false, flags := 0, align := 12, cluster := 0, mapped := none, sealed := none
    mem := [(1, 5)], poison := [], badPair := [] }

/-- The K9 in service: READY, Bus Master Enable set, pairs 0 and 1 of function 0, the administrator's session 0 and
allocation 0. -/
def base : State :=
  let z := State.reset
  { z with
    link := { z.link with
      up := true, gen := 5, width := 8, fetchStopped := false, pairs := [pair 0, pair 1]
      fns := z.link.fns.modify 0 fun f => { f with busMaster := true, enable := true } }
    cb.server := 2
    boot := { z.boot with phase := .running, readyAt := some 0, resetLow := false, perstLow := false }
    obj := { z.obj with objs := [ob 1 0, ob 13 0], sessions := [sess0], nextOrder := 20 }
    mem.allocs := [alloc0] }

/-- A fetched request of queue pair 0 of function 0 with `CID` 7. -/
def rq (op : Nat) (h : W64) (ps : List Byte) : Req :=
  { src := .queue 0 0, cid := 7, opcode := op, pref := false, fence := false, plist := false, cbdata := false
    solicit := false, handle := h, payAddr := 0, payLen := 0, param := padTo 40 ps, order := 0, at' := 0, atTb := 0
    dl := none, phase := .fetched }

/-- Its reference. -/
def r0 : ReqRef := { src := .queue 0 0, cid := 7 }

/-- A state with such a request fetched. -/
def withReq (op : Nat) (h : W64) (ps : List Byte) (s : State) : State := { s with link.reqs := [rq op h ps] }

/-- A state with a request fetched that has a payload. -/
def withPay (op : Nat) (h : W64) (ps : List Byte) (n : Nat) (s : State) : State :=
  { s with link.reqs := [{ rq op h ps with pref := true, payLen := n, param := padTo 24 ps }] }

/-- The host answers no read. -/
def io0 : Io := { list := { bytes := [], fail := none }, payload := { bytes := [], fail := none }, ptm := 0 }

/-- The host answers a payload read. -/
def ioP (bs : List Byte) : Io := { io0 with payload := { bytes := bs, fail := none } }

/-- 1.0 as an FP64 word. -/
def oneW : W64 := 0x3FF0000000000000

/-- `RES_ADDR` 0x8000 and `RES_LEN` n, the first 12 bytes of `PARAM` of a command with a result. -/
def res (n : Nat) : List Byte := leBytes 8 0x8000 ++ leBytes 4 n

/-- Whether a command is ready and its context meets a test. -/
def readyAnd (ci : CmdInfo) (io : Io) (s : State) (p : Ctx → Bool) : Bool := (readyCtx ci r0 io s).any fun x => p x.2

/-- Witness of ExecKeepsTheQueue: a next state with a command waiting. -/
theorem wit_exec_next : ∃ t, exec .bar4MissRead { base with pending := [.sbSclTimeout] } = .next t := ⟨_, rfl⟩

/-- Witness of StepKeepsMemoriesCanonical: a state with an allocation that lists bytes. -/
theorem wit_memsOk : base.memsOk = true ∧ base.mem.allocs ≠ [] := by decide +kernel

/-- Witnesses of AdmReadCommandsComplete. -/
theorem wit_adm_reads :
    readyAnd iAdmIdentify io0 (withReq 0x0000 0 (res 512) base) (fun _ => true)
    ∧ readyAnd iAdmLimitsRead io0 (withReq 0x000A 0 (res 4096) base) (fun _ => true)
    ∧ readyAnd iAdmQueueQuery io0 (withReq 0x0007 (hd 1 0) [2] base) (fun c => (getPair c.fn (prm c 0 2) base).isNone)
    ∧ readyAnd iAdmQueueQuery io0 (withReq 0x0007 (hd 1 0) [1] base) (fun c => (getPair c.fn (prm c 0 2) base).isSome)
    ∧ readyAnd iAdmHandleQuery io0 (withReq 0x0009 (hd 13 0) [] base) (fun c => c.obj.any (·.st == .live))
    ∧ readyAnd iAdmHandleQuery io0 (withReq 0x0009 (hd 13 0) [] { base with obj.objs := [{ ob 13 0 with st := .closing none }] })
        (fun c => c.obj.any (·.st == .closing none))
    ∧ readyAnd iAdmHandleQuery io0 (withReq 0x0009 (hd 13 0) [] { base with obj.objs := [{ ob 13 0 with st := .orphan }] })
        (fun c => c.obj.any (·.st == .orphan))
    ∧ readyAnd iAdmEventWait io0 (withReq 0x000E (hd 1 0) (res 32) base) (fun _ => true) := by decide +kernel

/-- Witnesses of AdmQueuePairCommandsComplete. -/
theorem wit_adm_pairs :
    let two : State := { base with link.fns := base.link.fns.modify 1 fun f => { f with enabled := true } }
    readyAnd iAdmQueueCreate io0 (withReq 0x0004 (hd 1 0)
        (leBytes 8 0x3000 ++ leBytes 8 0x4000 ++ leBytes 2 2 ++ leBytes 2 63 ++ leBytes 2 63 ++ leBytes 4 0 ++ [1, 3, 1]) base)
        (fun c => (getPair c.fn (prm c 16 2) base).isNone && decide (prm c 16 2 < (getFn c.fn base).grant))
    ∧ readyAnd iAdmQueueDelete io0 (withReq 0x0005 (hd 1 0) [1] base)
        (fun c => (getPair c.fn (prm c 0 2) base).isSome && c.q.src != .queue c.fn (prm c 0 2))
    ∧ readyAnd iAdmQueueModify io0 (withReq 0x0006 (hd 1 0) [1, 0, 0, 0, 0, 0, 1, 1, 1] base)
        (fun c => (getPair c.fn (prm c 0 2) base).isSome && prm c 0 2 != 0)
    ∧ readyAnd iAdmQueueModify io0 (withReq 0x0006 (hd 1 0) [0, 0, 0, 0, 0, 0, 1, 1, 1] base)
        (fun c => (getPair c.fn (prm c 0 2) base).isSome && prm c 0 2 == 0)
    ∧ readyAnd iAdmQueueGrant io0 (withReq 0x0008 (hd 1 0) [0, 1, 0, 0, 1] two)
        (fun c => decide (prm c 4 4 + 2 ≤ (getFn (prm c 0 1) two).grant) && decide ((getFn (prm c 1 1) two).grant + prm c 4 4 ≤ 4096)
          && two.link.pairs.all fun p => p.fn != prm c 0 1 || decide (p.qid + prm c 4 4 < (getFn (prm c 0 1) two).grant)) := by decide +kernel

/-- Witnesses of AdmSessionAndResetCommandsComplete. -/
theorem wit_adm_sessions :
    let noAdmin : State := { base with obj := { base.obj with sessions := [], objs := [] } }
    let orph : State := { base with obj.objs := [ob 1 0, { ob 13 0 with st := .orphan, sess := none }] }
    let two (cid : Nat) : State := { base with link.reqs :=
      [{ rq 0x0000 0 [] with cid := 9, order := 1 }, rq 0x000B (hd 1 0) (leBytes 2 0 ++ leBytes 2 cid)] }
    readyAnd iAdmSessionOpen io0 (withReq 0x0001 0 [] base) (fun c => !(prm c 12 1).testBit 0)
    ∧ readyAnd iAdmSessionOpen io0 (withReq 0x0001 0 (zeros 12 ++ [1]) noAdmin)
        (fun c => (prm c 12 1).testBit 0 && (adminSession noAdmin).isNone)
    ∧ readyAnd iAdmSessionClose io0 (withReq 0x0002 (hd 1 0) [] base) (fun c => (getSession (objSlot c) base).isSome)
    ∧ readyAnd iAdmSessionAdopt io0 (withReq 0x0003 (hd 1 0) (leBytes 8 (hd 13 0).toNat) orph)
        (fun c => (adoptArg c orph).toOption.any (·.st == .orphan))
    ∧ readyAnd iAdmAbort io0 (two 9) (fun c => (findReq { src := .queue c.fn (prm c 0 2), cid := prm c 2 2 } (two 9)).isSome)
    ∧ readyAnd iAdmAbort io0 (two 11) (fun c => (findReq { src := .queue c.fn (prm c 0 2), cid := prm c 2 2 } (two 11)).isNone)
    ∧ readyAnd iAdmResetWarm io0 (withReq 0x000C (hd 1 0) [] base) (fun _ => base.boot.phase == .running)
    ∧ (let us : State := { base with boot.phase := .understudy }
       readyAnd iAdmResetWarm io0 (withReq 0x000C (hd 1 0) [] us) (fun _ => us.boot.phase == .understudy))
    ∧ (let two (on : Bool) : State := updDom 3 (fun x => { x with on }) base
       let met (on : Bool) : Bool := readyAnd iAdmResetDomain io0 (withReq 0x000D (hd 1 0) [3] (two on))
         (fun c => prm c 0 1 != 91 && (getDom (prm c 0 1) (two on)).run.isNone && (getDom (prm c 0 1) (two on)).test != 2
           && domOn (prm c 0 1) (two on) == on)
       met true ∧ met false) := by decide +kernel

/-- Witnesses of TimeCommandsComplete. -/
theorem wit_time_commands :
    let adj (m : Nat) : State := withReq 0x0C02 (hd 1 0) (leBytes 4 m) base
    readyAnd iTimeRead io0 (withReq 0x0C00 0 (res 32 ++ [1]) base) (fun c => prm c 12 1 == 1)
    ∧ readyAnd iTimeSet io0 (withReq 0x0C01 (hd 1 0) [5] base) (fun _ => !servoOwned base)
    ∧ readyAnd iTimeAdjust io0 (adj 0) (fun c => prm c 0 1 == 0)
    ∧ readyAnd iTimeAdjust io0 (adj 1) (fun c => prm c 0 1 == 1)
    ∧ readyAnd iTimeAdjust io0 (adj 2) (fun c => prm c 0 1 == 2)
    ∧ readyAnd iTimePtpConfig io0 (withReq 0x0C03 (hd 1 0) [] base) (fun c => prm c 0 1 == 0 && (ptpCfg c).ports == 0)
    ∧ (let held : State := { base with time := { base.time with servo := 3, holdAt := some 0 } }
       readyAnd iTimePtpConfig io0 (withReq 0x0C03 (hd 1 0) [] held)
         (fun c => prm c 0 1 == 0 && (ptpCfg c).ports == 0 && held.time.servo == 3 && held.time.holdAt == some 0))
    ∧ readyAnd iTimePtpConfig io0 (withReq 0x0C03 (hd 1 0) [1, 0, 1] base)
        (fun c => prm c 0 1 != 0 && !followsMember base && !(getDom 92 base).pads)
    ∧ readyAnd iTimeAlarmSet io0 (withReq 0x0C04 (hd 1 0) [3, 2] base) (fun c => (prm c 1 1).testBit 1)
    ∧ readyAnd iTimeAlarmSet io0 (withReq 0x0C04 (hd 1 0) ([3, 1] ++ zeros 6 ++ [9]) base) (fun c => !(prm c 1 1).testBit 1)
    ∧ readyAnd iTimeStatus io0 (withReq 0x0C05 0 (res 64) base) (fun _ => true) := by decide +kernel

/-- Witness of StepMovesReferencesAndNoDeadline: a step forward of the largest detail, and one back to zero. -/
theorem wit_step :
    0 ≤ (base.time.now : Int) + (2 ^ 47 - 1) * 65536
    ∧ (let at5 : State := { base with time.now := 5 * 65536 }
       0 ≤ (at5.time.now : Int) + (-5) * 65536 ∧ -(2 ^ 47) ≤ (-5 : Int) ∧ (-5 : Int) < 2 ^ 47) := by decide +kernel

/-- Witnesses of TimeEventsComplete. -/
theorem wit_time_events :
    let al : State := { base with time.alarms := [{ n := 3, t := 0, wake := false, sess := 0, gen := 1 }] }
    let ptp (role delay : Nat) (slavePort : Option Nat) : State :=
      { base with time := { base.time with ptp := { base.time.ptp with role, ports := 1, delay }, slavePort, servo := 2 } }
    ((ptp 1 0 none).time.ptp.role ≠ 0 ∧ (ptp 1 0 none).time.servo = 2
      ∧ ({ (ptp 1 0 none) with time.syncIv := 0 } : State).time.syncAt ≤ base.time.mono)
    ∧ ((-5 : Int) ≠ 0 ∧ (-5 : Int).natAbs ≤ 32768000)
    ∧ (ethLive 0 (ptp 2 0 none) ∧ ptpOn 0 (ptp 2 0 none) ∧ (ptp 2 0 none).time.ptp.role = 2 ∧ (ptp 2 0 none).time.slavePort = none)
    ∧ (ethLive 0 (ptp 3 0 (some 1)) ∧ ptpOn 0 (ptp 3 0 (some 1)) ∧ (ptp 3 0 (some 1)).time.slavePort ≠ some 0)
    ∧ (ethLive 0 (ptp 1 0 (some 0)) ∧ ptpOn 0 (ptp 1 0 (some 0)) ∧ (ptp 1 0 (some 0)).time.slavePort = some 0)
    ∧ (ethLive 0 (ptp 1 1 none) ∧ ptpOn 0 (ptp 1 1 none) ∧ (ptp 1 1 none).time.ptp.delay = 1)
    ∧ ((al.time.alarms.find? fun a => a.n == 3).any fun a => decide (a.t ≤ al.time.now))
    ∧ (base.time.alarms.find? fun a => a.n == 3) = none := by decide +kernel

/-- Witness of TickAdvancesBothCounts. -/
theorem wit_tick : timeRuns base ∧ timeRuns { base with boot.phase := .off } = false ∧ base.time.rate.natAbs ≤ 32768000 ∧ base.time.sleepErr.natAbs ≤ 3276800 ∧ 0 ≤ base.time.frac ∧ base.time.frac < 1000000 := by decide +kernel

/-- A CSI-2 stream of port 0 with two free buffers, and a low-rate channel of encoder 2. -/
def oArgs (kind ring : Nat) : List Byte :=
  if kind = 0 then [0, 0, 0, 1] ++ leBytes 2 64 ++ leBytes 2 64 ++ leBytes 4 10000000 ++ [BitVec.ofNat 8 ring, 0] ++ leBytes 2 1000
  else [4, 2, 0, 0, 0, 0, 0, 0] ++ leBytes 4 1000000

def st0 (started : Bool) (ring : List Buf) : Stream :=
  { slot := 0, kind := 0, port := 0, vc := 0, format := 1, width := 4, height := 2, period := 10000000, phy := 0, laneRate := 1000
    udp := 0, source := 0, tickHz := 1000000000, cal := none, calNext := none, dt := 0, started, stopping := false, ref := none
    rebase := false, newPeriod := none, desync := false, good := 0, stepped := false, frameExt := 0, ring
    delivered := 0, dropped := 0, incomplete := 0, desynced := 0, lastE := 0, unmatched := 0, relEnd := [] }

def frame0 : Frame :=
  { stamp := { t := 0, tag := 0 }, sensor := 0, number := 0, desync := false, incomplete := false, ecc := false, crc := false
    length := false, stepped := false, lines := 0, lead := 0, e := 0, gvspFormat := 0, rows := [], got := [], desc := [] }

def low0 (started : Bool) : LowRate :=
  { ch := 5, sess := 0, kind := 4, port := 2, udp := 0, source := 0, index := 0, period := 1000000, started, ref := none
    rebase := false, newPeriod := none, desync := false, good := 0, window := 0, lastE := 0, ring := [], written := 0
    overwritten := 0, desynced := 0, gap := false, lastSeq := none, sampledAt := none }

/-- The state in service with stream 0 and low-rate channel 5. -/
def stS (started : Bool) (ring : List Buf) : State :=
  { base with sens := { base.sens with streams := [st0 started ring], lows := [low0 started] }
              obj.objs := ob 2 0 :: base.obj.objs }

def isStream (c : Ctx) (s : State) : Bool := match target c s with
  | .ok (.stream _) => true
  | _ => false

def isLow (c : Ctx) (s : State) : Bool := match target c s with
  | .ok (.low _) => true
  | _ => false

/-- Witnesses of StreamCommandsComplete. -/
theorem wit_streams :
    (readyAnd iStreamOpen io0 (withReq 0x0100 (hd 1 0) (oArgs 0 2) base) fun c =>
        let a := openArgs c
        !classUsed a base && !portDiffers a base && decide (a.kind < 3) && (getQuota c.fn 1 base).used.ok
          && decide (countType 2 base < 128) && (rateCheck [{ kind := a.kind, port := a.port, area := a.width * a.height
                                                              format := a.format, period := a.period }]
              (some (a.port, a.phy.testBit 0, a.laneRate))).isOk
          && quotaOver c.fn 1 (a.ring * ringBuf a.width a.height a.format) base == 0
          && decide (a.ring * ringBuf a.width a.height a.format ≤ stackedFree base))
    ∧ (readyAnd iStreamOpen io0 (withReq 0x0100 (hd 1 0) (oArgs 4 0) base) fun c =>
        !classUsed (openArgs c) base && !portDiffers (openArgs c) base && decide (3 ≤ (openArgs c).kind))
    ∧ (readyAnd iStreamStart io0 (withReq 0x0102 (hd 2 0) [] (stS false [.free])) fun c => isStream c (stS false [.free]))
    ∧ (readyAnd iStreamStop io0 (withReq 0x0103 (hd 2 0) [] (stS true [.free])) fun c => isStream c (stS true [.free]))
    ∧ (readyAnd iStreamSetWindow io0 (withReq 0x0105 (hd 2 0) (leBytes 4 20000000 ++ [1]) (stS true [.free])) fun c =>
        isStream c (stS true [.free])
          && (rateCheck [{ rateOf (st0 true []) with period := prm c 0 4 }] (some (0, false, 1000))).isOk)
    ∧ (readyAnd iStreamClose io0 (withReq 0x0101 (hd 2 0) [] (stS true [.free])) fun c =>
        isStream c (stS true [.free]) && c.obj.any fun o => (dependants o.ty o.slot (stS true [.free])).isEmpty)
    ∧ (readyAnd iStreamFrameRelease io0 (withReq 0x0106 (hd 2 0) [1] (stS true [.free, .held frame0])) fun c =>
        objSlot c == 0 && prm c 0 1 == 1)
    ∧ (readyAnd iStreamQuery io0 (withReq 0x0104 (hd 2 0) (res 64) (stS true [.free])) fun c => isStream c (stS true [.free]))
    := by decide +kernel

/-- Witnesses of LowRateAndEncoderComplete. -/
theorem wit_low_rate :
    let ps (l : List Byte) : List Byte := padTo 36 l ++ leBytes 4 5
    (readyAnd iStreamStart io0 (withReq 0x0102 (hd 1 0) (ps []) (stS false [.free])) fun c => isLow c (stS false [.free]))
    ∧ (readyAnd iStreamStop io0 (withReq 0x0103 (hd 1 0) (ps []) (stS true [.free])) fun c => isLow c (stS true [.free]))
    ∧ (readyAnd iStreamSetWindow io0 (withReq 0x0105 (hd 1 0) (ps (leBytes 4 2000000)) (stS true [.free])) fun c => isLow c (stS true [.free]))
    ∧ (readyAnd iStreamClose io0 (withReq 0x0101 (hd 1 0) (ps []) (stS true [.free])) fun c => isLow c (stS true [.free]))
    ∧ encLive (stS true [.free])
    ∧ ((stS true [.free]).sens.lows.find? fun x => x.kind == 4 && x.port == 2 && x.started).any (·.sampledAt == none)
    ∧ (let s : State := updLow 5 (fun x => { x with sampledAt := some 0 }) (stS true [.free])
       (s.sens.lows.find? fun x => x.kind == 4 && x.port == 2 && x.started).any fun x =>
         x.sampledAt == some 0 && decide (s.time.mono < 0 + x.period * 65536))
    ∧ ((stS true [.free]).sens.encs.find? fun e => e.n == 2).isSome
    ∧ encLive { base with pwr.doms := base.pwr.doms.modify 90 fun d => { d with pads := true } } = false := by decide +kernel

/-- Witnesses of CsiReceptionComplete. -/
theorem wit_csi :
    let a := stS true [.free]
    let b := stS true [.claimed frame0, .free]
    csiLive 0 a ∧ csiStream 0 1 a = none
    ∧ csiLive 0 { base with pwr.doms := base.pwr.doms.modify 93 fun d => { d with on := false } } = false
    ∧ ((csiStream 0 0 a).any fun x => x.started && (claimedBuf x).isNone && csiType x.format x.dt == 0x2A)
    ∧ ((csiStream 0 0 (stS false [.free])).any fun x => !x.started && (claimedBuf x).isNone)
    ∧ ((csiStream 0 0 b).any fun x => (claimedBuf x).isSome && csiType x.format x.dt != 2 && csiType x.format x.dt != 0x12)
    ∧ (let p : CsiPacket := { dt := 0x2A, ecc := .corrected, crcOk := true, pixels := [1, 2, 3, 4] }
       p.ecc ≠ .lost ∧ p.dt ≠ 2 ∧ p.dt ≠ 3 ∧ p.dt ≠ 0x12)
    ∧ ((csiStream 0 0 (endFrame 0 true b)).any (·.started)) := by decide +kernel

/-- Witnesses of FrameStartClaimsABufferOrDropsTheFrame. -/
theorem wit_frame_start :
    freeRing (st0 true [.held frame0, .claimed frame0]) = none ∧ freeRing (st0 true [.held frame0, .free, .free]) = some 1
    ∧ (let s : State := stS true [.claimed frame0]
       (getStream 0 s).any fun x => x.slot == 0 && claimedBuf x == some (0, frame0) && !x.relEnd.contains 0)
    ∧ (let k := (0x0103, 2, (handleOf 2 0 base).toNat)
       let s : State := { base with obj.ageMarks := [(k, (0, [0]))] }
       ageMark k base = none ∧ ageMark k s = some (0, [0]) ∧ s.time.mono < 0 + secT)
    := by decide +kernel

/-- Witness of AlignmentJudgesEachUnit: thirty units within half the window. -/
theorem wit_alignment : (∀ e ∈ List.replicate 30 2, 2 * e ≤ 4) ∧ (List.replicate 30 2).length ≤ 30 ∧ (4 : Nat) < 2 * 3 := by decide

/-- Witnesses of EthernetReceptionComplete. -/
theorem wit_eth :
    let g : State := { base with sens.streams := [{ st0 true [.free] with kind := 1, udp := 4000 }] }
    let f : State := { base with sens.streams := [{ st0 true [.free] with kind := 2, udp := 4000 }] }
    let ips : State := { base with time.ptp := { base.time.ptp with ips := [7, 0, 0, 0] } }
    ethLive 0 base ∧ ethLive 4 base = false ∧ natAt ips.time.ptp.ips 0 = 7
    ∧ ((g.sens.streams.find? fun x => x.kind == 1 && x.port == 0 && x.udp == 4000).any (·.started))
    ∧ (f.sens.streams.any fun x => x.kind == 2 && x.port == 0 && x.udp == 4000)
    ∧ (base.sens.streams.any fun x => x.kind == 2 && x.port == 0 && x.udp == 4000) = false
    ∧ ssfBad (zeros 24) = some 10 := by decide +kernel

/-- A filter channel 9 of chip select (0, 0), word 0, with both banks loaded and bank A active. -/
def fch : Chan :=
  { slot := 9, ctrl := 0, cs := 0, word := 0, period := 1000, decim := 1, phase := 0, newPhase := none, dcShift := 8, ringLog2 := 8
    cal := 0, m := 0, frozen := false, newFreeze := [], first := 0, hist := [], n := 0, j := 0, bankA := some (mkBank [1])
    bankB := some (mkBank [2]), active := 0, swapped := true, pend := none, fade := none, step := false, lastX := 0
    lastStamp := { t := 0, tag := 0 }, heldRun := 0, stalled := false, offStall := false, ring := [], written := 0, overwritten := 0 }

/-- Its chip select, with a strobe driven by the K9 or a data-ready input. -/
def fsel (drdy gap : Bool) : ChipSel :=
  { ctrl := 0, cs := 0, mode := if drdy then 16 else 0, words := 1, sclk := 100, period := 1000, queue := [], lastStrobe := some 0, gap }

/-- The state in service with that channel. -/
def stF (drdy gap : Bool) : State :=
  { base with filt := { base.filt with chans := [fch], sels := [fsel drdy gap] }, obj.objs := ob 3 9 :: base.obj.objs }

/-- Witnesses of FilterCommandsComplete. -/
theorem wit_filters :
    let s := stF true false
    let at' (ci : CmdInfo) (op : Nat) (ps : List Byte) : Bool :=
      readyAnd ci io0 (withReq op (hd 3 9) ps s) fun c => (chanOf c s).isOk
    (readyAnd iFiltOpen io0 (withReq 0x0200 (hd 1 0) ([0xFF, 0, 1, 0, 0, 1, 100, 0] ++ leBytes 4 10000 ++ [1, 0, 0, 0, 0, 8]) base) fun c =>
        (getQuota c.fn 1 base).used.ok && (getChan (prm c 0 1) base).isNone && pickChan (prm c 0 1) base == some 8
          && quotaOver c.fn 1 (2 ^ prm c 17 1 * 32) base == 0 && decide (2 ^ prm c 17 1 * 32 ≤ stackedFree base)
          && excess [(1000000000, prm c 8 4)] 64000000 1 1 == 0)
    ∧ (readyAnd iFiltLoadBank io0 (withReq 0x0202 (hd 3 9) [1, 0, 1, 0, 5] s) fun c =>
        (chanOf c s).isOk && (coeffs (prm c 2 2) (c.q.param.drop 4)).isSome && prm c 0 1 != fch.active)
    ∧ (readyAnd iFiltSwap io0 (withReq 0x0203 (hd 3 9) [] s) fun c =>
        (chanOf c s).isOk && (macCheck fch (tapsOf (bankOf fch (otherBank fch))) s).isOk && (bankOf fch (otherBank fch)).isSome)
    ∧ (readyAnd iFiltCrossfade io0 (withReq 0x0204 (hd 3 9) (zeros 12 ++ leBytes 2 64) s) fun c =>
        (chanOf c s).isOk && (macCheck fch (tapsOf fch.bankA + tapsOf fch.bankB) s).isOk)
    ∧ at' iFiltDcFreeze 0x0206 [1] ∧ at' iFiltDelayQuery 0x0207 (res 64) ∧ at' iFiltSetPhase 0x0205 [3]
    ∧ (readyAnd iFiltClose io0 (withReq 0x0201 (hd 3 9) [] s) fun c => c.obj.any fun o => (dependants o.ty o.slot s).isEmpty)
    := by decide +kernel

/-- Witnesses of SpiEventsComplete. -/
theorem wit_spi :
    let d := stF true false
    let late : State := { d with time.mono := 2 * 1000 * 65536 }
    let busy : State := { d with filt.busy := [(0, 0, { t := 5, tag := 0x3000 }, 0)] }
    (getSel 0 0 d).isSome ∧ spiLive d ∧ getSel 0 1 d = none ∧ (fsel true false).mode.testBit 4 ∧ !(fsel false false).mode.testBit 4
    ∧ ((getSel 0 0 (stF false false)).any fun x => x.lastStrobe == some 0 && decide (base.time.mono < 0 + x.period * 65536))
    ∧ spiBusy 0 busy
    ∧ ((getSel 0 0 late).any fun x => !x.gap && x.lastStrobe == some 0 && decide (0 + 2 * x.period * 65536 ≤ late.time.mono))
    ∧ ((getSel 0 0 (stF true true)).any (·.gap))
    ∧ (busy.filt.busy.find? fun b => b.1 == 0).isSome ∧ (busy.filt.busy.find? fun b => b.1 == 1) = none
    ∧ nextQueued 0 busy = none ∧ spiBusy 0 d = false
    ∧ (nextQueued 0 { busy with filt.sels := [{ fsel true false with queue := [({ t := 9, tag := 0x3000 }, 1)] }] }).isSome := by decide +kernel

/-- Witnesses of FilterArithmeticRules. -/
theorem wit_filter_rules :
    let p (at' fade : Nat) : Chan := { fch with pend := some { req := r0, at', fade } }
    (p 0 0).pend.isSome ∧ (p 9 16).pend.isSome ∧ (8 : Nat) < 9 ∧ fch.dcShift ≠ 0
    ∧ ((getChan 9 { stF true true with filt.chans := [{ fch with hist := [{ d := 0, heldIn := true }], heldRun := 1023 }] }).any fun c =>
        !c.stalled && !c.hist.isEmpty && c.heldRun == 1023)
    ∧ ((getChan 9 { stF true true with filt.chans := [{ fch with stalled := true }] }).any (·.stalled)) := by decide +kernel

/-- A cue sheet image: one stream slot of 4 by 2 pixels, one warp node, its output buffer with one flag. -/
def sheetImg : List Byte :=
  leBytes 4 0x43554531 ++ leBytes 2 1 ++ leBytes 2 1 ++ leBytes 2 2 ++ leBytes 2 1 ++ [1, 0, 1, 0] ++ leBytes 4 1000
    ++ leBytes 4 1000000 ++ leBytes 4 48 ++ leBytes 4 216 ++ zeros 32
    ++ leBytes 2 4 ++ leBytes 2 2 ++ [1, 0, 0, 0]
    ++ [1, 0] ++ leBytes 2 0 ++ leBytes 2 0xFFFF ++ leBytes 2 0xFFFF ++ leBytes 2 1 ++ leBytes 2 0xFFFF ++ leBytes 4 0
    ++ leBytes 2 16 ++ zeros 14
    ++ [0, 0, 0, 0, 1, 0] ++ leBytes 2 0xFFFF ++ zeros 24
    ++ [1, 0, 0, 1, 0x10, 0] ++ leBytes 2 0 ++ leBytes 2 32 ++ leBytes 2 32 ++ zeros 20
    ++ leBytes 2 32 ++ leBytes 2 32 ++ [1, 32] ++ leBytes 2 0 ++ leBytes 4 16 ++ leBytes 4 4 ++ zeros 32

/-- The state with that sheet loaded in slot 3 beside stream 0. -/
def stC (started : Bool) (sets : List FrameSet) : State :=
  let s := stS true [.free, .held frame0]
  let x := newSheet 3 (parseSheet sheetImg)
  { s with sheets := [{ x with started, group := if started then 0 else 0xFF, streams := if started then [0] else [], sets }]
           obj.objs := ob 4 3 :: s.obj.objs }

/-- A set 1 of it in flight. -/
def set1 (f : SetFrame) (n : NodeSt) : FrameSet :=
  { n := 1, tn := { t := 0, tag := 0 }, tnMono := 0, frames := [f], nodes := [n], ext := [], prevOk := false }

/-- Witnesses of CueCommandsComplete. -/
theorem wit_cue_commands :
    let on (ci : CmdInfo) (op : Nat) (ps : List Byte) (s : State) (p : Ctx → Bool) : Bool :=
      readyAnd ci io0 (withReq op (hd 4 3) ps s) fun c => (getSheet (objSlot c) s).isSome && p c
    let load (f : Nat) : Bool := readyAnd iCueLoad (ioP sheetImg) (withPay 0x0300 (hd 1 0) [BitVec.ofNat 8 f] 216 base) fun c =>
        match checkSheet c.pay with
        | .ok m => (quotaPair c.fn 0 m.onchip base).isOk && (quotaPair c.fn 1 m.stacked base).isOk
            && (sheetFit c.fn m base).isOk && prm c 0 1 == f && decide (countType 4 base < 64)
        | .error _ => false
    load 0 ∧ load 1
    ∧ (readyAnd iCueStart (ioP (leBytes 8 (hd 2 0).toNat)) (withPay 0x0302 (hd 4 3) [0] 8 (stC false [])) fun c =>
        startGroup c (stC false []) == some 0 && groupOk 0 (stC false []) && decide (groupLoad 0 (stC false []) < 4)
          && ((startHandles c).mapM fun h => lookupHandle [2] c.fn false h (stC false [])).isOk)
    ∧ on iCueStop 0x0303 [0] (stC true []) (fun c => prm c 0 1 == 0)
    ∧ on iCueStop 0x0303 [0] (stC true [set1 .waiting .idle]) (fun c => prm c 0 1 == 0)
    ∧ on iCueStop 0x0303 [1] (stC true []) (fun c => prm c 0 1 == 1)
    ∧ on iCueUnload 0x0301 [] (stC false []) (fun c => c.obj.any fun o => (dependants o.ty o.slot (stC false [])).isEmpty)
    ∧ on iCueQuery 0x0304 (res 64) (stC false []) (fun _ => true)
    ∧ on iCueFlagRead 0x0305 (res 16 ++ leBytes 2 0 ++ leBytes 2 1) (stC false []) (fun _ => true) := by decide +kernel

/-- Witnesses of CueEventsComplete. -/
theorem wit_cue_events :
    let w := stC true [set1 .waiting .idle]
    let late : State := { w with time.mono := 2000 * 65536000 }
    let run := stC true [set1 (.matched 1) (.running 7)]
    let vis : State := { run with vis := [{ group := 0, kind := 1, no := 0, sheet := 3, set := 1, node := 0 }] }
    let ext : State := { w with sheets := w.sheets.map fun x => { x with
      img := { x.img with bufs := x.img.bufs.map fun b => { b with kind := 2 }
                          nodes := x.img.nodes.map fun m => { m with inA := 1 } }
      flags := [{ done := 1, status := 0, slot := 0, released := 0, writer := 1 }] } }
    ((getSheet 3 ext).any fun sh => (sh.getSet 1).any fun fs => (sh.img.nodes[0]?).any fun node =>
        fs.node 0 == .idle && readsExternal sh.img node && (extMet sh fs node).isSome)
    ∧ getSheet 9 w = none
    ∧ ((getSheet 3 late).any fun sh => (sh.getSet 1).any fun fs => fs.frames[0]? == some .waiting
        && decide (fs.tnMono + sh.img.matchNs * 65536 ≤ late.time.mono) && decide (fs.tnMono + sh.img.deadlineUs * 65536000 ≤ late.time.mono)
        && ((List.range fs.nodes.length).find? fun i => !isDone (fs.node i)) == some 0)
    ∧ ((getSheet 3 w).any fun sh => (sh.getSet 1).any fun fs => decide (w.time.mono < fs.tnMono + sh.img.deadlineUs * 65536000)
        && decide (w.time.mono < fs.tnMono + sh.img.matchNs * 65536))
    ∧ ((getSheet 3 run).any fun sh => (sh.getSet 1).any fun fs => mayComplete sh fs 0 run && (sh.img.nodes[0]?).isSome)
    ∧ ((getSheet 3 w).any fun sh => (sh.getSet 1).any fun fs => !mayComplete sh fs 0 w && (sh.img.nodes[0]?).isSome)
    ∧ (let waits : State := { ext with sheets := ext.sheets.map fun x => { x with flags := [{ done := 0, status := 0, slot := 0, released := 0, writer := 1 }] } }
       (getSheet 3 waits).any fun sh => (sh.getSet 1).any fun fs => (sh.img.nodes[0]?).any fun node => (extMet sh fs node).isNone)
    ∧ (vis.vis.find? fun x => x.group == 0 && (x.kind, x.no) == bandUnit (.warp 0)).isSome
    ∧ ((getSheet 3 w).any fun sh => (sh.flags[0]?).any fun f => flagWriteBarred f 0 4) := by decide +kernel

/-- A package of one layer of one task in cluster 0, with one block and one allocation port. -/
def pkg0 : Pkg :=
  { slot := 4, designLevel := 0, digest := zeros 64, len := 16384
    rs := { tileBytes := 0, clusters := 1, tilesMin := 1, stageBytes := 0, gsuBytes := 0, stackedShared := 0, stackedPerInst := 0
            lookahead := 1, instances := 4, pkgFlags := 0, lateWeightUs := 100, weightTimeoutUs := 1000, flagWaitUs := 100
            taskLimitUs := 10, runDeadlineUs := 1000 }
    ports := [{ kind := 0, dir := 1, format := 0, minBytes := 0, dynMax := 0 }]
    layers := [{ firstBlock := 0, blocks := 1, tasks := 1, waitPort := 0xFFFF, signalPort := 0xFFFF, cls := 1, remoteOk := true, statedUs := 1 }]
    blocks := [{ off := 0, mode := 0, units := 1, codeLen := 4096, crc := 0, quarAt := none, dead := false, good := true }]
    sheets := [], scheds := [], schedHeld := [], gsus := [], place := [0], below := [], prefetch := [], late := [], refetched := 0, refetch := none }

/-- A run of instance 6 in a state, and the state with that instance. -/
def run0 (st : RunSt) (landed : List Nat) (stall : Option Nat) : Run :=
  { req := r0, dl := none, dlUs := 0, admitted := 0, set := 0, layer := 0, st, startAt := none, serial := 0, landed, issued := [(0, 0)], lateOff := false, stallAt := stall
    desyncs := [], clamped := [], status := 0, signalled := [] }

def stT (runs : List Run) (tiles : List Tile) : State :=
  { base with
    tile := { base.tile with pkgs := [pkg0], tiles, insts :=
      [{ slot := 6, pkg := 4, binds := [(13, 0, 0)], runs, doneRuns := 0, errRuns := 0, lateRuns := 0, lastUs := 0, maxUs := 0
         lastSet := 0, aborted := 0, mem := [] }] }
    obj.objs := ob 6 6 [(5, 4), (13, 0)] :: ob 5 4 :: base.obj.objs }

/-- The parts of a package image around its digest: resource statement, one port, one layer. -/
def pkgHead : List Byte :=
  leBytes 4 0x425A5031 ++ leBytes 2 1 ++ leBytes 2 5 ++ leBytes 8 16384 ++ leBytes 2 0x4B47 ++ [0x09, 0] ++ zeros 12
def pkgTail : List Byte :=
  let sec (ty n off len : Nat) : List Byte := leBytes 2 ty ++ zeros 2 ++ leBytes 4 n ++ leBytes 8 off ++ leBytes 8 len ++ zeros 8
  let rs := padTo 128 (leBytes 4 0 ++ [1, 1] ++ zeros 26 ++ [1, 0] ++ leBytes 2 1)
  let layer := leBytes 4 0 ++ leBytes 4 0 ++ leBytes 4 1 ++ leBytes 2 0xFFFF ++ leBytes 2 0xFFFF ++ [1, 0, 0, 0] ++ leBytes 4 1 ++ zeros 8
  padTo 4000 (zeros 32 ++ sec 1 1 4096 128 ++ sec 2 1 8192 16 ++ sec 3 1 12288 32 ++ sec 4 0 16384 0 ++ sec 5 0 16384 0)
    ++ padTo 4096 rs ++ padTo 4096 (zeros 16) ++ padTo 4096 layer
/-- A package image: its digest is taken over the image with the digest's bytes zero. -/
def pkgImg : List Byte := pkgHead ++ (Config.sha3 (pkgHead ++ zeros 64 ++ pkgTail) ++ pkgTail)

theorem sha3_len (m : List Byte) : (Config.sha3 m).length = 64 := by simp [Config.sha3]

theorem pkgImg_digest : pkgDigest pkgImg = true := by
  have hl : pkgHead.length = 32 := by decide +kernel
  have hd := sha3_len (pkgHead ++ zeros 64 ++ pkgTail)
  have h1 : pkgImg.take 32 = pkgHead := by rw [pkgImg, ← hl]; exact List.take_left
  have h2 : pkgImg.drop 32 = Config.sha3 (pkgHead ++ zeros 64 ++ pkgTail) ++ pkgTail := by
    rw [pkgImg, ← hl]; exact List.drop_left
  have h3 : pkgImg.drop 96 = pkgTail := by
    have : pkgImg.drop 96 = (pkgImg.drop 32).drop 64 := by rw [List.drop_drop]
    rw [this, h2, ← hd]; exact List.drop_left
  have h4 : slice pkgImg 32 64 = Config.sha3 (pkgHead ++ zeros 64 ++ pkgTail) := by
    simp only [slice, h2]
    exact List.take_left' (l₂ := pkgTail) hd
  rw [pkgDigest, h4, h1, h3]; exact beq_self_eq_true _

/-- The image passes every check of R246. -/
theorem wit_checkPkg : checkPkg pkgImg = .ok () := by
  have h1 : firstBad (pkgHeader pkgImg pkgImg.length) = none := by decide +kernel
  have h2 : pkgTarget pkgImg = true := by decide +kernel
  have h3 : secBad pkgImg = none := by decide +kernel
  have h4 : ((pkgSecs pkgImg).zipIdx.findSome? fun (x, i) => (contentBad pkgImg x).map fun (st, r) => (st, i, r)) = none := by
    decide +kernel
  unfold checkPkg
  rw [h1, h2, pkgImg_digest, h3, h4]; rfl

/-- Witnesses of PackageAndInstanceCommandsComplete (PKG_LOAD with the image above: wit_checkPkg). -/
theorem wit_packages :
    let s := stT [] []
    let p := parsePkg 0 pkgImg [0]
    (readyAnd iPkgLoad (ioP pkgImg) (withPay 0x0400 (hd 1 0) [0, 0, 0] 16384 base) fun c => prm c 2 1 == 0 && c.pay.length == 16384)
    ∧ (readyAnd iPkgLoad (ioP pkgImg) (withPay 0x0400 (hd 1 0) [0, 0, 1] 16384 base) fun c => prm c 2 1 == 1)
    ∧ ((quotaPair 0 0 (pkgOnchip p) base).isOk ∧ (quotaPair 0 1 (pkgStacked p) base).isOk ∧ (pkgFit 0 p base).isOk
        ∧ p.rs.clusters = 1 ∧ (eligible 0 p.rs.tilesMin base).take 1 = [0] ∧ countType 5 base < 1024)
    ∧ (readyAnd iPkgUnload io0 (withReq 0x0401 (hd 5 4) [] { s with obj.objs := [ob 5 4], tile.insts := [] }) fun c => c.obj.isSome)
    ∧ (readyAnd iInstCreate (ioP (leBytes 8 (hd 13 0).toNat ++ zeros 8)) (withPay 0x0402 (hd 1 0) (leBytes 8 (hd 5 4).toNat) 16 s) fun c =>
        (createPkg c s).any fun p => (checkBinds c s (p.ports.zip (bindRecs c.pay)) 0).isOk && decide (1 < p.rs.instances))
    ∧ (readyAnd iInferRun io0 (withReq 0x0404 (hd 6 6) [] s) fun c => (getInst (objSlot c) s).any fun x =>
        (instPkg x s).any fun p => tilesOf p.place s != 0 && decide (x.runs.length < 65))
    ∧ (readyAnd iInstDestroy io0 (withReq 0x0403 (hd 6 6) [] s) fun c => (getInst (objSlot c) s).isSome && c.obj.any fun o => (dependants o.ty o.slot s).isEmpty)
    ∧ (readyAnd iPkgQuery io0 (withReq 0x0406 (hd 5 4) (res 136 ++ leBytes 2 0 ++ leBytes 2 1) s) fun c => (getPkg (objSlot c) s).isSome)
    ∧ (readyAnd iInstQuery io0 (withReq 0x0405 (hd 6 6) (res 64) s) fun c => (getInst (objSlot c) s).isSome) := by decide +kernel

/-- Witnesses of TileEventsComplete. -/
theorem wit_tile_events :
    let t : Task := { inst := 6, gen := 1, run := 0, limitUs := 10, layer := 0, no := 0, order := 0, remote := true, cluster := 0 }
    let late : Nat := 2000 * 65536000
    let go (n : Nat) (landed : List Nat) : State :=
      { stT [run0 (.tasks n 0 0) landed none] [{ id := 3, queue := [], running := some (t, 0) }] with time.mono := late }
    let fin (n : Nat) : State := (taskWrites t [] (putTile { getTile 3 (go n [0]) with running := none } (go n [0]))).2
    let q : State := stT [run0 (.tasks 1 0 0) [0] none] [{ id := 4, queue := [t], running := none }]
    let stall : State := { stT [run0 (.tasks 1 1 0) [] (some 0)] [] with time.mono := late }
    let bad : State := { stall with tile.pkgs := [{ pkg0 with blocks := pkg0.blocks.map fun b => { b with quarAt := some 0 } }] }
    let head (s : State) (p : Run → Bool) : Bool := (getInst 6 s).any fun x => (instPkg x s).isSome && x.runs.head?.any p
    ((getTile 3 (go 2 [0])).running = some (t, 0) ∧ weightsIn t (go 2 [0]) ∧ weightsIn t (go 2 []) = false ∧ 0 + t.limitUs * 65536000 ≤ late)
    ∧ head (fin 0) (fun r => r.serial == 0 && layerOver 6 r (fin 0)) ∧ head (fin 1) (fun r => r.serial == 0 && !layerOver 6 r (fin 1))
    ∧ isErr stMedia
    ∧ (getTile 9 (go 2 [0])).running = none
    ∧ (Machine.tileOk 3 q ∧ domOn (tileDom 3) q ∧ (getTile 3 q).running = none ∧ (getTile 3 q).queue = [] ∧ (stealFrom 3 q).isSome)
    ∧ head (stT [run0 (.tasks 1 1 0) [] none] []) (fun r => r.stallAt.isNone && r.landed == []
        && (r.issued.find? fun i => i.1 == 0) == some (0, 0) && !servedLater pkg0 noDl 0 (stT [run0 (.tasks 1 1 0) [] none] []))
    ∧ (layerBlocks pkg0 0).any (·.quarAt.isSome) = false
    ∧ head stall (fun r => r.stallAt == some 0 && !r.lateOff && (awaitedQuar pkg0 r.layer).isNone
        && decide (0 + pkg0.rs.lateWeightUs * 65536000 ≤ stall.time.mono))
    ∧ ((getInst 6 bad).any fun x => (instPkg x bad).any fun p => awaitedQuar p 0 == some 0 && decide (0 + p.rs.weightTimeoutUs * 65536000 ≤ bad.time.mono))
    ∧ head { stT [run0 (.waitFlag 0) [] none] [] with time.mono := late } (fun r => r.st == .waitFlag 0 && decide (0 + pkg0.rs.flagWaitUs * 65536000 ≤ late))
    ∧ head { stT [run0 (.waitSlot 0) [] none] [] with time.mono := late } (fun r => r.st == .waitSlot 0) := by decide +kernel

/-- FP32 one, and the identity transform of 3 by 4 entries. -/
def f1 : List Byte := leBytes 4 0x3F800000
def xfId : List Byte := f1 ++ zeros 16 ++ f1 ++ zeros 16 ++ f1 ++ zeros 4
/-- A calibration set of a fixed or (`mount` 1) an arm camera with one joint. -/
def calImg (mount : Nat) : List Byte :=
  leBytes 4 0x43414C31 ++ leBytes 2 1 ++ [0, BitVec.ofNat 8 mount] ++ f1 ++ f1 ++ zeros 8 ++ leBytes 2 64 ++ leBytes 2 64 ++ f1
    ++ zeros 4 ++ leBytes 4 0x41200000 ++ xfId ++ (if mount = 1 then [0, 1] else [0, 0]) ++ zeros 38
    ++ padTo 512 (if mount = 1 then xfId ++ f1 ++ zeros 4 ++ f1 ++ [5] else []) ++ zeros 48 ++ zeros 24 ++ xfId ++ f1 ++ f1 ++ zeros 256
/-- A grid descriptor of 8 by 8 by 8 voxels and one sensor on stream 0, fixed or moving. -/
def gridDesc (moving : Bool) (pkg : W64) : List Byte :=
  leBytes 2 8 ++ leBytes 2 8 ++ leBytes 2 8 ++ [8, 1] ++ zeros 4 ++ zeros 12 ++ leBytes 4 65536 ++ zeros 16
    ++ leBytes 2 0xFFFF ++ zeros 2 ++ zeros 4 ++ leBytes 8 pkg.toNat ++ zeros 4
    ++ leBytes 8 (hd 2 0).toNat ++ zeros 8 ++ leBytes 4 0xFFFFFFFF ++ [if moving then 3 else 1] ++ zeros 3 ++ f1 ++ zeros 4
/-- A schedule of one pose block and one unary factor for GSU 0. -/
def sch0 : Sched :=
  { cls := 1, arith := 0, gsuCount := 1, gsuMask := 1, outer := 1, method := 0, inner := 0, designLevel := 0, floor := 40, finger := 7
    statedUs := 1, gsuBytes := 4096, valueBytes := 4096, lambda0 := 0, deadlineUs := 1000
    blocks := [{ kind := 5, dim := 1, fixed := false, marginal := true, motion := 0, f := 0, vel := 0xFFFFFFFF, bound := 0 }]
    factors := [{ kind := 1, arity := 1, resDim := 1, blocks := [0] }], order := [0], len := 208 }
/-- The same schedule as an image, without its fingerprint. -/
def schRaw : List Byte :=
  leBytes 4 0x53434831 ++ leBytes 2 1 ++ [1, 0, 1, 1, 1, 0, 0, 0, 0, 0] ++ zeros 8 ++ leBytes 4 1 ++ leBytes 4 1 ++ leBytes 4 1
    ++ leBytes 4 4096 ++ leBytes 8 4096 ++ zeros 8 ++ leBytes 4 1000 ++ leBytes 4 16 ++ leBytes 4 208 ++ zeros 60
    ++ [1, 6, 0, 0] ++ leBytes 4 0xFFFFFFFF ++ zeros 8
    ++ [1, 1, 6, 0] ++ leBytes 4 0 ++ leBytes 20 (2 ^ 160 - 1) ++ zeros 4 ++ leBytes 4 0 ++ zeros 28
/-- The state with stream 0 calibrated by set 2, grid 3 of one sensor, and package 4 with the schedule above. -/
def stG (moving : Bool) (es : List Epoch) : State :=
  let s := stS true [.free]
  let s := { s with sens.streams := [{ st0 true [.free] with cal := some 2 }]
                    fus.cals := [{ slot := 2, bytes := calImg (if moving then 1 else 0), bad := false }]
                    tile := { s.tile with pkgs := [{ pkg0 with scheds := [(5, schRaw)] }] } }
  { s with fus.grids := [{ newGrid 3 (gridDesc moving 0) s with epochs := es }]
           obj.objs := ob 14 2 :: ob 7 3 [(2, 0)] :: ob 5 4 :: s.obj.objs }

/-- Witnesses of FusionCommandsComplete. -/
theorem wit_fusion_commands :
    let cal (h : W64) : Bool := readyAnd iCalCreate (ioP (calImg 0)) (withPay 0x0502 (hd 1 0) (leBytes 8 h.toNat) 1024 (stG false [])) fun c =>
      firstBad (calChecks c.pay ++ heldChecks c.pay c (stG false [])) == none && (quotaPair c.fn 1 calBytes (stG false [])).isOk
        && quotaOver c.fn 1 calBytes (stG false []) == 0 && decide (calBytes ≤ stackedFree (stG false []))
        && (getCal (prm c 0 8 % 2 ^ 32) (stG false [])).all fun o => slice o.bytes 6 2 == slice c.pay 6 2
    let grid (moving : Bool) (h : W64) : Bool :=
      readyAnd iGridCreate (ioP (gridDesc moving h)) (withPay 0x0500 (hd 1 0) [] 96 (stG moving [])) fun c =>
        gridRange c.pay && c.plen == 96 && sensorRange c.pay 64 && (match egoPkgOf c (stG moving []) with
          | .ok p => sensorOk c c.pay p.isSome 0 (stG moving []) && p.isSome == moving && (egoSched p).isSome == moving
              && (p.all fun k => !pkgClaims k 5) && ((egoSched p).all fun (sec, m) => sec == 5 && match placeGsus m (stG moving []) with
                | .ok gs => gsuRoom m gs (stG moving [])
                | .error _ => false)
          | .error _ => false)
          && let n := gridBytes (newGrid 0 c.pay (stG moving []))
            (quotaPair c.fn 1 n (stG moving [])).isOk && quotaOver c.fn 1 n (stG moving []) == 0 && decide (n ≤ stackedFree (stG moving []))
    let on (ci : CmdInfo) (op : Nat) (ps : List Byte) : Bool :=
      readyAnd ci io0 (withReq op (hd 7 3) ps (stG false [])) fun c => (getGrid (objSlot c) (stG false [])).any fun g => g.poison.isEmpty
    cal 0 ∧ cal (hd 14 2) ∧ grid false 0 ∧ grid true (hd 5 4)
    ∧ on iGridRead 0x0504 (res 8192 ++ [0, 0]) ∧ on iGridClear 0x0505 (zeros 12 ++ [1]) ∧ on iGridVoteSet 0x0506 (leBytes 12 (2 ^ 96 - 1) ++ zeros 8)
    ∧ on iGridStatus 0x0508 (res 448 ++ [0])
    ∧ (readyAnd iGridPoseSubmit (ioP (zeros 24 ++ zeros 24 ++ leBytes 8 oneW.toNat ++ zeros 24 ++ f1 ++ f1 ++ f1 ++ f1 ++ f1 ++ f1 ++ zeros 8))
        (withPay 0x0507 (hd 7 3) [] 112 (stG true [])) fun c => (getGrid (objSlot c) (stG true [])).any fun g =>
          poseRange g c.pay && (g.sensors[fld c.pay 16 1]?).any (fun y => y.moving && y.pending.isEmpty) && g.poseTimes.isEmpty)
    ∧ (readyAnd iCalDestroy io0 (withReq 0x0503 (hd 14 2) [] (stG false [])) fun c => c.obj.any fun o => (dependants o.ty o.slot (stG false [])).isEmpty)
    ∧ (readyAnd iGridDestroy io0 (withReq 0x0501 (hd 7 3) [] (stG false [])) fun c => c.obj.any fun o => (dependants o.ty o.slot (stG false [])).isEmpty)
    := by decide +kernel

/-- An epoch, and a batch of sensor 0 without records. -/
def ep (tu : Nat) (accepting : Bool) : Epoch :=
  { no := 1, tu, openAt := 0, accepting, ends := [], desync := [], errored := false, absent := [], excluded := [], cals := [some 2], batches := [] }
def batch0 (sec : Nat) : List Byte := zeros 16 ++ leBytes 8 0 ++ leBytes 8 sec ++ [0, 1] ++ leBytes 2 0 ++ leBytes 4 0 ++ zeros 8

/-- A class 4 layer's task runs on tile 3 for an instance bound to grid 3. -/
def stScat (es : List Epoch) (closed : List Nat) : State :=
  let s := stG false es
  let t : Task := { inst := 6, gen := 1, run := 0, limitUs := 10, layer := 0, no := 0, order := 0, remote := true, cluster := 0 }
  let x := stT [run0 (.tasks 1 0 0) [0] none] [{ id := 3, queue := [], running := some (t, 0) }]
  { s with tile := { x.tile with
      pkgs := [{ pkg0 with layers := pkg0.layers.map fun l => { l with cls := 4 } }]
      insts := x.tile.insts.map fun y => { y with binds := [(7, 3, 0)] } }
           fus.grids := s.fus.grids.map fun g => { g with closedTus := closed } }

/-- Witnesses of FusionEventsComplete. -/
theorem wit_fusion_events :
    let on (es : List Epoch) (closed : List Nat) (p : Grid → Nat → Bool) : Bool :=
      let s := stScat es closed
      (scatterRun 3 3 s).any fun x => (getGrid 3 s).any fun g => batchOk g (batch0 0) && p g (runEpochTime x.1 x.2 s)
    let seen (g : Grid) (t : Nat) : Bool := (g.epochs.find? fun e => epochMatch g e.tu t).isSome
    let late : State := { stG false [ep 0 true] with time.mono := 1000000 * usT }
    on [ep 0 true] [] seen ∧ on [ep 0 false] [] seen ∧ on [] [] (fun g t => !seen g t)
    ∧ on [] [0] (fun g t => !seen g t && g.closedTus.any fun u => epochMatch g u t)
    ∧ on [ep (10 ^ 15) true, ep (10 ^ 16) true] [] (fun g t => !seen g t && g.epochs.length == 2)
    ∧ (epochAt 3 0 (openEpoch 3 0 (stScat [] []))).isSome
    ∧ ((getGrid 3 (stG false [])).any fun g => !batchOk g (zeros 40)) ∧ scatterRun 9 3 (stScat [] []) = none
    ∧ (isErr (fld (batch0 0) 34 2) = false ∧ (epochCal (ep 0 true) 0 (stG false [])).isSome
        ∧ epochCal { ep 0 true with cals := [none] } 0 (stG false []) = none)
    ∧ ((getGrid 3 late).any fun g => (g.epochs.find? fun e => e.accepting && due (e.openAt + g.epochUs * usT) late).isSome)
    ∧ getGrid 9 late = none := by decide +kernel

/-- Witnesses of VotesDecideAndSuspect: labels for each row of Table 9.6. -/
theorem wit_votes :
    let g := newGrid 3 (gridDesc false 0) base
    let frees (l : List (Nat × Nat)) : Nat := (l.filter fun x => x.2 == 1).length
    let cnt (l : List (Nat × Nat)) : List (Nat × Nat) := l.filter fun x => !((g.sensors[x.1]?).any (·.suspect))
    cnt [(0, 1), (1, 1), (2, 2)] = [(0, 1), (1, 1), (2, 2)] ∧ frees [(0, 1), (1, 1), (2, 2)] = 2 ∧ frees [(0, 1), (1, 2), (2, 2)] = 1
    ∧ frees [(0, 1), (1, 1), (2, 2), (3, 2)] = 2 ∧ frees [(4, 1), (2, 2)] = 1 ∧ frees [(4, 1), (2, 1)] = 2 ∧ frees [(4, 2), (2, 2)] = 0
    ∧ (g.sensors.all fun y => !y.suspect) ∧ ((setVotes g.votes 0 g).sensors.length = 1) := by decide +kernel

/-- The fingerprint that the schedule's pattern has, and the image with it. -/
def schFinger : List Byte :=
  (Config.sha3 ([1, 6, 0] ++ ([1, 1, 6] ++ leBytes 4 0 ++ leBytes 20 (2 ^ 160 - 1)) ++ leBytes 4 0)).take 8
def schImg : List Byte := schRaw.take 16 ++ (schFinger ++ schRaw.drop 24)

theorem fld_lt (b : List Byte) (o n : Nat) : fld b o n < 2 ^ (8 * n) := by
  have h : ∀ l : List Byte, unle l < 2 ^ (8 * l.length) := fun l => by
    induction l with
    | nil => decide
    | cons x xs ih =>
      have := x.isLt
      simp only [unle, List.length_cons, Nat.mul_add, Nat.pow_add] at *; omega
  exact Nat.lt_of_lt_of_le (h _) (Nat.pow_le_pow_right (by decide)
    (Nat.mul_le_mul_left 8 (List.length_take_le _ _)))

/-- The image passes every check of R329. -/
theorem wit_checkSched : checkSched schImg = .ok (parseSched schImg) := by
  have h1 : schRange schImg schImg.length = none := by decide +kernel
  have h2 : fld schImg 16 8 = unle schFinger := by rfl
  have h3 : (parseSched schImg).finger.toNat = unle schFinger := by
    rw [← h2]; exact Nat.mod_eq_of_lt (fld_lt schImg 16 8)
  have h4 : schStructure schImg (parseSched schImg) = none := by
    simp only [schStructure]
    rw [show (firstIdx (parseSched schImg).blocks fun x _ => x.motion != 2 || decide (x.vel < (parseSched schImg).blocks.length)) = none
        from by decide +kernel,
      show (firstIdx (parseSched schImg).factors fun f _ => f.blocks.all fun i => decide (i < (parseSched schImg).blocks.length)) = none
        from by decide +kernel,
      show (firstIdx (parseSched schImg).factors fun f _ => factorMatch (parseSched schImg) f) = none from by decide +kernel,
      show classLacks (parseSched schImg) = false from by decide +kernel,
      show (firstIdx (parseSched schImg).factors fun f _ => classKind (parseSched schImg).cls f.kind) = none from by decide +kernel,
      show orderBad (parseSched schImg) = none from by decide +kernel, h3]
    have hp : (List.range (parseSched schImg).blocks.length).flatMap (fun i => slice schImg (blockOff i) 3)
        ++ (List.range (parseSched schImg).factors.length).flatMap
          (fun i => slice schImg (factorOff schImg i) 3 ++ slice schImg (factorOff schImg i + 4) 24)
        ++ (parseSched schImg).order.flatMap (leBytes 4)
        = [1, 6, 0] ++ ([1, 1, 6] ++ leBytes 4 0 ++ leBytes 20 (2 ^ 160 - 1)) ++ leBytes 4 0 := by decide +kernel
    rw [hp]; simp [schFinger]
  have h5 : classOver (parseSched schImg) = false := by decide +kernel
  simp [checkSched, h1, h4, h5]

/-- A solution of the problem and the problem in slot 2, with its runs. -/
def sol0 : Solution := { values := [[0]], cov := [[0]], tRef := 0, cost := 0, satBlocks := [], pivBlocks := [], status := stOk }
def srun (warm : Nat) (start : Option Nat) : SolveRun :=
  { req := r0, dl := 9, warm, source := some 2, tRef := 0, at' := 0, start, flags := 0, base := [[0]], vals := sch0.factors.map fun _ => { set' := false, enabled := false, words := [], x0 := [] }
    sats := [] }
def stV (solved : Bool) (runs : List SolveRun) : State :=
  let p := newProblem 2 sch0 [0] 1 none
  { stG false [] with
    probs := [if solved then { p with resident := some sol0, delivered := some (sol0, stOk), runs } else { p with runs }]
    obj.objs := ob 8 2 :: (stG false []).obj.objs }
/-- A delta batch: SET_FACTOR 0 with one factor word, measurement and weight, then DISABLE_FACTOR 0. -/
def deltas : List Byte :=
  leBytes 8 7 ++ leBytes 4 2 ++ zeros 4 ++ [1, 0] ++ leBytes 2 3 ++ zeros 4 ++ zeros 24 ++ [3, 0] ++ leBytes 2 0 ++ zeros 4

/-- Witnesses of SolverCommandsComplete (SOLV_LOAD of the image above: wit_checkSched). -/
theorem wit_solver_commands :
    let load (s : State) (f : Nat) (h : W64) : Bool :=
      readyAnd iSolvLoad (if h = 0 then ioP schImg else io0)
        (if h = 0 then withPay 0x0600 (hd 1 0) (leBytes 8 0 ++ [5, BitVec.ofNat 8 f]) 208 s
         else withReq 0x0600 (hd 1 0) (leBytes 8 h.toNat ++ [5, BitVec.ofNat 8 f]) s) fun c =>
        ((loadImage c s).length == 208) && (loadPkg c s).isSome == (h != 0) && (loadPkg c s).all fun p => !p.schedHeld.contains 5
    let m := parseSched schImg
    let on (ci : CmdInfo) (io : Io) (s : State) (p : Ctx → Bool) : Bool :=
      readyAnd ci io s fun c => (getProb (objSlot c) s).isSome && p c
    let pay := withPay 0x0602 (hd 8 2) [] 56 (stV false [])
    load (stG false []) 0 0 ∧ load (stG false []) 1 0
    ∧ load { stG false [] with tile.pkgs := [{ pkg0 with scheds := [(5, schImg)], gsus := [(5, 0)] }] } 0 (hd 5 4)
    ∧ ((match placeGsus m base with
        | .ok gs => gsuRoom m gs base
        | .error _ => false) && (quotaPair 0 1 (schStacked m) base).isOk && quotaOver 0 1 (schStacked m) base == 0
          && decide (schStacked m ≤ stackedFree base))
    ∧ on iSolvDelta (ioP deltas) pay (fun c => c.pay.length == 56 && (parseDeltas c.pay 2 16 []).2 == 56
        && (getProb 2 pay).any fun p => deltasBad p (parseDeltas c.pay 2 16 []).1 0 (knownFactors p) == none)
    ∧ on iSolvRun io0 (withReq 0x0603 (hd 8 2) (res 64 ++ [2, 1, 0, 0] ++ zeros 16 ++ leBytes 8 (hd 8 2).toNat) (stV true [])) (fun _ => true)
    ∧ on iSolvRun io0 (withReq 0x0603 (hd 8 2) (res 64 ++ [0, 0, 0, 0] ++ zeros 24) (stV true [])) (fun _ => true)
    ∧ on iSolvResult io0 (withReq 0x0604 (hd 8 2) (res 16 ++ leBytes 4 0 ++ leBytes 4 1 ++ [0, 1]) (stV true [])) (fun c => prm c 21 1 == 1)
    ∧ on iSolvResult io0 (withReq 0x0604 (hd 8 2) (res 16 ++ leBytes 4 0 ++ leBytes 4 1 ++ [1, 0]) (stV true [])) (fun c => prm c 20 1 == 1)
    ∧ on iSolvQuery io0 (withReq 0x0605 (hd 8 2) (res 64) (stV true [])) (fun _ => true)
    ∧ on iSolvUnload io0 (withReq 0x0601 (hd 8 2) [] (stV true [srun 0 none])) (fun c =>
        c.obj.any fun o => (dependants o.ty o.slot (stV true [])).isEmpty) := by decide +kernel

/-- Witnesses of SolverEventsComplete. -/
theorem wit_solver_events :
    let go (p : Problem) : State := { stV true [] with probs := [p] }
    let w := newProblem 2 sch0 [0] 1 none
    let free (p : Problem) (s : State) : Bool := p.gsus.all fun g => !gsuBusy g s && gsuChoice g s == some 2 && domOn (88 + g / 4) s
    let ready (s : State) (f : Problem → SolveRun → Bool) : Bool := (getProb 2 s).any fun p => (readyRun p).any fun r =>
      decide (s.time.mono < r.dl) && f p r && free p s
    let on := stV true [srun 0 (some 0)]
    let late : State := { on with time.mono := 10 }
    let other := newProblem 3 sch0 [1] 1 none
    getProb 2 base = none ∧ (getProb 2 (stV true [])).any (fun p => p.runs.isEmpty)
    ∧ ready (stV true [srun 0 none]) (fun p r => p.startBad.isEmpty && !sourceBad p r (stV true [srun 0 none]))
    ∧ ready (go { w with runs := [srun 2 none], startBad := [0] }) (fun p _ => !p.startBad.isEmpty)
    ∧ (let s : State := { stV false [] with probs := [{ w with runs := [{ srun 2 none with source := some 3 }] },
          { other with resident := some sol0, valuesBad := true }] }
      ready s fun p r => p.startBad.isEmpty && sourceBad p r s)
    ∧ ready (stV false [srun 2 none]) (fun p r => (warmStart p r (stV false [srun 2 none])).event.isSome)
    ∧ ((getProb 2 late).any fun p => (p.runs.head?).any fun r => decide (r.dl < late.time.mono))
    ∧ ((getProb 2 { on with time.mono := 9 }).any fun p => (p.runs.head?).any fun r => r.start.isSome && r.dl == 9)
    ∧ ((getProb 2 { stV true [srun 0 none] with time.mono := 9 }).any fun p => (readyRun p).any fun r => decide (r.dl ≤ 9))
    ∧ ((getProb 2 on).any fun p => (p.runs.find? fun r => due r.dl on).isNone)
    ∧ ((getProb 2 late).any fun p => (p.runs.find? fun r => due r.dl late).isSome && !p.valuesBad && p.resident.isSome)
    ∧ ((getProb 2 { late with probs := [{ w with resident := some sol0, valuesBad := true, runs := [srun 0 none] }] }).any fun p =>
        p.valuesBad && p.resident.isSome && (p.runs.find? fun r => due r.dl late).isSome) := by decide +kernel

/-- A problem of one FIXED block, a factorless system of no unknowns, and its solve. -/
def schFixed : Sched := { sch0 with blocks := sch0.blocks.map fun b => { b with fixed := true }, order := [] }

/-- Witnesses of SolutionsAreStoredAsDelivered. -/
theorem wit_solutions :
    (∃ p, (stV true [srun 0 (some 0)]).probs = [p] ∧ p.slot < 2 ^ 32 ∧ p.resident.isSome)
    ∧ (∃ p, (stV false [srun 0 none]).probs = [p] ∧ p.slot < 2 ^ 32 ∧ p.resident = none)
    ∧ ({ sch0 with method := 1 }).method.testBit 0 = true ∧ fpLt fp0 fp0 = false
    ∧ (schFixed.blocks[0]?).any (·.fixed) ∧ schFixed.blocks.length = 1 ∧ orderBad schFixed = none := by
  refine ⟨⟨_, rfl, by decide +kernel, by decide +kernel⟩, ⟨_, rfl, by decide +kernel, rfl⟩, ?_⟩
  decide +kernel

/-- A map descriptor of 1,024 slots, 2 MiB of heap and one shard. -/
def mapDesc : List Byte :=
  leBytes 4 1024 ++ zeros 4 ++ leBytes 8 (2 ^ 21) ++ [1, 1, 1, 0] ++ zeros 12 ++ f1 ++ f1 ++ f1 ++ zeros 20 ++ zeros 24
    ++ leBytes 8 oneW.toNat ++ zeros 24 ++ zeros 8
/-- An image of an empty map: its digest is taken with the digest's bytes zero. -/
def imgHead : List Byte := leBytes 4 0x4D415031 ++ leBytes 2 1 ++ zeros 2 ++ leBytes 8 256 ++ zeros 16
def mapImg : List Byte := imgHead ++ (Config.sha3 (imgHead ++ (zeros 64 ++ (mapDesc ++ zeros 32))) ++ (mapDesc ++ zeros 32))

theorem wit_image : imageOk mapImg 4096 = true := by
  have hl : imgHead.length = 32 := by decide +kernel
  have hd := sha3_len (imgHead ++ (zeros 64 ++ (mapDesc ++ zeros 32)))
  have h0 : slice mapImg 32 64 = Config.sha3 (imgHead ++ (zeros 64 ++ (mapDesc ++ zeros 32))) := by
    simp only [slice]
    rw [show mapImg.drop 32 = Config.sha3 (imgHead ++ (zeros 64 ++ (mapDesc ++ zeros 32))) ++ (mapDesc ++ zeros 32) from by
      rw [mapImg, ← hl]; exact List.drop_left]
    exact List.take_left' (l₂ := mapDesc ++ zeros 32) hd
  have h1 : patch (mapImg.take (fld mapImg 8 8)) 32 (zeros 64) = imgHead ++ (zeros 64 ++ (mapDesc ++ zeros 32)) := by decide +kernel
  have h2 : (fld mapImg 0 4 == 0x4D415031 && fld mapImg 4 2 == 1 && decide (256 ≤ fld mapImg 8 8 ∧ fld mapImg 8 8 ≤ 4096)) = true := by
    decide +kernel
  simp only [imageOk, h0, h1, h2, beq_self_eq_true, Bool.and_self]

/-- The ensemble of this member alone, in slot 1. -/
def ens0 : Ens :=
  { desc := zeros 640, id := 1, state := 1, present := 1, agreed := 1, lost := 0, timeRef := 0, stepped := true, join := none
    leave := none, broken := false, slot := 1 }

/-- Map 3 with one point landmark in slot 1, allocation 0 in plain stacked memory, an ensemble of this member. -/
def lmk : MCell := { kind := 4, shard := 0, body := zeros 48, blocks := [], obs := 0 }
def map0 : MapO := { newMap 3 mapDesc base with slots := [{ n := 1, gen := 1, cell := some lmk, retired := false, tomb := 0 }] }
def allocP : Alloc := { alloc0 with size := 4096, flags := 2, mem := [] }
def stMap (m : MapO) : State :=
  { base with map.maps := [m], obj.objs := ob 9 3 :: base.obj.objs, mem.allocs := [allocP] }
/-- A batch of one record: EDGE_DELETE between two identifiers that are not live. -/
def batch1 : List Byte :=
  leBytes 4 1 ++ zeros 12 ++ [4, 1] ++ leBytes 2 16 ++ zeros 4 ++ leBytes 8 (mkId 1 7).toNat ++ leBytes 8 (mkId 1 8).toNat
/-- The identifier in slot 1. -/
def id1 : List Byte := leBytes 8 (mkId 1 1).toNat

/-- Reading an allocation that holds the image gives it back. -/
theorem wit_restore_read :
    allocRead 0 0 256 { stMap map0 with mem.allocs := [{ allocP with size := 256, mem := memWrite [] 0 mapImg }] }
      = .ok mapImg := by
  have h : mapImg.length = 256 := by decide +kernel
  have h1 : memRead (memWrite [] 0 mapImg) 0 256 = mapImg := h ▸ memRead_memWrite 0 mapImg rfl
  simp [allocRead, getAlloc, allocP, alloc0, Alloc.pairBad, Alloc.firstPoison, h1]

/-- Witnesses of MapCommandsComplete (MAP_RESTORE of the image above: wit_image, wit_restore_read). -/
theorem wit_map_commands :
    let s := stMap map0
    let on (ci : CmdInfo) (io : Io) (s : State) (p : Ctx → MapO → Bool) : Bool := readyAnd ci io s fun c => match mapArg c s with
      | .ok m => p c m
      | .error _ => false
    let repot (mode target : Nat) (s : State) : Bool :=
      on iMapRepot io0 (withReq 0x0707 (hd 9 3) ([0, BitVec.ofNat 8 mode, BitVec.ofNat 8 target, 0] ++ zeros 4) s) fun c m =>
        m.repot.isNone && decide (roundUp (shardBytes m 0) (2 ^ 20) ≤ heapFree m / 2 ^ 20 * 2 ^ 20) && !shardLost m (prm c 0 1)
          && decide (repottings s < 4) && (journalRoom s).isOk && prm c 1 1 == mode
          && (mode == 0 || memberHere target s && keepsQuorum s && decide ((targetShort target (shardBytes m 0) s).1 = 0))
    (readyAnd iMapCreate (ioP mapDesc) (withPay 0x0700 (hd 1 0) [] 128 base) fun c =>
      mapDescOk c.pay && (mapFit c.fn (mapBytes c.pay) base).isOk)
    ∧ on iMapInsert (ioP batch1) (withPay 0x0702 (hd 9 3) (res 8 ++ [0]) 40 s) (fun c m =>
        let p := parseRecs 1 0 (c.pay.drop 16)
        let a := applyRecs (prm c 12 1) s.fresh (mapAhead m s) p.1
        fld c.pay 0 4 == 1 && zeroIn c.pay 4 12 && (resCheck 8 c.q).isOk && !m.anchorBad && p.2.isNone && p.1.length == 1
          && (p.1.zipIdx.all fun (x, i) => recRange p.1 i x) && p.1.all (recStructure p.1 (mapAhead m s))
          && a.shards.isEmpty && a.above.isNone && mapShort (mapAhead m s) a == (0, 0))
    ∧ on iMapDelete io0 (withReq 0x0703 (hd 9 3) (leBytes 4 1 ++ zeros 4 ++ id1) s) (fun c m =>
        (shardsOf m (cmdIds c.q c.pay 8 (prm c 0 4))) == [0] && !shardLost m 0)
    ∧ on iMapRead io0 (withReq 0x0704 (hd 9 3) (res 1024 ++ [] |>.take 8 |> (· ++ leBytes 4 1024 ++ leBytes 4 1 ++ [1] ++ zeros 7 ++ id1)) s)
        (fun c m => !m.anchorBad && shardsOf m (cmdIds c.q c.pay 24 (prm c 12 4)) == [0])
    ∧ on iMapTraverse (ioP id1) (withPay 0x0705 (hd 9 3) (res 16 ++ leBytes 4 1 ++ [0x02, 1] ++ zeros 4) 8 s) (fun _ _ => true)
    ∧ on iMapDeadheadSet io0 (withReq 0x0706 (hd 9 3) (leBytes 4 10 ++ [1]) s) (fun _ _ => true)
    ∧ repot 0 0 s
    ∧ repot 1 0 { s with ens.ens := some ens0 }
    ∧ on iMapCheckpoint io0 (withReq 0x0708 (hd 9 3) (leBytes 8 (hd 13 0).toNat ++ zeros 8) s) (fun c m => match ckptAlloc c s with
        | .ok a => decide (256 + liveBytes m ≤ a.size - prm c 8 8)
        | .error _ => false)
    ∧ (readyAnd iMapRestore io0 (withReq 0x0709 (hd 1 0) (leBytes 8 (hd 13 0).toNat ++ zeros 8) s) fun c =>
        (getAlloc (prm c 0 8 % 2 ^ 32) s).isSome && mapDescOk (slice mapImg 96 128) && (mapFit c.fn (mapBytes (slice mapImg 96 128)) s).isOk)
    ∧ (readyAnd iMapDestroy io0 (withReq 0x0701 (hd 9 3) [] s) fun c => c.obj.any fun o => (dependants o.ty o.slot s).isEmpty)
    := by decide +kernel

/-- A map command in a context of engine 0. -/
def ctx0 (write : Bool) (pay : List Byte) : CtxCmd :=
  { req := r0, map := 3, write, dl := 9, order := 1, engine := some 0, pay, acks := [], result := none, data := [] }
def rep0 (step attempts : Nat) : Repot :=
  { req := none, shard := 0, mode := 0, target := 0, pauseUs := 5000, step, drainAt := 0, attempts, flight := [1], op := 1, bytes := 0 }

/-- Witnesses of MapEventsComplete. -/
theorem wit_map_events :
    let s := stMap map0
    let at' (op : Nat) (w : Bool) (ps pay : List Byte) (p : State → CtxCmd → Req → Bool) : Bool :=
      let s := withReq op (hd 9 3) ps { s with map := { s.map with ctx := [ctx0 w pay] } }
      (s.map.ctx.find? fun x => x.req == r0 && x.engine.isSome && x.result.isNone).any fun x =>
        !writeBefore x s && (getMap x.map s).isSome && (findReq r0 s).any fun q => q.opcode == op && p s x q
    let rd (s : State) : Bool := ready s && map0.rate != 0 && !map0.broken
    let half : Edge := { target := mkId 1 9, kind := 3, reverse := false, weight := 0, x := 0, y := 0 }
    let dead : MapO := { map0 with slots := [{ n := 1, gen := 1, cell := some { lmk with blocks := [[half]] }, retired := false, tomb := 0 }] }
    at' 0x0702 true (res 8 ++ [0]) batch1 (fun s x q =>
        let a := applyRecs (insertFrame q) s.fresh map0 (insertRecs x.pay)
        !heldWrite map0 x a.shards && mapShort map0 a == (0, 0) && insertFrame q != 1)
    ∧ at' 0x0703 true (leBytes 4 1 ++ zeros 4 ++ id1) [] (fun _ x q => !heldWrite map0 x (shardsOf map0 (cmdIds q x.pay 8 1)))
    ∧ at' 0x0704 false (res 1024 ++ leBytes 4 1 ++ [1] ++ zeros 7 ++ id1) [] (fun _ _ q => readFrame q == 1 && !map0.anchorBad)
    ∧ at' 0x0705 false (res 16 ++ leBytes 4 1 ++ [2, 1] ++ zeros 4) id1 (fun s x q =>
        let w := traverse map0 [idAt x.pay 0] (fld q.param 16 1) (fld q.param 17 1) (fld q.param 18 4) (fld q.param 12 4) s.fresh
        w.1.length == 1 && !((shardsOf map0 (w.1.map (·.id))).any (shardLost map0)))
    ∧ (rd s && (dhNext map0 0).isSome)
    ∧ (rd { s with time.mono := secT } && (dhNext dead 0).any fun x => dhMay dead x.2.2.edges.length { s with time.mono := secT } && x.2.2.edges.length == 1)
    ∧ dhNext { map0 with pos := (0, 2) } 0 = none ∧ (64 : Nat) ≤ ({ map0 with pos := (64, 0) } : MapO).pos.1
    ∧ (getMap 3 (stMap { map0 with repot := some (rep0 3 7) })).any (fun m => m.repot == some (rep0 3 7))
    ∧ (stMap map0).time.mono ≤ (rep0 3 0).drainAt + (rep0 3 0).pauseUs * usT ∧ (stMap map0).map.ctx = [] := by decide +kernel

/-- Witnesses of MapIdentifiersAreNotReused, at the last generation too. -/
theorem wit_identifiers :
    let old : MapO := { map0 with slots := [{ n := 1, gen := 0xFFFE, cell := some lmk, retired := false, tomb := 0 }] }
    (map0.slots.map (·.n)).Nodup ∧ isLive map0 (mkId 1 1) ∧ (old.slots.map (·.n)).Nodup ∧ isLive old (mkId 0xFFFE 1)
    ∧ idGen (mkId 0xFFFE 1) = 0xFFFE ∧ map0.slotsMax < 2 ^ 48 ∧ (map0.slots.all fun y => decide (y.gen < 2 ^ 16 ∧ y.n < map0.slotsMax))
    ∧ 0 < freeSlots map0 := by decide +kernel

/-- An index descriptor over map 3: one table of 8 key bits, two pages. -/
def idxDesc : List Byte :=
  leBytes 8 (hd 9 3).toNat ++ [1, 0, 8, 0] ++ leBytes 4 2 ++ zeros 48 ++ padTo 32 [0, 1, 2, 3, 4, 5, 6, 7]
/-- An index 5 over map 3 with one entry for the object in slot 1, and an item of it. -/
def item1 (attr : Nat) : IEntry := { code := zeros 32, attr := BitVec.ofNat 64 attr, id := mkId 1 1 }
def idx0 (reb : Option Rebuild) : IdxO :=
  { slot := 5, map := 3, tables := 1, kind := 0, keyBits := 8, pages := 2, sels := [[0, 1, 2, 3, 4, 5, 6, 7]], dist := []
    buckets := [{ table := 0, n := 0, pages := [[item1 1]] }], removed := 0, queries := 0, stale := 0, rebuild := reb, broken := false, poison := [] }
def stI (reb : Option Rebuild) : State :=
  let s := stMap map0
  { s with map := { s.map with idxs := [idx0 reb] }, obj.objs := ob 10 5 [(9, 3)] :: s.obj.objs }
def itemImg : List Byte := zeros 32 ++ leBytes 8 2 ++ leBytes 8 (mkId 1 1).toNat
/-- A query record: two probes, widening to four. -/
def queryImg : List Byte := zeros 32 ++ [2, 4, 1, 0] ++ leBytes 2 0xFFFF ++ zeros 90
def bat0 (started : Bool) : BatchO :=
  { slot := 8, req := r0, idx := 5, k := 2, dl := 9, order := 1, at' := 0
    queries := [{ parseQuery queryImg with engine := if started then some 0 else none }] }

/-- Witnesses of SearchCommandsComplete. -/
theorem wit_search_commands :
    let s := stI none
    let on (ci : CmdInfo) (io : Io) (s : State) (p : Ctx → IdxO → Bool) : Bool := readyAnd ci io s fun c => match idxArgOf (objSlot c) s with
      | .ok x => p c x.1
      | .error _ => false
    (readyAnd iIdxCreate (ioP idxDesc) (withPay 0x0800 (hd 1 0) [] 96 s) fun c =>
      idxDescOk c.pay c.plen && (lookupHandle [9] c.fn false (fld c.pay 0 8) s).isOk
        && let n := idxBytes 1 8 2 0
          (quotaPair c.fn 1 n s).isOk && quotaOver c.fn 1 n s == 0 && decide (n ≤ stackedFree s))
    ∧ on iIdxInsert (ioP itemImg) (withPay 0x0802 (hd 10 5) [] 48 s) (fun c x =>
        (itemsOf c.pay).length == 1 && decide (allEntries s + x.tables ≤ 2147483648) && decide (pagesUsed ((itemsOf c.pay).foldl insertItem x) ≤ x.pages)
          && !meetsPoison x (itemsOf c.pay))
    ∧ on iIdxDelete (ioP itemImg) (withPay 0x0803 (hd 10 5) [] 48 s) (fun c x => entriesOf ((itemsOf c.pay).foldl deleteItem x) == 0 && entriesOf x == 1
          && !meetsPoison x (itemsOf c.pay))
    ∧ on iIdxRebuild (ioP (padTo 32 [9, 1, 2, 3, 4, 5, 6, 7])) (withPay 0x0804 (hd 10 5) [1] 32 s) (fun c x =>
        newKeys c && selsOk c.pay 0 x.tables x.keyBits && x.rebuild.isNone && (quotaPair c.fn 1 8192 s).isOk && (journalRoom s).isOk
          && quotaOver c.fn 1 8192 s == 0 && decide (8192 ≤ stackedFree s))
    ∧ on iIdxQuery io0 (withReq 0x0806 (hd 10 5) (res 64) s) (fun _ _ => true)
    ∧ (readyAnd iSrchBatch (ioP (leBytes 2 2 ++ zeros 14 ++ queryImg)) (withPay 0x0805 (hd 1 0) (res 112 ++ leBytes 4 1 ++ leBytes 8 (hd 10 5).toNat) 144 s) fun c =>
        inR 1 (fld c.pay 0 2) 256 && zeroIn c.pay 2 14 && (resCheck 112 c.q).isOk && queryOk (slice c.pay 16 128) && prm c 12 4 == 1
          && match idxArgOf (prm c 16 8 % 2 ^ 32) s with
            | .ok _ => true
            | .error _ => false)
    ∧ (readyAnd iIdxDestroy io0 (withReq 0x0801 (hd 10 5) [] s) fun c => c.obj.any fun o => (dependants o.ty o.slot s).isEmpty) := by decide +kernel

/-- Witnesses of SearchEventsComplete. -/
theorem wit_search_events :
    let s := stI none
    let batch (on : Bool) (t : Nat) : State := { s with map := { s.map with batches := [bat0 on] }, time.mono := t }
    let reb (committed : Bool) : State := stI (some { req := none, sels := [[0, 1, 2, 3, 4, 5, 6, 7]], op := 1, committed })
    let full : State := { reb false with map.idxs := [{ idx0 (some { req := none, sels := [[0, 1, 2, 3, 4, 5, 6, 7]], op := 1, committed := false }) with pages := 0 }] }
    let bad : State := { reb false with map.idxs := [{ idx0 (some { req := none, sels := [[0, 1, 2, 3, 4, 5, 6, 7]], op := 1, committed := false }) with poison := [(0, 0)] }] }
    let arg (s : State) (p : IdxO → MapO → Bool) : Bool := match idxArgOf 5 s with
      | .ok (x, m) => p x m
      | .error _ => false
    (ready s && engineUp 0 s && decide (contextsUsed 0 s < 256) && (firstWaiting s).isNone)
    ∧ firstWaiting { s with map.ctx := [{ ctx0 false [] with engine := none }] } = some ((9, 1), none)
    ∧ firstWaiting (batch false 0) = some ((9, 1), some (8, 0))
    ∧ ((getBatch 8 (batch true 0)).any fun b => b.queries[0]?.any fun q => q.engine.isSome && !q.done && q.answers.isEmpty
        && !(scan (idx0 none) map0 0 b.k q).bad && (scan (idx0 none) map0 0 b.k q).kept == [(0, mkId 1 1)])
    ∧ (getIdx 5 s).isSome ∧ (getMap 3 s).isSome
    ∧ ((getBatch 8 (batch true 9)).any fun b => decide (b.dl ≤ (batch true 9).time.mono))
    ∧ ((getBatch 8 (batch true 8)).any fun b => decide ((batch true 8).time.mono < b.dl))
    ∧ arg (reb true) (fun x _ => x.rebuild.any (·.committed))
    ∧ arg (reb false) (fun x m => x.poison.isEmpty && x.rebuild.any fun p => !p.committed && decide (pagesUsed (rebuilt m p.sels x) ≤ x.pages))
    ∧ arg bad (fun x _ => !x.poison.isEmpty && x.rebuild.any fun p => !p.committed)
    ∧ arg full (fun x m => x.poison.isEmpty && x.rebuild.any fun p => decide (x.pages < pagesUsed (rebuilt m p.sels x))) := by decide +kernel

/-- Candidates of KeptCandidatesAreTheNearest: a tie, a repeat at a smaller distance. -/
theorem test_keep : [(3, 7), (3, 5), (9, 2), (1, 2)].foldl keep [] = [((1 : Nat), (2 : W64)), (3, 5), (3, 7)] := by decide +kernel

/-- Witnesses of MemoryCommandsComplete. -/
theorem wit_memory_commands :
    let s : State := { base with mem.allocs := [{ alloc0 with flags := 2 }], link := { base.link with bar4Size := 2 ^ 30 } }
    let z (f : Alloc → Alloc) : State := { s with mem.allocs := s.mem.allocs.map f }
    let on (ci : CmdInfo) (io : Io) (op : Nat) (ps : List Byte) (s : State) (p : Ctx → Alloc → Bool) : Bool :=
      readyAnd ci io (withReq op (hd 13 0) ps s) fun c => (getAlloc (objSlot c) s).any (p c)
    let alloc (fl cl : Nat) (onchip : Bool) : Bool :=
      readyAnd iMemAlloc io0 (withReq 0x0900 (hd 1 0) (leBytes 8 5000 ++ leBytes 4 fl ++ [12, BitVec.ofNat 8 cl]) base) fun c =>
        let p := placeAlloc c.fn (allocArgs c) base
        let n := occupied p.1 ((allocArgs c).flags.testBit 5) 5000
        p.1 == onchip && (quotaPair c.fn (if p.1 then 0 else 1) n p.2.2).isOk && quotaOver c.fn (if p.1 then 0 else 1) n p.2.2 == 0
          && (if p.1 then decide (n ≤ extent p.2.1 p.2.2) else decide (n ≤ stackedFree p.2.2))
    let copy (dir : Nat) (io : Io) : Bool := on iMemCopy io 0x0902 (leBytes 8 0x9000 ++ leBytes 8 1 ++ leBytes 4 2 ++ [BitVec.ofNat 8 dir]) s fun c a =>
      (getFn c.fn s).busMaster && prm c 20 1 == dir && a.sealed.isNone && !a.pairBad 1 2 && (a.firstPoison 1 2).isNone
    alloc 0x02 0xFF false ∧ alloc 0x21 3 true
    ∧ copy 0 (ioP [7, 8]) ∧ copy 0 { io0 with payload := { bytes := [7], fail := some .timeout } } ∧ copy 1 io0
    ∧ on iMemCopy io0 0x0902 (leBytes 8 0x9000 ++ leBytes 8 1 ++ leBytes 4 8 ++ [1]) (z fun a => { a with poison := [1] })
        (fun _ a => !a.pairBad 1 8 && a.firstPoison 1 8 == some 1)
    ∧ on iMemSeal io0 0x0903 [] (z fun a => { a with flags := 8 }) (fun _ a => a.compress && a.sealed.isNone && a.poison.isEmpty)
    ∧ on iMemMapBar4 io0 0x0904 (leBytes 4 9) s (fun _ a => a.tierStacked && !a.compress && !a.critical && a.mapped.isNone && windowFree 9 (pagesOf a) s)
    ∧ on iMemUnmapBar4 io0 0x0905 [] (z fun a => { a with mapped := some 9 }) (fun _ a => a.mapped.isSome)
    ∧ on iMemFree io0 0x0901 [] s (fun c a => a.mapped.isNone && c.obj.any fun o => (dependants o.ty o.slot s).isEmpty)
    ∧ (readyAnd iMemQuotaSet io0 (withReq 0x0906 (hd 1 0) ([3, 1, 0, 0] ++ leBytes 8 4096) base) fun _ => true)
    ∧ (readyAnd iMemQuotaQuery io0 (withReq 0x0907 (hd 1 0) (res 32 ++ [3, 1]) base) fun _ => (quotaPair 3 1 1 base).isOk)
    ∧ (readyAnd iMemStats io0 (withReq 0x0908 (hd 1 0) (res 256) base) fun _ => true) := by decide +kernel

/-- The free choice of a page is met wherever the window has one: the choice that mapping takes. -/
theorem wit_map_choice :
    ∃ p s', windowChoice 1 { base with mem.allocs := [], link := { base.link with bar4Size := 4096 } } = (some p, s') := by
  refine ⟨_, _, Prod.ext (Option.some_get (x := (windowChoice 1 _).1) ?_).symm rfl⟩
  simp only [windowChoice, draw, windowFree, List.all_nil, Bool.and_true]
  by_cases h : Config.freeNat base.fresh % (4096 / 4096 + 1) + 1 ≤ 4096 / 4096 <;> simp [h]

/-- Witnesses of MemoryEventsComplete (a pass over the image of wit_checkPkg: its digest is pkgImg_digest). -/
theorem wit_memory_events :
    let m (poison : List Nat) : State := { base with mem.allocs := [{ alloc0 with flags := 2, mapped := some 3, poison }] }
    let free : State := { base with mem.allocs := [{ alloc0 with flags := 0 }] }
    let ref (t : Option Nat) : Refetch := { failures := 0, retryAt := t, blocks := [] }
    let pass (t : Option Nat) : State :=
      { base with tile := { base.tile with pkgs := [{ pkg0 with blocks := [], digest := slice pkgImg 32 64, refetch := some (ref t) }] } }
    base.link.up ∧ State.reset.link.up = false
    ∧ (bar4Hit 12289 4 (m [])).any (fun x => (x.1.firstPoison x.2 4).isNone && x.2 == 1) ∧ (bar4Hit 12289 4 (m [1])).any (fun x => (x.1.firstPoison x.2 4).isSome)
    ∧ bar4Hit 0 4 (m []) = none ∧ (bar4Hit 16380 5 (m [])) = none
    ∧ ((getAlloc 0 free).any fun a => !a.tierOnchip && !a.tierStacked && !a.pin && !a.compress && !a.onchip) ∧ (getObj 13 0 free).isSome
    ∧ allocInUse 0 free = false ∧ scrubLive base ∧ scrubLive State.reset = false
    ∧ ((getPkg 4 (pass none)).any fun p => p.refetch == some (ref none) && (quarantined p).isEmpty) ∧ (takeGranules 0 base).isSome
    ∧ (takeGranules 1 { base with mem.stackedCap := 0, mem.pool := 0 }).isNone ∧ (let s := m []; (getAlloc 0 s).any (·.tierStacked))
    ∧ ((getPkg 4 (pass (some 0))).any fun p => p.refetch.any fun r => dueOpt r.retryAt (pass (some 0))) := by decide +kernel

/-- Witnesses of CopiesStoreOnlyTheirBytes: wit_memory_commands and wit_memory_events name commands of each form. -/
theorem wit_copies :
    base.memsOk ∧ (let s : State := { base with mem.allocs := [{ alloc0 with flags := 2, mapped := some 3 }] }
      s.memsOk ∧ (bar4Hit 12289 2 s).any fun x => getAlloc x.1.slot s == some x.1) := by decide +kernel

theorem slice_mid (a b c : List Byte) : slice (a ++ (b ++ c)) a.length b.length = b := by simp [slice]

/-- A descriptor of members 0 and 1, member 0 being the device whose identity key is the byte 1. -/
def ensHead : List Byte := leBytes 4 0x454E5331 ++ leBytes 2 1 ++ [3, 0] ++ zeros 56
def ensDesc : List Byte := ensHead ++ (Config.sha3 [1] ++ zeros 512)
/-- The state in service with an identity, deployed. -/
def stId : State := { base with sec := { base.sec with identity := true, pubKey := [1], base := 3 } }

/-- The descriptor's identity digest is this device's, so every check of an ensemble's descriptor passes. -/
theorem wit_ensCheck (c : Ctx) (h : c.pay = ensDesc) : ensCheck c stId = .ok () := by
  have hd : memberDigest ensDesc (ownMember stId) = Config.sha3 [1] := by
    have hl : ensHead.length = 64 := by decide +kernel
    have h1 : (64 : Nat) + 64 * ownMember stId = ensHead.length := by rw [hl]; decide +kernel
    rw [memberDigest, h1, ensDesc, ← sha3_len [1]]; exact slice_mid ..
  have h2 : ensDescOk ensDesc = true := by decide +kernel
  have h3 : ((fld ensDesc 6 1).testBit (ownMember stId)) = true := by decide +kernel
  have h4 : (lifecycle stId == 2 || lifecycle stId == 3) = true := by decide +kernel
  have h5 : stId.ens.ens.isNone = true := by decide +kernel
  have h6 : (stId.sec.identity && Config.sha3 stId.sec.pubKey == Config.sha3 [1]) = true := beq_self_eq_true _
  simp only [ensCheck, h, h2, h3, h4, h5, hd, h6, need, if_true]; rfl

/-- A port, and the state with an ensemble of members 0 and 1 over it. -/
def port0 (state step : Nat) : TPort := { TPort.reset with state, step, peer := 1 }
def ens2 : Ens := { ens0 with desc := ensDesc, state := 1, present := 3, agreed := 3 }
def stE (e : Ens) (p : TPort) : State :=
  { stId with ens := { stId.ens with ens := some e, ports := p :: stId.ens.ports.tail }, obj.objs := ob 12 1 :: stId.obj.objs }

/-- Witnesses of EnsembleCommandsComplete (the descriptor's checks: wit_ensCheck). -/
theorem wit_ensemble_commands :
    let s := stE ens2 (port0 3 5)
    let m : MapO := { map0 with homeAt := ownMember s }
    let sm : State := { s with map.maps := [m], obj.objs := ob 9 3 :: s.obj.objs }
    (readyAnd iEnsForm (ioP ensDesc) (withPay 0x0A00 (hd 1 0) [] 640 stId) fun c => c.pay.length == 640)
    ∧ (readyAnd iEnsJoin (ioP ensDesc) (withPay 0x0A01 (hd 1 0) [] 640 stId) fun c => c.pay.length == 640 && !(getDom 95 stId).pads)
    ∧ (readyAnd iEnsLeave io0 (withReq 0x0A02 (hd 12 1) [] s) fun _ => ens2.leave.isNone && (journalRoom s).isOk && (leaveMoves s).isEmpty)
    ∧ (readyAnd iEnsRemove io0 (withReq 0x0A03 (hd 12 1) [1] s) fun c => ens2.state != 2 && prm c 0 1 != ownMember s && ens2.present.testBit (prm c 0 1))
    ∧ (readyAnd iEnsReshard (ioP ([0, 1] ++ List.replicate 126 0xFF)) (withPay 0x0A04 (hd 12 1) (leBytes 8 (hd 9 3).toNat) 128 sm) fun c =>
        (getMap (prm c 0 8 % 2 ^ 32) sm).any fun m => m.homeAt == ownMember sm && !m.broken && m.repot.isNone && m.resharding.isNone
          && ((planOf c.pay).zipIdx.all fun (p, i) => pairOk (shardCount m) ens2.present i p) && decide (repottings sm < 4))
    ∧ (readyAnd iEnsStatus io0 (withReq 0x0A05 (hd 12 1) (res 320) s) fun _ => true) := by decide +kernel

/-- The other member takes an empty shard without a shortfall, whatever the free value. -/
theorem wit_no_shortfall (s : State) : (targetShort 1 0 s).1 = 0 := by
  simp only [targetShort]
  split
  · simp
  · simp [draw, Nat.mod_one]

/-- Witnesses of EnsembleEventsComplete. -/
theorem wit_ensemble_events :
    let s := stE ens2
    let up := port0 3 5
    let far : State := { s (port0 0 0) with time.mono := 20000 * usT }
    let follow : Ens := { ens2 with timeRef := 1 }
    (trellisLive 0 (s (port0 1 0)) && ready (s (port0 1 0))) ∧ (ownMember (s up) + 0 + 1) % 8 = 1
    ∧ (getPort 0 (s (port0 2 1))).state = 2 ∧ (getPort 0 (s (port0 2 2))).step = 2 ∧ (getPort 0 (s up)).state = 3
    ∧ ((getPort 0 (s { up with keyFrames := 2 ^ 40 })).keyFrames = 2 ^ 40)
    ∧ (!(reached 1 far) && decide ((getPort (portTo 1 far) far).downAt + ensLossUs ens2 * usT ≤ far.time.mono) && ens2.present.testBit 1)
    ∧ (followsMember (stE follow up) && reached 1 (stE follow up) && follow.stepped)
    ∧ (getPort 0 (s (port0 4 0))).state = 4 ∧ (getPort 0 { s (port0 4 0) with time.mono := secT }).downAt + secT ≤ secT
    ∧ (getPort 0 (s { up with recent := List.replicate 15 0 })).recent.length = 15
    ∧ (({ s up with ens := { (s up).ens with replicas := [(3, 0, 1, 9)] } }).ens.replicas.find? fun r => r.1 == 3 && r.2.1 == 0) = some (3, 0, 1, 9)
    := by decide +kernel

/-- The handshake's checks: a peer whose identity digest stands in the descriptor passes, one without does not sign, or is out of life. -/
theorem wit_handshake :
    handshakeFault { ens2 with desc := ensHead ++ (zeros 64 ++ (Config.sha3 [7] ++ zeros 448)) } 1 [7] true 3 = none
    ∧ handshakeFault { ens2 with desc := ensHead ++ (zeros 64 ++ (Config.sha3 [7] ++ zeros 448)) } 1 [7] false 3 = some 4 := by
  have h : memberDigest (ensHead ++ (zeros 64 ++ (Config.sha3 [7] ++ zeros 448))) 1 = Config.sha3 [7] := by
    have hl : (ensHead ++ zeros 64).length = 64 + 64 * 1 := by decide +kernel
    rw [memberDigest, ← List.append_assoc, ← hl, ← sha3_len [7]]; exact slice_mid ..
  have h2 : ((fld (ensHead ++ (zeros 64 ++ (Config.sha3 [7] ++ zeros 448))) 6 1).testBit 1) = true := by decide +kernel
  refine ⟨?_, ?_⟩ <;> simp only [handshakeFault, h, h2] <;> simp

/-- A state whose domain 90 holds its pads, and one whose domain 64 holds the claim of a package. -/
def stPads : State := updDom 90 (fun x => { x with pads := true, hold := true }) base
def stBusy : State := { base with tile.pkgs := [{ pkg0 with place := [0] }], obj.objs := ob 5 pkg0.slot :: base.obj.objs }

/-- Witnesses of PowerCommandsComplete. -/
theorem wit_power_commands :
    let park (m : Nat) (s : State) : State := withReq 0x0B03 (hd 1 0) [64, BitVec.ofNat 8 m] s
    let off (s : State) : State := updDom 64 (fun x => { x with on := false }) s
    readyAnd iPwrCapSet io0 (withReq 0x0B00 (hd 1 0) [0x2C, 1, 90] base) (fun c => prm c 0 2 == 300 && prm c 2 1 == 90)
    ∧ readyAnd iPwrCapSet io0 (withReq 0x0B00 (hd 1 0) [0xFF, 0xFF, 0xFF] base) (fun c => prm c 0 2 == 0xFFFF)
    ∧ readyAnd iPwrLevelSet io0 (withReq 0x0B01 (hd 1 0) [2, 5] base) (fun _ => !levelForced base)
    ∧ readyAnd iPwrLevelSet io0 (withReq 0x0B01 (hd 1 0) [2, 0xFF] { base with pwr.backstop := true }) (fun _ => levelForced { base with pwr.backstop := true })
    ∧ readyAnd iPwrDomainPark io0 (park 0 base) (fun c => prm c 1 1 == 0)
    ∧ readyAnd iPwrDomainPark io0 (park 1 (off base)) (fun c => prm c 1 1 == 1 && !(getDom 64 (off base)).on)
    ∧ readyAnd iPwrDomainPark io0 (withReq 0x0B03 (hd 1 0) [90, 2] base) (fun c => prm c 1 1 == 2 && (domWork 90 base).isNone)
    ∧ readyAnd iPwrDomainPark io0 (park 3 stBusy) (fun c => prm c 1 1 == 3 && (domWork 64 stBusy).isSome)
    ∧ readyAnd iPwrPadRelease io0 (withReq 0x0B04 (hd 1 0) [1] stPads) (fun _ => domOn 90 stPads && (getDom 90 stPads).pads)
    ∧ (let s := updDom 90 (fun x => { x with on := false }) base
       readyAnd iPwrPadRelease io0 (withReq 0x0B04 (hd 1 0) [1] s) (fun _ => !domOn 90 s))
    ∧ (let s : State := { base with boot.straps := { base.boot.straps with crystal := false } }
       readyAnd iPwrStateEnter io0 (withReq 0x0B02 (hd 1 0) [3, 2] s) (fun c => prm c 0 1 == 3))
    ∧ readyAnd iPwrStatus io0 (withReq 0x0B05 0 (res 128) base) (fun _ => true)
    ∧ readyAnd iPwrCounters io0 (withReq 0x0B06 0 (res 512) base) (fun _ => true)
    ∧ readyAnd iPwrStateEnter io0 (withReq 0x0B02 (hd 1 0) [1, 0] base) (fun c => prm c 0 1 == 1 && (entryRefuser 1 base).isNone)
    ∧ (let s : State := { base with boot.straps := { base.boot.straps with crystal := true } }
       readyAnd iPwrStateEnter io0 (withReq 0x0B02 (hd 1 0) [3, 2] s) (fun c => prm c 0 1 == 3 && s.boot.straps.crystal && (entryRefuser 3 s).isNone))
    ∧ (let s : State := { base with boot.recast := none, pwr.sleep := none, pwr.returning := some (1, 3, 0) }
       readyAnd iPwrStateEnter io0 (withReq 0x0B02 (hd 1 0) [1, 0] s) (fun _ => entryRefuser 1 s == some 0x3001)) := by decide +kernel

/-- Witnesses of PowerEventsComplete. -/
theorem wit_power_events :
    let t (n : Nat) (ab : Bool) : Machine.Test := { slice := n, bad := 0, abandon := ab, req := none }
    let at90 (f : Dom → Dom) : State := updDom 90 f base
    let tick : State := { base with time.mono := 10 * msT }
    (ready tick ∧ levelForced (limFix tick) = false ∧ tick.pwr.choiceAt + 10 * msT ≤ tick.time.mono
      ∧ ((limFix tick).pwr.tj.n : Int) * 10 ≤ 1000 ∧ (500 : Int) < ((limFix tick).pwr.tj.n : Int) * 10)
    ∧ (levelForced { tick with pwr.backstop := true } ∧ base.time.mono < base.pwr.choiceAt + 10 * msT)
    ∧ (backstopLive tick ∧ tick.pwr.stopAt + msT ≤ tick.time.mono ∧ tick.pwr.trip = false ∧ tick.pwr.backstop = false
      ∧ ¬ base.pwr.cap.n * 100 * 11 < 66000 * 10 ∧ base.pwr.cap.n * 100 * 11 < 66001 * 10)
    ∧ (({ base with pwr.overMs := 5 } : State).pwr.overMs + 1 = 6)
    ∧ (base.pwr.cap.n * 100 ≤ 60000 ∧ ¬ base.pwr.cap.n * 100 ≤ 59999 ∧ ({ base with pwr.underMs := 9 } : State).pwr.underMs = 9)
    ∧ (let s := at90 fun x => { x with idleAt := 0, idleMs := 0 }
       domOn 90 s ∧ (getDom 90 s).mode = 0 ∧ domWork 90 s = none ∧ (getDom 90 s).idleAt + (getDom 90 s).idleMs * msT ≤ s.time.mono)
    ∧ (let s := at90 fun x => { x with idleAt := 0, idleMs := 1 }
       s.time.mono < (getDom 90 s).idleAt + (getDom 90 s).idleMs * msT)
    ∧ (domWork 91 base ≠ none)
    ∧ (let x := getDom 90 (at90 fun x => { x with returning := true })
       x.returning ∧ x.run = none ∧ x.backAt ≤ base.time.mono)
    ∧ ((getDom 90 (at90 fun x => { x with run := some (t 0 true) })).run = some (t 0 true))
    ∧ ((getDom 90 (at90 fun x => { x with run := some (t 0 false) })).run = some (t 0 false) ∧ 0 + 1 < testSlices 90)
    ∧ ((getDom 90 (at90 fun x => { x with run := some (t 1 false) })).fenced = 0 ∧ testSlices 90 ≤ 1 + 1)
    ∧ ((getDom 0 (updDom 0 (fun x => { x with run := some (t 5 false), fenced := 1 }) base)).fenced = 1 ∧ testSlices 0 ≤ 5 + 1) := by decide +kernel

/-- Witnesses of SleepEventsComplete. -/
theorem wit_sleep_events :
    let en (target step : Nat) : Sleep := { target, step, req := none, linkWaitMs := 0, at' := 0 }
    let asleep (target step : Nat) : State := { base with pwr.sleep := some (en target step), time.mono := msT }
    (base.boot.vaux ∨ wakeLive { base with boot.vaux := true })
    ∧ ((asleep 1 2).pwr.state = 0 ∧ ((asleep 1 2).pwr.doms.any (·.run.isSome)) = false)
    ∧ ((en 2 4).at' + (en 2 4).linkWaitMs * msT ≤ (asleep 2 4).time.mono)
    ∧ ((en 3 1).at' + msT ≤ (asleep 3 1).time.mono ∧ (getDom 64 (updDom 64 (fun x => { x with wakeUp := true }) (asleep 3 1))).wakeUp)
    ∧ (padDoms.contains 90 ∧ domOn 90 (asleep 3 2))
    ∧ (let s : State := { base with boot.vaux := true }
       wakeLive s ∧ s.pwr.wakeDrive = none ∧ ({ s with pwr.wakeDrive := some 0 } : State).pwr.wakeDrive = some 0)
    ∧ (let s : State := { base with pwr.returning := some (3, 1, 0), pwr.armed := 8, boot.mainPg := true }
       s.pwr.armed.testBit 3 ∧ s.boot.mainPg ∧ (restoreM s).1 ∧ s.pwr.retAt ≤ s.time.mono)
    ∧ ((restoreM { base with pwr.returning := some (2, 1, 0), sec.glM := some [(0, 0)] }).1 = false)
    ∧ (let s : State := { asleep 2 2 with pwr.armed := 8 }
       s.pwr.returning = none ∧ s.pwr.sleep ≠ none ∧ s.pwr.armed.testBit 3 ∧ s.pwr.armed.testBit 2 = false)
    ∧ (let s : State := { base with pwr.state := 2, pwr.armed := 8 }
       s.pwr.state ≠ 0 ∧ s.pwr.armed.testBit 3 ∧ entryTail s = false)
    ∧ (let s : State := { base with pwr.state := 3, pwr.regLow := true }
       s.pwr.state = 3 ∧ s.pwr.regLow)
    ∧ (base.boot.phase = .running ∧ base.boot.perstLow = false ∧ base.pwr.state ≤ 1)
    ∧ (let s : State := { base with pwr.wakeDrive := some 0, time.mono := secT }
       0 + secT ≤ s.time.mono) := by decide +kernel
/-- The free value of the step 7 checks takes every choice for a suitable model, so no clause names a value of it. -/
theorem wit_step7 (n : Nat) : n % 3 = 1 ∨ n % 3 = 0 ∨ n % 3 = 2 := by omega

/-- Witnesses of SupplyAndPinEventsComplete. -/
theorem wit_supply_pins :
    let v : State := { base with boot.vaux := true }
    let rails (en pg : Bool) (ph : Phase) : State := { v with boot := { v.boot with mainEn := en, mainPg := pg, phase := ph } }
    let late (s : State) : State := { s with time.mono := 2 * secT }
    (({ base with boot.vaux := false } : State).boot.vaux = false)
    ∧ (v.boot.vaux ∧ ({ v with pwr.state := 2 } : State).pwr.state = 2)
    ∧ ((rails true true .running).boot.mainPg ∧ (rails true false .running).boot.mainPg = false)
    ∧ ((late (rails true false .waitRails)).boot.mainEnAt + secT ≤ (late (rails true false .waitRails)).time.mono)
    ∧ ((late { rails true false .running with pwr.returning := some (3, 1, 0) }).boot.mainEnAt + 100 * msT
        ≤ (late { rails true false .running with pwr.returning := some (3, 1, 0) }).time.mono)
    ∧ (v.boot.phase ≠ .held ∧ v.boot.phase ≠ .waitRails ∧ v.boot.phase ≠ .off ∧ v.boot.resetLow = false ∧ v.boot.perstLow = false
        ∧ perstLocal v = false ∧ perstLocal { v with pwr.state := 2 } ∧ v.boot.clkLost = false)
    ∧ (let h := rails true true .held
       let pins (r p c : Bool) : State := { h with boot := { h.boot with resetLow := r, perstLow := p, clkLost := c } }
       (pins true false false).boot.resetLow ∧ (pins true true false).boot.perstLow ∧ (pins false true false).boot.phase = .held
         ∧ (pins false false true).boot.clkLost)
    ∧ (∀ p ∈ clockPorts true, p ∉ base.link.ethDown) ∧ (∀ p ∈ clockPorts false, p ∉ base.link.ethDown) := by decide +kernel

/-- A state that starts from an image of the QSPI bank. -/
def imgX : Image := { bytes := zeros 8, fromHost := false, persist := false }
def stStart : State :=
  { base with boot := { base.boot with phase := .starting, imageAt := some 0, bank := 0, qspiBoot := some imgX, readyAt := none }, time.mono := 3 * secT }

/-- Witnesses of StartsAndWarmResetsComplete. -/
theorem wit_starts :
    (stStart.boot.phase = .starting ∧ stStart.boot.imageAt = some 0 ∧ bankImage 0 stStart = some imgX ∧ 0 + 2 * secT ≤ stStart.time.mono)
    ∧ (canFail 2 stStart ∧ canFail 1 stStart)
    ∧ (let s : State := { base with boot := { base.boot with readyAt := some 0, fsc := Comp.of 1, active := some imgX }, time.mono := 10 * secT }
       s.boot.readyAt = some 0 ∧ 0 + 10 * secT ≤ s.time.mono ∧ s.boot.fsc ≠ Comp.of 0 ∧ s.boot.active = some imgX)
    ∧ (base.boot.phase = .running ∧ base.pwr.state < 3)
    ∧ (replayRecast { base with boot := { base.boot with phase := .warm, active := some imgX, recast := none } }).boot.active = some imgX := by
  decide +kernel

/-- A recasting of the administrator's, before its handover. -/
def rec0 (fb : Bool) (took : Option Nat) : Recast :=
  { req := some r0, fallback := fb, probationS := 1, windowUs := 500, op := 1, took, prior := none }
/-- A state with a shadow image. -/
def stSh (loaded : Bool) : State := { base with boot := { base.boot with active := some imgX, shadow := some imgX, shadowLoaded := loaded } }

/-- Witnesses of RecastingAndDiagnosticsComplete. -/
theorem wit_recast_diag :
    readyAnd iRecastImageLoad (ioP (zeros 8)) (withPay 0x0E03 (hd 1 0) [0, 0] 8 base) (fun c => prm c 0 1 == 0 && base.boot.recast.isNone)
    ∧ (let u : State := { base with boot := { base.boot with phase := .understudy } }
       let w : State := { base with boot := { base.boot with phase := .starting, bank := 2, imageAt := none }, cb := { base.cb with server := 1 } }
       u.boot.phase = .understudy ∧ w.boot.bank = 2 ∧ w.boot.imageAt = none)
    ∧ readyAnd iRecastCommit io0 (withReq 0x0E04 (hd 1 0) [] base) (fun _ => base.boot.shadow.isNone)
    ∧ readyAnd iRecastCommit io0 (withReq 0x0E04 (hd 1 0) [] (stSh true))
        (fun _ => decide ((stSh true).sec.floor ≤ imgSecVersion imgX.bytes) && (journalRoom (stSh true)).isOk)
    ∧ readyAnd iRecastFallback io0 (withReq 0x0E05 (hd 1 0) [] (stSh false))
        (fun _ => decide ((stSh false).sec.floor ≤ imgSecVersion imgX.bytes) && (journalRoom (stSh false)).isOk)
    ∧ readyAnd iDiagLogRead io0 (withReq 0x0E00 0 (res 64 ++ [0, 0, 0, 0] ++ zeros 4 ++ [1]) base) (fun c => prm c 12 1 == 0)
    ∧ readyAnd iDiagLogRead io0 (withReq 0x0E00 0 (res 64 ++ [1, 0, 0, 0] ++ zeros 4 ++ [1]) base) (fun c => prm c 12 1 == 1)
    ∧ readyAnd iDiagCounters io0 (withReq 0x0E01 (hd 1 0) (res 1024 ++ [3, 1]) base) (fun c => (prm c 13 1).testBit 0)
    ∧ readyAnd iDiagSelftestRecord io0 (withReq 0x0E02 (hd 1 0) (res 3136) base) (fun c => prm c 12 1 == 0)
    ∧ (let s : State := { base with sec.base := 1 }
       readyAnd iDiagSelftestRecord io0 (withReq 0x0E02 (hd 1 0) (res 3136 ++ [2, 90]) s)
        (fun c => prm c 12 1 == 2 && (domWork 90 s).isNone && (getDom 90 s).run.isNone))
    ∧ (let s : State := { stBusy with sec.base := 1 }
       readyAnd iDiagSelftestRecord io0 (withReq 0x0E02 (hd 1 0) (res 3136 ++ [1, 64]) s) (fun c => prm c 12 1 != 0 && (domWork 64 s).isSome))
    ∧ readyAnd iDiagJournalRead io0 (withReq 0x0E06 (hd 1 0) (res 4096) base) (fun _ => true)
    ∧ (let s : State := { base with boot.recast := some (rec0 false none) }
       s.boot.recast = some (rec0 false none) ∧ s.boot.phase = .running ∧ ready s ∧ setWithin 500 s = false)
    ∧ ((rec0 true none).fallback ∧ (rec0 true none).prior = none)
    ∧ (let s : State := { base with boot := { base.boot with recast := some (rec0 false (some 0)), active := some imgX }, time.mono := secT }
       s.boot.active = some imgX ∧ 0 + (rec0 false (some 0)).probationS * secT ≤ s.time.mono) := by decide +kernel

/-- The state in service in a life-cycle state, its policy that of the state. -/
def stLife (l : Nat) : State := policyReset { stId with sec := { stId.sec with base := l } }

/-- A token of 7,347 zero bytes but its magic, version and duration (60 s, scope bit 0) that answers a challenge. -/
def tok (dig : List Byte) : List Byte :=
  leBytes 4 0x554E4C31 ++ leBytes 2 1 ++ [1, 0] ++ padTo 64 dig ++ leBytes 4 60 ++ zeros 7271

/-- A request with a payload whose parameters lie before the payload fields. -/
def secPay (op : Nat) (n : Nat) (ps : List Byte) (s : State) : State := withPay op (hd 1 0) ps n s

/-- Witnesses of SecurityCommandsComplete. Whether a token's signature holds is not stated by the model. -/
theorem wit_security_commands :
    readyAnd iSecQuote (ioP (zeros 64)) (secPay 0x0D00 64 (zeros 12 ++ [1, 8]) (stLife 3)) (fun c => prm c 12 1 == 1)
    ∧ readyAnd iSecQuote (ioP (zeros 24)) (secPay 0x0D00 24 (res 5779 ++ [0, 0, 3]) (stLife 3)) (fun c => prm c 12 1 == 0 && (stLife 3).sec.identity)
    ∧ readyAnd iSecLifecycle io0 (withReq 0x0D01 (hd 1 0) [0xFF] (stLife 3)) (fun c => prm c 0 1 == 0xFF)
    ∧ readyAnd iSecLifecycle io0 (withReq 0x0D01 (hd 1 0) [0] (stLife 3)) (fun c =>
        prm c 0 1 != 0xFF && (openOps (stLife 3)).isEmpty && lifeNeed (lifecycle (stLife 3)) 0 (stLife 3).sec.erased == none)
    ∧ readyAnd iSecLifecycle io0 (withReq 0x0D01 (hd 1 0) [3] (stLife 2)) (fun _ =>
        lifeNeed (lifecycle (stLife 2)) 3 (stLife 2).sec.erased == some .nothing)
    ∧ readyAnd iSecLifecycle (ioP (zeros 64)) (secPay 0x0D01 64 [2] (stLife 1)) (fun _ =>
        lifeNeed (lifecycle (stLife 1)) 2 (stLife 1).sec.erased == some .authority)
    ∧ readyAnd iSecQuote (ioP (zeros 64)) (secPay 0x0D00 64 (zeros 12 ++ [1, 8]) { stLife 3 with sec.erased := true }) (fun _ => true)
    ∧ readyAnd iSecLifecycle io0 (withReq 0x0D01 (hd 1 0) [4] (stLife 3)) (fun c =>
        lifeNeed (lifecycle (stLife 3)) 4 (stLife 3).sec.erased == some (.token 1) && !c.q.pref && !c.q.cbdata)
    ∧ readyAnd iSecLifecycle (ioP (tok [])) (secPay 0x0D01 7347 [4] (stLife 3)) (fun c => c.q.pref && !(tokenCheck c.pay 1 (stLife 3)).isOk)
    ∧ readyAnd iSecLifecycle io0 (withReq 0x0D01 (hd 1 0) [4] { stLife 3 with boot.recast := some (rec0 false none) }) (fun _ => true)
    ∧ readyAnd iSecUnlockChallenge io0 (withReq 0x0D02 (hd 1 0) (res 128 ++ [1]) (stLife 3)) (fun _ => true)
    ∧ readyAnd iSecUnlock io0 (withReq 0x0D03 (hd 1 0) [1] (stLife 3)) (fun c => prm c 0 1 == 1)
    ∧ readyAnd iSecUnlock (ioP (tok [])) (secPay 0x0D03 7347 [0] (stLife 3)) (fun c =>
        prm c 0 1 == 0 && !(tokenCheck c.pay 0 (stLife 3)).isOk)
    ∧ readyAnd iSecAlarmPolicy io0 (withReq 0x0D04 (hd 1 0) [3, 2, 0xFF, 0xFF, 0xFF] (stLife 3)) (fun _ => (stLife 3).sec.policy.ok)
    ∧ readyAnd iSecIdentityRead io0 (withReq 0x0D05 0 (res 2720) (stLife 3)) (fun _ => (stLife 3).sec.identity && !(stLife 3).sec.erased) := by
  decide +kernel

/-- Witnesses of SecurityEventsComplete: the policy of a deployed device gives sensor 0 action 3, sensor 2 action 1. -/
theorem wit_security_events :
    let s := stLife 3
    let pol (a : Nat) : State := { s with sec := { s.sec with policy := Comp.of a } }
    (secLive s ∧ s.pwr.state ≠ 3 ∧ s.sec.policy.ok ∧ s.sec.policy.n / 8 ^ 0 % 8 = 3 ∧ s.sec.policy.n / 8 ^ 2 % 8 = 1 ∧ s.sec.policy.n / 8 ^ 4 % 8 = 0)
    ∧ ((pol 2).sec.policy.ok ∧ (pol 2).sec.policy.n / 8 ^ 0 % 8 = 2)
    ∧ (secLive { s with pwr.state := 3 } ∧ ({ s with pwr.state := 3 } : State).pwr.state = 3)
    ∧ (let c : Challenge := { bytes := [], scope := 0, at' := 0 }
       let x : State := { s with sec := { s.sec with challenge := some c } }
       x.sec.challenge = some c ∧ x.time.mono < c.at' + 300 * secT ∧ c.at' + 300 * secT ≤ ({ x with time.mono := 300 * secT } : State).time.mono)
    ∧ (let x : State := { s with sec := { s.sec with port := true, portUntil := some 0 } }
       x.sec.port ∧ x.sec.portUntil = some 0 ∧ 0 ≤ x.time.mono) := by decide +kernel

/-- Witnesses of DoorbellsMoveOrAreRefused: pair 1, whose queues have 64 entries, with tail 3, fetched up to 1. -/
def stDb : State := { base with link.pairs := [pair 0, { pair 1 with sqTail := 3, sqHead := 1, cqTail := 2 }] }
theorem wit_doorbells :
    fnLive 0 stDb ∧ queuesLive stDb ∧ queuesLive { stDb with boot.phase := .warm } = false ∧ 16 * 65535 + 8 < 0x100000 ∧ (65536 ≤ (0x10003#64).toNat % 2 ^ 32) ∧ getPair 0 9 stDb = none
    ∧ ((getPair 0 1 stDb).any fun p => p.fault == 0 && p.sqDepth == 64 && p.cqDepth == 64
        && decide ((63 + 64 - p.sqHead) % 64 ≥ (p.sqTail + 64 - p.sqHead) % 64) && decide ((2 + 64 - p.sqHead) % 64 < (p.sqTail + 64 - p.sqHead) % 64)
        && decide ((2 + 64 - p.cqHead) % 64 ≤ (p.cqTail + 64 - p.cqHead) % 64 - p.heldCpl)
        && decide ((p.cqTail + 64 - p.cqHead) % 64 - p.heldCpl < (3 + 64 - p.cqHead) % 64))
    ∧ (getPair 0 1 (updPair 0 1 (fun p => { p with fault := 1 }) stDb)).any (·.fault != 0) := by decide +kernel

/-- Witness of IdentificationWritesAreRefused. -/
theorem wit_identification : fnLive 0 base ∧ 0xFFC % 4 = 0 ∧ (0xFFC : Nat) < 0x1000 ∧ 0xFF8 % 8 = 0 := by decide +kernel

/-- Witnesses of RegisterWritesComplete: function 0 with both base pairs committed and no pair 0. -/
def stQz : State :=
  let ok (n : Nat) : RwpPair := { pair := Comp.of n, committed := true }
  { base with link := { base.link with
    pairs := [], fns := base.link.fns.modify 0 fun f => { f with sq := ok 4096, cq := ok 8192, sqDepthM1 := 7, cqDepthM1 := 7 } } }
def stHold (v : Option (Bool × W64)) (l : Option (Bool × Bool × W32)) : State :=
  { stQz with link := { stQz.link with fns := stQz.link.fns.modify 0 fun f => { f with hold := { value := v, low := l } } } }
theorem wit_register_writes :
    fnLive 0 base ∧ queuesLive base ∧ (0x101C % 4 = 0 ∧ (0x1001 % 4 ≠ 0)) ∧ queuesLive { base with boot.phase := .warm } = false
    ∧ getPair 0 0 base ≠ none ∧ getPair 0 0 stQz = none ∧ fnLive 0 { base with boot.phase := .warm }
    ∧ (getFn 0 (stHold (some (false, ~~~5)) none)).hold.value = some (false, ~~~(5#64))
    ∧ (getFn 0 (stHold none (some (true, false, 9)))).hold.low = some (true, false, 9) ∧ fnLive 0 (stHold none (some (true, false, 9)))
    ∧ ((4#32).toNat / 4 % 16384 ≠ 0 ∧ vectors 0 ≤ (0x7FF0000#32).toNat / 65536 % 2048 + 1)
    ∧ ((3#32).toNat / 4 % 16384 = 0 ∧ (3#32).toNat / 2 ^ 27 % 32 = 0 ∧ (3#32).toNat.testBit 0 ∧ (2#32).toNat.testBit 0 = false)
    ∧ (getPair 0 0 (breakHold 0 base)).isSome ∧ getPair 0 0 (breakHold 0 stQz) = none
    ∧ enableOk 0 (breakHold 0 stQz) ∧ enableOk 0 (breakHold 0 { base with link.pairs := [] }) = false
    ∧ fnLive 0 stQz := by decide +kernel

/-- Witnesses of RegionWritesComplete: the ends of the regions, and a virtual function. -/
theorem wit_region_writes :
    fnLive 0 base ∧ fnLive 1 { base with link.fns := base.link.fns.modify 1 fun f => { f with enabled := true } }
    ∧ 0x2000 / 0x1000 ∉ [0, 1, 0x10, 0x20, 0x30, 0x40, 0x50] ∧ (0x108100 : Nat) > 0x1080FF ∧ 0x108100 / 0x1000 = 0x108
    ∧ base.cb.state ≠ 1 ∧ ({ base with cb.state := 1 } : State).cb.state = 1 ∧ base.pwr.state = 0 ∧ base.pwr.returning = none
    ∧ monitorLive 26 base ∧ 2047 < vectors 0 ∧ 63 < vectors 1 ∧ 0x1007C % 4 = 0 ∧ 0x10FFC % 4 = 0 := by decide +kernel

/-- Witnesses of FunctionsAndFetchComplete: pair 1 has an entry to fetch. -/
theorem wit_functions_fetch :
    let coal (m : Nat) : State := { base with link.pairs := [{ pair 0 with intEn := true, coalTime := 1, coalAt := some 0 }], time.mono := m }
    (fnLive 0 base ∧ 0 < vectors 0)
    ∧ fnLive 1 { base with link.fns := base.link.fns.modify 1 fun f => { f with enabled := true } }
    ∧ ((getFn 1 base).enabled = false ∧ base.boot.phase ≠ .understudy)
    ∧ (base.link.up ∧ perstLocal base = false ∧ perstLocal { base with pwr.state := 3 })
    ∧ (getPair 0 0 (coal usT)).any (fun p => p.intEn && p.coalTime != 0 && decide (0 + p.coalTime * usT ≤ (coal usT).time.mono))
    ∧ (getPair 0 0 (coal 0)).any (fun p => decide ((coal 0).time.mono < 0 + p.coalTime * usT))
    ∧ (arbitrate { base with link.fetchStopped := false } = none)
    ∧ (arbitrate { stDb with link.fetchStopped := false }).any (fun x => x.1.qid == 1 && x.1.sqBase.ok && x.1.cqBase.ok)
    ∧ (let b : Comp := { v := 0, c := 0, ue := false }
       (arbitrate { stDb with link := { stDb.link with pairs := stDb.link.pairs.map fun p => { p with sqBase := b } } }).any (fun x => !x.1.sqBase.ok))
    := by decide +kernel

/-- Witnesses of RingsStartOrAreRefused, one at the wrap of NEXT_SEQ. -/
theorem wit_rings :
    let cb (st n : Nat) : State := { base with cb := { base.cb with state := st, nextSeq := n } }
    fnLive 0 base ∧ (fnLive 0 (cb 0 0xFFFF) ∧ (0xFFFF#32).toNat < 65536 ∧ (0xFFFF#32).toNat = (cb 0 0xFFFF).cb.nextSeq)
    ∧ (cb 1 0).cb.state ≠ 0 ∧ (1#32).toNat ≠ (cb 0 0).cb.nextSeq := by decide +kernel

/-- Witnesses of CallboardComplete. -/
theorem wit_callboard :
    let cb (st : Nat) : State := { base with cb := { base.cb with state := st, limit := some 0 }, time.mono := secT }
    fnLive 0 (cb 2) ∧ (cb 2).cb.state = 2 ∧ (cb 1).cb.state ≠ 2 ∧ 2 ≤ (2#32).toNat
    ∧ (cb 1).cb.limit = some 0 ∧ 0 + secT ≤ (cb 1).time.mono ∧ base.time.mono < 0 + secT := by decide +kernel

/-- Witnesses of MonitorsAndSidebandComplete: monitors 0 (domain 64) and 16 (management), the first and the last. -/
theorem wit_monitors_sideband :
    let off : State := updDom 64 (fun x => { x with on := false }) base
    let sb (m : Nat) : State := { base with boot := { base.boot with vaux := true, straps := { base.boot.straps with sbMode := m } } }
    (monitorOn 0 base ∧ monitorOn 16 base ∧ monitorOn 26 base ∧ backstopLive base ∧ 0 < 1)
    ∧ (fnLive 0 base ∧ monitorLive 0 base ∧ monitorLive 26 base ∧ (1#32).toNat % 131072 ≠ 0 ∧ 262144 ≤ (0x60000#32).toNat)
    ∧ (base.pwr.slack[26]?).isSome
    ∧ (fnLive 0 off ∧ monitorLive 0 off = false ∧ monitorDom 0 = some 64)
    ∧ (base.pwr.state = 0 ∧ base.pwr.returning = none ∧ (255#32).toNat < 256 ∧ 256 ≤ (256#32).toNat)
    ∧ ((sb 1).boot.vaux ∧ (sb 1).boot.straps.sbMode = 1)
    ∧ (base.boot.phase = .running ∧ base.pwr.state < 3 ∧ base.sb.mirrorAt + 10 * msT ≤ ({ base with time.mono := 10 * msT } : State).time.mono
        ∧ (base.pwr.slack[0]?.elim 0 (·.at')) + 100 * usT ≤ ({ base with time.mono := 10 * msT } : State).time.mono) := by decide +kernel

/-- An orphan of type 9 in slot 2 whose hold passes at 5, and a state with it. -/
def orph : Obj := { ob 9 2 with sess := none, st := .orphan, holdAt := some 5 }
def stOrph (m : Nat) : State := { base with obj := { base.obj with objs := base.obj.objs ++ [orph] }, time.mono := m }
/-- A state with an open request and its deadline, the object in slot 0 of type 13 closing by another. -/
def stDl (op : Nat) (ph : ReqPhase) (m : Nat) : State :=
  { base with link.reqs := [{ rq op 0 [] with dl := some 5, phase := ph }], time.mono := m }
def stRel (m : Nat) : State :=
  let s := stDl 0x0100 .running m
  { s with obj.objs := [ob 1 0, { ob 13 0 with st := .closing (some r0) }] }

/-- Witnesses of DeadlinesEndRequests. -/
theorem wit_deadlines :
    findReq r0 base = none
    ∧ ((findReq r0 (stDl 0x0C00 .fetched 5)).any fun q => q.dl == some 5 && q.phase == .fetched && q.opcode != 0x0404)
    ∧ closingBy r0 (stDl 0x0C00 .fetched 5) = [] ∧ (stDl 0x0C00 .fetched 4).time.mono < 5
    ∧ ((findReq r0 (stDl 0x000E .running 5)).any fun q => q.phase != .fetched && q.opcode == 0x000E)
    ∧ ((findReq r0 (stDl 0x0B02 .running 5)).any fun q => q.phase != .fetched && q.opcode != 0x000E && q.opcode != 0x0303 && q.opcode != 0x0603)
    ∧ (closingBy r0 (stRel 5) ≠ [] ∧ (findReq r0 (stRel 5)).any (fun q => q.dl == some 5) ∧ 5 ≤ (stRel 5).time.mono ∧ (stRel 4).time.mono < 5)
    ∧ (getObj 9 2 (stOrph 5) = some orph ∧ orph.st = .orphan ∧ orph.holdAt = some 5 ∧ 5 ≤ (stOrph 5).time.mono ∧ (stOrph 4).time.mono < 5
        ∧ ((stOrph 5).obj.objs.all fun x => !x.deps.contains (9, 2))) := by decide +kernel


/-! ### Well-formedness: an ill-formed term for each check, which the check refuses -/

theorem wf_refuses_ref_cid : Instr.wf (.admIdentify { src := .queue 0 0, cid := 65536 } io0) = false := by decide
theorem wf_refuses_ref_fn : Instr.wf (.admIdentify { src := .queue 32 0, cid := 0 } io0) = false := by decide
theorem wf_refuses_ref_qid : Instr.wf (.admIdentify { src := .queue 0 65536, cid := 0 } io0) = false := by decide
theorem wf_refuses_fn : Instr.wf (.qzEnable 32 0) = false := by decide
theorem wf_refuses_access_offset : Instr.wf (.registerWrite 0 4294967296 4 0) = false := by decide
theorem wf_refuses_access_value : Instr.wf (.registerWrite 0 0 4 4294967296) = false := by decide
theorem wf_refuses_size : Instr.wf (.tbWord0Read 0) = false := by decide
theorem wf_refuses_queue : Instr.wf (.coalTimer 0 65536) = false := by decide
theorem wf_refuses_bar4 : Instr.wf (.bar4Access 68719476735 (.read 2)) = false := by decide
theorem wf_refuses_unmask : Instr.wf (.msixUnmask 0 (.vector 2048)) = false := by decide
theorem wf_refuses_vf_count : Instr.wf (.vfEnableSet 32) = false := by decide
theorem wf_refuses_entry : Instr.wf (.sqFetch (.entry [])) = false := by decide
theorem wf_refuses_object : Instr.wf (.orphanHoldExpiry 256 0) = false := by decide
theorem wf_refuses_csi_port : Instr.wf (.csiFrameEnd 16 0) = false := by decide
theorem wf_refuses_csi_channel : Instr.wf (.csiFrameEnd 0 32) = false := by decide
theorem wf_refuses_csi_frame : Instr.wf (.csiFrameStart 0 0 65536) = false := by decide
theorem wf_refuses_csi_pixels : Instr.wf (.csiPacket 0 0 { ecc := .clean, dt := 0, pixels := [65536], crcOk := true }) = false := by decide
theorem wf_refuses_eth_port : Instr.wf (.ptpTransmitInterval 4 .sync) = false := by decide
theorem wf_refuses_alarm : Instr.wf (.timeAlarmFire 8) = false := by decide
theorem wf_refuses_spi : Instr.wf (.spiDrdyEdge 8 0 0) = false := by decide
theorem wf_refuses_spi_words : Instr.wf (.spiTransactionDone 0 [16777216]) = false := by decide
theorem wf_refuses_encoder : Instr.wf (.encIndex 16 0) = false := by decide
theorem wf_refuses_vision_group : Instr.wf (.visionBandDone 4 (.warp 0)) = false := by decide
theorem wf_refuses_vision_unit : Instr.wf (.visionBandDone 0 (.feature 2)) = false := by decide
theorem wf_refuses_tile : Instr.wf (.taskWatchdog 256) = false := by decide
theorem wf_refuses_engine : Instr.wf (.queryStart 16) = false := by decide
theorem wf_refuses_trellis : Instr.wf (.trellisRekey 7) = false := by decide
theorem wf_refuses_member : Instr.wf (.memberLoss 8) = false := by decide
theorem wf_refuses_domain : Instr.wf (.domainReturnDone 96) = false := by decide
theorem wf_refuses_gpio : Instr.wf (.gpioWakeEdge 4 true 0) = false := by decide
theorem wf_refuses_straps : Instr.wf (.vauxRise { bootSrc := 4, sbAddr := 0, sbMode := 0, ensId := 0, ethSpeed := 0, ethFec := 0, crystal := false }) = false := by decide
theorem wf_refuses_lockstep : Instr.wf (.lockstepMismatch 2) = false := by decide
theorem wf_refuses_sensor : Instr.wf (.tamperAlarm 5 0) = false := by decide
theorem wf_refuses_monitor : Instr.wf (.slkMinRead 27) = false := by decide
theorem wf_refuses_slack_divisor : Instr.wf (.slackMeasure 0 1 0) = false := by decide
theorem wf_refuses_sb_index : Instr.wf (.sbRegisterWrite { index := 256, bytes := [], pecBad := false }) = false := by decide
theorem wf_refuses_sb_address : Instr.wf (.sbDynamicAddress 128) = false := by decide
theorem wf_refuses_link_shape : Instr.wf (.pcieLinkTrained 6 8) = false := by decide
theorem wf_refuses_reason : Instr.wf (.startAttemptFailure 13) = false := by decide
theorem wf_accepts : Instr.wf (.registerWrite 31 0xFFC 4 0xFFFFFFFF) = true ∧ Instr.wf (.pcieLinkTrained 5 8) = true := by decide

/-! ### The block's own mechanics -/

/-- The command in front is the one that a step carries out; the rest of the queue waits. -/
theorem test_step_takes_the_front :
    (match Machine.step { base with pending := [.wakeNEdge 0, .linkDown] } with
      | .next s => s.pending
      | _ => []) = [.linkDown] := by decide +kernel

/-- The table gives no row any bits, so no word spells a command. -/
theorem test_no_table_word : decodeTableWord 8 0 = none := by decide

end Sys2Proof.Tests
end

/-! SUPPORT. Host accesses to BAR0: a presented function takes them; a register write acts by its region of Table 2.3. -/
namespace Sys2Proof.Machine

/-! ### Accesses of a presented function -/

theorem hostWrite_of_fnLive {fn : Nat} {s : State} (f : State → State) (h : fnLive fn s = true) :
    hostWrite fn f s = .next (settle (inBand (f s))) := by simp [hostWrite, h]

theorem hostRead_of_fnLive {fn : Nat} {s : State} (f : State → State) (h : fnLive fn s = true) :
    hostRead fn f s = .next (f s) := by simp [hostRead, h]

/-! ### The regions of BAR0 -/

theorem regionOf_identification {fn off : Nat} (h : off < 0x1000) : regionOf fn off = 0 := by simp [regionOf, h]

theorem regionOf_queueZero {fn off : Nat} (hlo : 0x1000 ≤ off) (hhi : off < 0x2000) : regionOf fn off = 1 := by
  simp [regionOf, Nat.not_lt.mpr hlo, hhi]

theorem regionOf_ne_one {fn off : Nat} (h : off < 0x1000 ∨ 0x2000 ≤ off) : regionOf fn off ≠ 1 := by
  unfold regionOf
  (repeat' split) <;> omega

/-- The rows of Table 2.3 past queue zero: region, first and last offset. -/
def physicalRegions : List (Nat × Nat × Nat) :=
  [(2, 0x10000, 0x10FFF), (3, 0x20000, 0x20FFF), (4, 0x30000, 0x30FFF), (5, 0x40000, 0x40FFF),
   (6, 0x50000, 0x50FFF), (7, 0x100000, 0x107FFF), (8, 0x108000, 0x1080FF)]

/-- An offset of the physical function lies in the region whose row of Table 2.3 holds it. -/
theorem regionOf_physical {region lo hi off : Nat} (h : (region, lo, hi) ∈ physicalRegions) (hlo : lo ≤ off) (hhi : off ≤ hi) :
    regionOf 0 off = region := by
  simp only [physicalRegions, List.mem_cons, Prod.mk.injEq, List.not_mem_nil, or_false] at h
  simp only [regionOf, inR, Bool.and_eq_true, decide_eq_true_eq, if_true]
  (repeat' split) <;> omega

theorem regionOf_physical_reserved {off : Nat} (hpage : off / 0x1000 ∉ [0, 1, 0x10, 0x20, 0x30, 0x40, 0x50])
    (h : off < 0x100000 ∨ 0x1080FF < off) : regionOf 0 off = 9 := by
  simp only [List.mem_cons, List.not_mem_nil, or_false, not_or] at hpage
  simp only [regionOf, inR, Bool.and_eq_true, decide_eq_true_eq, if_true]
  (repeat' split) <;> omega

theorem regionOf_virtual_reserved {fn off : Nat} (hfn : fn ≠ 0) (hoff : 0x2000 ≤ off) (h : off < 0x8000 ∨ 0x8407 < off) :
    regionOf fn off = 9 := by
  simp only [regionOf, inR, if_neg hfn, Bool.and_eq_true, decide_eq_true_eq]
  (repeat' split) <;> omega

/-- Where the MSI-X table of a function begins in BAR0 (Tables 2.3 and 2.4). -/
def msixBase (fn : Nat) : Nat := if fn = 0 then 0x100000 else 0x8000

theorem regionOf_msix {fn n k : Nat} (hn : n < vectors fn) (hk : k < 16) : regionOf fn (msixBase fn + 16 * n + k) = 7 := by
  by_cases hfn : fn = 0
  · subst hfn
    simp only [vectors, if_true] at hn
    exact regionOf_physical (lo := 0x100000) (hi := 0x107FFF) (by decide) (by simp [msixBase]; omega) (by simp [msixBase]; omega)
  · simp only [vectors, if_neg hfn] at hn
    simp only [regionOf, msixBase, inR, if_neg hfn, Bool.and_eq_true, decide_eq_true_eq]
    (repeat' split) <;> omega

theorem regionOf_pending {fn off : Nat}
    (h : (fn = 0 ∧ 0x108000 ≤ off ∧ off ≤ 0x1080FF) ∨ (fn ≠ 0 ∧ 0x8400 ≤ off ∧ off ≤ 0x8407)) : regionOf fn off = 8 := by
  obtain ⟨rfl, hlo, hhi⟩ | ⟨hfn, hlo, hhi⟩ := h
  · exact regionOf_physical (by decide) hlo hhi
  · simp only [regionOf, inR, if_neg hfn, Bool.and_eq_true, decide_eq_true_eq]
    (repeat' split) <;> omega

/-! ### A 4-byte write, by its region -/

/-- The regions without a register that takes a write refuse every one. -/
theorem write4_readOnly {fn off region : Nat} (v : Nat) (s : State) (h : regionOf fn off = region)
    (hr : region ∈ [0, 4, 8, 9]) : write4 fn off v s = refuseReg fn region s := by
  simp only [List.mem_cons, List.not_mem_nil, or_false] at hr
  obtain rfl | rfl | rfl | rfl := hr <;> simp [write4, h]

theorem write4_callboard {off : Nat} (v : Nat) (s : State) (hlo : 0x10000 ≤ off) (hhi : off ≤ 0x10FFF) :
    write4 0 off v s = writeCb off v s := by
  simp [write4, regionOf_physical (region := 2) (by decide) hlo hhi]

theorem write4_glWake (v : Nat) (s : State) : write4 0 0x20004 v s = clearWake v s := by
  simp [write4, show regionOf 0 0x20004 = 3 from rfl]

theorem write4_ghostLight {off : Nat} (v : Nat) (s : State) (hlo : 0x20000 ≤ off) (hhi : off ≤ 0x20FFF) (h : off ≠ 0x20004) :
    write4 0 off v s = refuseReg 0 3 s := by
  simp [write4, regionOf_physical (region := 3) (by decide) hlo hhi, h]

theorem write4_slack {off : Nat} (v : Nat) (s : State) (hlo : 0x40000 ≤ off) (hhi : off ≤ 0x40FFF) :
    write4 0 off v s = writeSlack off v s := by
  simp [write4, regionOf_physical (region := 5) (by decide) hlo hhi]

theorem write4_fence {off : Nat} (v : Nat) (s : State) (hlo : 0x50000 ≤ off) (hhi : off ≤ 0x50FFF) :
    write4 0 off v s = if off < 0x50300 then s else refuseReg 0 6 s := by
  simp [write4, regionOf_physical (region := 6) (by decide) hlo hhi]

/-- A word of a vector's entry: which of its four words the offset names. -/
theorem write4_msix {fn n k : Nat} (v : Nat) (s : State) (hn : n < vectors fn) (hk : k < 16) :
    write4 fn (msixBase fn + 16 * n + k) v s = writeMsix fn (16 * n + k) v s := by
  have hrel : msixBase fn + 16 * n + k - (if fn = 0 then 0x100000 else 0x8000) = 16 * n + k := by
    change _ - msixBase fn = _; omega
  simp [write4, regionOf_msix hn hk, hrel]

/-! ### REGISTER_WRITE, by the shape of the access -/

section RegisterWrite
variable {fn off v : Nat} {s : State} (hlive : fnLive fn s = true)
include hlive

theorem exec_registerWrite_misshapen {size : Nat} (hoff : off < 0x1000 ∨ 0x2000 ≤ off)
    (h : (size ≠ 4 ∧ size ≠ 8) ∨ off % size ≠ 0) :
    exec (.registerWrite fn off size v) s = .next (settle (inBand (refuseReg fn (regionOf fn off) s))) := by
  simp only [exec_registerWrite, execRegisterWrite, hostWrite_of_fnLive _ hlive, if_pos h, if_neg (regionOf_ne_one hoff)]

theorem exec_registerWrite_word (h : off % 4 = 0) :
    exec (.registerWrite fn off 4 v) s = .next (settle (inBand (write4 fn off (v % 2 ^ 32) s))) := by
  simp [execRegisterWrite, hostWrite_of_fnLive _ hlive, h]

/-- Eight bytes outside queue zero are their two words in order. -/
theorem exec_registerWrite_twoWords (hoff : off < 0x1000 ∨ 0x2000 ≤ off) (h : off % 8 = 0) :
    exec (.registerWrite fn off 8 v) s
      = .next (settle (inBand (write4 fn (off + 4) (v / 2 ^ 32 % 2 ^ 32) (write4 fn off (v % 2 ^ 32) s)))) := by
  have hq : inR 0x1000 off 0x101F = false := by simp [inR]; omega
  simp [execRegisterWrite, hostWrite_of_fnLive _ hlive, h, hq]

/-- A word that a register takes leaves the state its region says. -/
theorem exec_registerWrite_of_write4 {u : State} (h : off % 4 = 0) (hv : v < 2 ^ 32) (hw : write4 fn off v s = u) :
    exec (.registerWrite fn off 4 v) s = .next (settle (inBand u)) := by
  rw [exec_registerWrite_word hlive h, Nat.mod_eq_of_lt hv, hw]

end RegisterWrite

/-! ### The identification region -/

/-- Settles O53: each word lies in region 0, which has no register that takes a write. -/
theorem identificationWritesAreRefused : Obligations.IdentificationWritesAreRefused := by
  intro fn off v s hlive once
  have refused (off v : Nat) (t : State) (h : off < 0x1000) : write4 fn off v t = once t :=
    write4_readOnly v t (regionOf_identification h) (by decide)
  refine ⟨fun h4 hoff => ⟨?_, rfl⟩, fun h8 hoff => ⟨?_, rfl⟩⟩
  · rw [exec_registerWrite_word hlive h4, refused off _ s hoff]
  · rw [exec_registerWrite_twoWords hlive (.inl hoff) h8, refused off _ s hoff, refused (off + 4) _ _ (by omega)]

/-! ### The callboard -/

theorem exec_cbAck_of_fnLive {s : State} (v : W32) (h : fnLive 0 s = true) :
    exec (.cbAck v) s = .next (settle (inBand (ack v.toNat s))) := hostWrite_of_fnLive _ h

theorem ack_one_done {s : State} (h : s.cb.state = 2) : ack 1 s = { s with cb := { s.cb with state := 0 } } := by
  simp [ack, h]

theorem ack_one_notDone {s : State} (h : s.cb.state ≠ 2) : ack 1 s = refuseCb 4 s := by simp [ack, h]

theorem ack_zero (s : State) : ack 0 s = s := by simp [ack]

theorem ack_reserved {v : Nat} (s : State) (h : 2 ≤ v) : ack v s = refuseReg 0 2 s := by simp [ack, h]

/-- Settles O58, by the cases of an acknowledgement and by whether the server's limit and 1 s are past. -/
theorem callboardComplete : Obligations.CallboardComplete := by
  refine ⟨fun s hlive => ?_, fun t s hbusy hlimit => ⟨fun hearly => ?_, fun hlate => ?_⟩⟩
  · refine ⟨fun h => ?_, fun h => ?_, ?_, fun v h => ?_, (exec_cbRefusedRead s).trans (hostRead_of_fnLive _ hlive)⟩
    · exact (exec_cbAck_of_fnLive 1 hlive).trans (by rw [show (1 : W32).toNat = 1 from rfl, ack_one_done h])
    · exact (exec_cbAck_of_fnLive 1 hlive).trans (by rw [show (1 : W32).toNat = 1 from rfl, ack_one_notDone h]; rfl)
    · exact (exec_cbAck_of_fnLive 0 hlive).trans (by rw [show (0 : W32).toNat = 0 from rfl, ack_zero])
    · exact (exec_cbAck_of_fnLive v hlive).trans (by rw [ack_reserved s h])
  · simp [execCbHwTimeout, hlimit, past, Nat.not_le.mpr hearly]
  · intro op cid s1
    have hpast : s.cb.state = 1 ∧ past s.cb.limit secT s = true := ⟨hbusy, by simp [hlimit, past, hlate]⟩
    have hs1 : (s.link.reqs.find? fun q => q.src == .callboard).elim s (fun q => cancelSilent q s) = s1 := by
      simp only [s1]
      cases s.link.reqs.find? fun q => q.src == .callboard <;> rfl
    simp only [exec_cbHwTimeout, execCbHwTimeout, if_pos hpast, hs1]
    rfl

end Sys2Proof.Machine

/-! ### The words of the callboard page, the ghost light, the slack monitors and the MSI-X table -/
namespace Sys2Proof.Machine

theorem writeCb_ring (v : Nat) (s : State) : writeCb 0x10000 v s = ring v s := by simp [writeCb]

theorem writeCb_ack (v : Nat) (s : State) : writeCb 0x10008 v s = ack v s := by simp [writeCb]

theorem writeCb_control {v : Nat} (s : State) (h : v < 2) :
    writeCb 0x1000C v s = { s with cb := { s.cb with intEn := v.testBit 0 } } := by
  simp [writeCb, Nat.not_le.mpr h]

theorem writeCb_control_reserved {v : Nat} (s : State) (h : 2 ≤ v) : writeCb 0x1000C v s = refuseReg 0 2 s := by
  simp [writeCb, h]

theorem writeCb_request {off v : Nat} {s : State} (hlo : 0x10040 ≤ off) (hhi : off ≤ 0x1007F) (h : s.cb.state ≠ 1) :
    writeCb off v s = { s with cb := { s.cb with request := memWrite s.cb.request (off - 0x10040) (leBytes 4 v) } } := by
  simp (disch := omega) only [writeCb, inR, Bool.and_eq_true, decide_eq_true_eq, if_neg, if_pos]

theorem writeCb_data {off v : Nat} {s : State} (hlo : 0x10400 ≤ off) (hhi : off ≤ 0x10FFF) (h : s.cb.state ≠ 1) :
    writeCb off v s = { s with cb := { s.cb with data := memWrite s.cb.data (off - 0x10400) (leBytes 4 v) } } := by
  simp (disch := omega) only [writeCb, inR, Bool.and_eq_true, decide_eq_true_eq, if_neg, if_pos]

/-- While the callboard is busy its request and its data take no word (R60). -/
theorem writeCb_busy {off v : Nat} {s : State}
    (hoff : (0x10040 ≤ off ∧ off ≤ 0x1007F) ∨ (0x10400 ≤ off ∧ off ≤ 0x10FFF)) (h : s.cb.state = 1) :
    writeCb off v s = refuseCb 3 s := by
  obtain ⟨hlo, hhi⟩ | ⟨hlo, hhi⟩ := hoff <;>
    simp (disch := omega) only [writeCb, inR, Bool.and_eq_true, decide_eq_true_eq, if_neg, if_pos]

theorem writeCb_readOnly {off : Nat} (v : Nat) (s : State)
    (hoff : (0x10010 < off ∧ off < 0x10040) ∨ off = 0x10004 ∨ (0x1007F < off ∧ off < 0x10400)) :
    writeCb off v s = refuseReg 0 2 s := by
  simp (disch := omega) only [writeCb, inR, Bool.and_eq_true, decide_eq_true_eq, if_neg]

theorem clearWake_reserved {v : Nat} (s : State) (h : 256 ≤ v) : clearWake v s = refuseReg 0 3 s := by
  simp [clearWake, h]

theorem clearWake_inS0 {v : Nat} {s : State} (hv : v < 256) (hstate : s.pwr.state = 0) (hret : s.pwr.returning = none) :
    clearWake v s = { s with pwr := { s.pwr with pending := s.pwr.pending &&& (255 - v) } } := by
  simp [clearWake, Nat.not_le.mpr hv, hstate, hret]

theorem writeSlack_noMonitor {off : Nat} (v : Nat) (s : State) (h : 0x40000 + 8 * 27 ≤ off) :
    writeSlack off v s = refuseReg 0 5 s := by
  simp [writeSlack, show 27 ≤ (off - 0x40000) / 8 by omega]

/-- The write-one-to-clear bit of a monitor's `SLK_STATUS` (R549). -/
theorem writeSlack_clearSeen {n : Nat} {s : State} (hn : n < 27) (h : monitorLive n s = true) :
    writeSlack (0x40000 + 8 * n) 0x20000 s = updSlack n (fun m => { m with seen := false }) s := by
  simp [writeSlack, clearSeen, h, Nat.not_le.mpr hn]

/-- `SLK_MIN` of a live monitor refuses its reserved bits and takes no other effect of a write. -/
theorem writeSlack_min {n : Nat} (v : Nat) {s : State} (hn : n < 27) (h : monitorLive n s = true) :
    writeSlack (0x40000 + 8 * n + 4) v s = if 65536 ≤ v then refuseReg 0 5 s else s := by
  have hidx : (0x40000 + 8 * n + 4 - 0x40000) / 8 = n := by omega
  have hmod : ¬ (0x40000 + 8 * n + 4) % 8 = 0 := by omega
  simp only [writeSlack, hidx, if_neg hmod, if_neg (Nat.not_le.mpr hn), h, Bool.not_true, Bool.false_eq_true, if_false]

/-- What word `k` of a vector's entry stores (R551): address, its high half, data, vector control. -/
def msixWord (k v : Nat) (e : MsixEntry) : MsixEntry :=
  if k = 0 then { e with addr := e.addr / 2 ^ 32 * 2 ^ 32 + v }
  else if k = 4 then { e with addr := e.addr % 2 ^ 32 + v * 2 ^ 32 }
  else if k = 8 then { e with data := v }
  else { e with masked := v.testBit 0 }

theorem writeMsix_word {fn n k : Nat} (v : Nat) (s : State) (hk : k < 16) :
    writeMsix fn (16 * n + k) v s
      = flushPending fn (updFn fn (fun f => msixPut f (msixWord k v (msixGet f n))) s) := by
  have hidx : (16 * n + k) / 16 = n := by omega
  have hword : (16 * n + k) % 16 = k := by omega
  simp only [writeMsix, hidx, hword, msixWord]

theorem msixBase_mod_four (fn : Nat) : msixBase fn % 4 = 0 := by
  unfold msixBase
  split <;> rfl

theorem exec_registerWrite_msix {fn n k v : Nat} {s : State} (hlive : fnLive fn s = true) (hn : n < vectors fn)
    (hk : k < 16) (hk4 : k % 4 = 0) (hv : v < 2 ^ 32) :
    exec (.registerWrite fn (msixBase fn + 16 * n + k) 4 v) s = .next (settle (inBand (flushPending fn
      (updFn fn (fun f => msixPut f (msixWord k v (msixGet f n))) s)))) := by
  have hbase := msixBase_mod_four fn
  exact exec_registerWrite_of_write4 hlive (by omega) hv ((write4_msix v s hn hk).trans (writeMsix_word v s hk))

/-- Settles O55: a write is taken apart into words, and each word has the effect of the register at its offset. -/
theorem regionWritesComplete : Obligations.RegionWritesComplete := by
  intro fn s hlive ends w
  have word {off v : Nat} {u : State} (h4 : off % 4 = 0) (hv : v < 2 ^ 32) (hw : write4 fn off v s = u) : w off v u :=
    exec_registerWrite_of_write4 hlive h4 hv hw
  refine ⟨fun off size v => exec_registerWrite_misshapen hlive, fun off v hoff h8 hv => ?_, fun off v h4 hv => ?_⟩
  · rw [exec_registerWrite_twoWords hlive hoff h8, Nat.mod_eq_of_lt (show v / 2 ^ 32 < 2 ^ 32 by omega)]
  refine ⟨fun h => word h4 hv (write4_readOnly v s (regionOf_identification h) (by decide)),
    fun hfn hoff h => word h4 hv (write4_readOnly v s (regionOf_virtual_reserved hfn hoff h) (by decide)),
    fun hfn hpage h => ?_, fun hfn => ?_, fun n hn => ?_,
    fun h => word h4 hv (write4_readOnly v s (regionOf_pending h) (by decide))⟩
  · subst hfn
    exact word h4 hv (write4_readOnly v s (regionOf_physical_reserved hpage h) (by decide))
  · subst hfn
    have callboard {off v : Nat} {u : State} (h4 : off % 4 = 0) (hv : v < 2 ^ 32) (hlo : 0x10000 ≤ off) (hhi : off ≤ 0x10FFF)
        (hw : writeCb off v s = u) : w off v u := word h4 hv ((write4_callboard v s hlo hhi).trans hw)
    have slack {off v : Nat} {u : State} (h4 : off % 4 = 0) (hv : v < 2 ^ 32) (hlo : 0x40000 ≤ off) (hhi : off ≤ 0x40FFF)
        (hw : writeSlack off v s = u) : w off v u := word h4 hv ((write4_slack v s hlo hhi).trans hw)
    refine ⟨fun _ => callboard rfl hv (by decide) (by decide) (writeCb_ring v s),
      fun h => ⟨callboard rfl hv (by decide) (by decide) (writeCb_ack v s),
        callboard rfl hv (by decide) (by decide) (writeCb_control s h)⟩,
      fun h => callboard rfl hv (by decide) (by decide) (writeCb_control_reserved s h),
      fun hlo hhi h => callboard h4 hv (by omega) (by omega) (writeCb_request hlo hhi h),
      fun hlo hhi h => callboard h4 hv (by omega) hhi (writeCb_data hlo hhi h),
      fun hoff h => callboard h4 hv (by omega) (by omega) (writeCb_busy hoff h),
      fun hoff => callboard h4 hv (by omega) (by omega) (writeCb_readOnly v s hoff),
      fun h hstate hret => word rfl hv ((write4_glWake v s).trans (clearWake_inS0 h hstate hret)),
      fun h => word rfl hv ((write4_glWake v s).trans (clearWake_reserved s h)),
      fun hlo hhi h => word h4 hv (write4_ghostLight v s hlo hhi h),
      fun hlo hhi => word h4 hv (write4_readOnly v s (regionOf_physical (by decide) hlo hhi) (by decide)),
      fun hlo hhi => word h4 hv ((write4_fence v s hlo (by omega)).trans (if_pos hhi)),
      fun hlo hhi => word h4 hv ((write4_fence v s (by omega) hhi).trans (if_neg (by omega))),
      fun hlo hhi => slack h4 hv (by omega) hhi (writeSlack_noMonitor v s hlo),
      fun n hn hmon => ⟨slack (by omega) (by decide) (by omega) (by omega) (writeSlack_clearSeen hn hmon),
        slack (by omega) (by omega) (by omega) (by omega) ((writeSlack_min _ hn hmon).trans (if_neg (by omega))),
        fun h => slack (by omega) hv (by omega) (by omega) ((writeSlack_min v hn hmon).trans (if_pos h))⟩⟩
  · exact ⟨exec_registerWrite_msix (k := 0) hlive hn (by decide) rfl hv, exec_registerWrite_msix (k := 4) hlive hn (by decide) rfl hv,
      exec_registerWrite_msix (k := 8) hlive hn (by decide) rfl hv, exec_registerWrite_msix (k := 12) hlive hn (by decide) rfl hv⟩

end Sys2Proof.Machine

/-! ### The queue-zero registers: base pairs, depths and control -/
namespace Sys2Proof.Machine

/-- A change of a function depends on what the change makes of that function alone. -/
theorem updFn_congr {i : Nat} {f g : Fn → Fn} {s : State} (h : f (getFn i s) = g (getFn i s)) : updFn i f s = updFn i g s := by
  have hfns : s.link.fns.modify i f = s.link.fns.modify i g := by
    apply List.ext_getElem?
    intro j
    by_cases hj : i = j
    · subst hj
      cases hi : s.link.fns[i]? with
      | none => simp [hi]
      | some x => simpa [getFn, hi] using h
    · simp [hj]
  simp only [updFn, hfns]

@[simp] theorem getPair_breakLow (fn q i : Nat) (s : State) : getPair fn q (breakLow i s) = getPair fn q s := by
  unfold breakLow
  split <;> rfl
@[simp] theorem getPair_breakHold (fn q i : Nat) (s : State) : getPair fn q (breakHold i s) = getPair fn q s :=
  getPair_breakLow fn q i s

/-! A half of a base pair (R37). -/

/-- A half written whole: a value half is held, the complement half that fits it commits the pair, any other refuses
the commit. -/
theorem writeHalf_eq (fn : Nat) (cq comp : Bool) (v : W64) (s : State) :
    writeHalf fn cq comp v s =
      if comp = false then updFn fn (fun f => { f with hold := { value := some (cq, v), low := none } }) s
      else if (getFn fn s).hold.value = some (cq, ~~~v) then updFn fn (commitBase cq (~~~v)) s
      else refuseCommit fn cq s := by
  cases comp with
  | false => rfl
  | true =>
    cases hval : (getFn fn s).hold.value with
    | none => simp [writeHalf, hval]
    | some x =>
      obtain ⟨cq', val⟩ := x
      have hfit : (cq' = cq ∧ v = ~~~val) ↔ (cq' = cq ∧ val = ~~~v) := by
        constructor <;> rintro ⟨rfl, rfl⟩ <;> simp
      by_cases h : cq' = cq ∧ val = ~~~v
      · obtain ⟨rfl, rfl⟩ := h
        simp [writeHalf, hval]
      · simp [writeHalf, hval, hfit, h]

/-- The offset of a half of a base pair in the queue-zero registers (Table 2.5). -/
def baseOffset (cq comp : Bool) : Nat := 0x1000 + (if cq then 16 else 0) + (if comp then 8 else 0)

theorem baseOffset_bounds (cq comp : Bool) : 0x1000 ≤ baseOffset cq comp ∧ baseOffset cq comp + 4 ≤ 0x101F := by
  cases cq <;> cases comp <;> decide

theorem baseOffset_mod_eight (cq comp : Bool) : baseOffset cq comp % 8 = 0 := by cases cq <;> cases comp <;> rfl

/-- The two words of a half name its pair. -/
theorem baseOffset_queue (cq comp : Bool) :
    decide (0x1010 ≤ baseOffset cq comp) = cq ∧ decide (0x1010 ≤ baseOffset cq comp + 4) = cq := by
  cases cq <;> cases comp <;> decide

/-- The two words of a half name that half. -/
theorem baseOffset_half (cq comp : Bool) :
    decide (baseOffset cq comp % 16 ≥ 8) = comp ∧ decide ((baseOffset cq comp + 4) % 16 ≥ 8) = comp := by
  cases cq <;> cases comp <;> decide

section BasePair
variable {fn off size v : Nat} {cq comp : Bool} {s : State}

theorem writeBase_inService (h : getPair fn 0 s ≠ none) : writeBase fn off size v s = refuseQz fn s := by
  simp [writeBase, Option.isSome_iff_ne_none, h]

theorem writeBase_whole (h : getPair fn 0 s = none) :
    writeBase fn (baseOffset cq comp) 8 v s = writeHalf fn cq comp (BitVec.ofNat 64 v) (breakLow fn s) := by
  obtain ⟨hcq, -⟩ := baseOffset_queue cq comp
  obtain ⟨hcomp, -⟩ := baseOffset_half cq comp
  simp only [writeBase, h, hcq, hcomp, Option.isSome_none, Bool.false_eq_true, if_false, if_true]

/-- A low word is held; a value held stays for the complement half of its own pair alone. -/
theorem writeBase_low (h : getPair fn 0 s = none) :
    let t := breakLow fn s
    writeBase fn (baseOffset cq comp) 4 v s = updFn fn (fun f => { f with hold :=
      { value := if comp && (getFn fn t).hold.value.any (fun x => x.1 == cq) then (getFn fn t).hold.value else none
        low := some (cq, comp, BitVec.ofNat 32 v) } }) t := by
  obtain ⟨hcq, -⟩ := baseOffset_queue cq comp
  obtain ⟨hcomp, -⟩ := baseOffset_half cq comp
  simp only [writeBase, h, hcq, hcomp, baseOffset_mod_eight, Option.isSome_none, Bool.false_eq_true, if_false, if_true,
    show ¬ 4 = 8 by decide]
  exact updFn_congr rfl

/-- A high word, by the low word that is held before it. -/
theorem writeBase_high (h : getPair fn 0 s = none) (hv : v < 2 ^ 32) :
    writeBase fn (baseOffset cq comp + 4) 4 v s = ((getFn fn s).hold.low.elim (refuseQz fn s) fun x =>
      if x.1 = cq ∧ x.2.1 = comp then writeHalf fn cq comp (BitVec.ofNat 64 (x.2.2.toNat + v * 2 ^ 32))
          (updFn fn (fun f => { f with hold := { value := (getFn fn s).hold.value, low := none } }) s)
      else refuseQz fn (refuseQz fn s)) := by
  obtain ⟨-, hcq⟩ := baseOffset_queue cq comp
  obtain ⟨-, hcomp⟩ := baseOffset_half cq comp
  have hword : ¬ (baseOffset cq comp + 4) % 8 = 0 := by have := baseOffset_mod_eight cq comp; omega
  have hheld : updFn fn (fun f => { f with hold := { f.hold with low := none } }) s
      = updFn fn (fun f => { f with hold := { value := (getFn fn s).hold.value, low := none } }) s := updFn_congr rfl
  simp only [writeBase, h, hcq, hcomp, if_neg hword, Option.isSome_none, Bool.false_eq_true, if_false,
    show ¬ 4 = 8 by decide, Nat.mod_eq_of_lt hv]
  cases hlow : (getFn fn s).hold.low with
  | none => rfl
  | some x => simp [hheld]

end BasePair

/-! `QZ_DEPTH` and `QZ_CTRL` (R38 to R40). -/

theorem writeDepth_taken {fn v : Nat} {s : State} (hpair : getPair fn 0 s = none) (hv : v < 2 ^ 32) (hsq : v % 65536 ≠ 0)
    (hcq : v / 65536 ≠ 0) : writeDepth fn v s
      = updFn fn (fun f => { f with sqDepthM1 := v % 65536, cqDepthM1 := v / 65536 }) (breakHold fn s) := by
  have hhigh : v / 65536 % 65536 = v / 65536 := by omega
  simp [writeDepth, hpair, hhigh, hsq, hcq]

theorem writeDepth_refused {fn v : Nat} {s : State} (hv : v < 2 ^ 32)
    (h : getPair fn 0 s ≠ none ∨ v % 65536 = 0 ∨ v / 65536 = 0) : writeDepth fn v s = refuseReg fn 1 (breakHold fn s) := by
  have hhigh : v / 65536 % 65536 = v / 65536 := by omega
  simp only [writeDepth, getPair_breakHold, hhigh, Option.isSome_iff_ne_none]
  exact if_pos h

section Control
variable {fn v : Nat} {s : State}

theorem writeCtrl_refused (h : v / 4 % 16384 ≠ 0 ∨ v / 2 ^ 27 % 32 ≠ 0 ∨ vectors fn ≤ v / 65536 % 2048) :
    writeCtrl fn v s = refuseReg fn 1 (breakHold fn s) := if_pos h

variable (hlow : v / 4 % 16384 = 0) (hhigh : v / 2 ^ 27 % 32 = 0) (hvec : v / 65536 % 2048 < vectors fn)
include hlow hhigh hvec

/-- A write of `QZ_CTRL` that is in range, by its `ENABLE` and by whether pair 0 is in service. -/
theorem writeCtrl_inRange :
    let t := breakHold fn s
    let vector := v / 65536 % 2048
    let intEn := v.testBit 1
    writeCtrl fn v s =
      if v.testBit 0 = false then updFn fn (fun f => { f with enable := false, vector, intEn }) (deletePair fn 0 t)
      else if (getPair fn 0 t).isSome then
        updFn fn (fun f => { f with vector, intEn }) (updPair fn 0 (fun p => { p with vector, intEn }) t)
      else if enableOk fn t then enableZero fn vector intEn t else refuseReg fn 1 t := by
  have hok : ¬ (v / 4 % 16384 ≠ 0 ∨ v / 2 ^ 27 % 32 ≠ 0 ∨ vectors fn ≤ v / 65536 % 2048) := by omega
  refine (if_neg hok).trans ?_
  cases v.testBit 0 <;> rfl

end Control

/-! ### The host's writes of the queue-zero registers -/

section QueueZeroWrites
variable {fn off size v : Nat} {s u : State} (hlive : fnLive fn s = true)
include hlive

theorem exec_qzBaseWrite_of_writeBase (hq : queuesLive s = true) (hlo : 0x1000 ≤ off) (hhi : off ≤ 0x101F)
    (hshape : (size = 4 ∨ size = 8) ∧ off % size = 0) (hw : writeBase fn off size v s = u) :
    exec (.qzBaseWrite fn off size v) s = .next (settle (inBand u)) := by
  simp [execQzBaseWrite, hostWrite_of_fnLive _ hlive, inR, hlo, hhi, hq, hshape, hw]

theorem exec_qzBaseWrite_misshapen (hq : queuesLive s = true) (hlo : 0x1000 ≤ off) (hhi : off ≤ 0x101F)
    (hshape : (size ≠ 4 ∧ size ≠ 8) ∨ off % size ≠ 0) :
    exec (.qzBaseWrite fn off size v) s = .next (settle (inBand (refuseShape fn s))) := by
  have hbad : ¬ ((size = 4 ∨ size = 8) ∧ off % size = 0) := fun ⟨hsize, halign⟩ =>
    hshape.elim (fun h => hsize.elim h.1 h.2) fun h => h halign
  simp [execQzBaseWrite, hostWrite_of_fnLive _ hlive, inR, hlo, hhi, hq, hbad]

theorem exec_registerWrite_qzMisshapen (hq : queuesLive s = true) (hlo : 0x1000 ≤ off) (hhi : off < 0x2000)
    (hshape : (size ≠ 4 ∧ size ≠ 8) ∨ off % size ≠ 0) :
    exec (.registerWrite fn off size v) s = .next (settle (inBand (refuseShape fn s))) := by
  simp only [exec_registerWrite, execRegisterWrite, hostWrite_of_fnLive _ hlive, if_pos hshape,
    if_pos (regionOf_queueZero hlo hhi), if_pos hq]

/-- A word at a base pair's offset. -/
theorem exec_baseWord (hq : queuesLive s = true) (hlo : 0x1000 ≤ off) (hhi : off ≤ 0x101F) (h4 : off % 4 = 0) (hv : v < 2 ^ 32)
    (hw : writeBase fn off 4 v s = u) :
    exec (.qzBaseWrite fn off 4 v) s = .next (settle (inBand u))
      ∧ exec (.registerWrite fn off 4 v) s = .next (settle (inBand u)) := by
  have hword : write4 fn off v s = writeBase fn off 4 v s := by
    simp [write4, regionOf_queueZero hlo (show off < 0x2000 by omega), hq, show off < 0x1020 by omega]
  exact ⟨exec_qzBaseWrite_of_writeBase hlive hq hlo hhi ⟨.inl rfl, h4⟩ hw,
    exec_registerWrite_of_write4 hlive h4 hv (hword.trans hw)⟩

/-- The whole of a half, which `REGISTER_WRITE` does not take apart (R37). -/
theorem exec_baseHalf (hq : queuesLive s = true) (hlo : 0x1000 ≤ off) (hhi : off ≤ 0x101F) (h8 : off % 8 = 0) (hv : v < 2 ^ 64)
    (hw : writeBase fn off 8 v s = u) :
    exec (.qzBaseWrite fn off 8 v) s = .next (settle (inBand u))
      ∧ exec (.registerWrite fn off 8 v) s = .next (settle (inBand u)) := by
  have hmod : v % 18446744073709551616 = v := Nat.mod_eq_of_lt hv
  refine ⟨exec_qzBaseWrite_of_writeBase hlive hq hlo hhi ⟨.inr rfl, h8⟩ hw, ?_⟩
  simp [execRegisterWrite, hostWrite_of_fnLive _ hlive, h8, inR, hlo, hhi, hq, hmod, hw]

theorem exec_registerWrite_depth (hq : queuesLive s = true) (hv : v < 2 ^ 32) (hw : writeDepth fn v s = u) :
    exec (.registerWrite fn 0x1020 4 v) s = .next (settle (inBand u)) := by
  have hword : write4 fn 0x1020 v s = writeDepth fn v s := by
    simp [write4, regionOf_queueZero (off := 0x1020) (by decide) (by decide), hq]
  exact exec_registerWrite_of_write4 hlive rfl hv (hword.trans hw)

theorem hostCtrl_of_writeCtrl {v : W32} (hq : queuesLive s = true) (hw : writeCtrl fn v.toNat s = u) :
    hostCtrl fn v s = .next (settle (inBand u)) := by
  simp [hostCtrl, hostWrite_of_fnLive _ hlive, hq, hw]

theorem exec_registerWrite_ctrl {v : W32} (hq : queuesLive s = true) (hw : writeCtrl fn v.toNat s = u) :
    exec (.registerWrite fn 0x1024 4 v.toNat) s = .next (settle (inBand u)) := by
  have hword : write4 fn 0x1024 v.toNat s = writeCtrl fn v.toNat s := by
    simp [write4, regionOf_queueZero (off := 0x1024) (by decide) (by decide), hq]
  exact exec_registerWrite_of_write4 hlive rfl v.isLt (hword.trans hw)

/-- While the queues are not served, a queue-zero write is an access and nothing else (R494). -/
theorem exec_qzWrites_notServed (hq : queuesLive s = false) :
    (∀ off size v, exec (.qzBaseWrite fn off size v) s = .next (settle (inBand s)))
      ∧ ∀ v, hostCtrl fn v s = .next (settle (inBand s)) := by
  refine ⟨fun off size v => ?_, fun v => ?_⟩
  · simp [execQzBaseWrite, hostWrite_of_fnLive _ hlive, hq]
  · simp [hostCtrl, hostWrite_of_fnLive _ hlive, hq]

theorem exec_qzDbRefusedRead_of_fnLive :
    exec (.qzDbRefusedRead fn) s = .next (if !queuesLive s then emit (.read 0xFFFFFFFF) s
      else updFn fn (fun f => { f with dbRefused := 0 }) (emit (.read (getFn fn s).dbRefused) s)) :=
  (exec_qzDbRefusedRead fn s).trans (hostRead_of_fnLive _ hlive)

end QueueZeroWrites

/-- Settles O54: each access reaches `writeBase`, `writeDepth` or `writeCtrl`, whose cases are the clauses. -/
theorem registerWritesComplete : Obligations.RegisterWritesComplete := by
  intro fn s hlive ends
  refine ⟨fun hq => ?_, fun hq => ?_⟩
  · obtain ⟨hbase, hctrl⟩ := exec_qzWrites_notServed hlive hq
    refine ⟨fun off size v _ _ => hbase off size v, fun v => ⟨hctrl v, hctrl v, hctrl v⟩, ?_⟩
    rw [exec_qzDbRefusedRead_of_fnLive hlive, hq]
    rfl
  intro keep none' half both low
  have word {off v : Nat} {u : State} (hlo : 0x1000 ≤ off) (hhi : off ≤ 0x101F) (h4 : off % 4 = 0) (hv : v < 2 ^ 32)
      (hw : writeBase fn off 4 v s = u) : both off 4 v u := exec_baseWord hlive hq hlo hhi h4 hv hw
  have half_eq (cq comp : Bool) (v : W64) (t : State) : writeHalf fn cq comp v t = half cq comp v t := writeHalf_eq fn cq comp v t
  refine ⟨fun cq comp v => ?_, fun off size v hlo hhi h => ⟨exec_qzBaseWrite_misshapen hlive hq hlo hhi h,
      exec_registerWrite_qzMisshapen hlive hq hlo (by omega) h⟩, fun v hv => ?_, fun v => ?_, ?_⟩
  · intro off
    obtain ⟨hlo, hhi⟩ := baseOffset_bounds cq comp
    have h8 := baseOffset_mod_eight cq comp
    have lowWord {u : State} (hv : v < 2 ^ 32) (hw : writeBase fn off 4 v s = u) : both off 4 v u :=
      word hlo (show baseOffset cq comp ≤ _ by omega) (show baseOffset cq comp % 4 = 0 by omega) hv hw
    have highWord {u : State} (hv : v < 2 ^ 32) (hw : writeBase fn (off + 4) 4 v s = u) : both (off + 4) 4 v u :=
      word (show 0x1000 ≤ baseOffset cq comp + 4 by omega) hhi (show (baseOffset cq comp + 4) % 4 = 0 by omega) hv hw
    have whole {u : State} (hv : v < 2 ^ 64) (hw : writeBase fn off 8 v s = u) : both off 8 v u :=
      exec_baseHalf hlive hq hlo (show baseOffset cq comp ≤ _ by omega) h8 hv hw
    refine ⟨fun hv hpair => whole hv ((writeBase_whole hpair).trans (half_eq ..)),
      fun hv hpair => ⟨lowWord hv (writeBase_low hpair), fun w hlow => ?_, fun cq' comp' w hlow hne => ?_, fun hlow => ?_⟩,
      fun hpair => ⟨fun hv => whole hv (writeBase_inService hpair),
        fun hv => ⟨lowWord hv (writeBase_inService hpair), highWord hv (writeBase_inService hpair)⟩⟩⟩
    · refine highWord hv ((writeBase_high hpair hv).trans ?_)
      rw [hlow]
      exact (if_pos ⟨rfl, rfl⟩).trans (half_eq ..)
    · refine highWord hv ((writeBase_high hpair hv).trans ?_)
      rw [hlow]
      exact if_neg fun h => hne (Prod.ext h.1 h.2)
    · refine highWord hv ((writeBase_high hpair hv).trans ?_)
      rw [hlow]
      rfl
  · exact ⟨fun hpair hsq hcq => exec_registerWrite_depth hlive hq hv (writeDepth_taken hpair hv hsq hcq),
      fun h => exec_registerWrite_depth hlive hq hv (writeDepth_refused hv h)⟩
  · intro t vector intEn all
    have ctrl {u : State} (hw : writeCtrl fn v.toNat s = u) : all u :=
      have hhost := hostCtrl_of_writeCtrl hlive hq hw
      ⟨hhost, hhost, hhost, exec_registerWrite_ctrl hlive hq hw⟩
    refine ⟨fun h => ctrl (writeCtrl_refused h), fun hlow hhigh hvec => ?_⟩
    have inRange := writeCtrl_inRange (s := s) hlow hhigh hvec
    refine ⟨fun hoff => ctrl (inRange.trans (if_pos hoff)), fun hon => ?_⟩
    replace inRange := inRange.trans (if_neg (by simp [hon]))
    refine ⟨fun p hpair => ctrl (inRange.trans (if_pos (Option.isSome_iff_exists.mpr ⟨p, hpair⟩))), fun hpair => ?_⟩
    replace inRange := inRange.trans (if_neg fun h => Option.isSome_iff_ne_none.mp h hpair)
    intro f good met
    exact ⟨fun hmet => ctrl (inRange.trans (if_neg (Bool.eq_false_iff.mp hmet))),
      fun hmet => ctrl (inRange.trans (if_pos hmet))⟩
  · rw [exec_qzDbRefusedRead_of_fnLive hlive, hq]
    rfl

end Sys2Proof.Machine

/-! ### Events of filtered pins -/
namespace Sys2Proof.Machine

/-- The event of a pin behind a glitch filter of `lo` to `hi` ns, by the length of its pulse (R20, R575). -/
def PinEvent (lo hi : Nat) (event : Nat → Instr) : Prop :=
  ∃ act : State → State, ∀ ns s, exec (event ns) s = pinPulse lo hi ns (fun s => .next (act s)) s

section Pulses
variable {lo hi ns : Nat} {s : State}

theorem pinPulse_short {f : State → Result} (h : ns < lo) : pinPulse lo hi ns f s = .next s := if_pos h

theorem pinPulse_full {f : State → Result} (hlo : lo ≤ ns) (h : hi ≤ ns) : pinPulse lo hi ns f s = f s := by
  simp [pinPulse, Nat.not_lt.mpr hlo, h]

theorem pinPulse_exact {f : State → Result} (h : lo ≤ hi) : pinPulse lo hi hi f s = f s := pinPulse_full h (Nat.le_refl hi)

theorem pinPulse_between {f : State → Result} (hlo : lo ≤ ns) (h : ns < hi) :
    pinPulse lo hi ns f s = if (draw s).1 % 2 = 0 then .next (draw s).2 else f (draw s).2 := by
  simp only [pinPulse, if_neg (Nat.not_lt.mpr hlo), if_neg (Nat.not_le.mpr h)]

variable {event : Nat → Instr} (he : PinEvent lo hi event)
include he

theorem PinEvent.short (h : ns < lo) : exec (event ns) s = .next s := by
  obtain ⟨act, hact⟩ := he
  rw [hact, pinPulse_short h]

theorem PinEvent.full (hlo : lo ≤ hi) (h : hi ≤ ns) : exec (event ns) s = exec (event hi) s := by
  obtain ⟨act, hact⟩ := he
  rw [hact, hact, pinPulse_full (Nat.le_trans hlo h) h, pinPulse_exact hlo]

/-- Between the two widths a free value says whether the pulse is ignored or taken as one of full width. -/
theorem PinEvent.between (hlo : lo ≤ ns) (h : ns < hi) :
    exec (event ns) s = if (draw s).1 % 2 = 0 then .next (draw s).2 else exec (event hi) (draw s).2 := by
  obtain ⟨act, hact⟩ := he
  rw [hact, hact, pinPulse_between hlo h, pinPulse_exact (Nat.le_trans hlo (Nat.le_of_lt h))]

theorem PinEvent.answers (ns : Nat) (s : State) : ∃ t, exec (event ns) s = .next t := by
  obtain ⟨act, hact⟩ := he
  rw [hact, pinPulse]
  split
  · exact ⟨_, rfl⟩
  · split
    · exact ⟨_, rfl⟩
    · dsimp only
      split <;> exact ⟨_, rfl⟩

end Pulses

theorem encEdge_pin (n : Nat) (a b : Bool) : PinEvent 10 20 (.encEdge n a b ·) := ⟨_, fun _ _ => exec_encEdge ..⟩
theorem encIndex_pin (n : Nat) : PinEvent 10 20 (.encIndex n ·) := ⟨_, fun _ _ => exec_encIndex ..⟩
theorem spiDrdyEdge_pin (ctrl cs : Nat) : PinEvent 10 20 (.spiDrdyEdge ctrl cs ·) := ⟨_, fun _ _ => exec_spiDrdyEdge ..⟩
theorem mainPgRise_pin : PinEvent 10000 20000 (.mainPgRise ·) := ⟨_, fun _ _ => exec_mainPgRise ..⟩
theorem mainPgFall_pin : PinEvent 10000 20000 (.mainPgFall ·) := ⟨_, fun _ _ => exec_mainPgFall ..⟩
theorem resetNAssert_pin : PinEvent 1000 2000 (.resetNAssert ·) := ⟨_, fun _ _ => exec_resetNAssert ..⟩
theorem resetNRelease_pin (straps : Straps) : PinEvent 1000 2000 (.resetNRelease straps ·) :=
  ⟨_, fun _ _ => exec_resetNRelease ..⟩
theorem perstNAssert_pin : PinEvent 1000 2000 (.perstNAssert ·) := ⟨_, fun _ _ => exec_perstNAssert ..⟩
theorem perstNRelease_pin (straps : Straps) : PinEvent 1000 2000 (.perstNRelease straps ·) :=
  ⟨_, fun _ _ => exec_perstNRelease ..⟩
theorem wakeNEdge_pin : PinEvent 1000 2000 (.wakeNEdge ·) := ⟨_, fun _ _ => exec_wakeNEdge ..⟩
theorem gpioWakeEdge_pin (n : Nat) (rising : Bool) : PinEvent 1000 2000 (.gpioWakeEdge n rising ·) :=
  ⟨_, fun _ _ => exec_gpioWakeEdge ..⟩

/-- Settles O2: a pin's pulse is ignored or taken, and every other meaning is written as a next state. -/
theorem everyCommandAnswersANextState : Obligations.EveryCommandAnswersANextState := by
  intro c s
  cases c with
  | encEdge n a b ns => exact (encEdge_pin n a b).answers ns s
  | encIndex n ns => exact (encIndex_pin n).answers ns s
  | spiDrdyEdge ctrl cs ns => exact (spiDrdyEdge_pin ctrl cs).answers ns s
  | mainPgRise ns => exact mainPgRise_pin.answers ns s
  | mainPgFall ns => exact mainPgFall_pin.answers ns s
  | resetNAssert ns => exact resetNAssert_pin.answers ns s
  | resetNRelease straps ns => exact (resetNRelease_pin straps).answers ns s
  | perstNAssert ns => exact perstNAssert_pin.answers ns s
  | perstNRelease straps ns => exact (perstNRelease_pin straps).answers ns s
  | wakeNEdge ns => exact wakeNEdge_pin.answers ns s
  | gpioWakeEdge n rising ns => exact (gpioWakeEdge_pin n rising).answers ns s
  | _ => exact ⟨_, rfl⟩

end Sys2Proof.Machine

/-! ### Sleep: entries, wakes, returns and the link -/
namespace Sys2Proof.Machine

/-- The domains with pads are those after the 90 that an entry gates first. -/
theorem ninety_le_of_padDom {d : Nat} (h : padDoms.contains d = true) : 90 ≤ d := by
  simp [padDoms] at h
  omega

section Entry
variable {e : Sleep} {s : State} (hs : s.pwr.sleep = some e) (h0 : s.pwr.state = 0)
include hs h0

/-! ### An entry goes on (Table 14.6) -/

theorem exec_sleepEntryGated_of_gated (hstep : e.step < 4) (hrun : s.pwr.doms.any (·.run.isSome) = false) :
    exec .sleepEntryGated s = .next (
      if e.target = 1 then settle (replayLatch (reachState 1 3 (entryDone e s)))
      else if e.target = 4 then settle (enterS4 (entryDone e s))
      else
        let s1 := entryDone e (gatePorts s)
        settle { s1 with pwr := { s1.pwr with sleep := some { e with step := 4, req := none, at' := s1.time.mono } } }) := by
  simp only [exec_sleepEntryGated, execSleepEntryGated, hs, h0, hrun, decide_eq_false (Nat.not_le.mpr hstep), bne_self_eq_false,
    Bool.or_false, Bool.false_eq_true, if_false]

theorem exec_entryLinkTimeout_of_late (hstep : e.step = 4) (h : e.at' + e.linkWaitMs * msT ≤ s.time.mono) :
    exec .entryLinkTimeout s = .next (settle (abortLate (refFw 5) s)) := by
  simp only [exec_entryLinkTimeout, execEntryLinkTimeout, hs, if_pos (And.intro h0 (And.intro hstep h))]

/-- The state in which an entry, its link in L2, has come to a step of Table 14.6. -/
def entryInL2 (e : Sleep) (step : Nat) (s : State) : State :=
  let w := draw (linkToL2 s)
  { w.2 with pwr := { w.2.pwr with sleep := some { e with step } } }

/-- The free value of step 7 says whether self-refresh (1) or, into S3, the regulator (2) aborts the entry. -/
theorem exec_pmeTurnOff_of_linkWait (hstep : e.step = 4) {x : Nat} (hx : (draw (linkToL2 s)).1 % 3 = x) :
    let s1 := entryInL2 e (if x = 0 then 7 else 6) s
    exec .pmeTurnOff s = .next (settle (
      if x = 1 then abortLate (refFw 6) s1
      else if x = 2 && e.target == 3 then abortLate (refFw 7) s1
      else
        let s2 := reachState e.target 7 { s1 with mem := { s1.mem with scrubPaused := true } }
        replayLatch (if e.target = 3 then enterS3 s2 else s2))) := by
  subst hx
  simp only [exec_pmeTurnOff, execPmeTurnOff, hs, h0, hstep, ne_eq, not_true_eq_false, or_self, if_false, entryInL2]

theorem exec_domainGateTimeout_switched {d : Nat} (hstep : e.step < 4) (hlate : e.at' + msT ≤ s.time.mono) (hd : d < 90)
    (hwake : (getDom d s).wakeUp = true) :
    exec (.domainGateTimeout d) s
      = .next (settle (abortEntry 0x8B02 (refDom d) { s with pwr := { s.pwr with sleep := some { e with step := 1 } } })) := by
  simp [execDomainGateTimeout, hs, h0, hstep, hlate, hwake, Nat.not_le.mpr hd, stPwrAborted]

theorem exec_domainGateTimeout_port {d : Nat} (hstep : e.step < 4) (hlate : e.at' + msT ≤ s.time.mono)
    (hd : padDoms.contains d = true) (hlo : 2 ≤ e.target) (hhi : e.target ≠ 4) (hon : domOn d s = true) :
    exec (.domainGateTimeout d) s
      = .next (settle (abortEntry 0x8B02 (refDom d) { s with pwr := { s.pwr with sleep := some { e with step := 2 } } })) := by
  simp [execDomainGateTimeout, hs, h0, hstep, hlate, List.contains_iff_mem.mp hd, ninety_le_of_padDom hd, hlo, hhi, hon,
    stPwrAborted]

end Entry

section Wakes
variable {s : State}

/-! ### Wakes (R485, R486) -/

theorem exec_wakeNEdge_of_undriven (hlive : wakeLive s = true) (h : s.pwr.wakeDrive = none) :
    exec (.wakeNEdge 2000) s = .next (wake 1 false s) := by
  simp [execWakeNEdge, pinPulse_exact, hlive, drivesWake, h]

theorem exec_wakeNEdge_of_driven {t : Nat} (h : s.pwr.wakeDrive = some t) : exec (.wakeNEdge 2000) s = .next s := by
  simp [execWakeNEdge, pinPulse_exact, drivesWake, h]

theorem exec_gpioWakeEdge_of_live {n : Nat} {rising : Bool} (hlive : wakeLive s = true) (hn : n < 4) :
    exec (.gpioWakeEdge n rising 2000) s
      = .next (if s.pwr.gpioEdge.testBit n = rising then wake (4 + n) false s else s) := by
  simp [execGpioWakeEdge, pinPulse_exact, hlive, hn]

theorem exec_sbWakeTransaction_of_live (read : Bool) (hlive : wakeLive s = true) :
    exec (.sbWakeTransaction read) s = .next (wake 0 false (if read then emit (.sideband 0xFF) s else s)) := by
  have hv : s.boot.vaux = true := by simp [wakeLive] at hlive; exact hlive.1.1
  have hacked : wakeLive (emit (.sideband 0xFF) s) = true := hlive
  cases read <;> simp [execSbWakeTransaction, hv, hlive, hacked]

variable {src : Nat}

theorem wake_of_returning (h4 : s.pwr.state ≠ 4) {x : Nat × Nat × Nat} (hret : s.pwr.returning = some x)
    (harm : s.pwr.armed.testBit src = true) :
    wake src false s = { s with pwr := { s.pwr with wakes := s.pwr.wakes.modify src fun n => sat32 n 1 } } := by
  simp [wake, h4, hret, harm, countWake]

theorem wake_of_entering (hret : s.pwr.returning = none) (h0 : s.pwr.state = 0) (hs : s.pwr.sleep ≠ none)
    (harm : s.pwr.armed.testBit src = true) :
    wake src false s = { s with pwr := { s.pwr with
      pending := s.pwr.pending ||| 2 ^ src, latch := s.pwr.latch ||| 2 ^ src } } := by
  simp [wake, h0, hret, harm, hs]

theorem wake_of_asleep (h4 : s.pwr.state ≠ 4) (hret : s.pwr.returning = none) (h0 : s.pwr.state ≠ 0)
    (harm : s.pwr.armed.testBit src = true) (htail : entryTail s = false) :
    wake src false s = startWake src 0 { s with pwr := { s.pwr with pending := s.pwr.pending ||| 2 ^ src } } := by
  have htail' : entryTail { s with pwr := { s.pwr with pending := s.pwr.pending ||| 2 ^ src } } = false := htail
  have hret' : s.pwr.returning.isSome = false := by simp [hret]
  simp [wake, h4, hret', h0, harm, htail']

theorem wake_of_disarmed (h4 : s.pwr.state ≠ 4) (hret : s.pwr.returning = none) (h : s.pwr.state ≠ 0 ∨ s.pwr.sleep ≠ none)
    (harm : s.pwr.armed.testBit src = false) : wake src false s = s := by
  obtain h | h := h <;> simp [wake, h4, hret, h, harm]

end Wakes

section Return
variable {s : State} {left src flags : Nat}

/-! ### The return (Table 14.8) and the link -/

theorem exec_returnComplete_of_due (hret : s.pwr.returning = some (left, src, flags)) (hpg : left ≠ 3 ∨ s.boot.mainPg = true)
    (hat : s.pwr.retAt ≤ s.time.mono) :
    exec .returnComplete s
      = if (restoreM s).1 then .next (settle (endReturn left src flags (actLatched (restoreM s).2)))
        else .next (failStart 0x0C s) := by
  have hwaits : ¬((left = 3 && !s.boot.mainPg) || decide (s.time.mono < s.pwr.retAt)) = true := by
    obtain h | h := hpg <;> simp [h, hat]
  simp only [exec_returnComplete, execReturnComplete, hret, if_neg hwaits]
  cases (restoreM s).1 <;> simp

theorem exec_brownOut_of_lowPower (h3 : s.pwr.state = 3) (h : s.pwr.regLow = true) :
    exec .brownOut s = .next { s with
      pwr := { s.pwr with regLow := false, brownouts := sat32 s.pwr.brownouts 1, brownNow := s.pwr.brownNow + 1 }
      sec := { s.sec with latched := s.sec.latched ++ [(4, 0)] } } := by
  simp [execBrownOut, h3, h]

theorem exec_pcieLinkTrained_of_live {gen width : Nat} (hrun : s.boot.phase = .running) (hperst : s.boot.perstLow = false)
    (hawake : s.pwr.returning ≠ none ∨ s.pwr.state ≤ 1) (hlo : 1 ≤ gen) (hhi : gen ≤ 5)
    (hw : [1, 2, 4, 8].contains width = true) :
    exec (.pcieLinkTrained gen width) s
      = .next (releaseWakeN { s with link := { s.link with up := true, gen, width } }) := by
  have able : (s.pwr.returning.isSome || decide (s.pwr.state ≤ 1)) = true := by
    simpa [Option.isSome_iff_ne_none] using hawake
  simp only [exec_pcieLinkTrained, execPcieLinkTrained, hrun, hperst, able, hw, inR, hlo, hhi]
  rfl

theorem exec_wakeNDriveExpiry_of_late {t : Nat} (h : s.pwr.wakeDrive = some t) (hlate : t + secT ≤ s.time.mono) :
    exec .wakeNDriveExpiry s = .next (emit (.pin "WAKE_N" true) { s with pwr := { s.pwr with wakeDrive := none } }) := by
  simp [execWakeNDriveExpiry, past, h, hlate, releaseWakeN, drivesWake]

end Return

/-- Settles O45, by the step of the entry, the state of the wake latch and the event. -/
theorem sleepEventsComplete : Obligations.SleepEventsComplete := by
  refine ⟨fun e s hs h0 => ⟨fun hstep hrun => ?_, fun hstep => exec_entryLinkTimeout_of_late hs h0 hstep, fun hstep => ?_,
    fun d hstep hlate => ⟨?_, ?_⟩⟩, fun s hlive => ⟨fun ns hns => ?_, fun ns h => ?_, fun ns hlo h => ?_, ?_⟩,
    fun src s h4 => ⟨fun x => wake_of_returning h4, wake_of_entering, wake_of_asleep h4, wake_of_disarmed h4⟩,
    fun left src flags s hret hpg hat => ?_, fun s => ⟨exec_brownOut_of_lowPower, ?_, ?_⟩⟩
  · have gated := exec_sleepEntryGated_of_gated hs h0 hstep hrun
    exact ⟨fun h1 => gated.trans (by simp [h1]), fun h4 => gated.trans (by simp [h4]),
      fun h1 h4 => gated.trans (by rw [if_neg h1, if_neg h4])⟩
  · have step7 {x : Nat} := exec_pmeTurnOff_of_linkWait hs h0 hstep (x := x)
    refine ⟨fun h1 => (step7 h1).trans ?_, fun h1 hgo => (step7 rfl).trans ?_, fun h2 h3 => (step7 h2).trans ?_⟩
    · simp [entryInL2]
    · have hreached : ¬((draw (linkToL2 s)).1 % 3 = 2 && e.target == 3) = true := by
        obtain h | h := hgo
        · rw [h]
          simp
        · simp [h]
      rw [if_neg h1, if_neg hreached]
      rfl
    · simp [h3, entryInL2]
  · exact exec_domainGateTimeout_switched hs h0 hstep hlate
  · exact exec_domainGateTimeout_port hs h0 hstep hlate
  · rw [wakeNEdge_pin.full (by decide) hns]
    refine ⟨exec_wakeNEdge_of_undriven hlive, fun t => exec_wakeNEdge_of_driven, fun n rising hn => ?_⟩
    rw [(gpioWakeEdge_pin n rising).full (by decide) hns]
    exact exec_gpioWakeEdge_of_live hlive hn
  · exact ⟨wakeNEdge_pin.short h, fun n rising => (gpioWakeEdge_pin n rising).short h⟩
  · exact ⟨wakeNEdge_pin.between hlo h, fun n rising => (gpioWakeEdge_pin n rising).between hlo h⟩
  · exact ⟨exec_sbWakeTransaction_of_live false hlive, exec_sbWakeTransaction_of_live true hlive⟩
  · have ends := exec_returnComplete_of_due hret hpg hat
    exact ⟨fun hok => ends.trans (by simp [hok]), fun hbad => ends.trans (by simp [hbad])⟩
  · exact fun gen width hrun hperst hawake hlo hhi hw => exec_pcieLinkTrained_of_live hrun hperst hawake hlo hhi hw
  · exact fun t => exec_wakeNDriveExpiry_of_late

end Sys2Proof.Machine

/-! ### Supplies, reset pins and reference clocks -/
namespace Sys2Proof.Machine

section Supplies
variable {s : State} {straps : Straps}

/-! ### Starts and resets of a device that is or is not held -/

theorem tryStart_of_held_free (hheld : s.boot.phase = .held) (h : freeToStart s = true) : tryStart s = startCold s := by
  simp [tryStart, hheld, h]

theorem tryStart_of_held (hheld : s.boot.phase = .held) (h : freeToStart s = false) : tryStart s = s := by
  simp [tryStart, hheld, h]

/-! ### Supplies -/

theorem exec_vauxRise_of_off (h : s.boot.vaux = false) :
    exec (.vauxRise straps) s = .next (raiseMain (emit (.vid 200) { powerReset s with boot := { (powerReset s).boot with
      vaux := true, mainPg := false, phase := .waitRails, straps } })) := by
  simp [execVauxRise, h]

theorem exec_powerLoss_vaux (h : s.boot.vaux = true) :
    exec (.powerLoss true) s = .next { powerReset s with boot := { (powerReset s).boot with
      vaux := false, mainPg := false, mainEn := false, phase := .off } } := by
  simp [execPowerLoss, h]

theorem exec_powerLoss_asleep (h : s.boot.vaux = true) (hst : s.pwr.state = 1 ∨ s.pwr.state = 2 ∨ s.pwr.state = 3) :
    exec (.powerLoss false) s = .next (powerLost s) := by
  simp [execPowerLoss, h, hst]

theorem exec_mainPgRise_of_low (hv : s.boot.vaux = true) (h : s.boot.mainPg = false) :
    let s1 := if s.pwr.returning.any fun x => x.1 == 3 then
      { s with pwr := { s.pwr with retAt := max s.pwr.retAt (s.time.mono + 6970 * usT) } } else s
    exec (.mainPgRise 20000) s = .next (tryStart { s1 with boot := { s1.boot with mainPg := true } }) := by
  simp [execMainPgRise, pinPulse_exact, hv, h]

theorem exec_mainPgRise_of_high (h : s.boot.mainPg = true) : exec (.mainPgRise 20000) s = .next s := by
  simp [execMainPgRise, pinPulse_exact, h]

theorem exec_mainPgFall_of_asked (hv : s.boot.vaux = true) (h : s.boot.mainPg = true)
    (hen : s.boot.mainEn = true) : exec (.mainPgFall 20000) s = .next (powerLost s) := by
  simp [execMainPgFall, pinPulse_exact, hv, h, hen]

theorem exec_mainPgFall_of_notAsked (h : s.boot.mainPg = true) (hen : s.boot.mainEn = false) :
    exec (.mainPgFall 20000) s = .next { s with boot := { s.boot with mainPg := false } } := by
  simp [execMainPgFall, pinPulse_exact, h, hen]

theorem exec_mainPgFall_of_low (h : s.boot.mainPg = false) : exec (.mainPgFall 20000) s = .next s := by
  simp [execMainPgFall, pinPulse_exact, h]

theorem exec_mainPgTimeout_of_late (hpg : s.boot.mainPg = false) (hen : s.boot.mainEn = true)
    (hph : s.boot.phase = .waitRails) (h : s.boot.mainEnAt + secT ≤ s.time.mono) :
    let t := emit (.pin "MAIN_PWR_EN" true) (emit (.pin "MAIN_PWR_EN" false) s)
    exec .mainPgTimeout s = .next { t with boot := { t.boot with mainEnAt := s.time.mono + 100 * msT } } := by
  simp [execMainPgTimeout, hpg, hen, hph, h]

theorem exec_mainPgReturnTimeout_of_late {src flags : Nat} (hpg : s.boot.mainPg = false) (hen : s.boot.mainEn = true)
    (hret : s.pwr.returning = some (3, src, flags)) (h : s.boot.mainEnAt + 100 * msT ≤ s.time.mono) :
    exec .mainPgReturnTimeout s = .next (powerLost s) := by
  simp [execMainPgReturnTimeout, hpg, hen, hret, h]

/-! ### Pins and the clock that hold a device in reset -/

theorem perstLocal_boot (b : Boot) : perstLocal { s with boot := b } = perstLocal s := rfl

section NotHeld
variable (hv : s.boot.vaux = true) (hheld : s.boot.phase ≠ .held) (hwait : s.boot.phase ≠ .waitRails)
include hv hheld hwait

theorem exec_resetNAssert_of_high (h : s.boot.resetLow = false) :
    exec (.resetNAssert 2000) s = .next (pinReset { s with boot := { s.boot with resetLow := true } }) := by
  simp [execResetNAssert, pinPulse_exact, h, resettable, hv, hheld, hwait]

theorem exec_perstNAssert_of_high (h : s.boot.perstLow = false) (hloc : perstLocal s = false) (hoff : s.boot.phase ≠ .off) :
    exec (.perstNAssert 2000) s = .next (pinReset { s with boot := { s.boot with perstLow := true } }) := by
  simp [execPerstNAssert, pinPulse_exact, h, hloc, hoff, resettable, hv, hheld, hwait]

theorem exec_clkRefLoss_of_present (hen : s.boot.mainEn = true) (h : s.boot.clkLost = false) :
    exec .clkRefLoss s = .next (pinReset { s with boot := { s.boot with clkLost := true } }) := by
  simp [execClkRefLoss, hen, h, resettable, hv, hheld, hwait]

end NotHeld

theorem exec_perstNAssert_of_local (h : s.boot.perstLow = false) (hloc : perstLocal s = true) :
    exec (.perstNAssert 2000) s = .next { s with boot := { s.boot with perstLow := true } } := by
  simp [execPerstNAssert, pinPulse_exact, h, hloc]

theorem exec_perstNRelease_of_local (hheld : s.boot.phase ≠ .held) (hwait : s.boot.phase ≠ .waitRails)
    (h : s.boot.perstLow = true) (hloc : perstLocal s = true) (hret : s.pwr.returning = none) :
    exec (.perstNRelease straps 2000) s = .next (wake 1 true { s with boot := { s.boot with perstLow := false } }) := by
  simp [execPerstNRelease, pinPulse_exact, h, hheld, hwait, perstLocal_boot, hloc, hret]

theorem exec_resetNRelease_of_held (hheld : s.boot.phase = .held) (h : s.boot.resetLow = true) :
    exec (.resetNRelease straps 2000) s = .next (tryStart { s with boot := { s.boot with resetLow := false, straps } }) := by
  simp [execResetNRelease, pinPulse_exact, h, hheld]

theorem exec_perstNRelease_of_held (hheld : s.boot.phase = .held) (h : s.boot.perstLow = true) :
    exec (.perstNRelease straps 2000) s = .next (tryStart { s with boot := { s.boot with perstLow := false, straps } }) := by
  simp [execPerstNRelease, pinPulse_exact, h, hheld]

theorem exec_clkRefReturn_of_lost (h : s.boot.clkLost = true) :
    exec (.clkRefReturn straps) s = .next (tryStart { s with boot := { s.boot with clkLost := false, straps } }) := by
  simp [execClkRefReturn, h]

/-! ### Clocks of the PHYs -/

theorem clockPorts_ne_nil (trellis : Bool) : clockPorts trellis ≠ [] := by cases trellis <;> decide

theorem exec_phyRefclkLoss_of_up {trellis : Bool} (h : ∀ p ∈ clockPorts trellis, p ∉ s.link.ethDown) :
    let t : State := { s with link := { s.link with
      ethDown := s.link.ethDown ++ clockPorts trellis
      ethDownCount := (clockPorts trellis).foldl (fun l p => bump l p) s.link.ethDownCount } }
    exec (.phyRefclkLoss trellis) s = .next (if trellis then linksDown t else t) := by
  have fresh : ((clockPorts trellis).filter fun p => !s.link.ethDown.contains p) = clockPorts trellis :=
    List.filter_eq_self.mpr fun p hp => by simpa using h p hp
  simp only [exec_phyRefclkLoss, execPhyRefclkLoss, fresh, List.isEmpty_eq_false_iff.mpr (clockPorts_ne_nil trellis),
    Bool.not_false, Bool.and_true]

end Supplies

/-- Settles O46, by the event, the levels of its pin and supplies, and whether the device is held. -/
theorem supplyAndPinEventsComplete : Obligations.SupplyAndPinEventsComplete := by
  refine ⟨fun s hoff straps => exec_vauxRise_of_off hoff, fun s hv => ⟨exec_powerLoss_vaux hv, exec_powerLoss_asleep hv,
    fun ns hns => ?_, fun hpg hen => ⟨?_, ?_⟩, fun hheld hwait => ?_, fun hheld hen hpg straps ns hns => ?_⟩,
    fun ns straps s => ⟨fun h => ?_, fun h => ?_, fun hlo h => ?_, fun hlo h => ?_⟩, fun s => ⟨?_, ?_, ?_⟩⟩
  · rw [mainPgRise_pin.full (by decide) hns, mainPgFall_pin.full (by decide) hns]
    exact ⟨exec_mainPgRise_of_low hv, exec_mainPgRise_of_high, exec_mainPgFall_of_asked hv, exec_mainPgFall_of_notAsked,
      exec_mainPgFall_of_low⟩
  · exact exec_mainPgTimeout_of_late hpg hen
  · exact fun src flags => exec_mainPgReturnTimeout_of_late hpg hen
  · refine ⟨fun ns hns => ?_, fun ns hns => ?_, fun ns hns => ?_, fun h hloc hret straps ns hns => ?_,
      exec_clkRefLoss_of_present hv hheld hwait⟩
    · rw [resetNAssert_pin.full (by decide) hns]
      exact exec_resetNAssert_of_high hv hheld hwait
    · rw [perstNAssert_pin.full (by decide) hns]
      exact exec_perstNAssert_of_high hv hheld hwait
    · rw [perstNAssert_pin.full (by decide) hns]
      exact exec_perstNAssert_of_local
    · rw [(perstNRelease_pin straps).full (by decide) hns]
      exact exec_perstNRelease_of_local hheld hwait h hloc hret
  · rw [(resetNRelease_pin straps).full (by decide) hns, (perstNRelease_pin straps).full (by decide) hns]
    refine ⟨fun h hp hc => ?_, fun h hp => ?_, fun h hr hc => ?_, fun h hr hp => ?_⟩
    · rw [exec_resetNRelease_of_held hheld h]
      exact congrArg Host.Outcome.next (tryStart_of_held_free hheld (by simp [freeToStart, *]))
    · rw [exec_resetNRelease_of_held hheld h]
      exact congrArg Host.Outcome.next (tryStart_of_held hheld (by simp [freeToStart, *]))
    · rw [exec_perstNRelease_of_held hheld h]
      exact congrArg Host.Outcome.next (tryStart_of_held_free hheld (by simp [freeToStart, *]))
    · rw [exec_clkRefReturn_of_lost h]
      exact congrArg Host.Outcome.next (tryStart_of_held_free hheld (by simp [freeToStart, *]))
  · exact ⟨resetNAssert_pin.short h, (resetNRelease_pin straps).short h, perstNAssert_pin.short h,
      (perstNRelease_pin straps).short h⟩
  · exact ⟨mainPgRise_pin.short h, mainPgFall_pin.short h⟩
  · exact ⟨resetNAssert_pin.between hlo h, (resetNRelease_pin straps).between hlo h, perstNAssert_pin.between hlo h,
      (perstNRelease_pin straps).between hlo h⟩
  · exact ⟨mainPgRise_pin.between hlo h, mainPgFall_pin.between hlo h⟩
  · exact exec_pcieRefclkLoss s
  · exact fun trellis => exec_phyRefclkLoss_of_up
  · exact fun trellis => exec_phyRefclkReturn trellis s

end Sys2Proof.Machine

/-! ### Requests at their deadline, releases at theirs, orphans past their hold -/
namespace Sys2Proof.Machine

section Deadlines
variable {q : Req} {r : ReqRef} {s : State}

/-! ### What an unfinished request comes to -/

theorem timeOut_eventWait (h : q.opcode = 0x000E) : timeOut q s = post q stOk 0 0 none s := by
  simp [timeOut, h]

theorem timeOut_solve (h : q.opcode = 0x0603) : timeOut q s = solveTimeout q s := by
  simp [timeOut, h]

theorem timeOut_notStarted (hwait : q.opcode ≠ 0x000E) (hsolve : q.opcode ≠ 0x0603) (h : q.phase = .fetched) :
    timeOut q s = post q stTimeout 0 0 none s := by
  simp [timeOut, hwait, hsolve, h]

theorem timeOut_cueStop (h : q.opcode = 0x0303) (hphase : q.phase ≠ .fetched) : timeOut q s = stopDeadline q s := by
  simp [timeOut, h, hphase]

theorem timeOut_started (hwait : q.opcode ≠ 0x000E) (hsolve : q.opcode ≠ 0x0603) (hstop : q.opcode ≠ 0x0303)
    (hphase : q.phase ≠ .fetched) : timeOut q s = cancelRunning q stTimeout s := by
  simp [timeOut, hwait, hsolve, hphase]

/-! ### COMMAND_DEADLINE and RELEASE_DEADLINE -/

/-- The instant by which a request is to be finished: INFER_RUN and SOLV_RUN count theirs from their DEADLINE_REF. -/
def finishBy (q : Req) (s : State) : Option Nat :=
  if q.opcode = 0x0404 then runDeadline q s else if q.opcode = 0x0603 then solveDeadline q s else q.dl

theorem exec_deadlines_of_noRequest (h : findReq r s = none) :
    exec (.commandDeadline r) s = .next s ∧ exec (.releaseDeadline r) s = .next s := by
  simp [execCommandDeadline, execReleaseDeadline, h]

theorem exec_commandDeadline_of_open (hq : findReq r s = some q) :
    exec (.commandDeadline r) s
      = .next (if dueOpt (finishBy q s) s && (closingBy r s).isEmpty then settle (timeOut q s) else s) := by
  rw [exec_commandDeadline, execCommandDeadline, hq]
  rfl

theorem exec_commandDeadline_of_due (hq : findReq r s = some q) (hc : closingBy r s = [])
    (h : dueOpt (finishBy q s) s = true) : exec (.commandDeadline r) s = .next (settle (timeOut q s)) := by
  rw [exec_commandDeadline_of_open hq]; simp [hc, h]

theorem exec_commandDeadline_of_early (hq : findReq r s = some q) (h : dueOpt (finishBy q s) s = false) :
    exec (.commandDeadline r) s = .next s := by
  rw [exec_commandDeadline_of_open hq]; simp [h]

theorem exec_commandDeadline_of_release (hq : findReq r s = some q) (hc : closingBy r s ≠ []) :
    exec (.commandDeadline r) s = .next s := by
  rw [exec_commandDeadline_of_open hq]; simp [hc]

theorem exec_releaseDeadline_of_notRelease (hc : closingBy r s = []) : exec (.releaseDeadline r) s = .next s := by
  simp only [exec_releaseDeadline, execReleaseDeadline, hc]
  split <;> simp

theorem exec_releaseDeadline_of_early (hq : findReq r s = some q) (h : dueOpt q.dl s = false) :
    exec (.releaseDeadline r) s = .next s := by
  simp [execReleaseDeadline, hq, h]

/-- Another request that a closing release waits for: it runs and names an object of the release, or is its query
batch (R78, R403). -/
def keepsReleaseWaiting (q : Req) (os : List Obj) (s : State) (x : Req) : Bool :=
  holdsRelease q os x || (x.phase == .running
    && os.any fun o => o.ty == 11 && s.map.batches.any fun b => b.slot == o.slot && b.req == reqRef x)

theorem exec_releaseDeadline_of_due (hq : findReq r s = some q) (hc : closingBy r s ≠ []) (h : dueOpt q.dl s = true) :
    exec (.releaseDeadline r) s = .next (settle ((s.link.reqs.filter (keepsReleaseWaiting q (closingBy r s) s)).foldl
      (fun s (x : Req) => cancelRunning x stAborted s) s)) := by
  simp only [exec_releaseDeadline, execReleaseDeadline, hq, h, Bool.not_true, Bool.false_or, List.isEmpty_iff, if_neg hc]
  rfl

/-! ### ORPHAN_HOLD_EXPIRY -/

variable {ty slot t : Nat} {o : Obj}

theorem exec_orphanHoldExpiry_of_early (ho : getObj ty slot s = some o) (ht : o.holdAt = some t) (h : s.time.mono < t) :
    exec (.orphanHoldExpiry ty slot) s = .next s := by
  simp [execOrphanHoldExpiry, ho, holdOver, ht, dueOpt, due, Nat.not_le.mpr h]

/-- An orphan that no object depends on is released alone. -/
theorem orphanGroup_of_noDependants (h : ∀ x ∈ s.obj.objs, (o.ty, o.slot) ∉ x.deps) (n : Nat) :
    execOrphanHoldExpiry.grow s n [o] = [o] := by
  cases n with
  | zero => rfl
  | succ n =>
    have more : (s.obj.objs.filter fun x => !([o].any (isObj x.ty x.slot)) && [o].any fun y => x.deps.contains (y.ty, y.slot)) = [] := by
      simpa [List.filter_eq_nil_iff] using fun x hx _ => h x hx
    simp only [execOrphanHoldExpiry.grow, more, List.isEmpty_nil, if_true]

theorem exec_orphanHoldExpiry_of_due (ho : getObj ty slot s = some o) (hst : o.st = .orphan) (ht : o.holdAt = some t)
    (h : t ≤ s.time.mono) (hdeps : ∀ x ∈ s.obj.objs, (o.ty, o.slot) ∉ x.deps) :
    exec (.orphanHoldExpiry ty slot) s
      = .next (settle (releaseAll ((s.obj.objs.filter (isObj o.ty o.slot)).reverse) s)) := by
  have hover : holdOver o s = true := by simp [holdOver, hst, ht, dueOpt, due, h]
  have hself : (fun x : Obj => [o].any (isObj x.ty x.slot)) = isObj o.ty o.slot := by
    funext x; simp [isObj, BEq.comm]
  simp only [exec_orphanHoldExpiry, execOrphanHoldExpiry, ho, orphanGroup_of_noDependants hdeps, hself, hover,
    List.all_cons, List.all_nil, Bool.and_true, Bool.not_true, Bool.false_eq_true, if_false]

end Deadlines

/-- Settles O60, by whether the request is a release, is due, and by its command and phase. -/
theorem deadlinesEndRequests : Obligations.DeadlinesEndRequests := by
  refine ⟨fun r s => ⟨exec_deadlines_of_noRequest, fun q hq => ⟨fun hc => ⟨?_, fun early => ?_, fun due => ?_⟩,
    fun hc => ⟨?_, fun early => ?_, fun due => ?_⟩⟩⟩, fun ty slot o t s ho hst ht => ⟨fun early => ?_, fun due hdeps => ?_⟩⟩
  · exact exec_releaseDeadline_of_notRelease hc
  · exact exec_commandDeadline_of_early hq early
  · have ends := exec_commandDeadline_of_due hq hc due
    refine ⟨fun hwait => ?_, fun hsolve => ?_, fun hwait hsolve hphase => ?_, fun hstop hphase => ?_,
      fun hwait hsolve hstop hphase => ?_⟩
    · rw [ends, timeOut_eventWait hwait]
    · rw [ends, timeOut_solve hsolve]
    · rw [ends, timeOut_notStarted hwait hsolve hphase]
    · rw [ends, timeOut_cueStop hstop hphase]
    · rw [ends, timeOut_started hwait hsolve hstop hphase]
  · exact exec_commandDeadline_of_release hq hc
  · exact exec_releaseDeadline_of_early hq early
  · exact exec_releaseDeadline_of_due hq hc due
  · exact exec_orphanHoldExpiry_of_early ho ht early
  · exact exec_orphanHoldExpiry_of_due ho hst ht due hdeps

end Sys2Proof.Machine

/-! ### Doorbells and rings -/
namespace Sys2Proof.Machine

section Doorbells
variable {fn off qid size : Nat} {s : State}

/-! The doorbell that an offset of BAR2 names (R51). -/

theorem doorbell_notServed {v : W64} (h : queuesLive s = false ∨ bar2Size fn ≤ off) : doorbell fn off size v s = s := by
  obtain h | h := h <;> simp [doorbell, h]

theorem doorbell_misplaced {v : W64} (hq : queuesLive s = true) (hoff : off < bar2Size fn) (h : off % 8 ≠ 0) :
    doorbell fn off size v s = if size ≠ 4 ∧ size ≠ 8 then refuseDb fn (off / 16) 4 s
      else refuseDb fn (off / 16) ((draw s).1 % 16) (draw s).2 := by
  simp [doorbell, hq, Nat.not_le.mpr hoff, onDoorbell, h]

theorem doorbell_tail {v : W64} (hq : queuesLive s = true) (hoff : 16 * qid + 8 < bar2Size fn) :
    doorbell fn (16 * qid) size v s = ringTail fn qid size v s := by
  have hon : onDoorbell (16 * qid) = true := by simp [onDoorbell]; omega
  simp [doorbell, hq, hon, show ¬ bar2Size fn ≤ 16 * qid by omega]

theorem doorbell_head {v : W64} (hq : queuesLive s = true) (hoff : 16 * qid + 8 < bar2Size fn) :
    doorbell fn (16 * qid + 8) size v s = ringHead fn qid size v s := by
  have hon : onDoorbell (16 * qid + 8) = true := by simp [onDoorbell]; omega
  have hpair : (16 * qid + 8) / 16 = qid := by omega
  simp [doorbell, hq, hon, Nat.not_le.mpr hoff, hpair]

/-! The reason of a refusal (R52): the two doorbells of a pair share the first three of the order 4, 5, 3, 1, 2. -/

section Refusals
variable {v : Nat}

theorem dbRefusals_size (h : size ≠ 4 ∧ size ≠ 8) :
    tailRefusal fn qid size v s = some 4 ∧ headRefusal fn qid size v s = some 4 := ⟨if_pos h, if_pos h⟩

variable (hsize : ¬(size ≠ 4 ∧ size ≠ 8))
include hsize

theorem dbRefusals_reserved (hv : 65536 ≤ v) :
    tailRefusal fn qid size v s = some 5 ∧ headRefusal fn qid size v s = some 5 := by
  simp [tailRefusal, headRefusal, hsize, hv]

variable (hv : v < 65536)
include hv

theorem dbRefusals_noPair (h : getPair fn qid s = none) :
    tailRefusal fn qid size v s = some 3 ∧ headRefusal fn qid size v s = some 3 := by
  simp [tailRefusal, headRefusal, hsize, Nat.not_le.mpr hv, h]

variable {p : QPair} (hp : getPair fn qid s = some p)
include hp

theorem dbRefusals_faulted (h : p.fault ≠ 0) :
    tailRefusal fn qid size v s = some 3 ∧ headRefusal fn qid size v s = some 3 := by
  simp [tailRefusal, headRefusal, hsize, Nat.not_le.mpr hv, hp, h]

theorem tailRefusal_of_pair (h : p.fault = 0) :
    tailRefusal fn qid size v s = if p.sqDepth ≤ v then some 1
      else if (v + p.sqDepth - p.sqHead) % p.sqDepth < (p.sqTail + p.sqDepth - p.sqHead) % p.sqDepth then some 2 else none := by
  simp [tailRefusal, hsize, Nat.not_le.mpr hv, hp, h]

theorem headRefusal_of_pair (h : p.fault = 0) :
    headRefusal fn qid size v s = if p.cqDepth ≤ v then some 1
      else if posted p < (v + p.cqDepth - p.cqHead) % p.cqDepth then some 2 else none := by
  simp [headRefusal, hsize, Nat.not_le.mpr hv, hp, h]

end Refusals

variable {v : W64}

theorem ringTail_refused {reason : Nat} (h : tailRefusal fn qid size (dbValue size v) s = some reason) :
    ringTail fn qid size v s = refuseDb fn qid reason s := by simp [ringTail, h]

theorem ringTail_taken (h : tailRefusal fn qid size (dbValue size v) s = none) :
    ringTail fn qid size v s = updPair fn qid (fun p => { p with sqTail := dbValue size v }) s := by simp [ringTail, h]

theorem ringHead_refused {reason : Nat} (h : headRefusal fn qid size (dbValue size v) s = some reason) :
    ringHead fn qid size v s = refuseDb fn qid reason s := by simp [ringHead, h]

theorem ringHead_taken (h : headRefusal fn qid size (dbValue size v) s = none) :
    ringHead fn qid size v s = updPair fn qid (fun p => { p with cqHead := dbValue size v }) s := by simp [ringHead, h]

/-! The host's write of a doorbell. -/

theorem exec_doorbells_of_doorbell {u : State} (hlive : fnLive fn s = true) (hw : doorbell fn off size v s = u) :
    exec (.sqTailDoorbell fn off size v) s = .next (settle (inBand u))
      ∧ exec (.cqHeadDoorbell fn off size v) s = .next (settle (inBand u)) := by
  simp [execSqTailDoorbell, execCqHeadDoorbell, hostWrite_of_fnLive _ hlive, hw]

end Doorbells

/-- Settles O52: the offset decides the doorbell, whose refusal in the order 4, 5, 3, 1, 2 decides the write. -/
theorem doorbellsMoveOrAreRefused : Obligations.DoorbellsMoveOrAreRefused := by
  refine ⟨fun fn off size v s hlive => ?_, fun fn qid size v s hlive hq hoff => ?_⟩
  · intro ends refused
    have rings {u : State} (hw : doorbell fn off size v s = u) : exec (.sqTailDoorbell fn off size v) s = ends u :=
      (exec_doorbells_of_doorbell hlive hw).1
    refine ⟨rfl, fun h => rings (doorbell_notServed h), fun hq hoff h8 => ⟨fun h4 h8' => ?_, fun hsize => ?_⟩⟩
    · exact rings ((doorbell_misplaced hq hoff h8).trans (if_pos ⟨h4, h8'⟩))
    · exact rings ((doorbell_misplaced hq hoff h8).trans (if_neg (by omega)))
  intro tail head val refused ends both
  have rings {u : State} (hw : ringTail fn qid size v s = u) : exec tail s = ends u :=
    (exec_doorbells_of_doorbell hlive ((doorbell_tail hq hoff).trans hw)).1
  have frees {u : State} (hw : ringHead fn qid size v s = u) : exec head s = ends u :=
    (exec_doorbells_of_doorbell hlive ((doorbell_head hq hoff).trans hw)).2
  have bothRefused {reason : Nat} (h : tailRefusal fn qid size val s = some reason ∧ headRefusal fn qid size val s = some reason) :
      both (refused reason) := ⟨rings (ringTail_refused h.1), frees (ringHead_refused h.2)⟩
  refine ⟨fun h4 h8 => bothRefused (dbRefusals_size ⟨h4, h8⟩), fun hsize => ?_⟩
  replace hsize : ¬(size ≠ 4 ∧ size ≠ 8) := by omega
  refine ⟨fun hv => bothRefused (dbRefusals_reserved hsize hv), fun hv =>
    ⟨fun hp => bothRefused (dbRefusals_noPair hsize hv hp), fun p hp =>
    ⟨fun hf => bothRefused (dbRefusals_faulted hsize hv hp hf), fun hf => ?_⟩⟩⟩
  have tailReason := tailRefusal_of_pair hsize hv hp hf
  have headReason := headRefusal_of_pair hsize hv hp hf
  refine ⟨fun h => ?_, fun h => ⟨fun back => ?_, fun ok => ?_⟩, fun h => ?_, fun h => ⟨fun unposted => ?_, fun ok => ?_⟩⟩
  · exact rings (ringTail_refused (tailReason.trans (if_pos h)))
  · exact rings (ringTail_refused (tailReason.trans ((if_neg (Nat.not_le.mpr h)).trans (if_pos back))))
  · exact rings (ringTail_taken (tailReason.trans ((if_neg (Nat.not_le.mpr h)).trans (if_neg (Nat.not_lt.mpr ok)))))
  · exact frees (ringHead_refused (headReason.trans (if_pos h)))
  · exact frees (ringHead_refused (headReason.trans ((if_neg (Nat.not_le.mpr h)).trans (if_pos unposted))))
  · exact frees (ringHead_taken (headReason.trans ((if_neg (Nat.not_le.mpr h)).trans (if_neg (Nat.not_lt.mpr ok)))))

/-! ### The callboard's ring -/

section Ring
variable {v : Nat} {s : State}

theorem ring_busy (hv : v < 65536) (h : s.cb.state ≠ 0) : ring v s = refuseCb 1 s := by
  simp [ring, Nat.not_le.mpr hv, h]

theorem ring_outOfSequence (hv : v < 65536) (hidle : s.cb.state = 0) (h : v ≠ s.cb.nextSeq) : ring v s = refuseCb 2 s := by
  simp [ring, Nat.not_le.mpr hv, hidle, h]

theorem ring_next (hv : v < 65536) (hidle : s.cb.state = 0) (h : v = s.cb.nextSeq) :
    let e := memRead s.cb.request 0 64
    let sec := if fld e 0 2 = 0x0E03 then 10 else 2
    ring v s = openReq .callboard e { s with cb := { s.cb with
      state := 1, nextSeq := (v + 1) % 65536, ringSeq := v, limit := some (s.time.mono + sec * secT) } } := by
  simp only [ring, if_neg (Nat.not_le.mpr hv), hidle, ne_eq, not_true_eq_false, if_false, if_neg (fun hne : ¬ v = s.cb.nextSeq => hne h)]

/-- A sequence number has 16 bits: 0xFFFF is followed by 0. -/
theorem succ_mod_65536 (hv : v < 65536) : (v + 1) % 65536 = if v = 0xFFFF then 0 else v + 1 := by
  split <;> omega

theorem exec_cbRing_of_ring {v : W32} {u : State} (hlive : fnLive 0 s = true) (hw : ring v.toNat s = u) :
    exec (.cbRing v) s = .next (settle (inBand u)) := by
  simp [execCbRing, hostWrite_of_fnLive _ hlive, hw]

end Ring

/-- Settles O57, by the callboard's state and the sequence number of the ring. -/
theorem ringsStartOrAreRefused : Obligations.RingsStartOrAreRefused := by
  intro v s hlive hv ends
  refine ⟨fun hidle hseq => ?_, fun hbusy => exec_cbRing_of_ring hlive (ring_busy hv hbusy),
    fun hidle hseq => exec_cbRing_of_ring hlive (ring_outOfSequence hv hidle hseq)⟩
  intro e sec
  rw [exec_cbRing_of_ring hlive (ring_next hv hidle hseq), succ_mod_65536 hv]

end Sys2Proof.Machine

/-! ### Queue pairs created, deleted, modified and granted -/
namespace Sys2Proof.Machine

/-- A ready command whose own steps end with ST_OK and two results is answered with them. -/
theorem serve_okR {ci : CmdInfo} {body : Body} {r : ReqRef} {io : Io} {s s' : State} {q : Req} {c : Ctx} {r0 r1 : Nat}
    (h : IsReady ci r io s q c) (hb : body c s = .ok (s', okR r0 r1)) :
    serve ci body r io s = answered q stOk r0 r1 none s' := by
  rw [serve_of_ready h hb]
  rfl

section QueuePairs
variable {c : Ctx} {s : State}

theorem bodyAdmQueueCreate_of_fresh (hnew : getPair c.fn (prm c 16 2) s = none) (hgrant : prm c 16 2 < (getFn c.fn s).grant) :
    bodyAdmQueueCreate c s = .ok ({ s with link.pairs := s.link.pairs ++ [{
      newPair c.fn (prm c 16 2) (Comp.of (prm c 0 8)) (Comp.of (prm c 8 8)) (prm c 18 2 + 1) (prm c 20 2 + 1) (prm c 22 2)
        ((prm c 27 1).testBit 0) with
      coalTime := prm c 24 2, coalCount := prm c 26 1, errImm := (prm c 27 1).testBit 1
      arbClass := bitsOf (prm c 27 1) 3 2, arbWeight := prm c 28 1 }] }, okR 0 0) := by
  simp only [bodyAdmQueueCreate, hnew, decide_eq_true hgrant, Option.isNone_none, need, if_true]
  rfl

theorem bodyAdmQueueDelete_of_other (hmade : (getPair c.fn (prm c 0 2) s).isSome) (hother : c.q.src ≠ .queue c.fn (prm c 0 2)) :
    bodyAdmQueueDelete c s
      = .ok (deletePair c.fn (prm c 0 2) s, okR (s.link.reqs.filter (ofPair c.fn (prm c 0 2))).length 0) := by
  simp only [bodyAdmQueueDelete, hmade, bne_iff_ne.mpr hother, Bool.and_self, need, if_true]
  rfl

/-- The seven attributes that ADM_QUEUE_MODIFY gives a pair (R95). -/
def modified (c : Ctx) (p : QPair) : QPair :=
  { p with vector := prm c 2 2, coalTime := prm c 4 2, coalCount := prm c 6 1, intEn := (prm c 7 1).testBit 0
           errImm := (prm c 7 1).testBit 1, arbClass := bitsOf (prm c 7 1) 3 2, arbWeight := prm c 8 1 }

theorem bodyAdmQueueModify_of_created (hmade : (getPair c.fn (prm c 0 2) s).isSome) :
    bodyAdmQueueModify c s = .ok (if prm c 0 2 = 0 then
        updFn c.fn (fun f => { f with vector := prm c 2 2, intEn := (prm c 7 1).testBit 0 }) (updPair c.fn (prm c 0 2) (modified c) s)
      else updPair c.fn (prm c 0 2) (modified c) s, okR 0 0) := by
  simp only [bodyAdmQueueModify, hmade, need, if_true]
  rfl

/-- No created pair is among the giver's `n` highest: the state check of R579. -/
theorem grantKeepsCreated {fn n g : Nat} (h : ∀ p ∈ s.link.pairs, p.fn = fn → p.qid + n < g) :
    (s.link.pairs.any fun p => p.fn == fn && decide (g ≤ p.qid + n)) = false := by
  simpa [List.any_eq_false] using h

theorem bodyAdmQueueGrant_of_room
    (hroom : prm c 4 4 + (s.link.pairs.filter fun p => p.fn == prm c 0 1).length ≤ (getFn (prm c 0 1) s).grant)
    (hlimit : prm c 1 1 = 0 ∨ (getFn (prm c 1 1) s).grant + prm c 4 4 ≤ 4096)
    (hhigh : ∀ p ∈ s.link.pairs, p.fn = prm c 0 1 → p.qid + prm c 4 4 < (getFn (prm c 0 1) s).grant) :
    let s' := updFn (prm c 0 1) (fun f => { f with grant := (getFn (prm c 0 1) s).grant - prm c 4 4 })
      (updFn (prm c 1 1) (fun f => { f with grant := f.grant + prm c 4 4 }) s)
    bodyAdmQueueGrant c s = .ok (s', okR (getFn (prm c 1 1) s').grant 0) := by
  have htake : (prm c 1 1 == 0 || decide ((getFn (prm c 1 1) s).grant + prm c 4 4 ≤ 4096)) = true := by simpa using hlimit
  simp only [bodyAdmQueueGrant, grantKeepsCreated hhigh, decide_eq_true hroom, htake, Bool.and_self, Bool.not_false, need, if_true]
  rfl

end QueuePairs

/-- Settles O7: each command's own checks hold, so it is carried out and answered. -/
theorem admQueuePairCommandsComplete : Obligations.AdmQueuePairCommandsComplete := by
  intro r io s q c
  refine ⟨fun ready hnew hgrant => serve_okR ready (bodyAdmQueueCreate_of_fresh hnew hgrant),
    fun ready hmade hother => serve_okR ready (bodyAdmQueueDelete_of_other hmade hother), fun ready hmade => ?_,
    fun ready hroom hlimit hhigh => serve_okR ready (bodyAdmQueueGrant_of_room hroom hlimit hhigh)⟩
  have done := bodyAdmQueueModify_of_created hmade
  exact ⟨fun h => serve_okR ready (done.trans (by rw [if_neg h]; rfl)),
    fun h => serve_okR ready (done.trans (by rw [if_pos h]; rfl))⟩

end Sys2Proof.Machine

/-! ### Slack monitors, registers cleared by reading, and the sideband target -/
namespace Sys2Proof.Machine

/-! ### Rounding to nearest, ties to even (R548) -/

/-- Twice the distance from the quotient rounded to the exact one, by the remainder of the floor division. -/
theorem nearest_error {b : Nat} (a : Int) (hb : 0 < b) :
    let e := 2 * (nearest a b * b - a)
    e ≤ b ∧ -(b : Int) ≤ e ∧ (e = b ∨ e = -(b : Int) → nearest a b % 2 = 0) := by
  have hdiv : a / b * b + a % b = a := Int.ediv_mul_add_emod a b
  have hlo : 0 ≤ a % b := Int.emod_nonneg a (by omega)
  have hhi : a % b < b := Int.emod_lt_of_pos a (by omega)
  have hup : (a / b + 1) * b = a / b * b + b := by rw [Int.add_mul, Int.one_mul]
  simp only [nearest]
  split
  · rw [hup]
    omega
  · omega

/-! ### SLACK_MEASURE (R548, R549) -/

section Slack
variable {n : Nat} {s : State}

/-- The instant at which a monitor may measure again, 100 us after its last measurement. -/
def slackDueAt (n : Nat) (s : State) : Nat := ((s.pwr.slack[n]?).elim 0 (·.at')) + 100 * usT

theorem exec_slackMeasure_of_due {num : Int} {den : Nat} (hon : monitorOn n s = true) (hlive : backstopLive s = true)
    (hden : 0 < den) (hdue : slackDueAt n s ≤ s.time.mono) :
    exec (.slackMeasure n num den) s
      = .next (updSlack n (fun m => { measured (satSigned 16 (nearest (num * 4096) den)) m with at' := s.time.mono }) s) := by
  have hwait : ¬ (s.time.mono < slackDueAt n s) := Nat.not_lt.mpr hdue
  simp only [slackDueAt] at hwait
  simp [execSlackMeasure, hon, hlive, Nat.pos_iff_ne_zero.mp hden, hwait]

theorem exec_slackMeasure_of_notDue {num : Int} {den : Nat}
    (h : monitorOn n s = false ∨ backstopLive s = false ∨ s.time.mono < slackDueAt n s) :
    exec (.slackMeasure n num den) s = .next s := by
  simp only [slackDueAt] at h
  obtain h | h | h := h <;> simp [execSlackMeasure, h]

/-! ### The registers of a monitor (R549) -/

variable (hlive : fnLive 0 s = true) (hn : n < 27)
include hlive hn

theorem exec_slkNegSeenClear_of_clearSeen {v : W32} {u : State} (hw : clearSeen n v.toNat s = u) :
    exec (.slkNegSeenClear n v) s = .next (settle (inBand u)) := by
  simp [execSlkNegSeenClear, hostWrite_of_fnLive _ hlive, hn, hw]

theorem exec_slkMinRead_of_monitorLive {m : Slack} (hmon : monitorLive n s = true) (hm : s.pwr.slack[n]? = some m) :
    let w := draw (emit (.read (codeOf 16 m.min)) s)
    exec (.slkMinRead n) s = .next (updSlack n (fun m => { m with min := signedOf 16 w.1, restart := true }) w.2) := by
  simp only [exec_slkMinRead, execSlkMinRead, hostRead_of_fnLive _ hlive, if_neg (Nat.not_le.mpr hn), hmon, hm, Bool.not_true,
    Bool.false_eq_true, if_false, Option.getD_some]

theorem exec_slkMinRead_of_fenced (hmon : monitorLive n s = false) :
    exec (.slkMinRead n) s = .next (countFence false (monitorDom n) (emit (.read 0xFFFFFFFF) s)) := by
  simp [execSlkMinRead, hostRead_of_fnLive _ hlive, Nat.not_le.mpr hn, hmon]

end Slack

section Seen
variable {n v : Nat} {s : State}

theorem clearSeen_fenced (hmon : monitorLive n s = false) : clearSeen n v s = countFence true (monitorDom n) s := by
  simp [clearSeen, hmon]

variable (hmon : monitorLive n s = true)
include hmon

theorem clearSeen_bit17 : clearSeen n 0x20000 s = updSlack n (fun m => { m with seen := false }) s := by
  simp [clearSeen, hmon]

theorem clearSeen_zero : clearSeen n 0 s = s := by simp [clearSeen, hmon]

theorem clearSeen_reserved (h : v % 131072 ≠ 0 ∨ 262144 ≤ v) : clearSeen n v s = refuseReg 0 5 s := by
  simp [clearSeen, hmon, h]

end Seen

/-! ### The other registers that an access changes (R542, R545, R550) -/

section Registers
variable {s : State} (hlive : fnLive 0 s = true)
include hlive

theorem exec_glWakeClear_of_fnLive (v : W32) : exec (.glWakeClear v) s = .next (settle (inBand (clearWake v.toNat s))) :=
  hostWrite_of_fnLive _ hlive

theorem exec_tbWord0Read_of_size {size : Nat} (hsize : size = 4 ∨ size = 8) :
    let w := unle (timeWord (stampNow 0 s))
    exec (.tbWord0Read size) s = .next (emit (.read (w % 2 ^ (8 * size)))
      { s with time := { s.time with latch := w, latchSeq := (s.time.latchSeq + 1) % 2 ^ 32 } }) := by
  have hshape : ¬(size ≠ 4 ∧ size ≠ 8) := by omega
  simp only [exec_tbWord0Read, execTbWord0Read, hostRead_of_fnLive _ hlive, if_neg hshape]

theorem exec_fenceCounterRead_of_dom {d : Nat} (wr : Bool) (hd : d < 96) :
    exec (.fenceCounterRead d wr) s
      = .next (updDom d (fun x => if wr then { x with fenceWr := 0 } else { x with fenceRd := 0 })
          (emit (.read (if wr then (getDom d s).fenceWr else (getDom d s).fenceRd)) s)) := by
  simp only [exec_fenceCounterRead, execFenceCounterRead, hostRead_of_fnLive _ hlive, if_neg (Nat.not_le.mpr hd)]

end Registers

/-! ### The sideband target (R553 to R558) -/

section Sideband
variable {s : State} (hv : s.boot.vaux = true)
include hv

/-- The order of the refusals: PEC, byte count, index, access. -/
theorem exec_sbRegisterWrite_of_vaux (w : SbWrite) :
    exec (.sbRegisterWrite w) s = .next (
      if w.pecBad then refuseSb 3 s
      else if w.bytes.length ≠ 4 then refuseSb 4 s
      else if 0x0F < w.index then refuseSb 2 s
      else if w.index = 0x0D then { s with sb := { s.sb with scratch0 := BitVec.ofNat 32 (unle w.bytes) } }
      else if w.index = 0x0E then { s with sb := { s.sb with scratch1 := BitVec.ofNat 32 (unle w.bytes) } }
      else refuseSb 1 s) := by
  simp only [exec_sbRegisterWrite, execSbRegisterWrite, sbLive, hv, Bool.not_true, Bool.false_eq_true, if_false]

theorem exec_sbRegisterWrite_pecBad {w : SbWrite} (h : w.pecBad = true) :
    exec (.sbRegisterWrite w) s = .next (refuseSb 3 s) := by
  rw [exec_sbRegisterWrite_of_vaux hv, if_pos h]

theorem exec_sbRegisterWrite_byteCount {w : SbWrite} (hpec : w.pecBad = false) (h : w.bytes.length ≠ 4) :
    exec (.sbRegisterWrite w) s = .next (refuseSb 4 s) := by
  rw [exec_sbRegisterWrite_of_vaux hv, if_neg (by simp [hpec]), if_pos h]

section Word
variable {w : SbWrite} (hpec : w.pecBad = false) (hlen : w.bytes.length = 4)
include hpec hlen

theorem exec_sbRegisterWrite_word :
    exec (.sbRegisterWrite w) s = .next (
      if 0x0F < w.index then refuseSb 2 s
      else if w.index = 0x0D then { s with sb := { s.sb with scratch0 := BitVec.ofNat 32 (unle w.bytes) } }
      else if w.index = 0x0E then { s with sb := { s.sb with scratch1 := BitVec.ofNat 32 (unle w.bytes) } }
      else refuseSb 1 s) := by
  rw [exec_sbRegisterWrite_of_vaux hv, if_neg (by simp [hpec]), if_neg fun hne => hne hlen]

theorem exec_sbRegisterWrite_scratch0 (h : w.index = 0x0D) : exec (.sbRegisterWrite w) s
    = .next { s with sb := { s.sb with scratch0 := BitVec.ofNat 32 (unle w.bytes) } } := by
  rw [exec_sbRegisterWrite_word hv hpec hlen, if_neg (by omega), if_pos h]

theorem exec_sbRegisterWrite_scratch1 (h : w.index = 0x0E) : exec (.sbRegisterWrite w) s
    = .next { s with sb := { s.sb with scratch1 := BitVec.ofNat 32 (unle w.bytes) } } := by
  rw [exec_sbRegisterWrite_word hv hpec hlen, if_neg (by omega), if_neg (by omega), if_pos h]

theorem exec_sbRegisterWrite_pastTable (h : 0x0F < w.index) : exec (.sbRegisterWrite w) s = .next (refuseSb 2 s) := by
  rw [exec_sbRegisterWrite_word hv hpec hlen, if_pos h]

theorem exec_sbRegisterWrite_readOnly (h : w.index < 0x0D ∨ w.index = 0x0F) :
    exec (.sbRegisterWrite w) s = .next (refuseSb 1 s) := by
  rw [exec_sbRegisterWrite_word hv hpec hlen, if_neg (by omega), if_neg (by omega), if_neg (by omega)]

end Word

theorem exec_sbSetIndex_of_i3c {i : Nat} (hmode : s.boot.straps.sbMode = 1) (hi : i < 256) :
    exec (.sbSetIndex i) s = .next { s with sb := { s.sb with index := i } } := by
  simp [execSbSetIndex, sbLive, hv, hmode, hi]

theorem exec_sbDynamicAddress_of_i3c {a : Nat} (hmode : s.boot.straps.sbMode = 1) (ha : a < 128) :
    exec (.sbDynamicAddress a) s = .next { s with sb := { s.sb with dynAddr := some a } } := by
  simp [execSbDynamicAddress, sbLive, hv, hmode, ha]

theorem exec_sbSclTimeout_of_vaux : exec .sbSclTimeout s = .next (refuseSb 5 s) := by
  simp [execSbSclTimeout, sbLive, hv]

theorem exec_sbRefusedRead_of_vaux : exec .sbRefusedRead s
    = .next (emit (.sideband (s.sb.refused + s.sb.reason * 65536)) { s with sb := { s.sb with refused := 0 } }) := by
  simp [execSbRefusedRead, sbLive, hv]

end Sideband

theorem exec_sbMirrorTick_of_due {s : State} (hrun : s.boot.phase = .running) (hstate : s.pwr.state < 3)
    (hdue : s.sb.mirrorAt + 10 * msT ≤ s.time.mono) :
    exec .sbMirrorTick s = .next { s with sb := { s.sb with
      mirrorAt := s.time.mono, temp := codeOf 16 s.pwr.temp, power := sat16 (s.pwr.power / 100), level := s.pwr.level } } := by
  simp [execSbMirrorTick, hrun, hstate, hdue]

/-- Settles O59, by the access and by whether what it names is live. -/
theorem monitorsAndSidebandComplete : Obligations.MonitorsAndSidebandComplete := by
  refine ⟨fun n num den s => exec_slackMeasure_of_due, fun n num den s => exec_slackMeasure_of_notDue,
    fun a b => nearest_error a, fun s hlive => ?_, fun s hv => ?_, fun s => exec_sbMirrorTick_of_due⟩
  · intro ends read
    refine ⟨fun n hn hmon => ⟨?_, ?_, fun v h => ?_, fun m hm => exec_slkMinRead_of_monitorLive hlive hn hmon hm⟩,
      fun n d hn hmon hd => ⟨fun v => ?_, ?_⟩, fun v => ⟨fun h => ?_, fun h hstate hret => ?_⟩,
      fun size => exec_tbWord0Read_of_size hlive,
      fun d hd => ⟨exec_fenceCounterRead_of_dom hlive true hd, exec_fenceCounterRead_of_dom hlive false hd⟩⟩
    · exact exec_slkNegSeenClear_of_clearSeen hlive hn (clearSeen_bit17 hmon)
    · exact exec_slkNegSeenClear_of_clearSeen hlive hn (clearSeen_zero hmon)
    · exact exec_slkNegSeenClear_of_clearSeen hlive hn (clearSeen_reserved hmon h)
    · exact exec_slkNegSeenClear_of_clearSeen hlive hn ((clearSeen_fenced hmon).trans (by rw [hd]; rfl))
    · rw [exec_slkMinRead_of_fenced hlive hn hmon, hd]
      rfl
    · rw [exec_glWakeClear_of_fnLive hlive, clearWake_reserved s h]
    · rw [exec_glWakeClear_of_fnLive hlive, clearWake_inS0 h hstate hret]
  · intro refused
    exact ⟨fun w hpec hlen => ⟨exec_sbRegisterWrite_scratch0 hv hpec hlen, exec_sbRegisterWrite_scratch1 hv hpec hlen,
        exec_sbRegisterWrite_pastTable hv hpec hlen, exec_sbRegisterWrite_readOnly hv hpec hlen⟩,
      fun w => exec_sbRegisterWrite_pecBad hv, fun w => exec_sbRegisterWrite_byteCount hv,
      fun hmode => ⟨fun i => exec_sbSetIndex_of_i3c hv hmode, fun a => exec_sbDynamicAddress_of_i3c hv hmode⟩,
      exec_sbSclTimeout_of_vaux hv, exec_sbRefusedRead_of_vaux hv⟩

end Sys2Proof.Machine

/-! ### Interrupts, functions and the fetch of entries -/
namespace Sys2Proof.Machine

/-! ### Interrupts and Bus Master Enable (R57, R58, R577) -/

section Interrupts
variable {fn : Nat} {s : State}

/-- What MSIX_UNMASK clears or sets in its function. -/
def unmasked (fn : Nat) (u : Unmask) (f : Fn) : Fn :=
  match u with
  | .vector n => if n < vectors fn then msixPut f { msixGet f n with masked := false } else f
  | .functionMask => { f with msixMask := false }
  | .enable => { f with msixEn := true }

theorem exec_msixUnmask_of_fnLive (hlive : fnLive fn s = true) (u : Unmask) :
    exec (.msixUnmask fn u) s = .next (settle (inBand (flushPending fn (updFn fn (unmasked fn u) s)))) := by
  simp only [exec_msixUnmask, execMsixUnmask, hlive, if_true]
  rfl

theorem unmasked_vector {n : Nat} (h : n < vectors fn) :
    unmasked fn (.vector n) = fun f => msixPut f { msixGet f n with masked := false } :=
  funext fun _ => if_pos h

theorem unmasked_noVector {n : Nat} (h : vectors fn ≤ n) : unmasked fn (.vector n) = id :=
  funext fun _ => if_neg (Nat.not_lt.mpr h)

theorem exec_busMasterEnable_of_fnLive (hlive : fnLive fn s = true) :
    let t := (getFn fn s).held.foldl (fun s o => emit o s) (updFn fn (fun f => { f with busMaster := true, held := [] }) s)
    exec (.busMasterEnable fn) s = .next { t with link := { t.link with
      pairs := updIf (fun p => p.fn == fn) (fun p => { p with heldCpl := 0 }) t.link.pairs } } := by
  simp only [exec_busMasterEnable, execBusMasterEnable, hlive, Bool.not_true, Bool.false_eq_true, if_false]

section Coalescing
variable {qid t : Nat} {p : QPair} (hp : getPair fn qid s = some p) (hat : p.coalAt = some t)
include hp hat

theorem exec_coalTimer_of_late (hint : p.intEn = true) (htime : p.coalTime ≠ 0) (h : t + p.coalTime * usT ≤ s.time.mono) :
    exec (.coalTimer fn qid) s = .next (signal fn qid p.vector s) := by
  simp [execCoalTimer, hp, hint, htime, hat, past, h]

theorem exec_coalTimer_of_early (h : s.time.mono < t + p.coalTime * usT) : exec (.coalTimer fn qid) s = .next s := by
  simp [execCoalTimer, hp, hat, past, Nat.not_le.mpr h]

end Coalescing

end Interrupts

/-! ### Functions and their resets (R28 to R32) -/

section Functions
variable {s : State}

theorem exec_functionLevelReset_physical (hlive : fnLive 0 s = true) :
    exec (.functionLevelReset 0) s = .next (settle (countReset 3 (resetPf s))) := by
  simp [execFunctionLevelReset, hlive]

theorem exec_functionLevelReset_virtual {fn : Nat} (hlive : fnLive fn s = true) (h : fn ≠ 0) :
    exec (.functionLevelReset fn) s = .next (settle (countReset 3
      { resetFn fn s with sec := { (resetFn fn s).sec with challenge := none } })) := by
  simp [execFunctionLevelReset, hlive, h]

theorem exec_vfEnableClear_of_fnLive (hlive : fnLive 0 s = true) : exec .vfEnableClear s = .next (settle (clearVfs s)) := by
  simp [execVfEnableClear, hlive]

theorem exec_vfEnableSet_refused {n : Nat}
    (h : n = 0 ∨ 31 < n ∨ (getFn 1 s).enabled = true ∨ s.boot.phase = .understudy) : exec (.vfEnableSet n) s = .next s := by
  have hout : n = 0 ∨ 31 < n → inR 1 n 31 = false := by simp [inR]; omega
  obtain h | h | h | h := h
  · simp [execVfEnableSet, hout (.inl h)]
  · simp [execVfEnableSet, hout (.inr h)]
  · simp [execVfEnableSet, h]
  · simp [execVfEnableSet, h]

/-- A virtual function enabled: it holds a pair while the physical function had one to give. -/
def vfMade (n given i : Nat) (f : Fn) : Fn := if 1 ≤ i ∧ i ≤ n then Fn.reset true (if i ≤ given then 1 else 0) else f

theorem exec_vfEnableSet_of_disabled {n : Nat} (hlive : fnLive 0 s = true) (hlo : 1 ≤ n) (hhi : n ≤ 31)
    (hoff : (getFn 1 s).enabled = false) (hserved : s.boot.phase ≠ .understudy) :
    let given := min n (getFn 0 s).grant
    let t := giveUp 0 given s
    exec (.vfEnableSet n) s = .next (settle { t with link := { t.link with fns := t.link.fns.mapIdx (vfMade n given) } }) := by
  have hn : inR 1 n 31 = true := by simp [inR, hlo, hhi]
  simp only [exec_vfEnableSet, execVfEnableSet, hlive, hn, hoff, beq_false_of_ne hserved, Bool.not_true, Bool.or_false,
    Bool.false_eq_true, if_false]
  simp only [inR, Bool.and_eq_true, decide_eq_true_eq]
  rfl

/-! ### The link (R28) -/

theorem linkFalls_of_down (h : s.link.up = false) : linkFalls s = s := by simp [linkFalls, h]

theorem linkFalls_of_served (h : s.link.up = true) (hquiet : perstLocal s = false) :
    linkFalls s = settle (countReset 3 (resetPf { s with link := { s.link with up := false } })) := by
  simp [linkFalls, h, hquiet]

theorem linkFalls_of_local (h : s.link.up = true) (hquiet : perstLocal s = true) :
    linkFalls s = { s with link := { s.link with up := false } } := by
  simp [linkFalls, h, hquiet]

end Functions

/-! ### SQ_FETCH (R41, R46, R53, R54) -/

section Fetch
variable {s : State}

theorem exec_sqFetch_of_stopped (h : s.link.up = false ∨ s.link.fetchStopped = true ∨ ready s = false) (got : Fetched) :
    exec (.sqFetch got) s = .next s := by
  obtain h | h | h := h <;> simp [execSqFetch, h]

theorem exec_sqFetch_of_noPair (h : arbitrate s = none) (got : Fetched) : exec (.sqFetch got) s = .next s := by
  simp [execSqFetch, h]

variable (hup : s.link.up = true) (hgo : s.link.fetchStopped = false) (hready : ready s = true)
  {p : QPair} {t : State} (harb : arbitrate s = some (p, t))
include hup hgo hready harb

theorem exec_sqFetch_of_badBase (h : p.sqBase.ok = false ∨ p.cqBase.ok = false) (got : Fetched) :
    exec (.sqFetch got) s = .next (settle (baseFault p t)) := by
  obtain h | h := h <;> simp [execSqFetch, hup, hgo, hready, harb, h]

variable (hsq : p.sqBase.ok = true) (hcq : p.cqBase.ok = true)
include hsq hcq

theorem exec_sqFetch_of_readFailed (f : HostFail) :
    exec (.sqFetch (.failed f)) s = .next (updPair p.fn p.qid (fun p => { p with fault := fetchCause f })
      (emit (.fetch p.fn (sqEntryAddr p p.sqHead)) t)) := by
  simp [execSqFetch, hup, hgo, hready, harb, hsq, hcq]

theorem exec_sqFetch_of_entry (e : List Byte) :
    exec (.sqFetch (.entry e)) s = .next (settle (openReq (.queue p.fn p.qid) (padTo 64 (e.take 64))
      (updPair p.fn p.qid (fun p => { p with sqHead := (p.sqHead + 1) % p.sqDepth })
        (emit (.fetch p.fn (sqEntryAddr p p.sqHead)) t)))) := by
  simp [execSqFetch, hup, hgo, hready, harb, hsq, hcq]

end Fetch

/-- Settles O56, by the event, the function it names, and the pair that arbitration selects. -/
theorem functionsAndFetchComplete : Obligations.FunctionsAndFetchComplete := by
  refine ⟨fun fn s hlive => ⟨fun n hn => ?_, fun n hn => ?_, exec_msixUnmask_of_fnLive hlive .functionMask,
      exec_msixUnmask_of_fnLive hlive .enable, exec_busMasterEnable_of_fnLive hlive, fun h => ?_,
      exec_functionLevelReset_virtual hlive⟩,
    fun s hlive => ⟨exec_vfEnableClear_of_fnLive hlive, fun n => exec_vfEnableSet_refused,
      fun n => exec_vfEnableSet_of_disabled hlive⟩,
    fun s => ⟨exec_sqFetch_of_stopped, fun h => ?_, fun h hquiet => ?_, fun h hquiet => ?_,
      fun fn qid p t hp hint htime hat => ⟨exec_coalTimer_of_late hp hat hint htime, exec_coalTimer_of_early hp hat⟩,
      fun hup hgo hready => ⟨exec_sqFetch_of_noPair, fun p t harb => ⟨exec_sqFetch_of_badBase hup hgo hready harb,
        fun hsq hcq => ?_⟩⟩⟩⟩
  · rw [exec_msixUnmask_of_fnLive hlive, unmasked_vector hn]
  · rw [exec_msixUnmask_of_fnLive hlive, unmasked_noVector hn]
  · subst h
    exact exec_functionLevelReset_physical hlive
  · exact congrArg Host.Outcome.next (linkFalls_of_down h)
  · exact congrArg Host.Outcome.next (linkFalls_of_served h hquiet)
  · exact congrArg Host.Outcome.next (linkFalls_of_local h hquiet)
  · have failed := exec_sqFetch_of_readFailed hup hgo hready harb hsq hcq
    exact ⟨⟨failed .error, failed .poison, failed .timeout⟩, exec_sqFetch_of_entry hup hgo hready harb hsq hcq⟩

end Sys2Proof.Machine

/-! ### A refetch that is tried again -/
namespace Sys2Proof.Machine

/-- REFETCH_RETRY when it is due (R425): every package of the slot starts a pass over its own quarantined blocks. -/
theorem exec_refetchRetry_of_due {pkg : Nat} {s : State} {p : Pkg} {r : Refetch} (hp : getPkg pkg s = some p)
    (hr : p.refetch = some r) (hdue : dueOpt r.retryAt s = true) :
    exec (.refetchRetry pkg) s
      = .next (updPkg pkg (fun p => { p with refetch := some { r with retryAt := none, blocks := quarantined p } }) s) := by
  simp [execRefetchRetry, hp, hr, hdue]

/-- The blocks of the passes of every package. -/
def passBlocks (s : State) : List (Option (List Nat)) := s.tile.pkgs.map fun p => p.refetch.map (·.blocks)

/-! Two packages in one slot, of which the second alone has a quarantined block. -/

def quarantinedBlock : TBlock :=
  { off := 0, mode := 0, units := 1, codeLen := 0, crc := 0, quarAt := some 0, dead := false, good := true }

def retryDue : Refetch := { failures := 1, retryAt := some 0, blocks := [] }

def retryingPkg (blocks : List TBlock) : Pkg :=
  { slot := 0, designLevel := 0, digest := [], len := 0
    rs := { tileBytes := 0, clusters := 0, tilesMin := 0, stageBytes := 0, gsuBytes := 0, stackedShared := 0
            stackedPerInst := 0, lookahead := 0, instances := 0, pkgFlags := 0, lateWeightUs := 0, weightTimeoutUs := 0
            flagWaitUs := 0, taskLimitUs := 0, runDeadlineUs := 0 }
    ports := [], layers := [], blocks, sheets := [], scheds := [], schedHeld := [], gsus := [], place := [], below := []
    prefetch := [], late := [], refetched := 0, refetch := some retryDue }

def sharedSlot : State :=
  { State.reset with tile := { State.reset.tile with pkgs := [retryingPkg [], retryingPkg [quarantinedBlock]] } }

theorem getPkg_sharedSlot : getPkg 0 sharedSlot = some (retryingPkg []) := rfl

theorem sharedSlot_due : dueOpt retryDue.retryAt sharedSlot = true := by decide

/-- Refutes O39: its last clause gives every package of the slot the blocks of the first one found, and the model each
package its own. They differ in `sharedSlot`, which the statement does not exclude: it lacks the hypothesis that one
package alone is in the slot. -/
theorem not_memoryEventsComplete : ¬ Obligations.MemoryEventsComplete := by
  intro h
  obtain ⟨-, -, -, -, -, -, hrefetch⟩ := h
  obtain ⟨-, -, hretry⟩ := hrefetch 0 { bytes := [], fail := none } sharedSlot (retryingPkg []) retryDue getPkg_sharedSlot rfl
  have hclaimed := hretry sharedSlot_due
  rw [exec_refetchRetry_of_due getPkg_sharedSlot rfl sharedSlot_due] at hclaimed
  have hblocks : [some [], some [0]] = [some [], some []] := congrArg passBlocks (Host.Outcome.next.inj hclaimed)
  exact absurd hblocks (by decide)

end Sys2Proof.Machine

/-! ### What leaves the allocations as they are -/
namespace Sys2Proof.Machine

section AllocsKept
variable (s : State)

@[simp] theorem updQuota_allocs (fn tier : Nat) (f : Quota → Quota) : (updQuota fn tier f s).mem.allocs = s.mem.allocs := rfl

@[simp] theorem refund_allocs (fn tier n : Nat) : (refund fn tier n s).mem.allocs = s.mem.allocs := rfl

@[simp] theorem addFault_allocs (f : FaultRec) : (addFault f s).mem.allocs = s.mem.allocs := by
  unfold addFault
  (repeat' split) <;> rfl

@[simp] theorem mismatch_allocs (unit index addr : Nat) (src : Nat × Nat) (n : Nat) :
    (mismatch unit index addr src n s).mem.allocs = s.mem.allocs := by simp [mismatch]

@[simp] theorem baseFault_allocs (p : QPair) : (baseFault p s).mem.allocs = s.mem.allocs := by simp [baseFault]

@[simp] theorem postCq_allocs (fn q cid st r0 r1 : Nat) (rbuf solicit : Bool) :
    (postCq fn q cid st r0 r1 rbuf solicit s).mem.allocs = s.mem.allocs := by
  unfold postCq
  split
  · rfl
  · simp only [coalesce_mem]
    (repeat' split) <;> simp

@[simp] theorem post_allocs (q : Req) (st r0 r1 : Nat) (d : Option (List Byte)) :
    (post q st r0 r1 d s).mem.allocs = s.mem.allocs := by
  unfold post
  cases d <;> cases q.src <;> simp [apply_ite State.mem]

@[simp] theorem poisonMet_allocs (slot n : Nat) : (poisonMet slot n s).mem.allocs = s.mem.allocs := by simp [poisonMet]

@[simp] theorem pairMet_allocs (slot n : Nat) : (pairMet slot n s).mem.allocs = s.mem.allocs := by simp [pairMet]

@[simp] theorem sramMet_allocs (b : SramBad) : (sramMet b s).mem.allocs = s.mem.allocs := by
  unfold sramMet
  split <;> simp

@[simp] theorem dropProblem_mem (slot : Nat) : (dropProblem slot s).mem = s.mem := by
  unfold dropProblem
  split
  · rfl
  · dsimp only
    split <;> rfl

@[simp] theorem startReturn_allocs (ds : List Nat) : (startReturn ds s).mem.allocs = s.mem.allocs := by
  unfold startReturn
  refine List.foldlRecOn (motive := fun t : State => t.mem.allocs = s.mem.allocs) _ _ rfl fun t h d _ => ?_
  split <;> exact h

@[simp] theorem endServe_allocs (q : Req) (d : Done) : (endServe q d s).mem.allocs = s.mem.allocs := by
  cases d <;> simp [endServe, markRunning]

end AllocsKept

/-! ### Releases take whole allocations -/

/-- Every allocation left in `t` is as it was in `s`. -/
def AllocsLeft (s t : State) : Prop := ∀ n b, getAlloc n t = some b → getAlloc n s = some b

section Left
variable {s t u : State}

theorem allocsLeft_of_eq (h : t.mem.allocs = s.mem.allocs) : AllocsLeft s t := by simp [AllocsLeft, getAlloc, h]

theorem AllocsLeft.trans (h : AllocsLeft s t) (h' : AllocsLeft t u) : AllocsLeft s u := fun n b hb => h n b (h' n b hb)

/-- Releasing the allocation of one slot leaves those of every other. -/
theorem allocsLeft_of_filter {slot : Nat} (h : t.mem.allocs = s.mem.allocs.filter fun x => !(x.slot == slot)) : AllocsLeft s t := by
  intro n b hb
  rw [getAlloc, h, List.find?_filter] at hb
  obtain ⟨hne, hslot⟩ : b.slot ≠ slot ∧ b.slot = n := by simpa using List.find?_some hb
  have hsame : (fun a : Alloc => decide ((!(a.slot == slot)) = true ∧ (a.slot == n) = true)) = fun a => a.slot == n := by
    funext a
    by_cases ha : a.slot = n
    · simp [ha, ← hslot, hne]
    · simp [ha]
  rw [getAlloc, ← hb, hsame]

theorem allocsLeft_dropRecord (ty slot : Nat) : AllocsLeft s (dropRecord ty slot s) := by
  by_cases hty : ty = 13
  · subst hty
    exact allocsLeft_of_filter rfl
  · refine allocsLeft_of_eq ?_
    unfold dropRecord
    split <;> simp_all [dropStream, freeCsi, dropChan, dropInst, withdrawTasks]

theorem allocsLeft_releaseObj (o : Obj) : AllocsLeft s (releaseObj o s) :=
  (allocsLeft_dropRecord o.ty o.slot).trans (allocsLeft_of_eq (by simp [releaseObj]))

theorem allocsLeft_releaseAll : ∀ (os : List Obj) (s : State), AllocsLeft s (releaseAll os s)
  | [], _ => allocsLeft_of_eq rfl
  | o :: os, s => (allocsLeft_releaseObj o).trans (allocsLeft_releaseAll os (releaseObj o s))

/-! ### What completes after a command leaves allocations as they are -/

theorem allocsLeft_finishRelease {q : Req} (h : finishRelease q s = some t) : AllocsLeft s t := by
  have posted (st r0 r1 : Nat) (os : List Obj) : AllocsLeft s (post q st r0 r1 none (releaseAll os s)) :=
    (allocsLeft_releaseAll os s).trans (allocsLeft_of_eq (post_allocs ..))
  unfold finishRelease at h
  dsimp only at h
  split at h
  · cases h
  · split at h <;> cases h <;> exact posted _ _ _ _

theorem allocsLeft_finishWait {q : Req} (h : finishWait q s = some t) : AllocsLeft s t := by
  unfold finishWait at h
  split at h
  · cases h
  · split at h
    · cases h
    · split at h
      · cases h
      · cases h
        exact allocsLeft_of_eq (by simp)

theorem allocsLeft_settleOne : ∀ {qs : List Req}, settleOne qs s = some t → AllocsLeft s t
  | q :: qs, h => by
    rw [settleOne] at h
    split at h
    · next hr => cases h; exact allocsLeft_finishRelease hr
    · split at h
      · next hw => cases h; exact allocsLeft_finishWait hw
      · exact allocsLeft_settleOne h

theorem allocsLeft_settleN : ∀ (n : Nat) (s : State), AllocsLeft s (settleN n s)
  | 0, _ => allocsLeft_of_eq rfl
  | n + 1, s => by
    rw [settleN]
    split
    · exact allocsLeft_of_eq rfl
    · next t ht => exact (allocsLeft_settleOne ht).trans (allocsLeft_settleN n t)

theorem allocsLeft_settle : AllocsLeft s (settle s) :=
  (allocsLeft_releaseAll _ s).trans (allocsLeft_settleN _ (sweepCals s))

end Left

/-! ### What a refusal leaves behind -/

/-- A change that leaves every allocation as it is. -/
structure KeepsAllocs (f : State → State) : Prop where
  same : ∀ s, (f s).mem.allocs = s.mem.allocs

/-- A check whose refusal leaves every allocation as it is. -/
def RefusalKeepsAllocs {α : Type} (e : Except Fail α) : Prop := ∀ f, e = .error f → KeepsAllocs f.fx

section Refusals
variable {α β : Type} {s : State} {q : Req} {io : Io}

@[simp] theorem refusalKeepsAllocs_ok {a : α} : RefusalKeepsAllocs (.ok a : Except Fail α) := fun _ h => by cases h

@[simp] theorem refusalKeepsAllocs_pure {a : α} : RefusalKeepsAllocs (pure a : Except Fail α) := fun _ h => by cases h

@[simp] theorem refusalKeepsAllocs_error {f : Fail} :
    RefusalKeepsAllocs (.error f : Except Fail α) ↔ KeepsAllocs f.fx :=
  ⟨fun h => h f rfl, fun h _ e => by cases e; exact h⟩

@[simp] theorem keepsAllocs_err {st : Nat} : KeepsAllocs (err st).fx := ⟨fun _ => rfl⟩

@[simp] theorem keepsAllocs_fitFail {code short : Nat} : KeepsAllocs (fitFail code short).fx := ⟨fun _ => rfl⟩

@[simp] theorem keepsAllocs_sramMet {b : SramBad} : KeepsAllocs (sramMet b) := ⟨fun _ => sramMet_allocs ..⟩

@[simp] theorem keepsAllocs_mismatch {unit index addr n : Nat} {src : Nat × Nat} : KeepsAllocs (mismatch unit index addr src n) :=
  ⟨fun _ => mismatch_allocs ..⟩

@[simp] theorem keepsAllocs_pairMet {slot n : Nat} : KeepsAllocs (pairMet slot n) := ⟨fun _ => pairMet_allocs ..⟩

@[simp] theorem refusalKeepsAllocs_need {b : Bool} {f : Fail} (h : KeepsAllocs f.fx) :
    RefusalKeepsAllocs (need b f) := by
  cases b <;> simp [need, h]

theorem refusalKeepsAllocs_bind {e : Except Fail β} {k : β → Except Fail α} (he : RefusalKeepsAllocs e)
    (hk : ∀ b, RefusalKeepsAllocs (k b)) : RefusalKeepsAllocs (e >>= k) := by
  cases e with
  | error f => exact fun g h => by cases h; exact he f rfl
  | ok b => exact hk b

theorem refusalKeepsAllocs_map {e : Except Fail β} {k : β → α} (he : RefusalKeepsAllocs e) : RefusalKeepsAllocs (e.map k) := by
  cases e with
  | error f => exact fun g h => by cases h; exact he f rfl
  | ok b => exact refusalKeepsAllocs_ok

theorem refusalKeepsAllocs_both {a : Except Fail α} {b : Except Fail β} (ha : RefusalKeepsAllocs a)
    (hb : RefusalKeepsAllocs b) : RefusalKeepsAllocs (both a b) := by
  intro f h
  cases a with
  | ok x =>
    cases b with
    | ok y => cases h
    | error g => cases h; exact hb _ rfl
  | error g =>
    cases b with
    | ok y => cases h; exact ha _ rfl
    | error g' =>
      cases h
      split
      · exact hb _ rfl
      · exact ha _ rfl

/-! The checks of validation (Table 3.4): an error of management SRAM alone leaves something, and no allocation of it. -/

theorem refusalKeepsAllocs_sramCheck : RefusalKeepsAllocs (sramCheck io) := by
  unfold sramCheck
  split <;> simp

theorem refusalKeepsAllocs_lookupHandle {tys : List Nat} {fn h : Nat} {cl : Bool} :
    RefusalKeepsAllocs (lookupHandle tys fn cl h s) := by
  simp only [lookupHandle]
  (repeat' split) <;> simp

theorem refusalKeepsAllocs_handleCheck {h : HandleReq} : RefusalKeepsAllocs (handleCheck h q s) := by
  unfold handleCheck
  (repeat' split) <;> simp [refusalKeepsAllocs_map, refusalKeepsAllocs_lookupHandle]

theorem refusalKeepsAllocs_adminCheck {h : HandleReq} {o : Option Obj} : RefusalKeepsAllocs (adminCheck h q o s) := by
  unfold adminCheck
  split <;> simp

theorem refusalKeepsAllocs_readPayload : RefusalKeepsAllocs (readPayload q io s) := by
  simp only [readPayload]
  (repeat' split) <;> simp

theorem refusalKeepsAllocs_validate {ci : CmdInfo} (hh : ∀ c, RefusalKeepsAllocs (ci.hands c s)) :
    RefusalKeepsAllocs (validate ci q io s) := by
  unfold validate
  refine refusalKeepsAllocs_bind refusalKeepsAllocs_sramCheck fun _ => ?_
  (repeat' (first | refine refusalKeepsAllocs_bind ?_ (fun _ => ?_) | split)) <;>
    simp [hh, refusalKeepsAllocs_both, refusalKeepsAllocs_handleCheck, refusalKeepsAllocs_adminCheck,
      refusalKeepsAllocs_readPayload, resCheck, cbBus]

end Refusals

/-! ### Commands that leave every allocation as it is -/

section Commands
variable {ci : CmdInfo} {body : Body} {r : ReqRef} {io : Io} {s t : State} {q : Req} {c : Ctx}

/-- The own steps of a command that leave every allocation as it is. -/
def BodyKeepsAllocs (body : Body) (c : Ctx) (s : State) : Prop :=
  RefusalKeepsAllocs (body c s) ∧ ∀ s' d, body c s = .ok (s', d) → s'.mem.allocs = s.mem.allocs

theorem allocsLeft_of_settle {u : State} (h : (.next (settle u) : Result) = .next t) : AllocsLeft u t := by
  cases h
  exact allocsLeft_settle

theorem allocsLeft_of_ready (ready : IsReady ci r io s q c) (hbody : BodyKeepsAllocs body c s)
    (h : serve ci body r io s = .next t) : AllocsLeft s t := by
  obtain ⟨hrefuse, hdone⟩ := hbody
  cases hb : body c s with
  | error f =>
    rw [serve_of_refused ready hb] at h
    exact (allocsLeft_of_eq (by simp [(hrefuse f hb).same])).trans (allocsLeft_of_settle h)
  | ok x =>
    obtain ⟨s', d⟩ := x
    rw [serve_of_ready ready hb] at h
    exact (allocsLeft_of_eq (by simp [hdone s' d hb])).trans (allocsLeft_of_settle h)

theorem runBody_allocs (hbody : BodyKeepsAllocs body c s) : (runBody ci body q c s).mem.allocs = s.mem.allocs := by
  obtain ⟨hrefuse, hdone⟩ := hbody
  unfold runBody
  cases hb : body c s with
  | error f =>
    dsimp only
    split <;> simp [(hrefuse f hb).same]
  | ok x =>
    obtain ⟨s', d⟩ := x
    dsimp only
    (repeat' split) <;> simp [hdone s' d hb]

theorem allocsLeft_of_serve (hh : ∀ c, RefusalKeepsAllocs (ci.hands c s)) (hbody : ∀ c, BodyKeepsAllocs body c s)
    (h : serve ci body r io s = .next t) : AllocsLeft s t := by
  unfold serve at h
  split at h
  · cases h
    exact allocsLeft_of_eq rfl
  · refine (allocsLeft_of_eq ?_).trans (allocsLeft_of_settle h)
    split
    · next f hf => simp [(refusalKeepsAllocs_validate hh f hf).same]
    · exact runBody_allocs (hbody _)

theorem bodyMemQuotaSet_keepsAllocs : BodyKeepsAllocs bodyMemQuotaSet c s :=
  ⟨refusalKeepsAllocs_ok, fun s' d h => by cases h; rfl⟩

theorem bodyMemStats_keepsAllocs : BodyKeepsAllocs bodyMemStats c s :=
  ⟨refusalKeepsAllocs_ok, fun s' d h => by cases h; rfl⟩

theorem bodyMemQuotaQuery_keepsAllocs : BodyKeepsAllocs bodyMemQuotaQuery c s := by
  refine ⟨refusalKeepsAllocs_bind (refusalKeepsAllocs_need (by simp)) fun _ => refusalKeepsAllocs_ok, fun s' d h => ?_⟩
  unfold bodyMemQuotaQuery at h
  cases hpair : quotaPair (prm c 12 1) (prm c 13 1) 1 s with
  | error f => simp [hpair, bind, Except.bind] at h
  | ok x =>
    simp only [hpair, bind, Except.bind] at h
    cases h
    rfl

end Commands
end Sys2Proof.Machine

/-! ### What a copy in and a window write store -/
namespace Sys2Proof.Machine

section Stored
variable {s t : State}

/-- A byte of an allocation after a write, by whether the write covers it. -/
theorem memGet_write {a : Alloc} {off x : Nat} {bs : List Byte} (h : Mem.wf a.mem = true) :
    memGet (a.write off bs).mem x = if off ≤ x ∧ x < off + bs.length then bs[x - off]?.getD 0 else memGet a.mem x := by
  show memGet (memWrite a.mem off bs) x = _
  split
  · next hin =>
    obtain ⟨i, rfl⟩ := Nat.exists_eq_add_of_le hin.1
    rw [memGet_memWrite_in h (by omega), Nat.add_sub_cancel_left]
  · exact memGet_memWrite_out h (by omega)

/-- A changed allocation reads as the change says, and every other as before. -/
theorem getAlloc_updAlloc {n slot : Nat} {f : Alloc → Alloc} (hf : ∀ a, (f a).slot = a.slot) :
    getAlloc n (updAlloc slot f s) = (getAlloc n s).map fun a => if a.slot = slot then f a else a := by
  have hslot : ((fun a : Alloc => a.slot == n) ∘ fun a => if a.slot = slot then f a else a) = fun a => a.slot == n := by
    funext a
    by_cases ha : a.slot = slot <;> simp [ha, hf]
  simp only [getAlloc, updAlloc, updIf, beq_iff_eq, List.find?_map, hslot]

theorem getAlloc_wf (h : s.memsOk = true) {n : Nat} {a : Alloc} (ha : getAlloc n s = some a) : Mem.wf a.mem = true := by
  simp only [State.memsOk, Bool.and_eq_true, List.all_eq_true] at h
  obtain ⟨⟨-, hallocs⟩, -⟩ := h
  exact hallocs a (List.mem_of_find?_eq_some ha)

/-- What is left after a write reads as before, but for the bytes written, which read as given. -/
theorem stored_of_write {slot off : Nat} {bs : List Byte} (hok : s.memsOk = true)
    (hleft : AllocsLeft (updAlloc slot (Alloc.write off bs) s) t) (n : Nat) (b : Alloc) (hb : getAlloc n t = some b) :
    ∃ a, getAlloc n s = some a ∧ ∀ x, memGet b.mem x
      = if n = slot ∧ off ≤ x ∧ x < off + bs.length then bs[x - off]?.getD 0 else memGet a.mem x := by
  have hwritten := hleft n b hb
  rw [getAlloc_updAlloc (f := Alloc.write off bs) fun _ => rfl] at hwritten
  obtain ⟨a, ha, rfl⟩ := Option.map_eq_some_iff.mp hwritten
  have hslot : a.slot = n := by simpa using List.find?_some ha
  refine ⟨a, ha, fun x => ?_⟩
  by_cases h : n = slot
  · simp [hslot, h, memGet_write (getAlloc_wf hok ha)]
  · simp [hslot, h]

/-- What is left after a command that writes no allocation reads as before. -/
theorem same_of_allocsLeft (hleft : AllocsLeft s t) (n : Nat) (b : Alloc) (hb : getAlloc n t = some b) :
    ∃ a, getAlloc n s = some a ∧ ∀ x, memGet b.mem x = memGet a.mem x := ⟨b, hleft n b hb, fun _ => rfl⟩

end Stored

/-! ### MEM_COPY (R108) -/

section Copy
variable {c : Ctx} {s : State} {a : Alloc} (ha : getAlloc (objSlot c) s = some a) (hbus : (getFn c.fn s).busMaster = true)
include ha hbus

theorem bodyMemCopy_in (hdir : prm c 20 1 = 0) (hplain : a.sealed.isNone = true) :
    bodyMemCopy c s = .ok (copyIn c a s) := by
  simp only [bodyMemCopy, allocArg, ha, hbus, hdir, hplain, need, bind, Except.bind, if_true]

theorem bodyMemCopy_out (hdir : prm c 20 1 = 1) : bodyMemCopy c s
    = if a.pairBad (prm c 8 8) (prm c 16 4) then .error { err stIntegrity with fx := pairMet a.slot 1 } else .ok (copyOut c a s) := by
  simp only [bodyMemCopy, allocArg, ha, hbus, hdir, need, bind, Except.bind, if_true, if_neg Nat.one_ne_zero]
  cases a.pairBad (prm c 8 8) (prm c 16 4) <;> rfl

end Copy

section CopyEffect
variable {c : Ctx} {s : State}

theorem copyIn_fst (a : Alloc) :
    (copyIn c a s).1 = updAlloc a.slot (Alloc.write (prm c 8 8) (c.io.payload.bytes.take (prm c 16 4))) s := by
  unfold copyIn
  dsimp only
  split <;> rfl

theorem copyOut_allocs (a : Alloc) : (copyOut c a s).1.mem.allocs = s.mem.allocs := by
  unfold copyOut
  dsimp only
  split <;> simp

theorem bodyMemCopy_out_keepsAllocs (hbus : (getFn c.fn s).busMaster = true) (hdir : prm c 20 1 = 1) :
    BodyKeepsAllocs bodyMemCopy c s := by
  cases ha : getAlloc (objSlot c) s with
  | none =>
    have hbody : bodyMemCopy c s = .error (err stState) := by
      simp only [bodyMemCopy, allocArg, ha]
      rfl
    exact ⟨by simp [hbody], fun s' d h => by rw [hbody] at h; cases h⟩
  | some a =>
    have hbody := bodyMemCopy_out ha hbus hdir
    by_cases hbad : a.pairBad (prm c 8 8) (prm c 16 4) = true
    · rw [if_pos hbad] at hbody
      exact ⟨by simp [hbody], fun s' d h => by rw [hbody] at h; cases h⟩
    · rw [if_neg hbad] at hbody
      exact ⟨by simp [hbody], fun s' d h => by rw [← copyOut_allocs (s := s) a, Except.ok.inj (hbody.symm.trans h)]⟩

/-- What is left after a copy from the host is left of the state with the host's bytes written. -/
theorem allocsLeft_of_copyIn {r : ReqRef} {io : Io} {q : Req} {t : State} (ready : IsReady iMemCopy r io s q c)
    (hbus : (getFn c.fn s).busMaster = true) (hdir : prm c 20 1 = 0)
    (hplain : ((getAlloc (objSlot c) s).any fun a => a.sealed.isNone) = true) (h : exec (.memCopy r io) s = .next t) :
    AllocsLeft (updAlloc (objSlot c) (Alloc.write (prm c 8 8) (c.io.payload.bytes.take (prm c 16 4))) s) t := by
  obtain ⟨a, ha, hunsealed⟩ := (Option.any_eq_true ..).mp hplain
  have hslot : a.slot = objSlot c := by simpa using List.find?_some ha
  have hbody : bodyMemCopy c s = .ok ((copyIn c a s).1, (copyIn c a s).2) := bodyMemCopy_in ha hbus hdir hunsealed
  rw [exec_memCopy, execMemCopy, serve_of_ready ready hbody] at h
  rw [← hslot, ← copyIn_fst]
  exact (allocsLeft_of_eq (endServe_allocs ..)).trans (allocsLeft_of_settle h)

end CopyEffect

/-! ### BAR4 (R35, R36) -/

section Window
variable {off : Nat} {s t : State}

theorem exec_bar4Access_write {bs : List Byte} {a : Alloc} {o : Nat} (hup : s.link.up = true)
    (hhit : bar4Hit off bs.length s = some (a, o)) :
    exec (.bar4Access off (.write bs)) s = .next (settle (updAlloc a.slot (Alloc.write o bs) s)) := by
  simp only [exec_bar4Access, execBar4Access, hup, hhit, Bool.not_true, Bool.false_eq_true, if_false]
  rfl

theorem allocsLeft_of_bar4Read {len : Nat} (h : exec (.bar4Access off (.read len)) s = .next t) : AllocsLeft s t := by
  refine (allocsLeft_of_eq ?_).trans (allocsLeft_of_settle h)
  split
  · rfl
  · dsimp only
    split
    · rfl
    · split <;> simp

end Window

/-- Settles O40: what completes after a command takes whole allocations away and changes none, so what is left reads as
the command's own write, if it makes one, says. -/
theorem copiesStoreOnlyTheirBytes : Obligations.CopiesStoreOnlyTheirBytes := by
  intro s t hok same stored
  refine ⟨fun r io q c ready hbus h => ⟨fun hdir hplain => ?_, fun hdir => ?_⟩, fun off bs a o hup hhit _ h => ?_,
    fun off len h => same_of_allocsLeft (allocsLeft_of_bar4Read h), fun r io h => ?_⟩
  · exact stored_of_write hok (allocsLeft_of_copyIn ready hbus hdir hplain h)
  · exact same_of_allocsLeft (allocsLeft_of_ready ready (bodyMemCopy_out_keepsAllocs hbus hdir) h)
  · rw [exec_bar4Access_write hup hhit] at h
    exact stored_of_write hok (allocsLeft_of_settle h)
  · have plain (ci : CmdInfo) (body : Body) (hh : ∀ c, RefusalKeepsAllocs (ci.hands c s))
        (hbody : ∀ c, BodyKeepsAllocs body c s) (h : serve ci body r io s = .next t) : same :=
      same_of_allocsLeft (allocsLeft_of_serve hh hbody h)
    obtain h | h | h := h
    · exact plain iMemQuotaSet bodyMemQuotaSet (fun _ => refusalKeepsAllocs_ok) (fun _ => bodyMemQuotaSet_keepsAllocs) h
    · exact plain iMemQuotaQuery bodyMemQuotaQuery (fun _ => refusalKeepsAllocs_ok) (fun _ => bodyMemQuotaQuery_keepsAllocs) h
    · exact plain iMemStats bodyMemStats (fun _ => refusalKeepsAllocs_ok) (fun _ => bodyMemStats_keepsAllocs) h

end Sys2Proof.Machine

/-! ### Group 0x00: what is read; sessions, aborts and resets -/
namespace Sys2Proof.Machine

section Ready
variable {ci : CmdInfo} {body : Body} {r : ReqRef} {io : Io} {s s' : State} {q : Req} {c : Ctx}

/-- A ready command whose own steps end with a completion is answered with it. -/
theorem serve_reply {st r0 r1 : Nat} {d : Option (List Byte)} (ready : IsReady ci r io s q c)
    (hb : body c s = .ok (s', .reply st r0 r1 d)) : serve ci body r io s = answered q st r0 r1 d s' :=
  serve_of_ready ready hb

/-- A ready command whose own steps end with a wait goes on. -/
theorem serve_wait (ready : IsReady ci r io s q c) (hb : body c s = .ok (s', .wait)) : serve ci body r io s = goesOn q s' :=
  serve_of_ready ready hb

theorem IsReady.validated (ready : IsReady ci r io s q c) : validate ci q io s = .ok c := by
  have hq := ready.startable
  simp only [IsReady, readyCtx, hq] at ready
  cases hv : validate ci q io s with
  | error f => simp [hv] at ready
  | ok c0 =>
    obtain ⟨-, rfl⟩ : _ ∧ c0 = c := by simpa [hv] using ready
    rfl

/-- A check that holds lets the steps after it go on. -/
theorem need_bind {α : Type} {b : Bool} {f : Fail} {k : Unit → Except Fail α} (h : b = true) : (need b f >>= k) = k () := by
  rw [h]
  rfl

end Ready

section AdmReads
variable {s : State} {c : Ctx}

theorem bodyAdmQueueQuery_of_uncreated (h : getPair c.fn (prm c 0 2) s = none) : bodyAdmQueueQuery c s = .ok (s, okR 0 0) := by
  simp only [bodyAdmQueueQuery, h]

theorem bodyAdmQueueQuery_of_created {p : QPair} (h : getPair c.fn (prm c 0 2) s = some p) :
    bodyAdmQueueQuery c s = .ok (s, okR (1 + (if p.fault = 0 then 0 else 2) + p.fault * 256) p.sqHead) := by
  simp only [bodyAdmQueueQuery, h]

/-- How ADM_HANDLE_QUERY tells the state of an object (R77, R78). -/
def stateCode : ObjState → Nat
  | .live => 1
  | .closing _ => 2
  | .orphan => 3

theorem bodyAdmHandleQuery_of_object {o : Obj} (h : c.obj = some o) :
    bodyAdmHandleQuery c s = .ok (s, okR (dependants o.ty o.slot s).length (stateCode o.st)) := by
  simp only [bodyAdmHandleQuery, h]
  rfl

theorem bodyAdmEventWait_of_few
    (h : (s.link.reqs.filter fun x => x.opcode == 0x000E && x.phase == .running && x.handle == c.q.handle).length < 16) :
    bodyAdmEventWait c s = .ok (s, .wait) := need_bind (decide_eq_true h)

end AdmReads

/-- Settles O6: the first two commands have no check of their own, and each other answers by what the handle, the pair or
the open waits are. -/
theorem admReadCommandsComplete : Obligations.AdmReadCommandsComplete := by
  intro r io s q c
  refine ⟨fun ready => serve_reply ready rfl, fun ready => serve_reply ready rfl,
    fun ready hnone => serve_reply ready (bodyAdmQueueQuery_of_uncreated hnone),
    fun p ready hp => serve_reply ready (bodyAdmQueueQuery_of_created hp), fun o ready ho => ?_,
    fun ready hfew => serve_wait ready (bodyAdmEventWait_of_few hfew)⟩
  have done : exec (.admHandleQuery r io) s = answered q stOk (dependants o.ty o.slot s).length (stateCode o.st) none s :=
    serve_reply ready (bodyAdmHandleQuery_of_object ho)
  exact ⟨fun h => by rwa [h] at done, fun x h => by rwa [h] at done, fun h => by rwa [h] at done⟩

section Sessions
variable {s : State} {c : Ctx}

/-- The session that ADM_SESSION_OPEN adds (R92). -/
def openedSession (c : Ctx) (slot : Nat) (admin : Bool) (events : List Event) (lost : Nat) : Session :=
  { slot, tag := prm c 0 8, holdS := prm c 8 4, admin, close := none, events, lost }

section Opening
variable (hall : countType 1 s < 1024) (hfn : (s.obj.objs.filter fun o => o.ty == 1 && o.fn == c.fn).length < 256)
include hall hfn

theorem bodyAdmSessionOpen_plain (hplain : (prm c 12 1).testBit 0 = false) :
    let n := newObj 1 (2 ^ 32) c.fn none [] false 0 0 s
    bodyAdmSessionOpen c s
      = .ok ({ n.2.2 with obj.sessions := n.2.2.obj.sessions ++ [openedSession c n.1 false [] 0] }, okR n.1 n.2.1) := by
  simp only [bodyAdmSessionOpen, hplain, limitCheck]
  exact (need_bind rfl).trans ((need_bind (decide_eq_true hall)).trans (need_bind (decide_eq_true hfn)))

/-- The first administrator takes the device queue over (R504). -/
theorem bodyAdmSessionOpen_admin (hadmin : (prm c 12 1).testBit 0 = true) (hfirst : adminSession s = none) :
    let n := newObj 1 (2 ^ 32) c.fn none [] false 0 0 s
    bodyAdmSessionOpen c s = .ok ({ n.2.2 with obj := { n.2.2.obj with
      sessions := n.2.2.obj.sessions ++ [openedSession c n.1 true n.2.2.obj.devEvents n.2.2.obj.devLost]
      devEvents := [], devLost := 0 } }, okR n.1 n.2.1) := by
  simp only [bodyAdmSessionOpen, hadmin, hfirst, limitCheck]
  exact (need_bind rfl).trans ((need_bind (decide_eq_true hall)).trans (need_bind (decide_eq_true hfn)))

end Opening

theorem bodyAdmSessionAdopt_of_orphan {o : Obj} (ho : adoptArg c s = .ok o) (horphan : o.st = .orphan) :
    let pool := s.obj.objs.filter fun x => x.st == .orphan
    let l := withDeps pool pool.length [o]
    let take (x : Obj) : Obj := if hasObj l x then { x with sess := some (objSlot c), st := .live, holdAt := none } else x
    bodyAdmSessionAdopt c s = .ok ({ s with obj.objs := s.obj.objs.map take }, okR l.length 0) := by
  simp only [bodyAdmSessionAdopt, ho]
  exact need_bind (beq_iff_eq.mpr horphan)

/-- The request that ADM_ABORT names (R97). -/
def abortRef (c : Ctx) : ReqRef := { src := .queue c.fn (prm c 0 2), cid := prm c 2 2 }

theorem bodyAdmAbort_of_open {x : Req} (hother : abortRef c ≠ reqRef c.q) (hx : findReq (abortRef c) s = some x) :
    bodyAdmAbort c s = .ok (cancel x stAborted s, okR 0 0) := by
  rw [abortRef] at hother hx
  simp only [bodyAdmAbort, if_neg hother, hx]

theorem bodyAdmAbort_of_none (h : abortRef c = reqRef c.q ∨ findReq (abortRef c) s = none) :
    bodyAdmAbort c s = .ok (s, okR 1 0) := by
  rw [abortRef] at h
  obtain h | h := h <;> simp [bodyAdmAbort, h]

/-! ### The warm reset and the reset of a domain (R98, R493, R494, R502) -/

theorem exec_admResetWarm_of_ready {r : ReqRef} {io : Io} {q : Req} (ready : IsReady iAdmResetWarm r io s q c) :
    let t := post q stOk 0 0 none { s with link := { s.link with fetchStopped := true } }
    exec (.admResetWarm r io) s = .next (if s.boot.phase == .understudy then leaveUnderstudy t else warmReset 0 t) := by
  have hq : startable 0x000C r s = some q := ready.startable
  simp only [exec_admResetWarm, execAdmResetWarm, hq, ready.validated, post_boot]

theorem bodyAdmResetDomain_of_switched (hpcie : prm c 0 1 ≠ 91) (hrun : (getDom (prm c 0 1) s).run = none)
    (htest : (getDom (prm c 0 1) s).test ≠ 2) :
    bodyAdmResetDomain c s = .ok (if domOn (prm c 0 1) s then countReset 4 (resetCommon (abortDomain (prm c 0 1) s)) else s,
      okR 0 0) := by
  refine (need_bind (by simp [hpcie, hrun, htest])).trans ?_
  unfold domOn
  cases (getDom (prm c 0 1) s).on <;> cases (getDom (prm c 0 1) s).returning <;> rfl

end Sessions

/-- Settles O8: each command's own checks hold, so it does its steps and is answered or goes on. -/
theorem admSessionAndResetCommandsComplete : Obligations.AdmSessionAndResetCommandsComplete := by
  intro r io s q c
  refine ⟨fun ready hall hfn => ⟨fun hplain => serve_reply ready (bodyAdmSessionOpen_plain hall hfn hplain),
      fun hadmin hfirst => serve_reply ready (bodyAdmSessionOpen_admin hall hfn hadmin hfirst)⟩,
    fun x ready hx => serve_wait ready ?_,
    fun o ready ho horphan => serve_reply ready (bodyAdmSessionAdopt_of_orphan ho horphan),
    fun ready => ⟨fun x hother hx => serve_reply ready (bodyAdmAbort_of_open hother hx),
      fun h => serve_reply ready (bodyAdmAbort_of_none h)⟩,
    fun ready hrun => ?_, fun ready hus => ?_, fun ready hpcie hrun htest => ?_⟩
  · simp only [bodyAdmSessionClose, hx]
  · rw [exec_admResetWarm_of_ready ready, hrun]
    rfl
  · rw [exec_admResetWarm_of_ready ready, hus]
    rfl
  · have done := bodyAdmResetDomain_of_switched hpcie hrun htest
    exact ⟨fun hon => serve_reply ready (done.trans (by rw [if_pos hon]; rfl)),
      fun hoff => serve_reply ready (done.trans (by rw [hoff]; rfl))⟩

end Sys2Proof.Machine

/-! ### The commands of allocations and quotas -/
namespace Sys2Proof.Machine

section MemAlloc
variable {s : State} {c : Ctx}

/-- The record of a new allocation (R102), placed in a tier and a cluster. -/
def newAlloc (slot : Nat) (a : AllocArgs) (onchip : Bool) (cluster : Nat) : Alloc :=
  { slot, size := a.size, onchip, flags := a.flags, align := a.align, cluster, mapped := none, sealed := none, mem := []
    poison := [], badPair := [] }

theorem bodyMemAlloc_of_room {on : Bool} {cl : Nat} {t : State} (hplace : placeAlloc c.fn (allocArgs c) s = (on, cl, t)) :
    let a := allocArgs c
    let tier := if on then 0 else 1
    let n := occupied on (a.flags.testBit 5) a.size
    quotaPair c.fn tier n t = .ok () → countType 13 t < 65536 → quotaOver c.fn tier n t = 0 →
    (on = true → n ≤ extent cl t) → (on = false → n ≤ stackedFree t) →
    let w := newObj 13 (2 ^ 32) c.fn c.sess [] (a.flags.testBit 4) (if on then n else 0) (if on then 0 else n) t
    let s1 := charge c.fn tier n w.2.2
    bodyMemAlloc c s
      = .ok ({ s1 with mem.allocs := s1.mem.allocs ++ [newAlloc w.1 a on cl] }, okR w.1 w.2.1) := by
  intro a tier n hpair hcount hquota honchip hstacked
  simp only [bodyMemAlloc, hplace]
  refine (congrArg (· >>= _) hpair).trans ?_
  refine (need_bind (decide_eq_true hcount)).trans ((need_bind (beq_iff_eq.mpr hquota)).trans ?_)
  cases on with
  | true => exact need_bind (beq_iff_eq.mpr (Nat.sub_eq_zero_of_le (honchip rfl)))
  | false => exact need_bind (beq_iff_eq.mpr (Nat.sub_eq_zero_of_le (hstacked rfl)))

end MemAlloc

/-! ### Commands on an allocation (R108, R109, R111, R415) -/

/-- How many blocks the units of a sealed allocation are stored in, by a free value: from one for sixteen units to one
for each. -/
def storedBlocks (units x : Nat) : Nat := ceilDiv units 16 + x % (units - ceilDiv units 16 + 1)

theorem storedBlocks_le {units x : Nat} (h : ceilDiv units 16 ≤ units) : storedBlocks units x ≤ units := by
  have hx : x % (units - ceilDiv units 16 + 1) < units - ceilDiv units 16 + 1 := Nat.mod_lt _ (Nat.succ_pos _)
  unfold storedBlocks
  omega

section Allocs
variable {s : State} {c : Ctx} {a : Alloc}

theorem copyIn_read (h : c.io.payload.fail = none) :
    let bs := c.io.payload.bytes.take (prm c 16 4)
    copyIn c a s = (updAlloc a.slot (Alloc.write (prm c 8 8) bs) s, okR bs.length 0) := by
  simp only [copyIn, h]

theorem copyIn_cut {f : HostFail} (h : c.io.payload.fail = some f) :
    let bs := c.io.payload.bytes.take (prm c 16 4)
    copyIn c a s = (updAlloc a.slot (Alloc.write (prm c 8 8) bs) s, .reply (readFail f) bs.length 0 none) := by
  simp only [copyIn, h]

theorem copyOut_clean (h : a.firstPoison (prm c 8 8) (prm c 16 4) = none) :
    copyOut c a s = (dma c.fn (prm c 0 8) (memRead a.mem (prm c 8 8) (prm c 16 4)) s, okR (prm c 16 4) 0) := by
  simp only [copyOut, h]

theorem copyOut_poisoned {w : Nat} (h : a.firstPoison (prm c 8 8) (prm c 16 4) = some w) :
    let n := 4 * w - prm c 8 8
    copyOut c a s
      = (poisonMet a.slot 1 (dma c.fn (prm c 0 8) (memRead a.mem (prm c 8 8) n) s), .reply stMedia n 0 none) := by
  simp only [copyOut, h]

/-- An object without dependants is closing until what names it has ended (R77, R78). -/
theorem releaseBody_of_noDependants {o : Obj} (ho : c.obj = some o) (hdeps : dependants o.ty o.slot s = []) :
    releaseBody c s = .ok (updObj o.ty o.slot (fun x => { x with st := .closing (some (reqRef c.q)) }) s, .wait) := by
  simp only [releaseBody, ho, hdeps]
  rfl

variable (ha : getAlloc (objSlot c) s = some a)
include ha

theorem allocArg_of_found : allocArg c s = .ok a := by
  simp only [allocArg, ha]

theorem bodyMemCopy_out_of_good (hbus : (getFn c.fn s).busMaster = true) (hdir : prm c 20 1 = 1)
    (hpair : a.pairBad (prm c 8 8) (prm c 16 4) = false) : bodyMemCopy c s = .ok (copyOut c a s) := by
  rw [bodyMemCopy_out ha hbus hdir, hpair]
  rfl

theorem bodyMemSeal_of_clean (hc : a.compress = true) (hseal : a.sealed = none) (hclean : a.poison = []) :
    let n := storedBlocks (ceilDiv a.size 4096) (draw s).1
    bodyMemSeal c s
      = .ok (recharge 13 a.slot 0 (n * 4096) (updAlloc a.slot (fun a => { a with sealed := some n }) (draw s).2), okR n 0) := by
  simp only [bodyMemSeal, allocArg_of_found ha]
  exact (need_bind (by simp [hc, hseal])).trans (need_bind (by simp [hclean]))

section Map
variable (hst : a.tierStacked = true) (hc : a.compress = false) (hcrit : a.critical = false) (hfree : a.mapped = none)
include hst hc hcrit hfree

theorem bodyMemMapBar4_asked (hasked : prm c 0 4 ≠ 0xFFFFFFFF) (hfits : windowFree (prm c 0 4) (pagesOf a) s = true) :
    bodyMemMapBar4 c s = .ok (updAlloc a.slot (fun a => { a with mapped := some (prm c 0 4) }) s, okR (prm c 0 4) 0) := by
  simp only [bodyMemMapBar4, allocArg_of_found ha]
  refine (need_bind (by simp [hst, hc, hcrit, hfree])).trans ?_
  rw [if_neg hasked]
  exact need_bind hfits

theorem bodyMemMapBar4_chosen {p : Nat} {s' : State} (hany : prm c 0 4 = 0xFFFFFFFF)
    (hp : windowChoice (pagesOf a) s = (some p, s')) :
    bodyMemMapBar4 c s = .ok (updAlloc a.slot (fun a => { a with mapped := some p }) s', okR p 0) := by
  simp only [bodyMemMapBar4, allocArg_of_found ha]
  refine (need_bind (by simp [hst, hc, hcrit, hfree])).trans ?_
  rw [if_pos hany, hp]

end Map

theorem bodyMemUnmapBar4_of_mapped (h : a.mapped.isSome = true) :
    bodyMemUnmapBar4 c s = .ok (updAlloc a.slot (fun a => { a with mapped := none }) s, okR 0 0) := by
  simp only [bodyMemUnmapBar4, allocArg_of_found ha]
  exact need_bind h

theorem bodyMemFree_of_unmapped (h : a.mapped = none) : bodyMemFree c s = releaseBody c s := by
  simp only [bodyMemFree, allocArg_of_found ha]
  exact need_bind (by simp [h])

end Allocs

theorem bodyMemQuotaQuery_of_good {s : State} {c : Ctx} (h : quotaPair (prm c 12 1) (prm c 13 1) 1 s = .ok ()) :
    let u := getQuota (prm c 12 1) (prm c 13 1) s
    bodyMemQuotaQuery c s
      = .ok (s, okD 0 0 (leBytes 8 u.quota ++ leBytes 8 u.used.n ++ leBytes 8 u.peak ++ leBytes 8 u.refused)) := by
  simp only [bodyMemQuotaQuery, h]
  rfl

/-- Settles O38: each command's own checks hold, so it does its steps and is answered; what a copy comes to depends on
the host's read or the first poisoned word. -/
theorem memoryCommandsComplete : Obligations.MemoryCommandsComplete := by
  intro r io s q c
  refine ⟨fun ready hpair hcount hquota honchip hstacked =>
      serve_reply ready (bodyMemAlloc_of_room rfl hpair hcount hquota honchip hstacked),
    fun a ha => ⟨fun ready hbus => ⟨fun hdir hplain => ?_, fun hdir hpair hclean => ?_, fun w hdir hpair hw => ?_⟩,
      fun ready hc hopen hclean => ?_, fun ready hst hc hcrit hfree => ⟨fun hasked hfits => ?_, fun p s' hany hp => ?_⟩,
      fun ready hmapped => serve_reply ready (bodyMemUnmapBar4_of_mapped ha hmapped),
      fun o ready hfree ho hdeps =>
        serve_wait ready ((bodyMemFree_of_unmapped ha hfree).trans (releaseBody_of_noDependants ho hdeps))⟩,
    fun ready => serve_reply ready rfl, fun ready hpair => serve_reply ready (bodyMemQuotaQuery_of_good hpair),
    fun ready => serve_reply ready rfl⟩
  · have done := bodyMemCopy_in ha hbus hdir (Option.isNone_iff_eq_none.mpr hplain)
    exact ⟨fun h => serve_reply ready (done.trans (congrArg _ (copyIn_read h))),
      fun f h => serve_reply ready (done.trans (congrArg _ (copyIn_cut h)))⟩
  · exact serve_reply ready ((bodyMemCopy_out_of_good ha hbus hdir hpair).trans (congrArg _ (copyOut_clean hclean)))
  · exact serve_reply ready ((bodyMemCopy_out_of_good ha hbus hdir hpair).trans (congrArg _ (copyOut_poisoned hw)))
  · exact ⟨_, Nat.le_add_right _ _, storedBlocks_le, serve_reply ready (bodyMemSeal_of_clean ha hc hopen hclean)⟩
  · exact serve_reply ready (bodyMemMapBar4_asked ha hst hc hcrit hfree hasked hfits)
  · exact serve_reply ready (bodyMemMapBar4_chosen ha hst hc hcrit hfree hany hp)

end Sys2Proof.Machine

/-! ### The time base: steps, commands, events and one nanosecond -/
namespace Sys2Proof.Machine

/-! ### Instants that have come (R143) -/

theorem due_of_le {t : Nat} {s : State} (h : t ≤ s.time.mono) : due t s = true := decide_eq_true h

theorem due_of_lt {t : Nat} {s : State} (h : s.time.mono < t) : due t s = false := decide_eq_false (Nat.not_le.mpr h)

section TimeCommands
variable {s : State} {c : Ctx}

/-! ### Group 0x0C (Table 4.15) -/

theorem bodyTimeSet_of_unowned (hown : servoOwned s = false) :
    bodyTimeSet c s
      = .ok (stepTime ((((prm c 0 8 * 1000000000 + prm c 8 4) * 65536 + prm c 12 2 : Nat) : Int) - s.time.now) s, okR 0 0) :=
  need_bind (by simp [hown])

/-- What TIME_ADJUST does by its mode (R141). -/
def adjusted (mode : Nat) (c : Ctx) (s : State) : State :=
  match mode with
  | 0 => { s with time.rate := adjRate c }
  | 1 => addSlew (adjOffset c) s
  | _ => stepTime (adjOffset c * 65536) s

theorem bodyTimeAdjust_of_unowned {mode : Nat} (hown : servoOwned s = false) (hmode : prm c 0 1 = mode) :
    bodyTimeAdjust c s = .ok (adjusted mode c s, okR 0 0) := by
  subst hmode
  exact need_bind (by simp [hown])

theorem setPtp_eq (p : PtpCfg) (s : State) :
    setPtp p s = { s with time := { s.time with
      ptp := p, good := 0, slavePort := none, annAt := s.time.mono, syncAt := s.time.mono
      annIv := if p.profile = 1 then 1000000000 else 2000000000
      syncIv := if p.profile = 1 then 125000000 else 1000000000 } } := by
  by_cases h : p.profile = 1 <;> simp [setPtp, ptpIntervals, h]

/-- The servo starts locking, but where a holdover goes on (R146). -/
theorem startLocking_eq (s : State) : (if s.time.servo = 3 then s else { s with time.servo := 1 })
    = { s with time.servo := if s.time.servo = 3 then 3 else 1 } := by
  by_cases h : s.time.servo = 3
  · rw [if_pos h, if_pos h, ← h]
  · rw [if_neg h, if_neg h]

theorem leaveHoldover_of_holdAt {h : Nat} (hat : s.time.holdAt = some h) (servo : Nat) :
    leaveHoldover servo s = raise 0x0C03 ((s.time.mono - h) / msT) none
      { s with time := { s.time with servo, holdAt := none, good := 0 } } := by
  simp only [leaveHoldover, holdoverT, hat]
  rfl

section PtpConfig
variable (hpads : (ptpCfg c).ports = 0 ∨ (getDom 92 s).pads = false)
include hpads

theorem ptpPadsFree : (!((ptpCfg c).ports != 0 && (getDom 92 s).pads)) = true := by
  obtain h | h := hpads <;> simp [h]

/-- Role 0 stops the servo, and ends a holdover (R146). -/
theorem bodyTimePtpConfig_off (hrole : prm c 0 1 = 0) :
    bodyTimePtpConfig c s = .ok (if s.time.servo = 3 then leaveHoldover 0 (setPtp (ptpCfg c) s)
      else { setPtp (ptpCfg c) s with time.servo := 0 }, okR 0 0) := by
  have hr : (ptpCfg c).role = 0 := hrole
  refine (need_bind (ptpPadsFree hpads)).trans ((need_bind (by simp [hr])).trans ?_)
  rw [if_pos hr]
  rfl

/-- Another role starts locking, but where a holdover goes on (R146); over IPv6 its ports report their group. -/
theorem bodyTimePtpConfig_on (hrole : prm c 0 1 ≠ 0) (hown : followsMember s = false) :
    let s' := { setPtp (ptpCfg c) s with time.servo := if s.time.servo = 3 then 3 else 1 }
    bodyTimePtpConfig c s = .ok (if prm c 3 1 = 2 then
      ((List.range 4).filter (prm c 2 1).testBit).foldl (fun s i => emit (.eth i "MLDv2" []) s) s' else s', okR 0 0) := by
  have hr : (ptpCfg c).role ≠ 0 := hrole
  refine (need_bind (ptpPadsFree hpads)).trans ((need_bind (by simp [hown])).trans ?_)
  rw [if_neg hr, startLocking_eq]
  rfl

end PtpConfig

theorem bodyTimeAlarmSet_cancel (h : (prm c 1 1).testBit 1 = true) :
    bodyTimeAlarmSet c s = .ok ({ s with time.alarms := s.time.alarms.filter fun a => !(a.n == prm c 0 1) }, okR 0 0) :=
  if_pos h

/-- The alarm that TIME_ALARM_SET puts in place (R157). -/
def newAlarm (c : Ctx) : Alarm :=
  { n := prm c 0 1, t := (prm c 8 8 * 1000000000 + prm c 16 4) * 65536, wake := (prm c 1 1).testBit 0, sess := objSlot c
    gen := c.obj.elim 0 (·.gen) }

theorem bodyTimeAlarmSet_set (h : (prm c 1 1).testBit 1 = false) :
    bodyTimeAlarmSet c s = .ok ({ s with
      time.alarms := newAlarm c :: s.time.alarms.filter fun a => !(a.n == prm c 0 1) }, okR 0 0) :=
  if_neg (by simp [h])

end TimeCommands

/-- Settles O9, by the command, and by its mode, its role or its flag. -/
theorem timeCommandsComplete : Obligations.TimeCommandsComplete := by
  intro r io s q c
  refine ⟨fun ready => serve_reply ready rfl, fun ready hown => serve_reply ready (bodyTimeSet_of_unowned hown),
    fun ready hown => ?_,
    fun ready hpads => ⟨fun hrole hservo => ?_, fun h hrole hservo hat => ?_, fun hrole hown => ?_⟩,
    fun ready => ⟨fun h => serve_reply ready (bodyTimeAlarmSet_cancel h),
      fun h => serve_reply ready (bodyTimeAlarmSet_set h)⟩,
    fun ready => serve_reply ready rfl⟩
  · exact ⟨fun h => serve_reply ready (bodyTimeAdjust_of_unowned hown h),
      fun h => serve_reply ready (bodyTimeAdjust_of_unowned hown h),
      fun h => serve_reply ready (bodyTimeAdjust_of_unowned hown h)⟩
  · refine serve_reply ready ((bodyTimePtpConfig_off hpads hrole).trans ?_)
    rw [if_neg hservo, setPtp_eq]
    rfl
  · refine serve_reply ready ((bodyTimePtpConfig_off hpads hrole).trans ?_)
    rw [if_pos hservo, leaveHoldover_of_holdAt (s := setPtp (ptpCfg c) s) hat, setPtp_eq]
    rfl
  · refine serve_reply ready ((bodyTimePtpConfig_on hpads hrole hown).trans ?_)
    rw [setPtp_eq]
    rfl

/-- Settles O10: the step is the shift followed by its event, which writes events only. -/
theorem stepMovesReferencesAndNoDeadline : Obligations.StepMovesReferencesAndNoDeadline := by
  intro d s _
  refine ⟨⟨_, rfl⟩, fun n hn _ _ => ?_, ?_, ?_⟩
  · subst hn
    simp only [stepTime, Int.mul_tdiv_cancel n (show (65536 : Int) ≠ 0 by decide)]
  · simp [stepTime]
  · simp [stepTime]

section TimeEvents
variable {s : State}

theorem masterSilent_of_late (h : s.time.annAt + s.time.ptp.annTimeout * s.time.annIv * 65536 ≤ s.time.mono
    ∨ s.time.syncAt + 3 * s.time.syncIv * 65536 ≤ s.time.mono) : masterSilent s = true := by
  rw [masterSilent, Bool.or_eq_true]
  exact h.imp due_of_le due_of_le

/-- What a port sends of a PTP message (R124). -/
def ptpSent (port : Nat) (s : State) : PtpOut → State
  | .sync => emit (.eth port "Sync" (ptpStamp port s)) s
  | .announce => emit (.eth port "Announce" []) s
  | .delayReq => emit (.eth port "Delay_Req" []) s
  | .pdelayReq => emit (.eth port "Pdelay_Req" []) s

theorem exec_ptpTransmitInterval_of_sends {port : Nat} {m : PtpOut} (hlive : ethLive port s = true)
    (h : ptpSends port m s = true) : exec (.ptpTransmitInterval port m) s = .next (ptpSent port s m) := by
  cases m <;> exact congrArg _ (if_pos (by rw [hlive, h]; rfl))

theorem ptpMaster_of_role {port : Nat} (hon : ptpOn port s = true)
    (h : s.time.ptp.role = 2 ∧ s.time.slavePort = none ∨ s.time.ptp.role = 3 ∧ s.time.slavePort ≠ some port) :
    ptpMaster port s = true := by
  obtain ⟨hrole, hport⟩ | ⟨hrole, hport⟩ := h <;> simp [ptpMaster, hon, hrole, hport]

theorem exec_timeAlarmFire_of_set {n : Nat} {a : Alarm} (ha : (s.time.alarms.find? fun a => a.n == n) = some a) :
    exec (.timeAlarmFire n) s = .next (if s.time.now < a.t then s
      else settle (if a.wake then wake 3 false (alarmFall a s) else alarmFall a s)) := by
  simp only [exec_timeAlarmFire, execTimeAlarmFire, ha]

end TimeEvents

/-- Settles O11, by the event: each takes effect where its instant, its port or its alarm lets it. -/
theorem timeEventsComplete : Obligations.TimeEventsComplete := by
  intro s
  refine ⟨fun hrole hservo hlate => ?_, fun hne hle => ?_,
    fun port hlive hon => ⟨fun h => ?_, fun h hd => ?_, fun hd => ?_⟩,
    fun n a ha => ⟨fun hcome => ?_, fun hwait => ?_⟩, fun n hnone => ?_⟩
  · have go : s.time.ptp.role ≠ 0 ∧ (s.time.servo = 1 ∨ s.time.servo = 2) ∧ masterSilent s :=
      ⟨hrole, hservo, masterSilent_of_late hlate⟩
    exact congrArg _ (if_pos go)
  · exact congrArg _ (if_pos ⟨hne, hle⟩)
  · have master : ptpMaster port s = true := ptpMaster_of_role hon h
    exact ⟨exec_ptpTransmitInterval_of_sends hlive (m := .sync) master,
      exec_ptpTransmitInterval_of_sends hlive (m := .announce) master⟩
  · exact exec_ptpTransmitInterval_of_sends hlive (m := .delayReq) (by simp [ptpSends, ptpSlave, hon, h, hd])
  · exact exec_ptpTransmitInterval_of_sends hlive (m := .pdelayReq) (by simp [ptpSends, hon, hd])
  · rw [exec_timeAlarmFire_of_set ha, if_neg (Nat.not_lt.mpr hcome)]
  · rw [exec_timeAlarmFire_of_set ha, if_pos hwait]
  · simp [execTimeAlarmFire, hnone]

/-! ### One nanosecond (R141, R143) -/

/-- What a slew gives to one nanosecond: no more than its quantum, nor than what is left of it. -/
def slewPart (t : TimeBase) : Int := max (-slewQuantum) (min slewQuantum t.slew)

/-- The length of one nanosecond in 10^-6 of a unit, with the fraction kept from the last. -/
def tickLength (t : TimeBase) : Int := t.frac + (65536000000 + t.rate + t.sleepErr) + slewPart t

/-- The units by which one nanosecond advances the counts. -/
def tickUnits (t : TimeBase) : Nat := (tickLength t / 1000000).toNat

section Tick
variable (s : State)

theorem tick_now : (tick s).time.now = s.time.now + if timeRuns s then tickUnits s.time else 0 := rfl
theorem tick_mono : (tick s).time.mono = s.time.mono + tickUnits s.time := rfl
theorem tick_frac : (tick s).time.frac = tickLength s.time % 1000000 := rfl
theorem tick_slew : (tick s).time.slew = s.time.slew - slewPart s.time := rfl

end Tick

theorem slewPart_bounds (t : TimeBase) : -32768000 ≤ slewPart t ∧ slewPart t ≤ 32768000 := by
  unfold slewPart slewQuantum
  omega

/-- What is left of a slew lies between it and zero, a quantum nearer at most. -/
theorem slew_sub_slewPart (t : TimeBase) :
    (0 ≤ t.slew ∧ 0 ≤ t.slew - slewPart t ∧ t.slew - slewPart t ≤ t.slew ∧ t.slew ≤ t.slew - slewPart t + 32768000)
    ∨ (t.slew ≤ 0 ∧ t.slew - slewPart t ≤ 0 ∧ t.slew ≤ t.slew - slewPart t ∧ t.slew - slewPart t ≤ t.slew + 32768000) := by
  unfold slewPart slewQuantum
  omega

theorem tickUnits_bounds {t : TimeBase} (hrate : t.rate.natAbs ≤ 32768000) (herr : t.sleepErr.natAbs ≤ 3276800)
    (hlo : 0 ≤ t.frac) (hhi : t.frac < 1000000) : 65467 ≤ tickUnits t ∧ tickUnits t ≤ 65605 := by
  have hpart := slewPart_bounds t
  unfold tickUnits tickLength
  omega

/-- Settles O12: the length of a nanosecond is bounded by those of its parts, and the slew keeps its sign. -/
theorem tickAdvancesBothCounts : Obligations.TickAdvancesBothCounts := by
  intro s hrate herr hlo hhi
  obtain ⟨hmin, hmax⟩ := tickUnits_bounds hrate herr hlo hhi
  have hslew := slew_sub_slewPart s.time
  refine ⟨tickUnits s.time, hmin, hmax, fun h => by simp [tick_now, h], fun h => by simp [tick_now, h], tick_mono s, ?_⟩
  rw [tick_frac, tick_slew]
  refine ⟨Int.emod_nonneg _ (by decide), Int.emod_lt_of_pos _ (by decide), by omega, by omega, ?_⟩
  obtain ⟨h, h', -, -⟩ | ⟨h, h', -, -⟩ := hslew
  · exact Int.mul_nonneg h' h
  · exact Int.mul_nonneg_of_nonpos_of_nonpos h' h

end Sys2Proof.Machine

/-! ### Streams: opened, started, stopped, changed, released -/
namespace Sys2Proof.Machine

/-- A step that succeeds hands its value to the steps after it. -/
theorem bind_of_ok {α β : Type} {m : Except Fail α} {a : α} {k : α → Except Fail β} (h : m = .ok a) :
    (m >>= k) = k a := by
  rw [h]
  rfl

section StreamCommands
variable {s : State} {c : Ctx}

/-! ### STREAM_OPEN (Table 4.13) -/

section Opening
variable (hclass : classUsed (openArgs c) s = false) (hport : portDiffers (openArgs c) s = false)
include hclass hport

theorem bodyStreamOpen_stream (hkind : (openArgs c).kind < 3) (hpair : (getQuota c.fn 1 s).used.ok = true) :
    bodyStreamOpen c s = openStream (openArgs c) c s := by
  have hquota : quotaPair c.fn 1 1 s = .ok () := by rw [quotaPair, hpair]; rfl
  simp only [bodyStreamOpen, if_pos hkind]
  exact (bind_of_ok hquota).trans ((need_bind (by rw [hclass]; rfl)).trans (need_bind (by rw [hport]; rfl)))

theorem bodyStreamOpen_low (hkind : 3 ≤ (openArgs c).kind) : bodyStreamOpen c s = openLow (openArgs c) c s := by
  simp only [bodyStreamOpen, if_neg (Nat.not_lt.mpr hkind)]
  exact (need_bind (by rw [hclass]; rfl)).trans (need_bind (by rw [hport]; rfl))

end Opening

theorem openLow_of_room {a : OpenArgs} (hroom : s.sens.lows.length < 128) :
    let used := s.sens.lows.map (·.ch)
    let x := Config.freeNat s.fresh % 128
    let ch := if used.contains x then firstFree used else x
    openLow a c s = .ok ({ s with
      fresh := s.fresh + 1, sens.lows := s.sens.lows ++ [newLow ch (c.sess.getD 0) a] }, okR ch 0) :=
  need_bind (decide_eq_true hroom)

/-- The share of the rate sums that an open asks for (R115, R118). -/
def askedRate (a : OpenArgs) : RateOf :=
  { kind := a.kind, port := a.port, area := a.width * a.height, format := a.format, period := a.period }

theorem openStream_of_room {a : OpenArgs} (hcount : countType 2 s < 128)
    (hrate : rateCheck (s.sens.streams.map rateOf ++ [askedRate a])
      (if a.kind = 0 then some (a.port, a.phy.testBit 0, a.laneRate) else none) = .ok ())
    (hquota : quotaOver c.fn 1 (a.ring * ringBuf a.width a.height a.format) s = 0)
    (hfree : a.ring * ringBuf a.width a.height a.format ≤ stackedFree s) :
    let n := a.ring * ringBuf a.width a.height a.format
    let w := newObj 2 (2 ^ 32) c.fn c.sess (if a.cal = 0 then [] else [(14, a.cal % 2 ^ 32)]) false 0 n s
    let s1 := charge c.fn 1 n w.2.2
    openStream a c s = .ok ({ s1 with sens := { s1.sens with
      streams := s1.sens.streams ++ [newStream w.1 a]
      csi := if a.kind = 0 ∧ !(s1.sens.csi.any fun p => p.port == a.port) then
          s1.sens.csi ++ [{ port := a.port, cphy := a.phy.testBit 0, scramble := a.phy.testBit 1, rate := a.laneRate }]
        else s1.sens.csi } }, okR w.1 w.2.1) := by
  refine (need_bind (decide_eq_true hcount)).trans ((bind_of_ok hrate).trans ?_)
  exact (need_bind (by rw [hquota]; rfl)).trans (need_bind (by rw [Nat.sub_eq_zero_of_le hfree]; rfl))

/-! ### Commands on a stream (Table 4.14) -/

section OnStream
variable {x : Machine.Stream} (hx : target c s = .ok (.stream x))
include hx

theorem bodyStreamStart_stream (hstop : x.started = false) (hpads : (getDom (portDomain x.kind x.port) s).pads = false) :
    bodyStreamStart c s = .ok (updStream x.slot (fun x => { x with
      started := true, stopping := false, ref := none, rebase := false, desync := false, good := 0 }) s, okR 0 0) :=
  (bind_of_ok hx).trans (need_bind (by rw [hstop, hpads]; rfl))

theorem bodyStreamStop_stream (hstart : x.started = true) :
    bodyStreamStop c s = .ok (stopStream x.slot s, okR x.frameExt 0) :=
  (bind_of_ok hx).trans (need_bind hstart)

theorem bodyStreamSetWindow_stream
    (hrate : rateCheck ((s.sens.streams.filter fun y => !(y.slot == x.slot)).map rateOf
        ++ [{ rateOf x with period := prm c 0 4 }])
      (if x.kind = 0 then some (x.port, x.phy.testBit 0, x.laneRate) else none) = .ok ()) :
    bodyStreamSetWindow c s = .ok (updStream x.slot (fun y => { y with
      newPeriod := some (prm c 0 4)
      rebase := y.rebase || (prm c 4 1 == 1 || (x.kind == 0 && prm c 0 4 != ratePeriod x)) }) s, okR 0 0) :=
  (bind_of_ok hx).trans (bind_of_ok hrate)

theorem bodyStreamClose_stream : bodyStreamClose c s = releaseBody c s :=
  bind_of_ok hx

end OnStream

theorem bodyStreamQuery_of_target {t : Target} (ht : target c s = .ok t) :
    bodyStreamQuery c s = .ok (s, okD 0 0 (queryRecord t)) :=
  bind_of_ok ht

theorem bodyStreamFrameRelease_of_held {x : Machine.Stream} {f : Frame} (hx : getStream (objSlot c) s = some x)
    (hf : x.ring[prm c 0 1]? = some (.held f))
    (hsheet : (s.sheets.any fun sh => sh.started && sh.streams.contains (objSlot c)) = false) :
    bodyStreamFrameRelease c s = .ok (freeBuf (objSlot c) (prm c 0 1) s, okR 0 0) := by
  have hheld : ((getStream (objSlot c) s).any fun x => (x.ring[prm c 0 1]?).any Buf.isHeld) = true := by
    simp [hx, hf, Buf.isHeld]
  exact (need_bind (by rw [hsheet]; rfl)).trans (need_bind hheld)

/-! ### Commands on a low-rate channel -/

section OnLow
variable {x : LowRate} (hx : target c s = .ok (.low x))
include hx

theorem bodyStreamStart_low (hstop : x.started = false) (hpads : (getDom (portDomain x.kind x.port) s).pads = false) :
    bodyStreamStart c s = .ok (updLow x.ch (fun x => { x with
      started := true, ref := none, rebase := false, desync := false, good := 0, lastSeq := none }) s, okR 0 0) :=
  (bind_of_ok hx).trans (need_bind (by rw [hstop, hpads]; rfl))

theorem bodyStreamStop_low (hstart : x.started = true) :
    bodyStreamStop c s
      = .ok (updLow x.ch (fun x => { x with started := false, ref := none, rebase := false }) s, okR 0 0) :=
  (bind_of_ok hx).trans (need_bind hstart)

theorem bodyStreamSetWindow_low :
    bodyStreamSetWindow c s = .ok (updLow x.ch (fun y => { y with
      newPeriod := if y.kind = 3 then none else some (prm c 0 4), rebase := y.rebase || prm c 4 1 == 1 }) s, okR 0 0) :=
  bind_of_ok hx

theorem bodyStreamClose_low :
    bodyStreamClose c s = .ok ({ s with sens.lows := s.sens.lows.filter fun y => !(y.ch == x.ch) }, okR 0 0) :=
  bind_of_ok hx

end OnLow

end StreamCommands

/-- Settles O13, by the command: its own checks hold, so it does its steps and is answered or goes on. -/
theorem streamCommandsComplete : Obligations.StreamCommandsComplete := by
  intro r io s q c
  refine ⟨fun ready hclass hport => ⟨fun hkind hpair hcount hrate hquota hfree => ?_, fun hkind hroom => ?_⟩,
    fun x hx => ⟨fun ready hstop hpads => serve_reply ready (bodyStreamStart_stream hx hstop hpads),
      fun ready hstart => serve_reply ready (bodyStreamStop_stream hx hstart),
      fun ready hrate => serve_reply ready (bodyStreamSetWindow_stream hx hrate),
      fun o ready ho hdeps => serve_wait ready ((bodyStreamClose_stream hx).trans (releaseBody_of_noDependants ho hdeps))⟩,
    fun x f ready hx hf hsheet => serve_reply ready (bodyStreamFrameRelease_of_held hx hf hsheet),
    fun t ready ht => serve_reply ready (bodyStreamQuery_of_target ht)⟩
  · exact serve_reply ready
      ((bodyStreamOpen_stream hclass hport hkind hpair).trans (openStream_of_room hcount hrate hquota hfree))
  · exact serve_reply ready ((bodyStreamOpen_low hclass hport hkind).trans (openLow_of_room hroom))

/-! ### Encoder inputs (R135) -/

/-- The quarters of the quadrature cycle by which new levels of A and B go on. -/
def quarterTurn (a b a' b' : Bool) : Nat := (quarter a' b' + 4 - quarter a b) % 4

theorem quarterTurn_double : ∀ a b a' b' : Bool, a ≠ a' → b ≠ b' → quarterTurn a b a' b' = 2 := by decide

/-- A change of one of the two alone goes on by one quarter, or back by one. -/
theorem quarterTurn_single :
    ∀ a b a' b' : Bool, (a = a' ↔ b ≠ b') → quarterTurn a b a' b' = 1 ∨ quarterTurn a b a' b' = 3 := by decide

theorem levels_of_quarterTurn_zero : ∀ a b a' b' : Bool, quarterTurn a b a' b' = 0 → a = a' ∧ b = b' := by decide

/-- What one quarter of a cycle counts with A leading B. -/
def encUp : Int := if Config.encAleadsUp then 1 else -1

/-- What an input comes to by that turn: a count up or down, an illegal transition, or nothing. -/
def encTurn (turn : Nat) (a b : Bool) (e : Enc) : Enc :=
  match turn with
  | 0 => e
  | 1 => { e with a, b, count := wrap32 (e.count + encUp) }
  | 3 => { e with a, b, count := wrap32 (e.count - encUp) }
  | _ => { e with a, b, illegal := e.illegal + 1, illegalSeen := true }

theorem encMove_eq_encTurn (a b : Bool) (e : Enc) : encMove a b e = encTurn (quarterTurn e.a e.b a b) a b e := rfl

section EncMove
variable {a b : Bool} {e : Enc}

theorem encMove_levels (a b : Bool) (e : Enc) : (encMove a b e).a = a ∧ (encMove a b e).b = b := by
  rw [encMove_eq_encTurn]
  match h : quarterTurn e.a e.b a b with
  | 0 => exact levels_of_quarterTurn_zero e.a e.b a b h
  | 1 => exact ⟨rfl, rfl⟩
  | 2 => exact ⟨rfl, rfl⟩
  | 3 => exact ⟨rfl, rfl⟩
  | _ + 4 => exact ⟨rfl, rfl⟩

theorem encMove_of_double (ha : e.a ≠ a) (hb : e.b ≠ b) :
    encMove a b e = { e with a, b, illegal := e.illegal + 1, illegalSeen := true } := by
  rw [encMove_eq_encTurn, quarterTurn_double e.a e.b a b ha hb]
  rfl

theorem encUp_eq : encUp = 1 ∨ encUp = -1 := by
  unfold encUp
  split <;> simp

/-- Which of the two directions counts up is free (log entry 14). -/
theorem encMove_of_single (h : e.a = a ↔ e.b ≠ b) : (encMove a b e).illegal = e.illegal
    ∧ ((encMove a b e).count = wrap32 (e.count + 1) ∨ (encMove a b e).count = wrap32 (e.count - 1)) := by
  rw [encMove_eq_encTurn]
  obtain turn | turn := quarterTurn_single e.a e.b a b h
  · obtain up | up := encUp_eq <;> simp [turn, up, encTurn, Int.sub_eq_add_neg]
  · obtain up | up := encUp_eq <;> simp [turn, up, encTurn]

end EncMove

section Encoders
variable {n : Nat} {s : State}

/-! ### Events of a live input, and of one that is not (R472) -/

section Pulse
variable {ns : Nat} (h : 20 ≤ ns)
include h

theorem exec_encEdge_taken (a b : Bool) :
    exec (.encEdge n a b ns) s = .next (if encLive s then updEnc n (encMove a b) s else s) :=
  (exec_encEdge ..).trans (pinPulse_full (by omega) h)

theorem exec_encIndex_taken :
    exec (.encIndex n ns) s
      = .next (if encLive s then updEnc n (fun e => { e with latched := e.count, indexSeen := true }) s else s) :=
  (exec_encIndex ..).trans (pinPulse_full (by omega) h)

end Pulse

theorem exec_encSample_of_dead (hdead : encLive s = false) : exec (.encSample n) s = .next s := by
  simp only [exec_encSample, execEncSample, hdead]
  split <;> rfl

section Channel
variable {x : LowRate} {e : Enc} (hx : (s.sens.lows.find? fun x => x.kind == 4 && x.port == n && x.started) = some x)
  (he : (s.sens.encs.find? fun e => e.n == n) = some e)
include hx he

theorem exec_encSample_of_channel (hlive : encLive s = true) :
    exec (.encSample n) s = .next (if sampleDue x s then encSample x e s else s) := by
  simp only [exec_encSample, execEncSample, hx, he, hlive, Bool.true_and]

end Channel

theorem sampleDue_of_passed {x : LowRate} (h : ∀ t, x.sampledAt = some t → t + x.period * 65536 ≤ s.time.mono) :
    sampleDue x s = true := by
  cases hat : x.sampledAt with
  | none => rw [sampleDue, hat, Option.elim_none]
  | some t => rw [sampleDue, hat, Option.elim_some, due_of_le (h t hat)]

theorem sampleDue_of_early {x : LowRate} {t : Nat} (hat : x.sampledAt = some t) (h : s.time.mono < t + x.period * 65536) :
    sampleDue x s = false := by
  rw [sampleDue, hat, Option.elim_some, due_of_lt h]

end Encoders

/-- Settles O14, by the command or event: on a channel of the session, on a live input, and on one that is not. -/
theorem lowRateAndEncoderComplete : Obligations.LowRateAndEncoderComplete := by
  intro r io s q c
  refine ⟨fun x hx => ⟨fun ready hstop hpads => serve_reply ready (bodyStreamStart_low hx hstop hpads),
      fun ready hstart => serve_reply ready (bodyStreamStop_low hx hstart),
      fun ready => serve_reply ready (bodyStreamSetWindow_low hx),
      fun ready => serve_reply ready (bodyStreamClose_low hx)⟩,
    fun n ns a b => ⟨fun h => ⟨(encEdge_pin n a b).short h, (encIndex_pin n).short h⟩,
      fun hlo h => ⟨(encEdge_pin n a b).between hlo h, (encIndex_pin n).between hlo h⟩⟩,
    fun n ns a b hlive => ⟨fun h => ?_, fun x e hx he => ⟨fun t hat hearly => ?_, fun hpassed => ?_⟩⟩,
    fun n ns a b hdead => ⟨fun h => ?_, exec_encSample_of_dead hdead⟩, fun a b e => ?_⟩
  · rw [exec_encEdge_taken h, exec_encIndex_taken h, if_pos hlive, if_pos hlive]
    exact ⟨rfl, rfl⟩
  · rw [exec_encSample_of_channel hx he hlive, sampleDue_of_early hat hearly]
    rfl
  · rw [exec_encSample_of_channel hx he hlive, sampleDue_of_passed hpassed]
    rfl
  · rw [exec_encEdge_taken h, exec_encIndex_taken h, hdead]
    exact ⟨rfl, rfl⟩
  · obtain ⟨ha, hb⟩ := encMove_levels a b e
    refine ⟨ha, hb, fun ⟨hna, hnb⟩ => ?_, encMove_of_single⟩
    rw [encMove_of_double hna hnb]
    exact ⟨rfl, rfl, rfl⟩

end Sys2Proof.Machine

/-! ### Units judged, and frames received on the CSI-2 and Ethernet ports -/
namespace Sys2Proof.Machine

/-! ### Alignment (R149, R150) -/

section Judgement
variable {good e w : Nat}

theorem judge_synchronised (good e w : Nat) :
    judge false good e w = if w < e then (true, 0, some 0x0101) else (false, good, none) := rfl

theorem judge_desynced_far (h : w < 2 * e) : judge true good e w = (true, 0, none) := by
  simp [judge, Nat.not_le.mpr h]

theorem judge_desynced_near (h : 2 * e ≤ w) (hcount : good + 1 ≠ 30) : judge true good e w = (true, good + 1, none) := by
  simp [judge, h, hcount]

theorem judge_desynced_last (h : 2 * e ≤ w) : judge true 29 e w = (false, 30, some 0x0102) := by
  simp [judge, h]

/-- The state of an alignment after one more unit: desynchronised or not, and its count. -/
def judged (w : Nat) (st : Bool × Nat) (e : Nat) : Bool × Nat := ((judge st.1 st.2 e w).1, (judge st.1 st.2 e w).2.1)

theorem judged_near {k : Nat} (h : 2 * e ≤ w) (hk : k < 30) :
    judged w (decide (k < 30), k) e = (decide (k + 1 < 30), k + 1) := by
  rw [decide_eq_true hk]
  obtain rfl | hne := Nat.eq_or_lt_of_le (Nat.le_of_lt_succ hk)
  · simp [judged, judge_desynced_last h]
  · simp [judged, judge_desynced_near (good := k) h (by omega), show k + 1 < 30 by omega]

theorem foldl_judged_near {es : List Nat} {k : Nat} (hes : ∀ e ∈ es, 2 * e ≤ w) (hk : k + es.length ≤ 30) :
    es.foldl (judged w) (decide (k < 30), k) = (decide (k + es.length < 30), k + es.length) := by
  induction es generalizing k with
  | nil => rfl
  | cons e es ih =>
    rw [List.length_cons] at hk ⊢
    rw [List.foldl_cons, judged_near (hes e (by simp)) (by omega), ih (fun e he => hes e (by simp [he])) (by omega)]
    simp [Nat.add_assoc, Nat.add_comm 1]

end Judgement

/-- Settles O17: one unit by the branches of the judgement, a run of units by induction over them. -/
theorem alignmentJudgesEachUnit : Obligations.AlignmentJudgesEachUnit := by
  refine ⟨judge_synchronised, fun good e w => judge_desynced_far, fun good e w => judge_desynced_near,
    fun e w => judge_desynced_last, fun es w hes hlen => ?_⟩
  have run := foldl_judged_near (k := 0) hes (by omega)
  rw [Nat.zero_add] at run
  exact run

/-! ### CSI-2 (R119, R120) -/

section Csi
variable {port vc n : Nat} {p : CsiPacket} {s : State}

/-- A header whose ECC was corrected is counted (R120). -/
def eccCounted (port : Nat) (p : CsiPacket) (s : State) : State := if p.ecc = .corrected then countPort 0 port s else s

theorem csiStream_eccCounted (port' : Nat) : csiStream port vc (eccCounted port' p s) = csiStream port vc s := by
  unfold eccCounted
  split <;> rfl

section Dead
variable (hdead : csiLive port s = false)
include hdead

theorem exec_csiFrameStart_of_dead : exec (.csiFrameStart port vc n) s = .next s := by simp [execCsiFrameStart, hdead]
theorem exec_csiPacket_of_dead : exec (.csiPacket port vc p) s = .next s := by simp [execCsiPacket, hdead]
theorem exec_csiFrameEnd_of_dead : exec (.csiFrameEnd port vc) s = .next s := by simp [execCsiFrameEnd, hdead]

end Dead

section Live
variable (hlive : csiLive port s = true)
include hlive

theorem exec_csiPacket_of_lost (hecc : p.ecc = .lost) : exec (.csiPacket port vc p) s = .next (countPort 1 port s) := by
  simp [execCsiPacket, hlive, hecc]

section Unopened
variable (hnone : csiStream port vc s = none)
include hnone

theorem exec_csiFrameStart_of_unopened : exec (.csiFrameStart port vc n) s = .next (countPort 4 port s) := by
  simp [execCsiFrameStart, hlive, hnone]

theorem exec_csiPacket_of_unopened (hecc : p.ecc ≠ .lost) :
    exec (.csiPacket port vc p) s = .next (countPort 4 port (eccCounted port p s)) := by
  have hnone' : csiStream port vc (eccCounted port p s) = none := (csiStream_eccCounted port).trans hnone
  unfold eccCounted at hnone' ⊢
  simp [execCsiPacket, hlive, hecc, hnone']

theorem exec_csiFrameEnd_of_unopened : exec (.csiFrameEnd port vc) s = .next (countPort 4 port s) := by
  simp [execCsiFrameEnd, hlive, hnone]

end Unopened

section Open
variable {x : Machine.Stream} (hx : csiStream port vc s = some x)
include hx

/-- A frame start acts on the stream as it is once a frame still in progress has ended (R119). -/
theorem exec_csiFrameStart_of_stream {y : Machine.Stream} {s' : State}
    (hs' : s' = if (claimedBuf x).isSome then endFrame x.slot true s else s) (hy : csiStream port vc s' = some y) :
    exec (.csiFrameStart port vc n) s = .next (settle (if y.started then
      startFrame y (0x1000 + port * 32 + vc) (extendNumber y.frameExt n) none 0 [] s' else s')) := by
  simp only [exec_csiFrameStart, execCsiFrameStart, hlive, hx, ← hs', hy]
  rfl

/-- A packet of an open stream is counted, ignored or put into the frame in progress, by its data type (R120). -/
theorem exec_csiPacket_of_stream (hecc : p.ecc ≠ .lost) :
    let s1 := eccCounted port p s
    exec (.csiPacket port vc p) s = .next (if p.dt = 2 ∨ p.dt = 3 then s1
      else if p.dt = 0x12 then countPort 2 port s1
      else if p.dt ≠ csiType x.format x.dt then countPort 3 port s1
      else if (claimedBuf x).isNone then s1
      else settle (cueFrameMoved x.slot (updFrame x.slot (putLine x.width x.height p) s1))) := by
  have hx' : csiStream port vc (eccCounted port p s) = some x := (csiStream_eccCounted port).trans hx
  unfold eccCounted at hx' ⊢
  simp only [exec_csiPacket, execCsiPacket, hlive, if_neg hecc, hx']
  rfl

theorem exec_csiFrameEnd_of_stream : exec (.csiFrameEnd port vc) s = .next (settle (endFrame x.slot false s)) := by
  simp [execCsiFrameEnd, hlive, hx]

end Open

end Live

end Csi

/-- Settles O15, by whether the port is live, whether a stream is open, and the packet's ECC and data type. -/
theorem csiReceptionComplete : Obligations.CsiReceptionComplete := by
  intro port vc n p s s1
  refine ⟨fun hdead => ⟨exec_csiFrameStart_of_dead hdead, exec_csiPacket_of_dead hdead, exec_csiFrameEnd_of_dead hdead⟩,
    fun hlive hnone => ⟨exec_csiFrameStart_of_unopened hlive hnone, exec_csiPacket_of_unopened hlive hnone,
      exec_csiFrameEnd_of_unopened hlive hnone⟩,
    exec_csiPacket_of_lost, fun x hlive hx => ⟨fun hidle hstart => ?_, fun hidle hstop => ?_, fun y hbusy hy hstart => ?_,
      fun hecc hdt => ?_, fun hecc hdt => ?_, fun hecc h2 h3 h12 hdt => ?_,
      fun hecc hdt h2 h3 h12 => ⟨fun hbusy => ?_, fun hidle => ?_⟩,
      exec_csiFrameEnd_of_stream hlive hx⟩⟩
  · rw [exec_csiFrameStart_of_stream hlive hx (y := x) (s' := s) (by simp [hidle]) hx, if_pos hstart]
  · rw [exec_csiFrameStart_of_stream hlive hx (y := x) (s' := s) (by simp [hidle]) hx, hstop]
    rfl
  · rw [exec_csiFrameStart_of_stream hlive hx (if_pos hbusy).symm hy, if_pos hstart]
  · rw [exec_csiPacket_of_stream hlive hx hecc, if_neg (by omega), if_pos hdt]
    rfl
  · rw [exec_csiPacket_of_stream hlive hx hecc, if_pos hdt]
    rfl
  · rw [exec_csiPacket_of_stream hlive hx hecc, if_neg (by omega), if_neg h12, if_pos hdt]
    rfl
  · rw [exec_csiPacket_of_stream hlive hx hecc, if_neg (by omega), if_neg h12, if_neg (not_not_intro hdt),
      if_neg (by simpa [Option.isSome_iff_ne_none] using hbusy)]
    rfl
  · rw [exec_csiPacket_of_stream hlive hx hecc, if_neg (by omega), if_neg h12, if_neg (not_not_intro hdt), hidle]
    rfl

/-! ### Ethernet (R123 to R129) -/

section Ethernet
variable {port : Nat} {f : EthFrame} {s : State}

theorem exec_ethFrameReceived_of_dead (hdead : ethLive port s = false) : exec (.ethFrameReceived port f) s = .next s := by
  simp [execEthFrameReceived, hdead]

/-- What the body of a good frame comes to (R124, R125, R144). -/
def ethBody (port : Nat) (body : EthBody) (s : State) : State :=
  match body with
  | .udp dst bs g => udpDatagram port dst bs g s
  | .ptp tr pf dom m => if ptpTakes port tr pf dom s then ptpMessage port m s else ethDrop 8 port s
  | .ask q => netReply port q s
  | .other => ethDrop 8 port s

section Live
variable (hlive : ethLive port s = true)
include hlive

theorem exec_ethFrameReceived_of_misshapen (h : 9000 < f.len ∨ 1 < f.vlans) :
    exec (.ethFrameReceived port f) s = .next (ethDrop 7 port s) := by
  simp [execEthFrameReceived, hlive, h]

theorem exec_ethFrameReceived_of_good (hlen : f.len ≤ 9000) (hvlans : f.vlans ≤ 1) {body : EthBody} {t : State}
    (hbody : f.body = body) (ht : ethBody port body s = t) : exec (.ethFrameReceived port f) s = .next (settle t) := by
  subst hbody ht
  have hgood : ¬(9000 < f.len ∨ 1 < f.vlans) := by omega
  simp only [exec_ethFrameReceived, execEthFrameReceived, hlive, if_neg hgood]
  rfl

end Live

/-! ### What a port answers by itself (R124) -/

section Asked
variable {ip : Nat}

theorem netReply_arp_of_mine (hip : ip ≠ 0) (h : natAt s.time.ptp.ips port = ip) :
    netReply port (.arp ip) s = emit (.eth port "ARP reply" (portMac port s)) s := by simp [netReply, hip, h]

theorem netReply_icmpEcho_of_mine {bs : List Byte} (hip : ip ≠ 0) (h : natAt s.time.ptp.ips port = ip) :
    netReply port (.icmpEcho ip bs) s = emit (.eth port "ICMP echo reply" bs) s := by simp [netReply, hip, h]

variable (h : ip = 0 ∨ natAt s.time.ptp.ips port ≠ ip)
include h

theorem netReply_arp_of_other : netReply port (.arp ip) s = ethDrop 8 port s := by
  obtain h | h := h <;> simp [netReply, h]

theorem netReply_icmpEcho_of_other {bs : List Byte} : netReply port (.icmpEcho ip bs) s = ethDrop 8 port s := by
  obtain h | h := h <;> simp [netReply, h]

end Asked

/-! ### UDP datagrams (R125, R127, R129) -/

section Datagram
variable {dst : Nat} {bs : List Byte} {g : Option Gvsp}

/-- The GVSP stream of a port and UDP destination (R125). -/
def gvspStream (port dst : Nat) (s : State) : Option Machine.Stream :=
  s.sens.streams.find? fun x => x.kind == 1 && x.port == port && x.udp == dst

/-- Streams or low-rate channels take Svetveora Sensor Frames of a port and UDP destination (R125). -/
def takesSsf (port dst : Nat) (s : State) : Bool :=
  (s.sens.streams.any fun x => x.kind == 2 && x.port == port && x.udp == dst)
    || s.sens.lows.any fun x => x.kind == 3 && x.port == port && x.udp == dst

section Gvsp
variable {x : Machine.Stream} (hx : gvspStream port dst s = some x)
include hx

theorem udpDatagram_gvsp {p : Gvsp} :
    udpDatagram port dst bs (some p) s = if takesPackets x then gvspPacket port x p s else s := by
  rw [gvspStream] at hx
  simp only [udpDatagram, hx]

theorem udpDatagram_notGvsp : udpDatagram port dst bs none s = ethDrop 8 port s := by
  rw [gvspStream] at hx
  simp only [udpDatagram, hx]

end Gvsp

theorem udpDatagram_ssf (hnone : gvspStream port dst s = none) :
    udpDatagram port dst bs g s = if takesSsf port dst s then ssfDatagram port dst bs s else ethDrop 4 port s := by
  rw [gvspStream] at hnone
  simp only [udpDatagram, hnone]
  rfl

theorem ssfDatagram_of_bad {why : Nat} (hlen : 24 ≤ bs.length) (hbad : ssfBad bs = some why) :
    ssfDatagram port dst bs s = ethDrop why port s := by
  simp [ssfDatagram, Nat.not_lt.mpr hlen, hbad]

end Datagram

end Ethernet

/-- Settles O18, by what the frame's body is, and for a datagram by the stream of its port and destination. -/
theorem ethernetReceptionComplete : Obligations.EthernetReceptionComplete := by
  intro port f s
  refine ⟨exec_ethFrameReceived_of_dead, fun hlive => ⟨exec_ethFrameReceived_of_misshapen hlive, fun hlen hvlans => ?_⟩⟩
  have comesTo {b : EthBody} {t : State} (hb : f.body = b) (ht : ethBody port b s = t) :
      exec (.ethFrameReceived port f) s = .next (settle t) := exec_ethFrameReceived_of_good hlive hlen hvlans hb ht
  refine ⟨fun hb => comesTo hb rfl, fun tr pf d m hb => comesTo hb rfl,
    ⟨fun ip hb => ⟨fun hip h => comesTo hb (netReply_arp_of_mine hip h), fun h => comesTo hb (netReply_arp_of_other h)⟩,
      fun ip bs hb =>
        ⟨fun hip h => comesTo hb (netReply_icmpEcho_of_mine hip h), fun h => comesTo hb (netReply_icmpEcho_of_other h)⟩,
      fun hb => comesTo hb rfl, fun bs hb => comesTo hb rfl, fun hb => comesTo hb rfl, fun bs hb => comesTo hb rfl⟩,
    fun dst bs g x hb hx => ⟨fun p hg htakes => ?_, fun p hg hstart hstop => ?_, fun hg => ?_⟩,
    fun dst bs g hb hnone => ⟨fun hssf => ?_, fun hssf => comesTo hb ((udpDatagram_ssf hnone).trans ?_)⟩⟩
  · subst hg
    exact comesTo hb ((udpDatagram_gvsp hx).trans (if_pos (by simpa [takesPackets] using htakes)))
  · subst hg
    exact comesTo hb ((udpDatagram_gvsp hx).trans (if_neg (by simp [takesPackets, hstart, hstop])))
  · subst hg
    exact comesTo hb (udpDatagram_notGvsp hx)
  · have taken : ethBody port (.udp dst bs g) s = ssfDatagram port dst bs s := (udpDatagram_ssf hnone).trans (if_pos hssf)
    exact ⟨comesTo hb taken, fun why hlen hbad => comesTo hb (taken.trans (ssfDatagram_of_bad hlen hbad))⟩
  · rw [takesSsf, hssf]
    rfl

end Sys2Proof.Machine

/-! ### SPI strobes, transactions and gaps -/
namespace Sys2Proof.Machine

section Spi
variable {ctrl cs : Nat} {s : State}

/-! ### Strobes and gaps of a chip select (R131, R132, R134, R178) -/

section Unused
variable (hnone : getSel ctrl cs s = none)
include hnone

theorem exec_spiCnvStrobe_of_unused : exec (.spiCnvStrobe ctrl cs) s = .next s := by simp [execSpiCnvStrobe, hnone]
theorem exec_spiDrdyEdge_of_unused : exec (.spiDrdyEdge ctrl cs 20) s = .next s := by
  simp [execSpiDrdyEdge, pinPulse_exact, hnone]
theorem exec_spiDrdyGap_of_unused : exec (.spiDrdyGap ctrl cs) s = .next s := by simp [execSpiDrdyGap, hnone]
theorem exec_filtHeldInput_of_unused : exec (.filtHeldInput ctrl cs) s = .next s := by simp [execFiltHeldInput, hnone]

end Unused

section Used
variable {x : ChipSel} (hx : getSel ctrl cs s = some x) (hlive : spiLive s = true)
include hx hlive

/-- The K9 gives a strobe where it drives it and the strobe's period has passed (R131). -/
theorem exec_spiCnvStrobe_of_live :
    exec (.spiCnvStrobe ctrl cs) s = .next (if !x.mode.testBit 4 && strobeDue x s then strobe ctrl cs s else s) := by
  simp only [exec_spiCnvStrobe, execSpiCnvStrobe, hx, hlive, Bool.true_and]

theorem exec_spiDrdyEdge_of_live :
    exec (.spiDrdyEdge ctrl cs 20) s = .next (if x.mode.testBit 4 then
      settle (strobe ctrl cs ((chansOf ctrl cs s).foldl (fun s c => resume c.slot s) s)) else s) := by
  simp only [exec_spiDrdyEdge, execSpiDrdyEdge, pinPulse_exact (show 10 ≤ 20 by decide), hx, hlive, Bool.true_and]

theorem exec_spiDrdyGap_of_late {t : Nat} (hdrdy : x.mode.testBit 4 = true) (hgap : x.gap = false)
    (hat : x.lastStrobe = some t) (hlate : t + 2 * x.period * 65536 ≤ s.time.mono) :
    let s1 := updSel ctrl cs (fun x => { x with gap := true }) s
    exec (.spiDrdyGap ctrl cs) s = .next (settle ((chansOf ctrl cs s1).foldl (fun s c =>
      heldInput c.slot (heldInput c.slot (raise 0x0104 (ctrl * 4 + cs) (some (3, c.slot)) s))) s1)) := by
  have late : (x.lastStrobe.any fun t => due (t + 2 * x.period * 65536) s) = true := by
    rw [hat, Option.any_some, due_of_le hlate]
  simp only [exec_spiDrdyGap, execSpiDrdyGap, hx, hlive, hdrdy, late, hgap]
  rfl

theorem exec_filtHeldInput_of_gap (hgap : x.gap = true) :
    exec (.filtHeldInput ctrl cs) s = .next (settle ((chansOf ctrl cs s).foldl (fun s c =>
      if x.lastStrobe.any fun t => due (t + (c.heldRun + 1) * x.period * 65536) s then heldInput c.slot s else s) s)) := by
  simp only [exec_filtHeldInput, execFiltHeldInput, hx, hlive, hgap]
  rfl

end Used

theorem strobeDue_of_passed {x : ChipSel} (h : ∀ t, x.lastStrobe = some t → t + x.period * 65536 ≤ s.time.mono) :
    strobeDue x s = true := by
  cases hat : x.lastStrobe with
  | none => rw [strobeDue, hat, Option.elim_none]
  | some t => rw [strobeDue, hat, Option.elim_some, due_of_le (h t hat)]

theorem strobeDue_of_early {x : ChipSel} {t : Nat} (hat : x.lastStrobe = some t) (h : s.time.mono < t + x.period * 65536) :
    strobeDue x s = false := by
  rw [strobeDue, hat, Option.elim_some, due_of_lt h]

/-- The strobe that a chip select gives at this instant: its stamp and its number (R132). -/
def strobeNow (ctrl cs : Nat) (s : State) : Stamp × Nat :=
  ({ t := s.time.now, tag := 0x3000 + ctrl * 4 + cs }, s.filt.strobes)

/-- A strobe is numbered, and ends a gap of its chip select (R134). -/
def struck (ctrl cs : Nat) (s : State) : State :=
  updSel ctrl cs (fun x => { x with lastStrobe := some s.time.mono, gap := false })
    { s with filt.strobes := s.filt.strobes + 1 }

theorem strobe_of_free (h : spiBusy ctrl s = false) :
    strobe ctrl cs s = spiStart ctrl cs (strobeNow ctrl cs s) (struck ctrl cs s) := if_neg (ne_true_of_eq_false h)

theorem strobe_of_busy (h : spiBusy ctrl s = true) :
    strobe ctrl cs s
      = updSel ctrl cs (fun x => { x with queue := x.queue ++ [strobeNow ctrl cs s] }) (struck ctrl cs s) := if_pos h

/-! ### Transactions (R133, R134, R161) -/

section Done
variable {words : List Nat}

theorem exec_spiTransactionDone_of_idle (h : (s.filt.busy.find? fun b => b.1 == ctrl) = none) :
    exec (.spiTransactionDone ctrl words) s = .next s := by
  simp only [exec_spiTransactionDone, execSpiTransactionDone, h]

/-- Each word of a transaction that is over is an input of its channel, where that was open at the strobe. -/
def fedWords (ctrl cs : Nat) (words : List Nat) (x : ChipSel) (st : Stamp × Nat) (s : State) : State :=
  ((chansOf ctrl cs s).filter fun c => decide (c.first ≤ st.2)).foldl (fun s c => match words[c.word]? with
    | some v => feed c.slot (signedOf (spiWidth x.mode) v) st.1 false s
    | none => s) { s with filt.busy := s.filt.busy.filter fun b => !(b.1 == ctrl) }

/-- A free controller serves its oldest queued strobe. -/
def serveQueued (ctrl : Nat) (s : State) : State :=
  match nextQueued ctrl s with
  | none => s
  | some (k, st) => spiStart ctrl k st (updSel ctrl k (fun x => { x with queue := x.queue.tail }) s)

theorem serveQueued_of_none (h : nextQueued ctrl s = none) : serveQueued ctrl s = s := by
  simp only [serveQueued, h]

theorem serveQueued_of_some {k : Nat} {st : Stamp × Nat} (h : nextQueued ctrl s = some (k, st)) :
    serveQueued ctrl s = spiStart ctrl k st (updSel ctrl k (fun x => { x with queue := x.queue.tail }) s) := by
  simp only [serveQueued, h]

theorem exec_spiTransactionDone_of_running {b : Nat × Nat × Stamp × Nat} {x : ChipSel} {t : State}
    (hb : (s.filt.busy.find? fun b => b.1 == ctrl) = some b) (hx : getSel ctrl b.2.1 s = some x)
    (ht : serveQueued ctrl (fedWords ctrl b.2.1 words x b.2.2 s) = t) :
    exec (.spiTransactionDone ctrl words) s = .next (settle t) := by
  subst ht
  simp only [exec_spiTransactionDone, execSpiTransactionDone, hb, hx]
  rfl

end Done

end Spi

/-- Settles O20, by the event and the chip select's kind of strobe, and for a transaction by whether a strobe waits. -/
theorem spiEventsComplete : Obligations.SpiEventsComplete := by
  intro ctrl cs ns s
  have full (h : 20 ≤ ns) : exec (.spiDrdyEdge ctrl cs ns) s = exec (.spiDrdyEdge ctrl cs 20) s :=
    (spiDrdyEdge_pin ctrl cs).full (by decide) h
  refine ⟨(spiDrdyEdge_pin ctrl cs).short, (spiDrdyEdge_pin ctrl cs).between,
    fun hnone => ⟨exec_spiCnvStrobe_of_unused hnone, fun h => (full h).trans (exec_spiDrdyEdge_of_unused hnone),
      exec_spiDrdyGap_of_unused hnone, exec_filtHeldInput_of_unused hnone⟩,
    fun x hx hlive => ⟨fun hdriven => ⟨fun hpassed => ?_, fun t hat hearly => ?_, fun h => ?_⟩,
      fun hdrdy => ⟨?_, fun h => ?_, fun t hgap hat hlate => exec_spiDrdyGap_of_late hx hlive hdrdy hgap hat hlate⟩,
      exec_filtHeldInput_of_gap hx hlive⟩,
    fun words hidle => exec_spiTransactionDone_of_idle hidle,
    fun words b x hb hx =>
      ⟨fun hnone => exec_spiTransactionDone_of_running hb hx (serveQueued_of_none hnone),
        fun k st hsome => exec_spiTransactionDone_of_running hb hx (serveQueued_of_some hsome)⟩,
    strobe_of_free, strobe_of_busy⟩
  · rw [exec_spiCnvStrobe_of_live hx hlive, hdriven, strobeDue_of_passed hpassed]
    rfl
  · rw [exec_spiCnvStrobe_of_live hx hlive, hdriven, strobeDue_of_early hat hearly]
    rfl
  · rw [full h, exec_spiDrdyEdge_of_live hx hlive, hdriven]
    rfl
  · rw [exec_spiCnvStrobe_of_live hx hlive, hdrdy]
    rfl
  · rw [full h, exec_spiDrdyEdge_of_live hx hlive, if_pos hdrdy]

end Sys2Proof.Machine

/-! ### Filter channels: their commands, inputs and held copies -/
namespace Sys2Proof.Machine

section FilterCommands
variable {s : State} {c : Ctx}

/-! ### FILT_OPEN (R131, R158 to R161, R169) -/

theorem quotaPair_of_ok {fn tier n : Nat} (h : (getQuota fn tier s).used.ok = true) : quotaPair fn tier n s = .ok () := by
  rw [quotaPair, h, Bool.or_true]
  rfl

/-- A chip select in use with other settings than the command's (R182). -/
def selDiffers (c : Ctx) (s : State) : Bool :=
  (getSel (prm c 1 1) (prm c 2 1) s).any fun y =>
    y.mode != prm c 4 1 || y.words != prm c 5 1 || y.sclk != prm c 6 2 || y.period != prm c 8 4

theorem selDiffers_of_same (h : ∀ y, getSel (prm c 1 1) (prm c 2 1) s = some y →
    y.mode = prm c 4 1 ∧ y.words = prm c 5 1 ∧ y.sclk = prm c 6 2 ∧ y.period = prm c 8 4) : selDiffers c s = false := by
  cases hy : getSel (prm c 1 1) (prm c 2 1) s with
  | none => rw [selDiffers, hy, Option.any_none]
  | some y =>
    obtain ⟨hmode, hwords, hsclk, hperiod⟩ := h y hy
    simp [selDiffers, hy, hmode, hwords, hsclk, hperiod]

theorem bodyFiltOpen_of_room {ch : Nat} (hpair : (getQuota c.fn 1 s).used.ok = true)
    (hword : ((chansOf (prm c 1 1) (prm c 2 1) s).any fun k => k.word == prm c 3 1) = false)
    (hunused : getChan (prm c 0 1) s = none) (hsel : selDiffers c s = false) (hpads : (getDom 90 s).pads = false)
    (hch : pickChan (prm c 0 1) s = some ch)
    (hrate : excess ((prm c 8 4 :: s.filt.chans.map (·.period)).map fun p => (1000000000, p)) 64000000 1 1 = 0)
    (hquota : quotaOver c.fn 1 (2 ^ prm c 17 1 * 32) s = 0) (hfree : 2 ^ prm c 17 1 * 32 ≤ stackedFree s) :
    let w := addObj 3 ch c.fn c.sess (if prm c 24 8 = 0 then [] else [(14, prm c 24 4)]) false 0 (2 ^ prm c 17 1 * 32) s
    let s1 := charge c.fn 1 (2 ^ prm c 17 1 * 32) w.2
    bodyFiltOpen c s = .ok ({ s1 with filt := { s1.filt with
      chans := s1.filt.chans ++ [newChan ch s.filt.strobes c]
      sels := if (getSel (prm c 1 1) (prm c 2 1) s1).isSome then s1.filt.sels else s1.filt.sels ++ [openSel c] } },
      okR ch w.1) := by
  intro w s1
  have numbered : s1.filt.strobes = s.filt.strobes := by simp [s1, w]
  have fresh : (!((chansOf (prm c 1 1) (prm c 2 1) s).any fun k => k.word == prm c 3 1)
      && !(getChan (prm c 0 1) s).isSome && !selDiffers c s && !(getDom 90 s).pads) = true := by
    rw [hword, hunused, hsel, hpads]
    rfl
  rw [← numbered]
  refine (bind_of_ok (quotaPair_of_ok hpair)).trans ((need_bind fresh).trans ?_)
  simp only [hch]
  refine (need_bind (beq_iff_eq.mpr hrate)).trans ((need_bind (beq_iff_eq.mpr hquota)).trans ?_)
  exact need_bind (beq_iff_eq.mpr (Nat.sub_eq_zero_of_le hfree))

/-! ### Commands on an open channel (R170 to R177, R183) -/

section OnChannel
variable {x : Chan} (hx : chanOf c s = .ok x)
include hx

theorem bodyFiltLoadBank_of_idle {h : List Int}
    (hcoeffs : coeffs (prm c 2 2) (if c.q.pref || c.q.cbdata then c.pay else c.q.param.drop 4) = some h)
    (hidle : prm c 0 1 ≠ x.active) (hfade : x.fade = none) :
    bodyFiltLoadBank c s = .ok (updChan x.slot (fun x =>
      if prm c 0 1 = 0 then { x with bankA := some (mkBank h) } else { x with bankB := some (mkBank h) }) s,
      okR 0 (mkBank h).cls) := by
  refine (bind_of_ok hx).trans ?_
  simp only [hcoeffs]
  exact need_bind (by simp [hidle, hfade])

theorem bodyFiltSwap_of_loaded (hfade : x.fade = none) (hpend : x.pend = none)
    (hbank : (bankOf x (otherBank x)).isSome) (hmac : macCheck x (tapsOf (bankOf x (otherBank x))) s = .ok ()) :
    bodyFiltSwap c s = .ok (updChan x.slot (fun x =>
      { x with pend := some { req := reqRef c.q, at' := swapAt c, fade := 0 } }) s, .wait) :=
  (bind_of_ok hx).trans ((need_bind (by simp [hfade, hpend, hbank])).trans (bind_of_ok hmac))

theorem bodyFiltCrossfade_of_loaded (hfade : x.fade = none) (hpend : x.pend = none) (hswapped : x.swapped = true)
    (hbank : (bankOf x (otherBank x)).isSome) (hmac : macCheck x (tapsOf x.bankA + tapsOf x.bankB) s = .ok ()) :
    bodyFiltCrossfade c s = .ok (updChan x.slot (fun x =>
      { x with pend := some { req := reqRef c.q, at' := swapAt c, fade := prm c 12 2 } }) s, .wait) :=
  (bind_of_ok hx).trans ((need_bind (by simp [hfade, hpend, hswapped, hbank])).trans (bind_of_ok hmac))

theorem bodyFiltDcFreeze_of_stage (hdc : x.dcShift ≠ 0) :
    bodyFiltDcFreeze c s = .ok (updChan x.slot (fun x =>
      { x with newFreeze := x.newFreeze ++ [(prm c 0 1, dcEstimate c)] }) s, okR 0 0) :=
  (bind_of_ok hx).trans (need_bind (bne_iff_ne.mpr hdc))

theorem bodyFiltDelayQuery_of_channel : bodyFiltDelayQuery c s = .ok (s, okD 0 0 (delayRecord x (txnNs x s))) :=
  bind_of_ok hx

end OnChannel

end FilterCommands

/-- Settles O19, by the command: its own checks hold, so it does its steps and is answered or goes on. -/
theorem filterCommandsComplete : Obligations.FilterCommandsComplete := by
  intro r io s q c
  refine ⟨fun ch ready hpair hword hunused hsel hpads hch hrate hquota hfree => serve_reply ready
      (bodyFiltOpen_of_room hpair hword hunused (selDiffers_of_same hsel) hpads hch hrate hquota hfree),
    fun x hx => ⟨fun h ready hcoeffs hidle hfade => serve_reply ready (bodyFiltLoadBank_of_idle hx hcoeffs hidle hfade),
      fun ready hfade hpend hbank hmac => serve_wait ready (bodyFiltSwap_of_loaded hx hfade hpend hbank hmac),
      fun ready hfade hpend hswapped hbank hmac =>
        serve_wait ready (bodyFiltCrossfade_of_loaded hx hfade hpend hswapped hbank hmac),
      fun ready hdc => serve_reply ready (bodyFiltDcFreeze_of_stage hx hdc),
      fun ready => serve_reply ready (bodyFiltDelayQuery_of_channel hx)⟩,
    fun ready => serve_reply ready rfl,
    fun o ready ho hdeps => serve_wait ready (releaseBody_of_noDependants ho hdeps)⟩

section SwapPoint
variable {stamp : Stamp} {c : Chan} {p : PendSwap} (hpend : c.pend = some p)
include hpend

/-! ### Swap and start points (R172, R173) -/

/-- A pending command whose instant has come switches the bank, or starts its fade at output 0, and completes. -/
theorem swapPoint_of_come (hcome : p.at' = 0 ∨ p.at' ≤ stamp.t) :
    swapPoint stamp c = (if p.fade = 0 then { c with pend := none, active := otherBank c, swapped := true, step := true }
      else { c with pend := none, fade := some (0, p.fade) }, some p.req) := by
  have hnow : ¬(p.at' ≠ 0 ∧ stamp.t < p.at') := by omega
  simp only [swapPoint, hpend, if_neg hnow]
  split <;> rfl

theorem swapPoint_of_early (hne : p.at' ≠ 0) (hearly : stamp.t < p.at') : swapPoint stamp c = (c, none) := by
  simp only [swapPoint, hpend, if_pos (And.intro hne hearly)]

end SwapPoint

/-! ### The DC stage (R163) -/

section DcStage
variable {c : Chan} {x : Int}

theorem dcStage_of_absent (h : c.dcShift = 0) : dcStage c x = (x, c.m) := if_pos h

theorem dcStage_of_present (h : c.dcShift ≠ 0) :
    dcStage c x = (x - c.m / 16777216,
      if c.frozen then c.m else c.m + (x * 16777216 - c.m) / (2 ^ c.dcShift : Nat)) := if_neg h

end DcStage

/-! ### The delay line and its counts (R176, R178) -/

/-- What a channel keeps of its inputs: their count, the delay line, and how many held copies end it. -/
def inputsOf (c : Chan) : Nat × List Tap × Nat := (c.n, c.hist, c.heldRun)

theorem inputsOf_foldl_setFreeze (modes : List (Nat × Int)) (c : Chan) : inputsOf (modes.foldl setFreeze c) = inputsOf c := by
  induction modes generalizing c with
  | nil => rfl
  | cons mode modes ih => exact ih (setFreeze c mode)

theorem inputsOf_atBoundary (c : Chan) : inputsOf (atBoundary c) = inputsOf c := by
  refine (inputsOf_foldl_setFreeze _ _).trans ?_
  cases c.newPhase <;> rfl

theorem inputsOf_swapPoint (stamp : Stamp) (c : Chan) : inputsOf (swapPoint stamp c).1 = inputsOf c := by
  unfold swapPoint
  (repeat' split) <;> rfl

theorem inputsOf_emission (stamp : Stamp) (c : Chan) : inputsOf (emission stamp c).1 = inputsOf c := by
  unfold emission
  (repeat' split) <;> rfl

theorem inputsOf_counted (c : Chan) : inputsOf { c with n := c.n + 1 } = ((inputsOf c).1 + 1, (inputsOf c).2) := rfl

/-- An input is kept in front of at most 4,478 earlier ones and counts; a held copy lengthens the run that a real input
ends. -/
theorem inputsOf_inputSample (x : Int) (stamp : Stamp) (heldIn : Bool) (c : Chan) :
    inputsOf (inputSample x stamp heldIn c).c
      = (c.n + 1, { d := (dcStage (swapPoint stamp (atBoundary c)).1 x).1, heldIn } :: c.hist.take 4478,
        if heldIn then c.heldRun + 1 else 0) := by
  have kept : inputsOf (swapPoint stamp (atBoundary c)).1 = inputsOf c :=
    (inputsOf_swapPoint stamp _).trans (inputsOf_atBoundary c)
  obtain ⟨hn, hhist, hheld⟩ : _ ∧ _ ∧ _ := by simpa only [inputsOf, Prod.mk.injEq] using kept
  rw [← hn, ← hhist, ← hheld]
  simp only [inputSample]
  split
  · rw [inputsOf_counted, inputsOf_emission]
    rfl
  · rfl

/-! ### Inputs and held copies of a channel in the state (R178, R179) -/

section Channels
variable {slot : Nat} {s : State} {c : Chan} (hc : getChan slot s = some c)
include hc

theorem feed_of_stalled {x : Int} {stamp : Stamp} {heldIn : Bool} (h : c.stalled = true) :
    feed slot x stamp heldIn s = s := by
  simp only [feed, hc, if_pos h]

/-- A held copy of the last input is fed a period after the one before it, and the 1,024th in a row stalls. -/
theorem heldInput_of_running (hrun : c.stalled = false) (hhist : c.hist ≠ []) :
    let k := c.heldRun + 1
    let s1 := feed slot c.lastX { c.lastStamp with t := c.lastStamp.t + k * c.period * 65536 } true s
    heldInput slot s = if k < 1024 then s1
      else raise 0x0201 slot (some (3, slot)) (updChan slot (fun c => { c with stalled := true }) s1) := by
  have fed : ¬(c.stalled || c.hist.isEmpty) = true := by simp [hrun, hhist]
  simp only [heldInput, hc, if_neg fed]

end Channels

/-- Settles O21, by the channel's pending command and DC stage, by what an input leaves of the delay line, and by the
length of a run of held copies. -/
theorem filterArithmeticRules : Obligations.FilterArithmeticRules := by
  refine ⟨fun stamp c p hpend => ⟨fun hcome hswap => ?_, fun hcome hfade => ?_, swapPoint_of_early hpend⟩,
    fun c x => ⟨dcStage_of_absent, fun hdc hfrozen => ?_, fun hdc hfrozen => ?_⟩,
    fun x stamp heldIn c => ?_, fun slot s c hc hrun hhist hheld => ?_,
    fun slot x stamp heldIn s c hc => feed_of_stalled hc⟩
  · rw [swapPoint_of_come hpend hcome, if_pos hswap]
  · rw [swapPoint_of_come hpend hcome, if_neg hfade]
  · rw [dcStage_of_present hdc, if_pos hfrozen]
  · rw [dcStage_of_present hdc, hfrozen]
    rfl
  · obtain ⟨hn, hhist, hheld⟩ : _ ∧ _ ∧ _ := by simpa [inputsOf] using inputsOf_inputSample x stamp heldIn c
    refine ⟨hn, ?_, hheld⟩
    rw [hhist, List.length_cons, List.length_take]
    omega
  · rw [heldInput_of_running hc hrun hhist, hheld]
    rfl

end Sys2Proof.Machine

/-! ### Cue sheets: their commands -/
namespace Sys2Proof.Machine

section CueCommands
variable {s : State} {c : Ctx}

/-! ### CUE_LOAD (R210, R211, R224 to R226) -/

/-- An image that passes every check of CUE_LOAD is only checked, or makes a sheet that is charged and measured. -/
theorem bodyCueLoad_of_fitting {m : SheetImg} (himg : checkSheet c.pay = .ok m)
    (honchip : quotaPair c.fn 0 m.onchip s = .ok ()) (hstacked : quotaPair c.fn 1 m.stacked s = .ok ())
    (hcount : countType 4 s < 64) (hfit : sheetFit c.fn m s = .ok ()) :
    let w := newObj 4 (2 ^ 32) c.fn c.sess [] false m.onchip m.stacked s
    let s1 := charge c.fn 0 m.onchip (charge c.fn 1 m.stacked w.2.2)
    bodyCueLoad c s = if prm c 0 1 = 1 then .ok (s, okR 0 0) else
      .ok (measure 7 (Config.sha3 c.pay) { s1 with sheets := s1.sheets ++ [newSheet w.1 m] }, okR w.1 w.2.1) := by
  refine (bind_of_ok himg).trans ((bind_of_ok honchip).trans ((bind_of_ok hstacked).trans ?_))
  exact (need_bind (decide_eq_true hcount)).trans (bind_of_ok hfit)

/-! ### CUE_START (R188, R227) -/

/-- A stream in slot `i` of a sheet is not of the size and format that the slot states (R227). -/
def slotDiffers (sh : Sheet) (os : List Obj) (s : State) (i : Nat) : Bool :=
  match (os.map (·.slot))[i]?.bind fun x => getStream x s, sh.img.slots[i]? with
  | some x, some r => x.width != r.width || x.height != r.height || x.format != r.format
  | _, _ => true

/-- Another started sheet binds a stream (R227). -/
def boundElsewhere (sh : Sheet) (s : State) (x : Nat) : Bool :=
  s.sheets.any fun y => y.started && y.slot != sh.slot && y.streams.contains x

theorem slotDiffers_of_same {sh : Sheet} {os : List Obj} {i : Nat}
    (h : ∃ o x z, os[i]? = some o ∧ getStream o.slot s = some x ∧ sh.img.slots[i]? = some z
      ∧ x.width = z.width ∧ x.height = z.height ∧ x.format = z.format) : slotDiffers sh os s i = false := by
  obtain ⟨o, x, z, ho, hx, hz, hwidth, hheight, hformat⟩ := h
  simp [slotDiffers, ho, hx, hz, hwidth, hheight, hformat]

theorem boundElsewhere_of_free {sh : Sheet} {x : Nat}
    (h : ∀ y ∈ s.sheets, y.started = true → y.slot ≠ sh.slot → x ∉ y.streams) : boundElsewhere sh s x = false := by
  simpa [boundElsewhere] using h

/-! ### Commands on a sheet -/

section OnSheet
variable {sh : Sheet} (hsh : getSheet (objSlot c) s = some sh)
include hsh

theorem sheetArg_of_found : sheetArg c s = .ok sh := by
  simp only [sheetArg, hsh]

theorem bodyCueStart_of_matching {os : List Obj} {g : Nat}
    (hos : ((startHandles c).mapM fun h => lookupHandle [2] c.fn false h s) = .ok os) (hstop : sh.started = false)
    (hunbound : ∀ x ∈ os, boundElsewhere sh s x.slot = false)
    (hsame : ∀ i < sh.img.slots.length, slotDiffers sh os s i = false)
    (hg : startGroup c s = some g) (hservice : groupOk g s = true) (hload : groupLoad g s < 4) :
    bodyCueStart c s = .ok
      (updObj 4 sh.slot (fun o => { o with deps := o.deps ++ ((os.map (·.slot)).eraseDups.map fun x => (2, x)) })
        (updSheet sh.slot (fun x => { newSheet x.slot x.img with started := true, group := g, streams := os.map (·.slot) }) s),
      okR g 0) := by
  have unbound : (os.map (·.slot)).any (boundElsewhere sh s) = false := by simpa using hunbound
  have same : (List.range sh.img.slots.length).find? (slotDiffers sh os s) = none := by simpa using hsame
  refine (bind_of_ok (sheetArg_of_found hsh)).trans ((bind_of_ok hos).trans ?_)
  refine (need_bind (show (!sh.started && !(os.map (·.slot)).any (boundElsewhere sh s)) = true by
    rw [hstop, unbound]; rfl)).trans ?_
  simp only [hg]
  split
  next i hi => exact absurd (hi.symm.trans same) (Option.some_ne_none i)
  next => exact (need_bind hservice).trans (need_bind (decide_eq_true hload))

/-- CUE_STOP in mode 0 drains the sheet, in any other mode it abandons every set (R228). -/
theorem bodyCueStop_of_started (hstart : sh.started = true) (hstopping : sh.stopping = none) :
    let s1 := updSheet sh.slot (fun x => { x with stopping := some (reqRef c.q) }) s
    bodyCueStop c s = if prm c 0 1 = 0 then
        (if sh.sets.isEmpty then .ok (unbind sh.slot s1, okR sh.lastSet 0) else .ok (s1, .wait))
      else .ok (giveWork sh.group (unbind sh.slot (finishSets sh.slot (releaseSetFrames sh.slot
        (sh.sets.foldl (fun s fs => abandon sh.slot fs.n stAborted s) s)))), okR sh.lastSet 0) :=
  (bind_of_ok (sheetArg_of_found hsh)).trans (need_bind (by rw [hstart, hstopping]; rfl))

theorem bodyCueUnload_of_stopped (hstop : sh.started = false) : bodyCueUnload c s = releaseBody c s :=
  (bind_of_ok (sheetArg_of_found hsh)).trans (need_bind (by rw [hstop]; rfl))

theorem bodyCueQuery_of_sheet : bodyCueQuery c s = .ok (s, okD 0 0 (cueRecord sh)) :=
  bind_of_ok (sheetArg_of_found hsh)

theorem bodyCueFlagRead_of_sheet :
    bodyCueFlagRead c s = .ok (s, okD (prm c 14 2) 0 (((sh.flags.drop (prm c 12 2)).take (prm c 14 2)).flatMap flagBytes)) :=
  bind_of_ok (sheetArg_of_found hsh)

end OnSheet

end CueCommands

/-- Settles O22, by the command, by CHECK_ONLY of a load, and by the mode and the sets in flight of a stop. -/
theorem cueCommandsComplete : Obligations.CueCommandsComplete := by
  intro r io s q c
  refine ⟨fun m ready himg honchip hstacked hcount hfit => ?_,
    fun sh os g ready hsh hos hstop hfree hsame hg hservice hload => serve_reply ready
      (bodyCueStart_of_matching hsh hos hstop (fun x hx => boundElsewhere_of_free (hfree x hx))
        (fun i hi => slotDiffers_of_same (hsame i hi)) hg hservice hload),
    fun sh ready hsh hstart hstopping => ?_,
    fun sh o ready hsh hstop ho hdeps => serve_wait ready
      ((bodyCueUnload_of_stopped hsh hstop).trans (releaseBody_of_noDependants ho hdeps)),
    fun sh hsh => ⟨fun ready => serve_reply ready (bodyCueQuery_of_sheet hsh),
      fun ready => serve_reply ready (bodyCueFlagRead_of_sheet hsh)⟩⟩
  · have load := bodyCueLoad_of_fitting himg honchip hstacked hcount hfit
    exact ⟨fun hcheck => serve_reply ready (load.trans (if_pos hcheck)),
      fun hmake => serve_reply ready (load.trans (if_neg (by rw [hmake]; decide)))⟩
  · have stop := bodyCueStop_of_started hsh hstart hstopping
    exact ⟨fun hdrain hnone => serve_reply ready (stop.trans ((if_pos hdrain).trans (if_pos (List.isEmpty_iff.mpr hnone)))),
      fun hdrain hsome => serve_wait ready (stop.trans ((if_pos hdrain).trans (if_neg (by simpa using hsome)))),
      fun habandon => serve_reply ready (stop.trans (if_neg (by rw [habandon]; decide)))⟩

end Sys2Proof.Machine

/-! ### Sets in flight: missing frames, deadlines, units, external waits and flags -/
namespace Sys2Proof.Machine

section CueEvents
variable {slot n i : Nat} {s : State}

section Unloaded
variable (hnone : getSheet slot s = none)
include hnone

theorem exec_cueSlotMissing_of_unloaded : exec (.cueSlotMissing slot n i) s = .next s := by
  simp only [exec_cueSlotMissing, execCueSlotMissing, hnone]

theorem exec_cueSetDeadline_of_unloaded : exec (.cueSetDeadline slot n) s = .next s := by
  simp only [exec_cueSetDeadline, execCueSetDeadline, hnone]

theorem exec_visionNodeDone_of_unloaded (media : Bool) : exec (.visionNodeDone slot n i media) s = .next s := by
  simp only [exec_visionNodeDone, execVisionNodeDone, hnone]

theorem exec_cueExternalWaitMet_of_unloaded : exec (.cueExternalWaitMet slot n i) s = .next s := by
  simp only [exec_cueExternalWaitMet, execCueExternalWaitMet, hnone]

end Unloaded

/-! ### Missing frames (R213, R216) -/

/-- What a frame missing from slot `i` of set `n` leaves of a set: the mark in the set itself, and no set before the
one that follows (R216). -/
def markMissing (n i : Nat) (x : FrameSet) : FrameSet :=
  if x.n = n then { x with frames := x.frames.set i .missing }
  else if x.n = nextSet n then { x with prevOk := false } else x

/-- What a frame missing from slot `i` of set `n` leaves of the sheet; the set counts with its first one. -/
def sheetMissing (fs : FrameSet) (n i : Nat) (sh : Sheet) : Sheet :=
  { sh with
    sets := sh.sets.map (markMissing n i)
    missingSets := sh.missingSets + (if fs.frames.contains .missing then 0 else 1)
    prevOk := if sh.lastSet = n then false else sh.prevOk }

section InFlight
variable {sh : Sheet} {fs : FrameSet} (hsh : getSheet slot s = some sh) (hfs : sh.getSet n = some fs)
include hsh hfs

theorem exec_cueSlotMissing_of_early (h : s.time.mono < fs.tnMono + sh.img.matchNs * 65536) :
    exec (.cueSlotMissing slot n i) s = .next s := by
  simp only [exec_cueSlotMissing, execCueSlotMissing, hsh, hfs, due_of_lt h, Bool.and_false]
  rfl

theorem exec_cueSlotMissing_of_late (hwait : fs.frames[i]? = some .waiting)
    (hlate : fs.tnMono + sh.img.matchNs * 65536 ≤ s.time.mono) :
    exec (.cueSlotMissing slot n i) s = .next (settle (advanceSheet slot
      (raise 0x0303 (n + i * 2 ^ 32) (some (4, slot)) (updSheet slot (sheetMissing fs n i) s)))) := by
  have counted : (if !fs.frames.contains .missing then 1 else 0) = if fs.frames.contains .missing then 0 else 1 := by
    cases fs.frames.contains .missing <;> rfl
  simp only [exec_cueSlotMissing, execCueSlotMissing, hsh, hfs, hwait, due_of_le hlate, counted,
    beq_self_eq_true, Bool.and_self, Bool.not_true, Bool.false_eq_true, if_false]
  rfl

/-! ### Set deadlines (R217) -/

theorem exec_cueSetDeadline_of_early (h : s.time.mono < fs.tnMono + sh.img.deadlineUs * usT) :
    exec (.cueSetDeadline slot n) s = .next s := by
  simp only [exec_cueSetDeadline, execCueSetDeadline, hsh, hfs, due_of_lt h]
  rfl

theorem exec_cueSetDeadline_of_late {k : Nat} (h : fs.tnMono + sh.img.deadlineUs * usT ≤ s.time.mono)
    (hk : ((List.range fs.nodes.length).find? fun i => !isDone (fs.node i)) = some k) :
    exec (.cueSetDeadline slot n) s = .next (settle (advanceSheet slot
      (raise 0x0302 (n + k * 2 ^ 32) (some (4, slot)) (abandon slot n stTimeout s)))) := by
  simp only [exec_cueSetDeadline, execCueSetDeadline, hsh, hfs, due_of_le h, hk, Bool.not_true,
    Bool.false_eq_true, if_false]

section OnNode
variable {node : NodeRec} (hnode : sh.img.nodes[i]? = some node)
include hnode

/-! ### Nodes that end (R215, R221) -/

theorem exec_visionNodeDone_of_barred (hmay : mayComplete sh fs i s = false) (media : Bool) :
    exec (.visionNodeDone slot n i media) s = .next s := by
  simp only [exec_visionNodeDone, execVisionNodeDone, hsh, hfs, hnode, hmay]
  rfl

theorem exec_visionNodeDone_of_media (hmay : mayComplete sh fs i s = true) :
    exec (.visionNodeDone slot n i true) s
      = .next (settle (advanceSheet slot (updSheet slot (finishNode n i stMedia []) (freeUnit slot n i s)))) := by
  simp only [exec_visionNodeDone, execVisionNodeDone, hsh, hfs, hnode, hmay, Bool.not_true,
    Bool.false_eq_true, if_false, if_true]

theorem exec_visionNodeDone_of_outputs (hmay : mayComplete sh fs i s = true) :
    let ins := (inputs sh fs i s).filterMap id
    let made := nodeOut sh fs i node (ins.any (·.absent)) s
    let st := outStatus made.1 ins
    exec (.visionNodeDone slot n i false) s = .next (settle (advanceSheet slot (updSheet slot (finishNode n i st (made.2 st))
      { freeUnit slot n i s with fresh := s.fresh + nodeDraws }))) := by
  simp only [exec_visionNodeDone, execVisionNodeDone, hsh, hfs, hnode, hmay, Bool.not_true,
    Bool.false_eq_true, if_false]
  rfl

/-! ### External waits (R223) -/

theorem exec_cueExternalWaitMet_of_unreached (hext : extMet sh fs node = none) :
    exec (.cueExternalWaitMet slot n i) s = .next s := by
  simp only [exec_cueExternalWaitMet, execCueExternalWaitMet, hsh, hfs, hnode, hext]

theorem exec_cueExternalWaitMet_of_reached {xs : List (Nat × Nat × Nat)} (hidle : fs.node i = .idle)
    (hreads : readsExternal sh.img node = true) (hext : extMet sh fs node = some xs) :
    exec (.cueExternalWaitMet slot n i) s = .next (settle (advanceSheet slot (updSheet slot (fun sh =>
      sh.updSet n fun fs => { fs with nodes := fs.nodes.set i .met, ext := fs.ext ++ xs.map fun x => (i, x) }) s))) := by
  simp only [exec_cueExternalWaitMet, execCueExternalWaitMet, hsh, hfs, hnode, hext, hidle, hreads,
    beq_self_eq_true, Bool.and_self, if_true]

end OnNode

end InFlight

/-! ### Bands (R185, R187) -/

/-- A node that runs has one more band done. -/
def addBand (node : Nat) (fs : FrameSet) : FrameSet :=
  { fs with nodes := fs.nodes.modify node fun st => match st with
    | .running k => .running (k + 1)
    | st => st }

theorem exec_visionBandDone_of_busy {group : Nat} {u : VisionUnit} {x : VUnit}
    (hx : (s.vis.find? fun x => x.group == group && (x.kind, x.no) == bandUnit u) = some x) :
    exec (.visionBandDone group u) s = .next (settle (advanceSheet x.sheet
      (updSheet x.sheet (fun sh => sh.updSet x.set (addBand x.node)) { s with vis := s.vis.filter fun y => y != x }))) := by
  simp only [exec_visionBandDone, execVisionBandDone, hx]
  rfl

/-! ### Flags that tiles write (R220, R222, R232) -/

section TileFlag
variable {tile at' : Nat} {bs : List Byte} {ws : List TileWrite}

theorem exec_tileFlagWrite_of_idle (hidle : (getTile tile s).running = none) :
    exec (.tileFlagWrite slot n at' bs tile ws) s = .next (settle s) := by
  simp only [exec_tileFlagWrite, execTileFlagWrite, hidle]
  rfl

theorem exec_tileFlagWrite_of_inside {t : Task} {x : Nat} (hrun : (getTile tile s).running = some (t, x))
    (hin : weightsIn t s = true) (hgood : isErr (taskWrites t ws s).1 = false) (hbs : bs ≠ [])
    (hend : at' + bs.length ≤ 16) :
    exec (.tileFlagWrite slot n at' bs tile ws) s
      = .next (settle (settle (writeFlag slot n at' bs (taskWrites t ws s).2))) := by
  have inside : ¬(bs.isEmpty || decide (16 < at' + bs.length)) = true := by simp [hbs, hend]
  simp only [exec_tileFlagWrite, execTileFlagWrite, hrun, hin, hgood, if_neg inside]
  rfl

theorem writeFlag_of_barred {sh : Sheet} {f : CueFlag} (hsh : getSheet slot s = some sh) (hf : sh.flags[n]? = some f)
    (hbar : flagWriteBarred f at' bs.length = true) :
    writeFlag slot n at' bs s = { s with tile.droppedFlags := s.tile.droppedFlags + 1 } := by
  simp only [writeFlag, hsh, hf, if_pos hbar]

end TileFlag

end CueEvents

/-- Settles O23, by the event: with no sheet, on a set of a sheet before and after its instant, on a unit at work, and
for a flag by the tile's task and by where the bytes lie. -/
theorem cueEventsComplete : Obligations.CueEventsComplete := by
  intro slot n i s
  refine ⟨fun hnone => ⟨exec_cueSlotMissing_of_unloaded hnone, exec_cueSetDeadline_of_unloaded hnone,
      exec_visionNodeDone_of_unloaded hnone, exec_cueExternalWaitMet_of_unloaded hnone⟩,
    fun sh fs hsh hfs => ⟨exec_cueSlotMissing_of_late hsh hfs, exec_cueSlotMissing_of_early hsh hfs,
      fun k hlate hk => exec_cueSetDeadline_of_late hsh hfs hlate hk, exec_cueSetDeadline_of_early hsh hfs,
      fun node hnode hmay => ⟨exec_visionNodeDone_of_media hsh hfs hnode hmay,
        exec_visionNodeDone_of_outputs hsh hfs hnode hmay⟩,
      fun node hnode hmay => exec_visionNodeDone_of_barred hsh hfs hnode hmay,
      fun node xs hnode hidle hreads hext => exec_cueExternalWaitMet_of_reached hsh hfs hnode hidle hreads hext,
      fun node hnode hext => exec_cueExternalWaitMet_of_unreached hsh hfs hnode hext⟩,
    fun group u x hx => exec_visionBandDone_of_busy hx,
    fun tile t x ws at' bs hrun hin hgood hbs hend => exec_tileFlagWrite_of_inside hrun hin hgood hbs hend,
    fun sh f at' len bs hsh hf hlen hbar => writeFlag_of_barred hsh hf (hlen ▸ hbar),
    fun tile at' bs ws hidle => exec_tileFlagWrite_of_idle hidle⟩

end Sys2Proof.Machine

/-! ### Packages and instances: their commands -/
namespace Sys2Proof.Machine

section PackageCommands
variable {s : State} {c : Ctx}

/-! ### PKG_LOAD (R246, R249, R250) -/

/-- The resource statement of the image that PKG_LOAD names. -/
def loadStatement (c : Ctx) : ResStmt := (parsePkg 0 c.pay []).rs

/-- The clusters that PKG_LOAD may place the package in, in order of preference (R249). -/
def loadClusters (c : Ctx) (s : State) : List Nat := eligible (prm c 0 2) (loadStatement c).tilesMin s

/-- The package that PKG_LOAD is to place, in the first of these clusters. -/
def askedPkg (c : Ctx) (s : State) : Pkg := parsePkg 0 c.pay ((loadClusters c s).take (loadStatement c).clusters)

/-- An image that passes every check of PKG_LOAD is only checked, or makes a package that is charged and measured. -/
theorem bodyPkgLoad_of_fitting (himg : checkPkg c.pay = .ok ())
    (honchip : quotaPair c.fn 0 (pkgOnchip (askedPkg c s)) s = .ok ())
    (hstacked : quotaPair c.fn 1 (pkgStacked (askedPkg c s)) s = .ok ()) (hcount : countType 5 s < 1024)
    (hclusters : (loadStatement c).clusters ≤ (loadClusters c s).length) (hfit : pkgFit c.fn (askedPkg c s) s = .ok ()) :
    let p := askedPkg c s
    let w := newObj 5 (2 ^ 32) c.fn c.sess [] false (pkgOnchip p) (pkgStacked p) s
    let s1 := charge c.fn 0 (pkgOnchip p) (charge c.fn 1 (pkgStacked p) w.2.2)
    bodyPkgLoad c s = if prm c 2 1 = 1 then .ok (s, okR 0 0) else
      .ok (measure 6 p.digest { s1 with tile.pkgs := s1.tile.pkgs ++ [{ p with slot := w.1 }] }, okR w.1 w.2.1) := by
  refine (bind_of_ok himg).trans ((bind_of_ok honchip).trans ((bind_of_ok hstacked).trans ?_))
  exact (need_bind (decide_eq_true hcount)).trans ((need_bind (decide_eq_true hclusters)).trans (bind_of_ok hfit))

theorem bodyPkgQuery_of_loaded {p : Pkg} (hp : getPkg (objSlot c) s = some p) :
    bodyPkgQuery c s = .ok (s, okD (prm c 14 2) 0 (pkgRecord p (prm c 12 2) (prm c 14 2) s)) :=
  bind_of_ok (by simp only [pkgArg, hp])

/-! ### INST_CREATE (R256, R257) -/

/-- An instance of a package before its first run. -/
def newInst (slot pkg : Nat) (binds : List (Nat × Nat × Nat)) : Inst :=
  { slot, pkg, binds, runs := [], doneRuns := 0, errRuns := 0, lateRuns := 0, lastUs := 0, maxUs := 0, lastSet := 0
    aborted := 0, mem := [] }

theorem bodyInstCreate_of_bound {p : Pkg} {binds : List (Nat × Nat × Nat)} (hp : createPkg c s = some p)
    (hbinds : checkBinds c s (p.ports.zip (bindRecs c.pay)) 0 = .ok binds)
    (hmade : (s.tile.insts.filter fun x => x.pkg == p.slot).length < p.rs.instances) (hcount : countType 6 s < 4096) :
    let w := newObj 6 (2 ^ 32) c.fn c.sess ((5, p.slot) :: binds.map fun (t, n, _) => (t, n)).eraseDups false 0 0 s
    bodyInstCreate c s
      = .ok ({ w.2.2 with tile.insts := w.2.2.tile.insts ++ [newInst w.1 p.slot binds] }, okR w.1 w.2.1) := by
  simp only [bodyInstCreate, hp]
  refine (bind_of_ok hbinds).trans ?_
  exact (need_bind (decide_eq_true hmade)).trans (need_bind (decide_eq_true hcount))

/-! ### Commands on an instance -/

/-- The run that INFER_RUN queues (R259 to R261). -/
def queuedRun (c : Ctx) (x : Inst) (p : Pkg) (s : State) : Run :=
  { req := reqRef c.q, dl := if prm c 4 1 = 1 then none else c.q.dl, dlUs := c.q.dl.elim 0 fun d => usOf (d - c.q.at')
    admitted := s.time.now, set := runSet x p (prm c 0 4) s, layer := 0, st := .queued, startAt := none
    serial := s.tile.nextRun, landed := [], issued := [], lateOff := false, stallAt := none, desyncs := [], clamped := []
    status := stOk, signalled := [] }

section OnInst
variable {x : Inst} (hx : getInst (objSlot c) s = some x)
include hx

theorem instArg_of_found : instArg c s = .ok x := by
  simp only [instArg, hx]

/-- INST_DESTROY marks the instance closing before it ends the queued runs (R268). -/
theorem bodyInstDestroy_of_noDependants {o : Obj} (ho : c.obj = some o) (hdeps : dependants o.ty o.slot s = []) :
    let done := abortQueued x.slot (updObj o.ty o.slot (fun y => { y with st := .closing (some (reqRef c.q)) }) s)
    bodyInstDestroy c s = .ok (updInst x.slot (fun y => { y with aborted := done.1 }) done.2, .wait) :=
  (bind_of_ok (instArg_of_found hx)).trans (bind_of_ok (releaseBody_of_noDependants ho hdeps))

theorem bodyInferRun_of_room {p : Pkg} (hp : instPkg x s = some p) (htiles : tilesOf p.place s ≠ 0)
    (hroom : x.runs.length < 65) :
    bodyInferRun c s = .ok (pumpAll (kick x.slot (2 * (x.runs.length + 1) + 2) (fillSlots x.slot
      (updInst x.slot (fun y => { y with runs := y.runs ++ [queuedRun c x p s] })
        (markRunning c.q { s with tile.nextRun := s.tile.nextRun + 1 })))), .wait) := by
  refine (bind_of_ok (instArg_of_found hx)).trans ?_
  simp only [hp]
  refine (need_bind (bne_iff_ne.mpr htiles)).trans ((need_bind (decide_eq_true hroom)).trans ?_)
  simp only [beq_iff_eq]
  rfl

theorem bodyInstQuery_of_found : bodyInstQuery c s = .ok (s, okD 0 0 (instRecord x s)) :=
  bind_of_ok (instArg_of_found hx)

end OnInst

end PackageCommands

/-- Settles O24, by the command, and by CHECK_ONLY of a load. -/
theorem packageAndInstanceCommandsComplete : Obligations.PackageAndInstanceCommandsComplete := by
  intro r io s q c
  refine ⟨fun ready himg honchip hstacked hcount hclusters hfit => ?_,
    fun o ho hdeps => ⟨fun ready => serve_wait ready (releaseBody_of_noDependants ho hdeps),
      fun x ready hx => serve_wait ready (bodyInstDestroy_of_noDependants hx ho hdeps)⟩,
    fun p binds ready hp hbinds hmade hcount => serve_reply ready (bodyInstCreate_of_bound hp hbinds hmade hcount),
    fun x p ready hx hp htiles hroom => serve_wait ready (bodyInferRun_of_room hx hp htiles hroom),
    fun p ready hp => serve_reply ready (bodyPkgQuery_of_loaded hp),
    fun x ready hx => serve_reply ready (bodyInstQuery_of_found hx)⟩
  have load := bodyPkgLoad_of_fitting himg honchip hstacked hcount hclusters hfit
  exact ⟨fun hcheck => serve_reply ready (load.trans (if_pos hcheck)),
    fun hmake => serve_reply ready (load.trans (if_neg (by rw [hmake]; decide)))⟩

end Sys2Proof.Machine

/-! ### The tile array: tasks, stealing, weights and flag waits -/
namespace Sys2Proof.Machine

section TileEvents
variable {s : State}

/-! ### The layer of a run (R234, R251) -/

section Layer
variable {inst serial : Nat} {x : Inst} {r : Run} (hx : getInst inst s = some x) (hr : runOf x serial = some r)
include hx hr

theorem endLayer_of_over (h : layerOver inst r s = true) : endLayer inst serial s = layerDone inst s := by
  simp [endLayer, hx, hr, h]

theorem endLayer_of_left (h : layerOver inst r s = false) : endLayer inst serial s = s := by
  simp [endLayer, hx, hr, h]

end Layer

/-! ### Tasks that end (R232 to R236, R255) -/

/-- What a task that ends leaves of the memories: its tile is free, its writes are made, and bad tile memory is recorded
(R232, R233). -/
def taskLeaves (id : Nat) (t : Task) (o : TaskOut) (s : State) : State :=
  o.tileBad.elim (taskWrites t o.writes (freeTile id s)).2 fun (addr, syndrome) =>
    tileMediaError id t addr syndrome (taskWrites t o.writes (freeTile id s)).2

/-- The status of a task: bad tile memory, then its own error, then that of its writes. -/
def taskStatus (id : Nat) (t : Task) (o : TaskOut) (s : State) : Nat :=
  if o.tileBad.isSome then stMedia else if isErr o.error then o.error else (taskWrites t o.writes (freeTile id s)).1

/-- The ports whose counts a task found above their maximum (R255). -/
def taskClamps (t : Task) (counts : List (Nat × Nat)) (s : State) : List Nat :=
  ((getInst t.inst s).bind (instPkg · s)).elim [] (clampedPorts · counts)

/-- A run has one task less to wait for, and the ports `found` among its clamped ones. -/
def countTask (found : List Nat) (r : Run) : Run :=
  { r with
    clamped := (r.clamped ++ found).eraseDups
    st := match r.st with
      | .tasks left u c => .tasks (left - 1) u c
      | x => x }

/-- What a task that ends leaves: its memories, and its run with the task counted. -/
def taskEnds (id : Nat) (t : Task) (o : TaskOut) (s : State) : State :=
  updRun t.inst t.run (countTask (taskClamps t o.counts (taskLeaves id t o s))) (taskLeaves id t o s)

section Idle
variable {id : Nat} (hidle : (getTile id s).running = none)
include hidle

theorem exec_taskComplete_of_idle (o : TaskOut) : exec (.taskComplete id o) s = .next (settle s) := by
  simp only [exec_taskComplete, execTaskComplete, hidle]
  rfl

theorem exec_taskWatchdog_of_idle : exec (.taskWatchdog id) s = .next (settle s) := by
  simp only [exec_taskWatchdog, execTaskWatchdog, hidle]
  rfl

end Idle

section Running
variable {id at' : Nat} {t : Task} (hrun : (getTile id s).running = some (t, at'))
include hrun

theorem exec_taskComplete_of_stalled (hin : weightsIn t s = false) (o : TaskOut) :
    exec (.taskComplete id o) s = .next (settle s) := by
  simp only [exec_taskComplete, execTaskComplete, hrun, hin]
  rfl

theorem exec_taskComplete_of_landed (hin : weightsIn t s = true) (o : TaskOut) :
    let s2 := taskEnds id t o s
    exec (.taskComplete id o) s = .next (settle (advanceInst t.inst (takeTask id
      (if isErr (taskStatus id t o s) then endTaskRun t (taskStatus id t o s) s2 else endLayer t.inst t.run s2)))) := by
  simp only [exec_taskComplete, execTaskComplete, hrun, hin, Bool.not_true, Bool.false_eq_true, if_false]
  rfl

section Landed
variable (hin : weightsIn t s = true) {o : TaskOut}
include hin

theorem exec_taskComplete_of_error (herr : isErr (taskStatus id t o s) = true) :
    exec (.taskComplete id o) s = .next (settle (advanceInst t.inst (takeTask id
      (endTaskRun t (taskStatus id t o s) (taskEnds id t o s))))) :=
  (exec_taskComplete_of_landed hrun hin o).trans (by rw [if_pos herr])

variable {x : Inst} {r : Run} (hgood : isErr (taskStatus id t o s) = false)
  (hx : getInst t.inst (taskEnds id t o s) = some x) (hr : runOf x t.run = some r)
include hgood hx hr

theorem exec_taskComplete_of_lastTask (hover : layerOver t.inst r (taskEnds id t o s) = true) :
    exec (.taskComplete id o) s = .next (settle (advanceInst t.inst (takeTask id
      (layerDone t.inst (taskEnds id t o s))))) :=
  (exec_taskComplete_of_landed hrun hin o).trans
    (by rw [if_neg (ne_true_of_eq_false hgood), endLayer_of_over hx hr hover])

theorem exec_taskComplete_of_taskLeft (hleft : layerOver t.inst r (taskEnds id t o s) = false) :
    exec (.taskComplete id o) s = .next (settle (advanceInst t.inst (takeTask id (taskEnds id t o s)))) :=
  (exec_taskComplete_of_landed hrun hin o).trans
    (by rw [if_neg (ne_true_of_eq_false hgood), endLayer_of_left hx hr hleft])

end Landed

theorem exec_taskWatchdog_of_late (hin : weightsIn t s = true) (hlate : at' + t.limitUs * usT ≤ s.time.mono) :
    exec (.taskWatchdog id) s
      = .next (settle (advanceInst t.inst (takeTask id (endTaskRun t stTimeout (freeTile id s))))) := by
  simp only [exec_taskWatchdog, execTaskWatchdog, hrun, hin, due_of_le hlate, Bool.and_self, if_true]
  rfl

theorem exec_taskWatchdog_of_early (hearly : s.time.mono < at' + t.limitUs * usT) :
    exec (.taskWatchdog id) s = .next (settle s) := by
  simp only [exec_taskWatchdog, execTaskWatchdog, hrun, due_of_lt hearly, Bool.and_false]
  rfl

end Running

/-! ### Stealing (R238) -/

theorem exec_tileSteal_of_found {id v : Nat} {t : Task} (hid : id < 256) (hservice : Machine.tileOk id s = true)
    (hon : domOn (tileDom id) s = true) (hidle : (getTile id s).running = none) (hempty : (getTile id s).queue = [])
    (hfound : stealFrom id s = some (v, t)) :
    exec (.tileSteal id) s = .next (settle (pumpAll (startTask id t
      (putTile { getTile v s with queue := (getTile v s).queue.filter fun u => !sameTask u t } s)))) := by
  have takes : ¬(decide (256 ≤ id) || !Machine.tileOk id s || !domOn (tileDom id) s || (getTile id s).running.isSome
      || !(getTile id s).queue.isEmpty) = true := by simp [hid, hservice, hon, hidle, hempty]
  simp only [exec_tileSteal, execTileSteal, if_neg takes, hfound]

/-! ### Weights that land (R251 to R253) -/

section Fetch
variable {inst n k order : Nat} {x : Inst} {p : Pkg} {r : Run} (hx : getInst inst s = some x) (hr : x.runs[n]? = some r)
  (hp : instPkg x s = some p) (hissued : (r.issued.find? fun i => i.1 == k) = some (k, order)) (hnew : k ∉ r.landed)
  (hfirst : servedLater p (runKey x r s) order s = false) (hquar : (layerBlocks p k).any (·.quarAt.isSome) = false)
include hx hr hp hissued hnew hfirst hquar

theorem exec_weightLanded_of_good (hgood : ((fetchOrder p k).find? fun i => (p.blocks[i]?).any fun b => !b.good) = none) :
    let us := if k = r.layer then r.stallAt.elim 0 (fun t => usOf (s.time.mono - t)) else 0
    let s1 := if us = 0 then s else updPkg p.slot (noteStall k us 0) s
    exec (.weightLanded inst k n) s = .next (settle (unstall r.serial k (updRun inst r.serial (fun r => { r with
      landed := r.landed ++ [k], stallAt := if k = r.layer then none else r.stallAt }) s1))) := by
  have unread : r.landed.contains k = false := by simpa using hnew
  simp only [exec_weightLanded, execWeightLanded, hx, hr, hp, hissued, unread, hfirst, hquar, hgood,
    Bool.or_self, Bool.false_eq_true, if_false]
  rfl

theorem exec_weightLanded_of_bad {i : Nat}
    (hbad : ((fetchOrder p k).find? fun i => (p.blocks[i]?).any fun b => !b.good) = some i) :
    exec (.weightLanded inst k n) s = .next (settle (advanceInst inst
      (endRun inst r stMedia (quarantineRead p.slot i (blockFault p.slot i s))))) := by
  have unread : r.landed.contains k = false := by simpa using hnew
  simp only [exec_weightLanded, execWeightLanded, hx, hr, hp, hissued, unread, hfirst, hquar, hbad,
    Bool.or_self, Bool.false_eq_true, if_false]
  rfl

end Fetch

/-! ### Limits and waits of the head run (R252, R253, R262, R264) -/

section Head
variable {inst : Nat} {x : Inst} {p : Pkg} {r : Run} (hx : getInst inst s = some x) (hr : x.runs.head? = some r)
  (hp : instPkg x s = some p)
include hx hr

/-- A wait that is met tries the flag, or the slot, again (log entry 56). -/
theorem exec_flagWaitMet_of_waiting : exec (.flagWaitMet inst) s = .next (settle (match r.st with
    | .waitFlag _ => advanceInst inst (tryFlag inst s)
    | .waitSlot _ => advanceInst inst (trySlot inst s)
    | _ => s)) := by
  simp only [exec_flagWaitMet, execFlagWaitMet, hx, hr, Option.bind_some]
  rfl

include hp

theorem exec_lateWeightExpiry_of_late {t : Nat} (hstall : r.stallAt = some t) (hkept : r.lateOff = false)
    (hquar : awaitedQuar p r.layer = none) (hlate : t + p.rs.lateWeightUs * usT ≤ s.time.mono) :
    exec (.lateWeightExpiry inst) s = .next (settle (advanceInst inst (endHead inst stLateWeight
      (raiseOnce 0x0401 (5, p.slot) (fun n => r.layer + min n (2 ^ 32 - 1) * 65536)
        (updPkg p.slot (noteStall r.layer (usOf (s.time.mono - t)) 1) s))))) := by
  simp only [exec_lateWeightExpiry, execLateWeightExpiry, hx, hr, hp, hstall, due_of_le hlate, hkept, hquar, Option.isSome_none,
    Bool.not_true, Bool.or_self, Bool.false_eq_true, if_false]
  rfl

theorem exec_weightTimeout_of_late {t : Nat} (hstall : r.stallAt ≠ none) (hquar : awaitedQuar p r.layer = some t)
    (hlate : t + p.rs.weightTimeoutUs * usT ≤ s.time.mono) :
    exec (.weightTimeout inst) s = .next (settle (advanceInst inst (endHead inst stMedia s))) := by
  have stalled : ¬r.stallAt.isNone = true := by simpa using hstall
  simp only [exec_weightTimeout, execWeightTimeout, hx, hr, hp, if_neg stalled, hquar, due_of_le hlate, if_true]
  rfl

/-- The flag limit ends a wait for a flag and a wait for a slot alike (R262, R264). -/
theorem exec_flagWaitExpiry_of_late {t : Nat} (hwait : r.st = .waitFlag t ∨ r.st = .waitSlot t)
    (hlate : t + p.rs.flagWaitUs * usT ≤ s.time.mono) :
    exec (.flagWaitExpiry inst) s = .next (settle (advanceInst inst (endHead inst stTimeout s))) := by
  obtain hst | hst := hwait <;>
    · simp only [exec_flagWaitExpiry, execFlagWaitExpiry, hx, hr, hp, hst, due_of_le hlate, if_true]
      rfl

end Head

end TileEvents

/-- Settles O25, by the event: on a tile by its task and how that ends, on a fetch by its first bad block, and on the
head run by what it stalls on or waits for. -/
theorem tileEventsComplete : Obligations.TileEventsComplete := by
  intro s
  refine ⟨fun id t at' o hrun hin => ?_,
    fun id t at' hrun => ⟨exec_taskComplete_of_stalled hrun, exec_taskWatchdog_of_late hrun,
      exec_taskWatchdog_of_early hrun⟩,
    fun id o hidle => ⟨exec_taskComplete_of_idle hidle o, exec_taskWatchdog_of_idle hidle⟩,
    fun id v t hid hservice hon hidle hempty hfound => exec_tileSteal_of_found hid hservice hon hidle hempty hfound,
    fun inst x p n r k order hx hr hp hissued hnew hfirst hquar =>
      ⟨exec_weightLanded_of_good hx hr hp hissued hnew hfirst hquar,
        fun i => exec_weightLanded_of_bad hx hr hp hissued hnew hfirst hquar⟩,
    fun inst x p r hx hr hp => ⟨fun t => exec_lateWeightExpiry_of_late hx hr hp,
      fun t => exec_weightTimeout_of_late hx hr hp, fun t hst => ?_, fun t hst => ?_⟩⟩
  · intro w s1 st found s2
    have leaves : s1 = taskLeaves id t o s := by
      cases h : o.tileBad <;> simp only [s1, taskLeaves, h] <;> rfl
    have clamps : found = taskClamps t o.counts s1 := by
      cases h : (getInst t.inst s1).bind (instPkg · s1) <;> simp only [found, taskClamps, h] <;> rfl
    have ends : s2 = taskEnds id t o s := by
      rw [taskEnds, ← leaves, ← clamps]
      rfl
    rw [ends]
    exact ⟨exec_taskComplete_of_error hrun hin, fun x r hgood hx hr =>
      ⟨exec_taskComplete_of_lastTask hrun hin hgood hx hr, exec_taskComplete_of_taskLeft hrun hin hgood hx hr⟩⟩
  · exact ⟨(exec_flagWaitMet_of_waiting hx hr).trans (by rw [hst]),
      exec_flagWaitExpiry_of_late hx hr hp (.inl hst)⟩
  · exact ⟨(exec_flagWaitMet_of_waiting hx hr).trans (by rw [hst]),
      exec_flagWaitExpiry_of_late hx hr hp (.inr hst)⟩

end Sys2Proof.Machine

/-! ### Calibration sets and grids: their commands -/
namespace Sys2Proof.Machine

section FusionCommands
variable {s : State} {c : Ctx}

/-- What an object in stacked memory needs before it is made: whole quota words, room among its type, in the quota and
in the memory (R74, R90). -/
theorem stackedChecks_bind {α : Type} {ty bytes : Nat} {k : Unit → Except Fail α}
    (hpair : quotaPair c.fn 1 bytes s = .ok ())
    (hcount : countType ty s < typeLimit ty) (hquota : quotaOver c.fn 1 bytes s = 0) (hfree : bytes ≤ stackedFree s) :
    (quotaPair c.fn 1 bytes s >>= fun _ => limitCheck ty s >>= fun _ => fitsQuota c.fn 1 bytes s >>= fun _ =>
      fits 0x009 (bytes - stackedFree s) >>= k) = k () := by
  refine (bind_of_ok hpair).trans ((need_bind (decide_eq_true hcount)).trans ((need_bind (beq_iff_eq.mpr hquota)).trans ?_))
  exact need_bind (beq_iff_eq.mpr (Nat.sub_eq_zero_of_le hfree))

/-! ### CAL_CREATE (R295 to R297) -/

/-- The set that CAL_CREATE replaces. -/
def replacedCal (c : Ctx) (s : State) : Option Cal := if prm c 0 8 = 0 then none else getCal (prm c 0 8 % 2 ^ 32) s

theorem bodyCalCreate_of_fitting (hgood : firstBad (calChecks c.pay ++ heldChecks c.pay c s) = none)
    (hold : ((replacedCal c s).all fun o => slice o.bytes 6 2 == slice c.pay 6 2) = true)
    (hpair : quotaPair c.fn 1 calBytes s = .ok ()) (hcount : countType 14 s < 1024)
    (hquota : quotaOver c.fn 1 calBytes s = 0) (hfree : calBytes ≤ stackedFree s) :
    let w := newObj 14 (2 ^ 32) c.fn c.sess [] false 0 calBytes s
    let s1 := charge c.fn 1 calBytes w.2.2
    let s2 := { s1 with fus.cals := s1.fus.cals ++ [{ slot := w.1, bytes := c.pay, bad := false }] }
    bodyCalCreate c s = .ok ((replacedCal c s).elim s2 fun o => replaceCal o.slot w.1 s2, okR w.1 w.2.1) := by
  simp only [bodyCalCreate, hgood]
  exact (need_bind hold).trans (stackedChecks_bind hpair hcount hquota hfree)

/-! ### GRID_CREATE (R291, R293, R298, R309) -/

/-- A grid as GRID_CREATE makes it, before any problem of its own: slot, generation, and the state with it. -/
def madeGrid (c : Ctx) (p : Option Pkg) (s : State) : Nat × Nat × State :=
  let g := newGrid 0 c.pay s
  let deps := (g.sensors.map fun y => (2, y.stream)) ++ (p.map fun p => (5, p.slot)).toList
  let w := newObj 7 (2 ^ 32) c.fn c.sess deps false 0 (gridBytes g) (draw s).2
  let s1 := charge c.fn 1 (gridBytes g) w.2.2
  (w.1, w.2.1, { s1 with fus.grids := s1.fus.grids ++ [{ g with slot := w.1 }] })

/-- The grid's own ego-motion problem, on the package's claim or on GSUs of its own (R309). -/
def addEgo (k : Pkg) (sec : Nat) (m : Sched) (gs : Option (List Nat)) (claimed : Bool) (slot : Nat) (s : State) : State :=
  let d := draw s
  let t := if claimed then holdClaim k sec d.2 else d.2
  { t with probs := t.probs ++ [newProblem (egoSlot slot) m (gs.getD []) d.1 (if claimed then some (k.slot, sec) else none)] }

section Create
variable (hrange : gridRange c.pay = true) (hlen : c.plen = 64 + 32 * fld c.pay 7 1)
  (hrecs : ((List.range (fld c.pay 7 1)).all fun i => sensorRange c.pay (sensorOff i)) = true)

include hrange hlen hrecs in
theorem descriptor_inRange : (gridRange c.pay && c.plen == 64 + 32 * fld c.pay 7 1
    && (List.range (fld c.pay 7 1)).all fun i => sensorRange c.pay (sensorOff i)) = true := by
  rw [hrange, hlen, hrecs, beq_self_eq_true]
  rfl

theorem no_sensor_refused {p : Option Pkg}
    (h : ((List.range (fld c.pay 7 1)).all fun i => sensorOk c c.pay p.isSome i s) = true) :
    ((List.range (fld c.pay 7 1)).find? fun i => !sensorOk c c.pay p.isSome i s) = none := by
  simpa only [List.find?_eq_none, List.mem_range, Bool.not_eq_eq_eq_not, Bool.not_true, Bool.not_eq_false,
    List.all_eq_true] using h

variable (hpair : quotaPair c.fn 1 (gridBytes (newGrid 0 c.pay s)) s = .ok ()) (hcount : countType 7 s < 8)
  (hquota : quotaOver c.fn 1 (gridBytes (newGrid 0 c.pay s)) s = 0) (hfree : gridBytes (newGrid 0 c.pay s) ≤ stackedFree s)
include hrange hlen hrecs hpair hcount hquota hfree

theorem bodyGridCreate_of_noEgo (hp : egoPkgOf c s = .ok none)
    (hsensors : ((List.range (fld c.pay 7 1)).all fun i => sensorOk c c.pay (none : Option Pkg).isSome i s) = true) :
    let w := madeGrid c none s
    bodyGridCreate c s = .ok (w.2.2, okR w.1 w.2.1) := by
  refine (need_bind (descriptor_inRange hrange hlen hrecs)).trans ((bind_of_ok hp).trans ((need_bind rfl).trans ?_))
  rw [no_sensor_refused hsensors, show egoSched none = none from rfl]
  refine (need_bind rfl).trans ((bind_of_ok (a := none) rfl).trans ?_)
  refine (stackedChecks_bind hpair hcount hquota hfree).trans ?_
  dsimp only [madeGrid]

theorem bodyGridCreate_of_ego {k : Pkg} {sec : Nat} {m : Sched} {gs : Option (List Nat)} (hp : egoPkgOf c s = .ok (some k))
    (hsensors : ((List.range (fld c.pay 7 1)).all fun i => sensorOk c c.pay (some k).isSome i s) = true)
    (hsched : egoSched (some k) = some (sec, m)) (hplace : placeGsus m s = .ok gs)
    (hunheld : (pkgClaims k sec && k.schedHeld.contains sec) = false) (hroom : (pkgClaims k sec || gsuRoom m gs s) = true) :
    let w := madeGrid c (some k) s
    bodyGridCreate c s = .ok (addEgo k sec m gs (pkgClaims k sec) w.1 w.2.2, okR w.1 w.2.1) := by
  have unheld : (!(pkgClaims k sec && k.schedHeld.contains sec)) = true := by
    rw [hunheld]
    rfl
  refine (need_bind (descriptor_inRange hrange hlen hrecs)).trans ((bind_of_ok hp).trans ?_)
  refine (need_bind (by rw [hsched]; rfl)).trans ?_
  rw [no_sensor_refused hsensors, hsched]
  refine (need_bind unheld).trans ((bind_of_ok hplace).trans ?_)
  refine (stackedChecks_bind hpair hcount hquota hfree).trans ((need_bind hroom).trans ?_)
  dsimp only [madeGrid, addEgo, Option.any_some]

end Create

/-! ### Commands on a grid (R307, R314 to R319) -/

section OnGrid
variable {g : Grid} (hg : getGrid (objSlot c) s = some g)
include hg

theorem gridArg_of_found : gridArg c s = .ok g := by
  simp only [gridArg, hg]

theorem bodyGridRead_of_clean
    (hclean : (g.poison.any fun i => (boxBricks g (boxAt c.q.param 16)).contains (i / 512)) = false) :
    let bs := boxBricks g (boxAt c.q.param 16)
    bodyGridRead c s = .ok (s, okD bs.length (g.closed.elim 0 fun (n, _, _) => n % 65536)
      (bs.flatMap (brickBytes g (prm c 12 1)))) :=
  (bind_of_ok (gridArg_of_found hg)).trans (need_bind (by rw [hclean]; rfl))

theorem bodyGridClear_of_found :
    bodyGridClear c s = .ok (pendChange g.slot
      (.clear (reqRef c.q) (clearBoxOf g c.q.param).1 (clearBoxOf g c.q.param).2) (markRunning c.q s), .wait) :=
  bind_of_ok (gridArg_of_found hg)

theorem bodyGridVoteSet_of_found :
    bodyGridVoteSet c s = .ok (pendChange g.slot (.votes (reqRef c.q) c.q.param) (markRunning c.q s), .wait) :=
  bind_of_ok (gridArg_of_found hg)

theorem bodyGridStatus_of_found : bodyGridStatus c s = .ok (s, okD 0 0 (gridRecord g (prm c 12 1) s)) :=
  bind_of_ok (gridArg_of_found hg)

/-- A pose of the host waits with its sensor, the newest last (R318, log entry 79). -/
def submitPose (slot i t : Nat) (b : List Byte) (s : State) : State :=
  updGrid slot (fun g => { g with sensors := g.sensors.modify i fun y => { y with pending := y.pending ++ [(t, b)] } }) s

theorem bodyGridPoseSubmit_of_moving {y : GSensor} (hrange : poseRange g c.pay = true)
    (hy : g.sensors[fld c.pay 16 1]? = some y) (hmoving : y.moving = true)
    (hafter : g.poseTimes = [] ∨ g.poseTimes.getLastD 0 ≤ wordTime c.pay 0)
    (hbefore : wordTime c.pay 0 ≤ s.time.now + 10 * msT) (hroom : y.pending.length < 64) :
    bodyGridPoseSubmit c s = .ok (submitPose g.slot (fld c.pay 16 1) (wordTime c.pay 0) c.pay s, okR 0 0) := by
  have inWindow : (g.poseTimes.isEmpty || decide (g.poseTimes.getLastD 0 ≤ wordTime c.pay 0)) = true := by
    simpa only [Bool.or_eq_true, List.isEmpty_iff, decide_eq_true_eq] using hafter
  refine (bind_of_ok (gridArg_of_found hg)).trans ((need_bind hrange).trans ?_)
  simp only [hy]
  refine (need_bind hmoving).trans ((need_bind inWindow).trans ?_)
  exact (need_bind (decide_eq_true hbefore)).trans (need_bind (decide_eq_true hroom))

end OnGrid

/-! ### CAL_DESTROY and GRID_DESTROY (R77, R78, R319) -/

theorem bodyGridDestroy_of_noDependants {o : Obj} (ho : c.obj = some o) (hdeps : dependants o.ty o.slot s = []) :
    bodyGridDestroy c s = .ok (updGrid (objSlot c) (fun g => { g with epochs := [] })
      (updObj o.ty o.slot (fun y => { y with st := .closing (some (reqRef c.q)) }) s), .wait) :=
  bind_of_ok (releaseBody_of_noDependants ho hdeps)

end FusionCommands

/-- Settles O26, by the command, and for a grid by its ego-motion package and who claims that package's schedule. -/
theorem fusionCommandsComplete : Obligations.FusionCommandsComplete := by
  intro r io s q c
  refine ⟨fun old ready hgood hold hsame hpair hcount hquota hfree => ?_,
    fun p ready hp => ?_,
    fun g hg => ⟨fun ready hclean => serve_reply ready (bodyGridRead_of_clean hg hclean),
      fun ready => serve_wait ready (bodyGridClear_of_found hg),
      fun ready => serve_wait ready (bodyGridVoteSet_of_found hg),
      fun y ready hrange hy hmoving hafter hbefore hroom => serve_reply ready
        (bodyGridPoseSubmit_of_moving hg hrange hy hmoving hafter hbefore hroom),
      fun ready => serve_reply ready (bodyGridStatus_of_found hg)⟩,
    fun o ho hdeps => ⟨fun ready => serve_wait ready (releaseBody_of_noDependants ho hdeps),
      fun ready => serve_wait ready (bodyGridDestroy_of_noDependants ho hdeps)⟩⟩
  · subst hold
    exact serve_reply ready (bodyCalCreate_of_fitting hgood hsame hpair hcount hquota hfree)
  · intro n g bytes s0 w s1 s2 hrange hlen hrecs hsensors hpair hcount hquota hfree
    refine ⟨?_, fun k sec m gs hk hsched hplace => ⟨fun hclaim hroom => ?_, fun hclaim hheld => ?_⟩⟩
    · rintro rfl
      exact serve_reply ready (bodyGridCreate_of_noEgo hrange hlen hrecs hpair hcount hquota hfree hp hsensors)
    · subst hk
      have made := bodyGridCreate_of_ego hrange hlen hrecs hpair hcount hquota hfree hp hsensors hsched hplace
        (by rw [hclaim]; rfl) (by rw [hclaim]; exact hroom)
      rw [hclaim] at made
      exact serve_reply ready made
    · subst hk
      have made := bodyGridCreate_of_ego hrange hlen hrecs hpair hcount hquota hfree hp hsensors hsched hplace
        (by rw [hclaim, hheld]; rfl) (by rw [hclaim]; rfl)
      rw [hclaim] at made
      exact serve_reply ready made

end Sys2Proof.Machine

/-! ### Epochs: batches that join, open or miss one, its limit and its close -/
namespace Sys2Proof.Machine

section Epochs
variable {slot : Nat} {b : List Byte} {s : State}

section NoGrid
variable (hnone : getGrid slot s = none)
include hnone

theorem exec_scatterBatch_of_noGrid (tile : Nat) : exec (.scatterBatch slot b tile) s = .next s := by
  simp only [exec_scatterBatch, execScatterBatch, hnone]

theorem exec_epochLimit_of_noGrid : exec (.epochLimit slot) s = .next s := by
  simp only [exec_epochLimit, execEpochLimit, hnone]

theorem exec_epochClose_of_noGrid : exec (.epochClose slot) s = .next s := by
  simp only [exec_epochClose, execEpochClose, hnone]

end NoGrid

theorem exec_scatterBatch_of_noRun {tile : Nat} (hnone : scatterRun tile slot s = none) :
    exec (.scatterBatch slot b tile) s = .next s := by
  simp only [exec_scatterBatch, execScatterBatch, hnone]
  cases getGrid slot s <;> rfl

/-- A batch that matches no open epoch opens one, unless it matches a closed one or two are open (R300). -/
def newEpochBatch (slot : Nat) (b : List Byte) (x : Inst) (r : Run) (g : Grid) (t : Nat) (s : State) : State :=
  if (g.closedTus.any fun u => epochMatch g u t) || decide (2 ≤ g.epochs.length) then dropBatch slot s
  else (epochAt slot t (openEpoch slot t s)).elim (openEpoch slot t s) fun e => enterBatch slot b x r e (openEpoch slot t s)

section OnGrid
variable {g : Grid} (hg : getGrid slot s = some g)
include hg

theorem epochAt_of_grid (t : Nat) : epochAt slot t s = g.epochs.find? fun e => epochMatch g e.tu t := by
  rw [epochAt, hg, Option.bind_some]

/-! ### SCATTER_BATCH (R296, R299 to R302) -/

section Batch
variable {tile : Nat} {x : Inst} {r : Run} (hrun : scatterRun tile slot s = some (x, r))
include hrun

theorem exec_scatterBatch_of_malformed (hbad : batchOk g b = false) : exec (.scatterBatch slot b tile) s = .next s := by
  simp only [exec_scatterBatch, execScatterBatch, hg, hrun, hbad]
  rfl

variable (hgood : batchOk g b = true)
include hgood

/-- A batch that is laid out for the grid joins the open epoch of its time while that accepts (R300, R301). -/
theorem exec_scatterBatch_of_laidOut :
    exec (.scatterBatch slot b tile) s = .next (settle
      ((g.epochs.find? fun e => epochMatch g e.tu (runEpochTime x r s)).elim
        (newEpochBatch slot b x r g (runEpochTime x r s) s)
        fun e => if e.accepting then enterBatch slot b x r e s else dropBatch slot s)) := by
  simp only [exec_scatterBatch, execScatterBatch, hg, hrun, hgood, epochAt_of_grid hg]
  cases g.epochs.find? fun e => epochMatch g e.tu (runEpochTime x r s) <;> rfl

section Matched
variable {e : Epoch} (hfind : (g.epochs.find? fun e => epochMatch g e.tu (runEpochTime x r s)) = some e)
include hfind

theorem exec_scatterBatch_of_accepting (hopen : e.accepting = true) :
    exec (.scatterBatch slot b tile) s = .next (settle (enterBatch slot b x r e s)) := by
  rw [exec_scatterBatch_of_laidOut hg hrun hgood, hfind, Option.elim_some, if_pos hopen]

theorem exec_scatterBatch_of_stopped (hstop : e.accepting = false) :
    exec (.scatterBatch slot b tile) s = .next (settle (dropBatch slot s)) := by
  rw [exec_scatterBatch_of_laidOut hg hrun hgood, hfind, Option.elim_some, hstop]
  rfl

end Matched

section Unmatched
variable (hnone : (g.epochs.find? fun e => epochMatch g e.tu (runEpochTime x r s)) = none)
include hnone

theorem exec_scatterBatch_of_missed
    (hmiss : (g.closedTus.any fun u => epochMatch g u (runEpochTime x r s)) = true ∨ 2 ≤ g.epochs.length) :
    exec (.scatterBatch slot b tile) s = .next (settle (dropBatch slot s)) := by
  rw [exec_scatterBatch_of_laidOut hg hrun hgood, hnone, Option.elim_none, newEpochBatch,
    if_pos (by simpa only [Bool.or_eq_true, decide_eq_true_eq] using hmiss)]

theorem exec_scatterBatch_of_opening
    (hfresh : (g.closedTus.any fun u => epochMatch g u (runEpochTime x r s)) = false) (hroom : g.epochs.length < 2) {e : Epoch}
    (hopened : epochAt slot (runEpochTime x r s) (openEpoch slot (runEpochTime x r s) s) = some e) :
    exec (.scatterBatch slot b tile) s
      = .next (settle (enterBatch slot b x r e (openEpoch slot (runEpochTime x r s) s))) := by
  have opens : ¬((g.closedTus.any fun u => epochMatch g u (runEpochTime x r s)) || decide (2 ≤ g.epochs.length)) = true := by
    rw [hfresh, decide_eq_false (Nat.not_le.mpr hroom)]
    exact Bool.false_ne_true
  rw [exec_scatterBatch_of_laidOut hg hrun hgood, hnone, Option.elim_none, newEpochBatch, if_neg opens, hopened,
    Option.elim_some]

end Unmatched

end Batch

/-! ### A batch in its epoch (R296, R302) -/

section Entry
variable {y : GSensor} (hy : g.sensors[batchSensor b]? = some y) (x : Inst) (r : Run) (e : Epoch)
include hy

theorem enterBatch_of_error (herr : isErr (batchStatus b) = true) :
    enterBatch slot b x r e s = updEpoch slot e.no (joinEpoch g b none) s := by
  simp only [enterBatch, hg, hy, herr, if_true]

variable (hgood : isErr (batchStatus b) = false)
include hgood

theorem enterBatch_of_uncalibrated (hcal : epochCal e (batchSensor b) s = none) :
    enterBatch slot b x r e s
      = advanceInst x.slot (endRun x.slot r stIntegrity (updEpoch slot e.no (joinEpoch g b none) s)) := by
  simp only [enterBatch, hg, hy, hgood, hcal, Bool.false_eq_true, if_false]

theorem enterBatch_of_calibrated {k : Cal} (hcal : epochCal e (batchSensor b) s = some k) :
    enterBatch slot b x r e s = updEpoch slot e.no (joinEpoch g b (some (takeBatch g y k.bytes b x r s).1))
      (takeBatch g y k.bytes b x r s).2 := by
  simp only [enterBatch, hg, hy, hgood, hcal, Bool.false_eq_true, if_false]

end Entry

/-! ### EPOCH_LIMIT and EPOCH_CLOSE (R301, R306) -/

/-- The sensors that an epoch expects and that have sent no END (R301). -/
def absentSensors (g : Grid) (e : Epoch) : List Nat :=
  (g.sensors.zipIdx.filter fun (y, i) => y.expect' && !e.ends.contains i).map (·.2)

theorem exec_epochLimit_of_late {e : Epoch}
    (he : (g.epochs.find? fun e => e.accepting && due (e.openAt + g.epochUs * usT) s) = some e) :
    exec (.epochLimit slot) s = .next (settle ((absentSensors g e).foldl
      (fun s i => raise 0x0504 (e.no + i * 2 ^ 32) (some (7, slot)) s)
      (updEpoch slot e.no (fun e' => { e' with accepting := false, absent := absentSensors g e }) s))) := by
  simp only [exec_epochLimit, execEpochLimit, hg, he]
  rfl

section Close
variable {e : Epoch} (he : g.epochs.head? = some e)
include he

theorem exec_epochClose_of_accepting (hopen : e.accepting = true) : exec (.epochClose slot) s = .next s := by
  simp only [exec_epochClose, execEpochClose, hg, he, hopen, if_true]

theorem exec_epochClose_of_stopped (hstop : e.accepting = false) :
    exec (.epochClose slot) s = .next (settle (closeEpoch g e s)) := by
  simp only [exec_epochClose, execEpochClose, hg, he, hstop, Bool.false_eq_true, if_false]

end Close

end OnGrid
end Epochs

/-- Settles O27, by the event: a batch by the epoch that its time finds, then by its status and its sensor's set; the
limit by an epoch that is late; the close by whether the first epoch still accepts. -/
theorem fusionEventsComplete : Obligations.FusionEventsComplete := by
  intro slot b s
  refine ⟨fun hnone => ⟨exec_scatterBatch_of_noGrid hnone, exec_epochLimit_of_noGrid hnone,
      exec_epochClose_of_noGrid hnone⟩,
    fun tile => exec_scatterBatch_of_noRun, fun g hg => ⟨fun tile x r hrun => ⟨exec_scatterBatch_of_malformed hg hrun,
        fun hgood => ⟨fun e hfind => ⟨exec_scatterBatch_of_accepting hg hrun hgood hfind,
            exec_scatterBatch_of_stopped hg hrun hgood hfind⟩,
          fun hnone => ⟨exec_scatterBatch_of_missed hg hrun hgood hnone,
            fun hfresh hroom e => exec_scatterBatch_of_opening hg hrun hgood hnone hfresh hroom⟩⟩⟩,
      fun x r e y hy => ⟨enterBatch_of_error hg hy x r e, enterBatch_of_uncalibrated hg hy x r e,
        fun k hok => enterBatch_of_calibrated hg hy x r e hok⟩,
      fun e => exec_epochLimit_of_late hg,
      fun e he => ⟨exec_epochClose_of_accepting hg he, exec_epochClose_of_stopped hg he⟩⟩⟩

end Sys2Proof.Machine

/-! ### Fusion: votes and suspicion -/
namespace Sys2Proof.Machine

section Votes
variable {g : Grid} {labels : List (Nat × Nat)}

/-! ### Table 9.6 for one voxel (R306, R312, R314, R315) -/

/-- Whether sensor `k` of a grid is suspect (R313). -/
def suspectAt (g : Grid) (k : Nat) : Bool := (g.sensors[k]?).any (·.suspect)

/-- The labels that count: those of sensors that are not suspect (R313). -/
def countingLabels (g : Grid) (labels : List (Nat × Nat)) : List (Nat × Nat) := labels.filter fun x => !suspectAt g x.1

/-- How many counting labels say free. -/
def freeCount (g : Grid) (labels : List (Nat × Nat)) : Nat := ((countingLabels g labels).filter fun x => x.2 == 1).length

/-- The sensors of these labels, each outvoted where its label is not the one decided (R312). -/
def judgedBy (v : Nat) (labels : List (Nat × Nat)) : List (Nat × Bool) := labels.map fun x => (x.1, x.2 != v)

theorem decideVoxel_of_freeMajority (hmany : 3 ≤ (countingLabels g labels).length)
    (hfree : (countingLabels g labels).length < 2 * freeCount g labels) :
    decideVoxel g labels
      = { label := some 1, pair := none, voters := (countingLabels g labels).length, judged := judgedBy 1 labels } :=
  (if_pos hmany).trans (if_pos hfree)

theorem decideVoxel_of_occupiedMajority (hmany : 3 ≤ (countingLabels g labels).length)
    (hocc : 2 * freeCount g labels < (countingLabels g labels).length) :
    decideVoxel g labels
      = { label := some 2, pair := none, voters := (countingLabels g labels).length, judged := judgedBy 2 labels } :=
  (if_pos hmany).trans ((if_neg (Nat.not_lt.mpr (Nat.le_of_lt hocc))).trans (if_pos hocc))

theorem decideVoxel_of_evenSplit (hmany : 3 ≤ (countingLabels g labels).length)
    (heven : 2 * freeCount g labels = (countingLabels g labels).length) :
    decideVoxel g labels = { label := none, pair := none, voters := (countingLabels g labels).length, judged := [] } :=
  (if_pos hmany).trans ((if_neg (Nat.not_lt.mpr (Nat.le_of_eq heven))).trans (if_neg (Nat.not_lt.mpr (Nat.le_of_eq heven.symm))))

theorem notMany_of_two (htwo : (countingLabels g labels).length = 2) : ¬3 ≤ (countingLabels g labels).length := by
  rw [htwo]
  decide

theorem decideVoxel_of_twoDiffer (htwo : (countingLabels g labels).length = 2) (hdiffer : freeCount g labels = 1) :
    let sensor := natAt ((countingLabels g labels).map (·.1))
    decideVoxel g labels
      = { label := none, pair := some (min (sensor 0) (sensor 1), max (sensor 0) (sensor 1)), voters := 2, judged := [] } :=
  (if_neg (notMany_of_two htwo)).trans ((if_pos htwo).trans (if_pos hdiffer))

/-- Two counting labels that differ are a contradiction that judges nobody; the pair is kept lower index first, the
model's own choice (log entry 76). -/
theorem decideVoxel_of_contradiction {a b va vb : Nat} (htwo : countingLabels g labels = [(a, va), (b, vb)])
    (hdiffer : freeCount g labels = 1) :
    decideVoxel g labels = { label := none, pair := some (min a b, max a b), voters := 2, judged := [] } :=
  (decideVoxel_of_twoDiffer (by rw [htwo]; rfl) hdiffer).trans (by rw [htwo]; rfl)

theorem decideVoxel_of_twoAlike (htwo : (countingLabels g labels).length = 2) (halike : freeCount g labels ≠ 1) :
    decideVoxel g labels
      = { label := some (if freeCount g labels = 2 then 1 else 2), pair := none, voters := 2
          judged := judgedBy (if freeCount g labels = 2 then 1 else 2) (labels.filter fun x => suspectAt g x.1) } :=
  (if_neg (notMany_of_two htwo)).trans ((if_pos htwo).trans (if_neg halike))

theorem decideVoxel_of_twoFree (htwo : (countingLabels g labels).length = 2) (hfree : freeCount g labels = 2) :
    decideVoxel g labels = { label := some 1, pair := none, voters := 2
                             judged := judgedBy 1 (labels.filter fun x => suspectAt g x.1) } := by
  rw [decideVoxel_of_twoAlike htwo (by omega), if_pos hfree]

theorem decideVoxel_of_twoOccupied (htwo : (countingLabels g labels).length = 2) (hocc : freeCount g labels = 0) :
    decideVoxel g labels = { label := some 2, pair := none, voters := 2
                             judged := judgedBy 2 (labels.filter fun x => suspectAt g x.1) } := by
  rw [decideVoxel_of_twoAlike htwo (by omega), if_neg (by omega)]

theorem decideVoxel_of_fewerThanTwo (hfew : (countingLabels g labels).length < 2) :
    decideVoxel g labels = { label := ((countingLabels g labels).head?).map (·.2), pair := none
                             voters := (countingLabels g labels).length, judged := [] } :=
  (if_neg (Nat.not_le.mpr (Nat.lt_succ_of_lt hfew))).trans (if_neg (Nat.ne_of_lt hfew))

theorem decideVoxel_of_many (hmany : 3 ≤ (countingLabels g labels).length) :
    (decideVoxel g labels).pair = none ∧ (decideVoxel g labels).voters = (countingLabels g labels).length := by
  obtain hfree | heven | hocc := Nat.lt_trichotomy (countingLabels g labels).length (2 * freeCount g labels)
  · simp only [decideVoxel_of_freeMajority hmany hfree, and_self]
  · simp only [decideVoxel_of_evenSplit hmany heven.symm, and_self]
  · simp only [decideVoxel_of_occupiedMajority hmany hocc, and_self]

theorem decideVoxel_voters : (decideVoxel g labels).voters = (countingLabels g labels).length := by
  obtain hfew | htwo | hmany : (countingLabels g labels).length < 2 ∨ (countingLabels g labels).length = 2
    ∨ 3 ≤ (countingLabels g labels).length := by omega
  · rw [decideVoxel_of_fewerThanTwo hfew]
  · by_cases hdiffer : freeCount g labels = 1
    · rw [decideVoxel_of_twoDiffer htwo hdiffer, htwo]
    · rw [decideVoxel_of_twoAlike htwo hdiffer, htwo]
  · exact (decideVoxel_of_many hmany).2

end Votes

/-! ### A sensor after a close (R312, R313) -/

section Suspicion
variable {v : Votes} {j o : Nat} {y : GSensor}

/-- A sensor's window once the counts of a close have entered its front (R312). -/
def votedWindow (v : Votes) (j o : Nat) (y : GSensor) : List (Nat × Nat) := ((j, o) :: y.win).take v.window

/-- A sensor that has taken the counts of a close (R312). -/
def countVotes (v : Votes) (j o : Nat) (y : GSensor) : GSensor := { y with win := votedWindow v j o y, lastJ := j, lastO := o }

/-- A sensor that is not suspect becomes suspect above the share (R313). -/
theorem judgeSensor_of_trusted (hy : y.suspect = false) :
    let n := winSum (votedWindow v j o y)
    judgeSensor v j o y = if 0 < n.1 ∧ v.share * n.1 < 1000 * n.2
      then ({ countVotes v j o y with suspect := true, since := 0 }, some 0x0501) else (countVotes v j o y, none) := by
  simp only [judgeSensor, votedWindow, countVotes, hy, Bool.not_false, if_true, decide_eq_true_eq]

/-- A suspect sensor is freed once its window is over and the share no longer exceeded (R313). -/
theorem judgeSensor_of_suspect (hy : y.suspect = true) :
    let n := winSum (votedWindow v j o y)
    judgeSensor v j o y = if v.window ≤ y.since + 1 ∧ 0 < n.1 ∧ 1000 * n.2 ≤ v.share * n.1
      then ({ countVotes v j o y with suspect := false, since := 0 }, some 0x0502)
      else ({ countVotes v j o y with since := y.since + 1 }, none) := by
  simp only [judgeSensor, votedWindow, countVotes, hy, Bool.not_true, Bool.false_eq_true, if_false,
    Bool.not_eq_eq_eq_not, decide_eq_false_iff_not, Nat.not_lt]

theorem judgeSensor_win : (judgeSensor v j o y).1.win = votedWindow v j o y := by
  cases hy : y.suspect with
  | false =>
    rw [judgeSensor_of_trusted hy]
    split <;> rfl
  | true =>
    rw [judgeSensor_of_suspect hy]
    split <;> rfl

theorem judgeSensor_suspects_iff (hy : y.suspect = false) :
    let n := winSum (votedWindow v j o y)
    ((judgeSensor v j o y).1.suspect = true ↔ 0 < n.1 ∧ v.share * n.1 < 1000 * n.2)
      ∧ ((judgeSensor v j o y).2 = some 0x0501 ↔ (judgeSensor v j o y).1.suspect = true) := by
  intro n
  rw [judgeSensor_of_trusted hy]
  split
  next habove => exact ⟨iff_of_true rfl habove, iff_of_true rfl rfl⟩
  next hbelow => simp only [countVotes, hy, Bool.false_eq_true, hbelow, reduceCtorEq, and_self, n]

theorem judgeSensor_frees_iff (hy : y.suspect = true) :
    let n := winSum (votedWindow v j o y)
    ((judgeSensor v j o y).1.suspect = false ↔ v.window ≤ y.since + 1 ∧ 0 < n.1 ∧ 1000 * n.2 ≤ v.share * n.1)
      ∧ ((judgeSensor v j o y).2 = some 0x0502 ↔ (judgeSensor v j o y).1.suspect = false) := by
  intro n
  rw [judgeSensor_of_suspect hy]
  split
  next hfreed => exact ⟨iff_of_true rfl hfreed, iff_of_true rfl rfl⟩
  next hkept => simp only [countVotes, hy, Bool.true_eq_false, hkept, reduceCtorEq, and_self, n]

end Suspicion

/-- Settles O28: each row of Table 9.6 by how many labels count and how many of them say free, and suspicion by what
the sensor was before the close. -/
theorem votesDecideAndSuspect : Obligations.VotesDecideAndSuspect := by
  refine ⟨fun g labels => ⟨decideVoxel_voters, fun hmany => ⟨(decideVoxel_of_many hmany).1, fun hfree => ?_,
        fun hocc => ?_, fun heven => ?_⟩,
      fun a b va vb htwo hdiffer => decideVoxel_of_contradiction htwo hdiffer,
      ⟨fun htwo hfrees => ?_, fun htwo hfrees => ?_⟩, fun hfew => decideVoxel_of_fewerThanTwo hfew⟩,
    fun g no d x v => ⟨rfl, rfl, rfl, rfl, rfl⟩,
    fun v j o y => ⟨judgeSensor_win, judgeSensor_suspects_iff, judgeSensor_frees_iff⟩⟩
  · have row := decideVoxel_of_freeMajority hmany hfree
    exact ⟨congrArg Decision.label row, congrArg Decision.judged row⟩
  · have row := decideVoxel_of_occupiedMajority hmany hocc
    exact ⟨congrArg Decision.label row, congrArg Decision.judged row⟩
  · have row := decideVoxel_of_evenSplit hmany heven
    exact ⟨congrArg Decision.label row, congrArg Decision.judged row⟩
  · have row := decideVoxel_of_twoFree htwo hfrees
    exact ⟨congrArg Decision.label row, congrArg Decision.pair row, congrArg Decision.judged row⟩
  · have row := decideVoxel_of_twoOccupied htwo hfrees
    exact ⟨congrArg Decision.label row, congrArg Decision.pair row, congrArg Decision.judged row⟩

end Sys2Proof.Machine

/-! ### The ranges that a ready command's request has passed -/
namespace Sys2Proof.Machine

section Ranges
variable {ci : CmdInfo} {r : ReqRef} {io : Io} {s : State} {q : Req} {c : Ctx}

/-- Whatever some checks end with has a property. -/
def Yields {α : Type} (P : α → Prop) (m : Except Fail α) : Prop := ∀ a, m = .ok a → P a

theorem yields_pure {α : Type} {P : α → Prop} {a : α} (h : P a) : Yields P (pure a) := fun _ e => by
  cases e
  exact h

theorem yields_bind {α β : Type} {P : β → Prop} {m : Except Fail α} {k : α → Except Fail β}
    (h : ∀ a, m = .ok a → Yields P (k a)) : Yields P (m >>= k) := by
  cases m with
  | error f => exact fun _ e => nomatch e
  | ok a => exact h a rfl

theorem holds_of_need {b : Bool} {f : Fail} {u : Unit} (h : need b f = .ok u) : b = true := by
  cases b with
  | false => cases h
  | true => rfl

/-- Step 6 of the validation checks the request's ranges, before its payload is read (R84). -/
theorem validate_yields_inRange : Yields (fun c => ∃ c0, c0.q = c.q ∧ ci.range c0 s = true) (validate ci q io s) := by
  unfold validate
  (repeat' (first | refine yields_bind fun _ _ => ?_ | split)) <;>
    · have passed := holds_of_need ‹need (ci.range _ s) _ = .ok _›
      exact yields_pure ⟨_, by rfl, passed⟩

theorem IsReady.inRange (ready : IsReady ci r io s q c) : ∃ c0, c0.q = c.q ∧ ci.range c0 s = true :=
  validate_yields_inRange c ready.validated

end Ranges

end Sys2Proof.Machine

/-! ### Graph solver: problems loaded, changed, run, answered and unloaded -/
namespace Sys2Proof.Machine

section SolverCommands
variable {s : State} {c : Ctx}

/-! ### SOLV_LOAD (R323, R329, R331, R335, R359) -/

section Load
variable (pkg : Option Pkg) (claimed : Bool) (m : Sched) (gs : Option (List Nat)) (c s)

/-- The stacked bytes that SOLV_LOAD charges: none where it takes a package's claim (log entry 59). -/
def loadBytes : Nat := if claimed then 0 else schStacked m

/-- The object of a problem that is loaded: its slot, its generation, and the state with it charged. -/
def madeProblem : Nat × Nat × State :=
  let w := newObj 8 (2 ^ 32) c.fn c.sess (pkg.map fun p => (5, p.slot)).toList false 0 (loadBytes claimed m) s
  (w.1, w.2.1, charge c.fn 1 (loadBytes claimed m) w.2.2)

/-- A problem takes over the claim of its package (R359). -/
def takeClaim : State := pkg.elim s fun p => if claimed then holdClaim p (prm c 8 1) s else s

/-- Adds the new problem of an object; an image of the host's own is measured (R329, R335). -/
def addProblem (slot : Nat) : State :=
  let d := draw (takeClaim s c pkg claimed)
  let t := if pkg.isNone then measure 7 (Config.sha3 c.pay) d.2 else d.2
  { t with probs := t.probs ++ [newProblem slot m (gs.getD []) d.1
      (if claimed then pkg.map fun p => (p.slot, prm c 8 1) else none)] }

end Load

theorem bodySolvLoad_of_fitting {pkg : Option Pkg} {claimed : Bool} {m : Sched} {gs : Option (List Nat)}
    (hpkg : loadPkg c s = pkg) (hclaimed : (pkg.any fun p => pkgClaims p (prm c 8 1)) = claimed)
    (hsched : checkSched (loadImage c s) = .ok m) (hplace : placeGsus m s = .ok gs)
    (hunheld : claimed = true → (pkg.any fun p => p.schedHeld.contains (prm c 8 1)) = false)
    (hroom : claimed = false → gsuRoom m gs s = true)
    (hpair : quotaPair c.fn 1 (loadBytes claimed m) s = .ok ()) (hcount : countType 8 s < 256)
    (hquota : quotaOver c.fn 1 (loadBytes claimed m) s = 0) (hfree : loadBytes claimed m ≤ stackedFree s) :
    let w := madeProblem s c pkg claimed m
    bodySolvLoad c s = if prm c 9 1 = 1 then .ok (s, okR 0 0) else
      .ok (addProblem w.2.2 c pkg claimed m gs w.1, okR w.1 w.2.1) := by
  have unheld : (!(claimed && pkg.any fun p => p.schedHeld.contains (prm c 8 1))) = true := by
    simpa only [Bool.not_eq_true', Bool.and_eq_false_imp] using hunheld
  have room : (claimed || gsuRoom m gs s) = true := by
    cases claimed with
    | false => exact hroom rfl
    | true => rfl
  simp only [bodySolvLoad, hpkg, hclaimed]
  refine (bind_of_ok hsched).trans ((need_bind unheld).trans ((bind_of_ok hplace).trans ?_))
  refine (stackedChecks_bind hpair hcount hquota hfree).trans ((need_bind room).trans ?_)
  cases pkg with
  | none => cases claimed <;> rfl
  | some p => cases claimed <;> rfl

/-! ### Commands on a problem -/

/-- The batch of SOLV_DELTA comes from its payload or an allocation (R360). -/
theorem batch_bind {α : Type} {b : List Byte} {k : List Byte → Except Fail α}
    (hb : (if prm c 0 8 = 0 then .ok c.pay else allocBatch c s) = .ok b) :
    (if prm c 0 8 = 0 then .ok c.pay >>= k else allocBatch c s >>= k) = k b := by
  split at hb
  next hpay => exact (if_pos hpay).trans (bind_of_ok hb)
  next halloc => exact (if_neg halloc).trans (bind_of_ok hb)

/-- A run's deadline follows `DEADLINE_REF`, whose field a ready SOLV_RUN has as 0 or 1 (R354). -/
theorem testBit_of_deadlineRef {r : ReqRef} {io : Io} {q : Req} (ready : IsReady iSolvRun r io s q c) :
    (fld c.q.param 13 1).testBit 0 = decide (prm c 13 1 = 1) := by
  obtain ⟨c0, hreq, hrange⟩ := ready.inRange
  have flag : prm c 13 1 ≤ 1 := by
    simp only [iSolvRun, Bool.and_eq_true, decide_eq_true_eq, prm, hreq] at hrange
    exact hrange.1.1.1.1.2
  rw [Nat.testBit_zero, ← prm, Nat.mod_eq_of_lt (Nat.lt_succ_of_le flag)]

/-- The blocks that SOLV_RESULT asks for (R361). -/
def askedBlocks (c : Ctx) (p : Problem) : List BlockRec := (p.sch.blocks.drop (prm c 12 4)).take (prm c 16 4)

/-- SOLV_RESULT may give what it asks for: covariances of blocks that have them (R361). -/
def mayAnswer (c : Ctx) (p : Problem) (sol : Solution) : Prop :=
  prm c 20 1 = 0 ∨ (p.sch.ldlt = true ∧ ((askedBlocks c p).all (·.marginal)) = true ∧
    (((askedBlocks c p).zipIdx).all fun (b, i) => ((sol.cov[prm c 12 4 + i]?).getD []).length == covWords b) = true)

section OnProblem
variable {p : Problem} (hp : getProb (objSlot c) s = some p)
include hp

theorem probArg_of_found : probArg c s = .ok p := by
  simp only [probArg, hp]

/-- A batch for this pattern whose records all pass is applied whole, in order (R333 to R335). -/
theorem bodySolvDelta_of_passing {b : List Byte} (hb : (if prm c 0 8 = 0 then .ok c.pay else allocBatch c s) = .ok b)
    (hlen : 16 + 8 * fld b 8 4 ≤ b.length) (hcount : inR 1 (fld b 8 4) 4194304 = true) (hrsv : fld b 12 4 = 0)
    (hfinger : BitVec.ofNat 64 (fld b 0 8) = p.sch.finger) (hend : (parseDeltas b (fld b 8 4) 16 []).2 = b.length)
    (hpass : deltasBad p (parseDeltas b (fld b 8 4) 16 []).1 0 (knownFactors p) = none) :
    bodySolvDelta c s = .ok (updProb p.slot
      (fun p => (parseDeltas b (fld b 8 4) 16 []).1.foldl applyDelta p) s, okR (fld b 8 4) 0) := by
  have header : (decide (16 ≤ b.length) && inR 1 (fld b 8 4) 4194304 && fld b 12 4 == 0) = true := by
    rw [hcount, hrsv, decide_eq_true (Nat.le_trans (Nat.le_add_right ..) hlen)]
    rfl
  refine (bind_of_ok (probArg_of_found hp)).trans ((batch_bind hb).trans ((need_bind header).trans ?_))
  refine (need_bind (beq_iff_eq.mpr hfinger)).trans ((need_bind (decide_eq_true hlen)).trans ?_)
  refine (need_bind (beq_iff_eq.mpr hend)).trans ?_
  simp only [hpass]

theorem bodySolvRun_of_room (hroom : (p.runs.filter fun r => r.start.isNone).length < 8) :
    bodySolvRun c s = .ok (updProb p.slot (fun p => { p with runs := p.runs ++ [newRun c.q s] }) s, .wait) :=
  (bind_of_ok (probArg_of_found hp)).trans (need_bind (decide_eq_true hroom))

theorem bodySolvResult_of_held {sol : Solution}
    (hsol : (if prm c 21 1 = 1 then p.resident else p.delivered.map (·.1)) = some sol) (hmay : mayAnswer c p sol) :
    bodySolvResult c s = if (p.valuesBad && prm c 21 1 == 1) = true then .error (err stMedia) else
      .ok (s, okD (askedBlocks c p).length (if prm c 21 1 = 1 then sol.status else p.delivered.elim 0 (·.2))
        (((askedBlocks c p).zipIdx).flatMap fun (b, i) => resultRecord p.sch sol (prm c 20 1) (prm c 12 4 + i) b)) := by
  have kind : (prm c 20 1 == 0 || (p.sch.ldlt && (askedBlocks c p).all (·.marginal))) = true := by
    obtain hvalues | ⟨hldlt, hmarginal, -⟩ := hmay
    · rw [hvalues]
      rfl
    · rw [hldlt, hmarginal, Bool.and_self, Bool.or_true]
  have words : (prm c 20 1 == 0 || ((askedBlocks c p).zipIdx).all fun (b, i) =>
      ((sol.cov[prm c 12 4 + i]?).getD []).length == covWords b) = true := by
    obtain hvalues | ⟨-, -, hcov⟩ := hmay
    · rw [hvalues]
      rfl
    · rw [hcov, Bool.or_true]
  refine (bind_of_ok (probArg_of_found hp)).trans ?_
  simp only [hsol]
  refine (need_bind kind).trans ((need_bind words).trans ?_)
  cases p.valuesBad && prm c 21 1 == 1 <;> rfl

theorem bodySolvQuery_of_found : bodySolvQuery c s = .ok (s, okD 0 0 (probRecord p s)) :=
  bind_of_ok (probArg_of_found hp)

/-- An unload marks the problem closing before it ends the queued runs (R362). -/
theorem bodySolvUnload_of_noDependants {o : Obj} (ho : c.obj = some o) (hdeps : dependants o.ty o.slot s = []) :
    bodySolvUnload c s = .ok ((p.runs.filter fun r => r.start.isNone).foldl
      (fun s r => postRef r.req stAborted 0 0 none s)
      (updProb p.slot (fun p => { p with runs := p.runs.filter fun r => r.start.isSome })
        (updObj o.ty o.slot (fun y => { y with st := .closing (some (reqRef c.q)) }) s)), .wait) :=
  (bind_of_ok (probArg_of_found hp)).trans (bind_of_ok (releaseBody_of_noDependants ho hdeps))

end OnProblem

end SolverCommands

/-- Settles O29, by the command, a load by CHECK_ONLY and a result by whether the resident values can be read. -/
theorem solverCommandsComplete : Obligations.SolverCommandsComplete := by
  intro r io s q c
  refine ⟨fun m gs ready hsched hplace => ?_, fun p hp =>
    ⟨fun b ready hb => ?_, fun ready hroom => ?_, fun sol ready => ?_,
      fun ready => serve_reply ready (bodySolvQuery_of_found hp),
      fun o ready ho hdeps => serve_wait ready (bodySolvUnload_of_noDependants hp ho hdeps)⟩⟩
  · intro pkg sec claimed bytes hunheld hroom hpair hcount hquota hfree
    have load := bodySolvLoad_of_fitting (pkg := pkg) (claimed := claimed) rfl rfl hsched hplace hunheld hroom hpair hcount hquota hfree
    exact ⟨fun hcheck => serve_reply ready (load.trans (if_pos hcheck)),
      fun hmake => serve_reply ready (load.trans (if_neg (by rw [hmake]; decide)))⟩
  · intro n ds hlen hcount hrsv hfinger hend hpass
    exact serve_reply ready (bodySolvDelta_of_passing hp hb hlen hcount hrsv hfinger hend hpass)
  · have queued := bodySolvRun_of_room hp hroom
    simp only [newRun, testBit_of_deadlineRef ready, decide_eq_true_eq] at queued
    exact serve_wait ready queued
  · intro bs hsol hmay
    have result := bodySolvResult_of_held hp hsol hmay
    refine ⟨fun hbad => ?_,
      fun hgood => serve_reply ready (result.trans (if_neg (by rw [hgood]; decide)))⟩
    rw [if_pos hbad] at result
    exact (serve_of_refused ready result).trans rfl

end Sys2Proof.Machine

/-! ### Graph solver: a solve that starts -/
namespace Sys2Proof.Machine

section SolveStart
variable {slot : Nat} {s : State} {p : Problem} {r : SolveRun}

/-- Every GSU of a problem is free and powered, and chooses it (R350). -/
def gsusFree (p : Problem) (slot : Nat) (s : State) : Bool :=
  p.gsus.all fun g => !gsuBusy g s && gsuChoice g s == some slot && domOn (88 + g / 4) s

/-- A run that starts with the factor values `vals` (R335, R347). -/
def startedRun (w : WarmStart) (vals : List FactorVal) (s : State) (r : SolveRun) : SolveRun :=
  { r with start := some s.time.mono, flags := w.flags, base := w.base, sats := w.sats, vals }

/-- A ready run on free GSUs, within its deadline and with every starting value readable, takes the factor values of the
problem found in the slot (R335, R347, R350). -/
theorem exec_solveStart_of_good (hp : getProb slot s = some p) (hr : readyRun p = some r) (hfree : gsusFree p slot s = true)
    (hearly : s.time.mono < r.dl) (hstart : p.startBad = []) (hsource : sourceBad p r s = false) :
    let w := warmStart p r s
    let t := updProb slot (fun x => { x with
      schedBad := false, init := [], runs := x.runs.modify 0 (startedRun w p.factors s) }) s
    exec (.solveStart slot) s = .next (settle (w.event.elim t fun d => raise 0x0605 d (probSrc slot) t)) := by
  have starts : ¬(!gsusFree p slot s || due r.dl s) = true := by
    rw [hfree, due_of_lt hearly]
    exact Bool.false_ne_true
  have good : ¬(!p.startBad.isEmpty || sourceBad p r s) = true := by
    rw [hstart, hsource]
    exact Bool.false_ne_true
  simp only [exec_solveStart, execSolveStart, hp, hr]
  exact congrArg _ ((if_neg starts).trans (if_neg good))

end SolveStart

/-- The factor values that the runs of every problem read. -/
def runVals (s : State) : List (List (List FactorVal)) := s.probs.map fun p => p.runs.map (·.vals)

/-! Two problems in one slot, each with a run that waits, of which the second alone has a factor. -/

def emptySched : Sched :=
  { cls := 1, arith := 0, gsuCount := 0, gsuMask := 0, outer := 0, method := 0, inner := 0, designLevel := 0, floor := 0
    finger := 0, statedUs := 0, gsuBytes := 0, valueBytes := 0, lambda0 := 0, deadlineUs := 0, blocks := [], factors := []
    order := [], len := 0 }

def waitingRun : SolveRun :=
  { req := { src := .callboard, cid := 0 }, dl := 1, warm := 1, source := none, tRef := 0, at' := 0, start := none
    flags := 0, base := [], vals := [], sats := [] }

def waitingProblem (factors : List FactorVal) : Problem :=
  { newProblem 0 emptySched [] 0 none with factors, runs := [waitingRun] }

def disabledFactor : FactorVal := { set' := false, enabled := false, words := [], x0 := [] }

def sharedProblemSlot : State :=
  { State.reset with probs := [waitingProblem [], waitingProblem [disabledFactor]] }

theorem getProb_sharedProblemSlot : getProb 0 sharedProblemSlot = some (waitingProblem []) := rfl

theorem sharedProblemSlot_early : sharedProblemSlot.time.mono < waitingRun.dl := by decide

/-- Refutes O30: its clause on a run that starts gives each problem of the slot its own factor values, and the model
gives all of them those of the first one found. They differ in `sharedProblemSlot`, which the statement does not exclude:
it lacks the hypothesis that one problem alone is in the slot. -/
theorem not_solverEventsComplete : ¬ Obligations.SolverEventsComplete := by
  intro h
  obtain ⟨-, hfound⟩ := h 0 .complete sharedProblemSlot
  obtain ⟨-, hready, -⟩ := hfound _ getProb_sharedProblemSlot
  obtain ⟨-, -, hgood⟩ := hready waitingRun rfl
  have hclaimed := hgood rfl sharedProblemSlot_early rfl rfl
  rw [exec_solveStart_of_good getProb_sharedProblemSlot rfl rfl sharedProblemSlot_early rfl rfl] at hclaimed
  have hvals : [[[]], [[]]] = [[[]], [[disabledFactor]]] := congrArg runVals (Host.Outcome.next.inj hclaimed)
  exact absurd hvals (by decide)

end Sys2Proof.Machine

/-! ### Map objects: the identifiers that a map gives and takes back -/
namespace Sys2Proof.Machine

/-! ### Identifiers and slots (R367 to R369) -/

theorem idGen_mkId {g n : Nat} (hg : g < 2 ^ 16) (hn : n < 2 ^ 48) : idGen (mkId g n) = g := by
  simp only [idGen, mkId, BitVec.toNat_ofNat]
  omega

theorem idSlot_mkId {n : Nat} (g : Nat) (hn : n < 2 ^ 48) : idSlot (mkId g n) = n := by
  simp only [idSlot, mkId, BitVec.toNat_ofNat]
  omega

/-- What is live under an identifier is told by its slot alone. -/
theorem liveCell_congr {m m' : MapO} {j : W64} (h : getSlot m' (idSlot j) = getSlot m (idSlot j)) :
    liveCell m' j = liveCell m j := by
  rw [liveCell, liveCell, h]

theorem isLive_iff {m : MapO} {i : W64} : isLive m i = true ↔
    ∃ x, getSlot m (idSlot i) = some x ∧ x.gen = idGen i ∧ x.retired = false ∧ x.cell.isSome = true := by
  rw [isLive, liveCell]
  cases getSlot m (idSlot i) with
  | none => simp
  | some x => cases hc : x.cell <;> simp [hc]

theorem isLive_of_empty {m : MapO} {i : W64} (h : (getSlot m (idSlot i)).all (·.cell.isNone) = true) : isLive m i = false := by
  rw [isLive, liveCell]
  cases hx : getSlot m (idSlot i) with
  | none => rfl
  | some x => simp_all

theorem getSlot_of_mem {m : MapO} {y : MSlot} (hnodup : (m.slots.map (·.n)).Nodup) (hy : y ∈ m.slots) :
    getSlot m y.n = some y := by
  unfold getSlot
  generalize m.slots = l at hnodup hy
  induction l with
  | nil => cases hy
  | cons z l ih =>
    rw [List.map_cons, List.nodup_cons] at hnodup
    obtain rfl | hmem := List.mem_cons.mp hy
    · exact List.find?_cons_of_pos (beq_self_eq_true _)
    · have other : z.n ≠ y.n := fun e => hnodup.1 (e ▸ List.mem_map_of_mem hmem)
      rw [List.find?_cons_of_neg (by simpa using other)]
      exact ih hnodup.2 hmem

theorem getSlot_of_unused {m : MapO} {n : Nat} (h : n ∉ m.slots.map (·.n)) : getSlot m n = none :=
  List.find?_eq_none.mpr fun y hy e => h (List.mem_map.mpr ⟨y, hy, beq_iff_eq.mp e⟩)

/-! ### Deleting (R369, R377) -/

/-- The slot of a deleted object (R369). -/
def tombstone (m : MapO) (i : W64) (x : MSlot) : MSlot :=
  { x with cell := none, gen := if decide (0xFFFE ≤ idGen i) then x.gen else x.gen + 1
           retired := decide (0xFFFE ≤ idGen i), tomb := m.tombs + 1 }

theorem getSlot_deleteObj_same (m : MapO) (i : W64) :
    getSlot (deleteObj m i) (idSlot i) = (getSlot m (idSlot i)).map (tombstone m i) :=
  find?_updIf (fun x : MSlot => x.n == idSlot i) (tombstone m i) (fun _ h => h) m.slots

theorem getSlot_deleteObj_ne (m : MapO) {i : W64} {n : Nat} (h : n ≠ idSlot i) : getSlot (deleteObj m i) n = getSlot m n := by
  have sameSlot : (fun y : MSlot => y.n == n) ∘ (fun y => if y.n == idSlot i then tombstone m i y else y)
      = fun y => y.n == n := by
    funext y
    simp only [Function.comp]
    split <;> rfl
  change (m.slots.map fun y => if y.n == idSlot i then tombstone m i y else y).find? (fun y => y.n == n) = _
  rw [List.find?_map, sameSlot]
  change (getSlot m n).map _ = _
  cases hx : getSlot m n with
  | none => rfl
  | some x =>
    have hn : x.n = n := by simpa using List.find?_some hx
    simp [hn, h]

theorem liveCell_deleteObj_ne (m : MapO) {i j : W64} (h : idSlot j ≠ idSlot i) : liveCell (deleteObj m i) j = liveCell m j :=
  liveCell_congr (getSlot_deleteObj_ne m h)

theorem isLive_deleteObj_same (m : MapO) (i : W64) : isLive (deleteObj m i) i = false := by
  refine isLive_of_empty ?_
  rw [getSlot_deleteObj_same]
  cases getSlot m (idSlot i) <;> rfl

theorem getSlot_deleteObj_of_live {m : MapO} {i : W64} (h : isLive m i = true) :
    ∃ x, getSlot (deleteObj m i) (idSlot i) = some x ∧ x.cell = none
      ∧ (idGen i < 0xFFFE → x.gen = idGen i + 1 ∧ x.retired = false) ∧ (0xFFFE ≤ idGen i → x.retired = true) := by
  obtain ⟨x, hx, hgen, -, -⟩ := isLive_iff.mp h
  refine ⟨tombstone m i x, by rw [getSlot_deleteObj_same, hx]; rfl, rfl, fun hlow => ?_, fun hlast => decide_eq_true hlast⟩
  have kept : decide (0xFFFE ≤ idGen i) = false := decide_eq_false (Nat.not_le.mpr hlow)
  exact ⟨by simp [tombstone, kept, hgen], kept⟩

/-! ### The slot of a new object (R369) -/

theorem firstFree_spec (used : List Nat) : firstFree used ∉ used ∧ firstFree used ≤ used.length := by
  unfold firstFree
  cases hf : (List.range (used.length + 1)).find? fun n => !used.contains n with
  | none =>
    have inUse : List.range (used.length + 1) ⊆ used := fun n hn => by simpa using List.find?_eq_none.mp hf n hn
    have short := List.nodup_range.length_le_of_subset inUse
    rw [List.length_range] at short
    omega
  | some n =>
    have hn := List.mem_range.mp (List.mem_of_find?_eq_some hf)
    exact ⟨by simpa using List.find?_some hf, Nat.le_of_lt_succ hn⟩

/-- Of two free slots, the one tombstoned first (R369). -/
def longerFree (b : Option MSlot) (y : MSlot) : Option MSlot :=
  match b with
  | none => some y
  | some z => if y.tomb < z.tomb then some y else some z

theorem foldl_longerFree_mem (l : List MSlot) (b : Option MSlot) :
    l.foldl longerFree b = b ∨ ∃ y ∈ l, l.foldl longerFree b = some y := by
  induction l generalizing b with
  | nil => exact .inl rfl
  | cons z l ih =>
    have step : longerFree b z = b ∨ longerFree b z = some z := by
      unfold longerFree
      cases b with
      | none => exact .inr rfl
      | some y => by_cases hy : z.tomb < y.tomb <;> simp [hy]
    rw [List.foldl_cons]
    obtain hb | ⟨y, hy, hb⟩ := ih (longerFree b z)
    · exact step.imp hb.trans fun hz => ⟨z, List.mem_cons_self, hb.trans hz⟩
    · exact .inr ⟨y, List.mem_cons_of_mem z hy, hb⟩

/-- The slots that a deletion has left free. -/
def tombstoned (m : MapO) : List MSlot := m.slots.filter fun y => y.cell.isNone && !y.retired

/-- A slot never used, as `x` chooses one (log entry 90). -/
def unusedSlot (m : MapO) (x : Nat) : Nat :=
  if (m.slots.map (·.n)).contains (x % max 1 m.slotsMax) then firstFree (m.slots.map (·.n)) else x % max 1 m.slotsMax

theorem allocSlot_cases (m : MapO) (x : Nat) : (∃ y ∈ tombstoned m, allocSlot m x = (y.n, y.gen))
    ∨ (tombstoned m = [] ∧ allocSlot m x = (unusedSlot m x, 1)) := by
  have unfolded : allocSlot m x = match (tombstoned m).foldl longerFree none with
    | some y => (y.n, y.gen)
    | none => (unusedSlot m x, 1) := rfl
  cases hfree : tombstoned m with
  | nil => exact .inr ⟨rfl, by rw [unfolded, hfree]; rfl⟩
  | cons z l =>
    obtain hb | ⟨y, hy, hb⟩ := foldl_longerFree_mem l (some z)
    · exact .inl ⟨z, List.mem_cons_self, by
        rw [unfolded, hfree, show List.foldl longerFree none (z :: l) = _ from hb]⟩
    · exact .inl ⟨y, List.mem_cons_of_mem z hy, by
        rw [unfolded, hfree, show List.foldl longerFree none (z :: l) = _ from hb]⟩

theorem unusedSlot_unused (m : MapO) (x : Nat) : unusedSlot m x ∉ m.slots.map (·.n) := by
  unfold unusedSlot
  split
  · exact (firstFree_spec _).1
  · next h => simpa using h

theorem unusedSlot_lt {m : MapO} (x : Nat) (h : m.slots.length < m.slotsMax) : unusedSlot m x < m.slotsMax := by
  unfold unusedSlot
  split
  · have := (firstFree_spec (m.slots.map (·.n))).2
    rw [List.length_map] at this
    omega
  · have := Nat.mod_lt x (show 0 < max 1 m.slotsMax by omega)
    omega

/-- With no slot tombstoned, a free slot is one never used. -/
theorem length_lt_slotsMax {m : MapO} (hnone : tombstoned m = []) (hfree : 0 < freeSlots m) : m.slots.length < m.slotsMax := by
  have taken : (m.slots.filter fun y => y.cell.isSome || y.retired) = m.slots := by
    refine List.filter_eq_self.mpr fun y hy => ?_
    have := List.filter_eq_nil_iff.mp hnone y hy
    cases hc : y.cell <;> simp_all
  rw [freeSlots, taken] at hfree
  omega

/-! ### Storing (R365, R369) -/

theorem find?_putSlot_same (x : MSlot) (l : List MSlot) : (putSlot x l).find? (fun y => y.n == x.n) = some x := by
  induction l with
  | nil => simp [putSlot]
  | cons y ys ih =>
    rw [putSlot]
    split
    · simp
    · next hlt =>
      split
      · simp
      · next hne => rw [List.find?_cons_of_neg (by simpa using Ne.symm hne), ih]

theorem find?_putSlot_ne {x : MSlot} {n : Nat} (h : n ≠ x.n) (l : List MSlot) :
    (putSlot x l).find? (fun y => y.n == n) = l.find? (fun y => y.n == n) := by
  have passed : ¬(x.n == n) = true := by simpa using Ne.symm h
  induction l with
  | nil => simp [putSlot, Ne.symm h]
  | cons y ys ih =>
    rw [putSlot]
    split
    · exact List.find?_cons_of_neg (p := fun y : MSlot => y.n == n) passed
    · split
      next heq =>
        refine (List.find?_cons_of_neg (p := fun y : MSlot => y.n == n) passed).trans ?_
        exact (List.find?_cons_of_neg (p := fun y : MSlot => y.n == n) (heq ▸ passed)).symm
      next => rw [List.find?_cons, List.find?_cons, ih]

/-- The slot that a new object takes, with its cell (R365, R369). -/
def storedSlot (m : MapO) (x kind : Nat) (b : List Byte) : MSlot :=
  { n := (allocSlot m x).1, gen := (allocSlot m x).2
    cell := some { kind, shard := objShard m kind b, body := clearK9 kind b, blocks := [], obs := 0 }
    retired := false, tomb := (getSlot m (allocSlot m x).1).elim 0 (·.tomb) }

theorem getSlot_storeObj_same (m : MapO) (x kind : Nat) (b : List Byte) :
    getSlot (storeObj m x kind b).2 (allocSlot m x).1 = some (storedSlot m x kind b) :=
  find?_putSlot_same (storedSlot m x kind b) m.slots

theorem getSlot_storeObj_ne {m : MapO} {x n : Nat} (kind : Nat) (b : List Byte) (h : n ≠ (allocSlot m x).1) :
    getSlot (storeObj m x kind b).2 n = getSlot m n := find?_putSlot_ne (x := storedSlot m x kind b) h m.slots

section FreeSlot
variable {m : MapO} (x : Nat)

theorem allocSlot_bounds (hgen : (m.slots.all fun y => decide (y.gen < 2 ^ 16)) = true) (hfree : 0 < freeSlots m)
    (hn : (m.slots.all fun y => decide (y.n < m.slotsMax)) = true) :
    (allocSlot m x).1 < m.slotsMax ∧ (allocSlot m x).2 < 2 ^ 16 := by
  obtain ⟨y, hy, halloc⟩ | ⟨hnone, halloc⟩ := allocSlot_cases m x
  · have hmem := (List.mem_filter.mp hy).1
    rw [halloc]
    exact ⟨of_decide_eq_true (List.all_eq_true.mp hn y hmem), of_decide_eq_true (List.all_eq_true.mp hgen y hmem)⟩
  · rw [halloc]
    exact ⟨unusedSlot_lt x (length_lt_slotsMax hnone hfree), Nat.one_lt_two_pow (by decide)⟩

theorem allocSlot_empty (hnodup : (m.slots.map (·.n)).Nodup) :
    (getSlot m (allocSlot m x).1).all (·.cell.isNone) = true := by
  obtain ⟨y, hy, halloc⟩ | ⟨-, halloc⟩ := allocSlot_cases m x
  · obtain ⟨hmem, hempty⟩ := List.mem_filter.mp hy
    rw [halloc, getSlot_of_mem hnodup hmem]
    exact (Bool.and_eq_true _ _ ▸ hempty).1
  · rw [halloc, getSlot_of_unused (unusedSlot_unused m x)]
    rfl

end FreeSlot

/-- Settles O34, by the slot of the identifier deleted, and by the slot that a new object takes. -/
theorem mapIdentifiersAreNotReused : Obligations.MapIdentifiersAreNotReused := by
  intro m hnodup
  refine ⟨fun i hlive => ⟨isLive_deleteObj_same m i, fun j => liveCell_deleteObj_ne m,
    getSlot_deleteObj_of_live hlive, rfl⟩, fun x kind b hmax hgen hfree hn => ?_⟩
  intro w
  obtain ⟨hslot, hg⟩ := allocSlot_bounds x hgen hfree hn
  have slotOf : idSlot w.1 = (allocSlot m x).1 := idSlot_mkId _ (Nat.lt_trans hslot hmax)
  have genOf : idGen w.1 = (allocSlot m x).2 := idGen_mkId hg (Nat.lt_trans hslot hmax)
  refine ⟨isLive_iff.mpr ⟨storedSlot m x kind b, ?_, genOf.symm, rfl, rfl⟩, isLive_of_empty ?_, slotOf ▸ hslot,
    fun j hj => liveCell_congr (getSlot_storeObj_ne kind b (slotOf ▸ hj))⟩
  · rw [slotOf]
    exact getSlot_storeObj_same m x kind b
  · rw [slotOf]
    exact allocSlot_empty x hnodup

end Sys2Proof.Machine

/-! ### Map store: its commands -/
namespace Sys2Proof.Machine

section MapCommands
variable {s : State} {c : Ctx} {m : MapO}

/-! ### MAP_CREATE and MAP_RESTORE (R363, R386) -/

theorem bodyMapCreate_of_fitting (hdesc : mapDescOk c.pay = true) (hfit : mapFit c.fn (mapBytes c.pay) s = .ok ()) :
    bodyMapCreate c s = .ok (addMap c (newMap 0 c.pay s) (mapBytes c.pay) s) :=
  (need_bind hdesc).trans (bind_of_ok hfit)

/-- The map that an image stands for, before it has a slot (R386). -/
def imageMap (image : List Byte) (s : State) : MapO :=
  let m := newMap 0 (slice image 96 128) s
  let i := imageSlots (image.take (fld image 8 8)) m.slotsMax s
  { m with slots := i.1, tombs := i.2.1, retired := i.2.2 }

theorem bodyMapRestore_of_image {a : Alloc} {b : List Byte} (ha : getAlloc (prm c 0 8 % 2 ^ 32) s = some a)
    (hb : allocRead a.slot (prm c 8 8) (a.size - prm c 8 8) s = .ok b) (himg : imageOk b (a.size - prm c 8 8) = true)
    (hdesc : mapDescOk (slice b 96 128) = true) (hfit : mapFit c.fn (mapBytes (slice b 96 128)) s = .ok ()) :
    bodyMapRestore c s = .ok (addMap c (imageMap b s) (mapBytes (slice b 96 128)) s) := by
  simp only [bodyMapRestore, ha]
  refine (bind_of_ok hb).trans ((need_bind ?_).trans (bind_of_ok hfit))
  rw [himg, hdesc]
  rfl

/-! ### The map of a command (R364, R440, R506) -/

theorem mapArg_eq_ok (h : mapArg c s = .ok m) : mapOf c s = .ok m ∧ mapQuorum m s = .ok () := by
  unfold mapArg at h
  cases hm : mapOf c s with
  | error f => rw [hm] at h; cases h
  | ok x =>
    cases hq : mapQuorum x s with
    | error f => rw [hm, bind_of_ok rfl, hq] at h; cases h
    | ok u =>
      rw [hm, bind_of_ok rfl, hq] at h
      cases h
      exact ⟨rfl, hq⟩

theorem anchorCheck_of_good {frame : Nat} (h : frame ≠ 1 ∨ m.anchorBad = false) : anchorCheck m frame = .ok () := by
  refine if_pos ?_
  obtain hframe | hgood := h
  · rw [bne_iff_ne.mpr hframe]
    rfl
  · rw [hgood, Bool.not_false, Bool.or_true]

/-! ### MAP_INSERT (R368, R370 to R375) -/

theorem firstFalse_of_all {l : List Bool} (h : ∀ b ∈ l, b = true) : firstFalse l = none := by
  have none_false : (l.zipIdx.find? fun (b, _) => !b) = none :=
    List.find?_eq_none.mpr fun x hx => by simp [h x.1 (List.fst_mem_of_mem_zipIdx hx)]
  rw [firstFalse, none_false]
  rfl

theorem firstFalse_map_of_all {α : Type} {p : α → Bool} {l : List α} (h : l.all p = true) : firstFalse (l.map p) = none :=
  firstFalse_of_all (List.forall_mem_map.mpr (List.all_eq_true.mp h))

/-- The records of a MAP_INSERT, and the first that does not lie in its payload. -/
def insertBatch (c : Ctx) : List MRec × Option Nat := parseRecs (fld c.pay 0 4) 0 (c.pay.drop 16)

/-- The batch of a MAP_INSERT applied after the writes admitted before it (R374, R375). -/
def appliedAhead (c : Ctx) (m : MapO) (s : State) : MApply :=
  applyRecs (prm c 12 1) s.fresh (mapAhead m s) (insertBatch c).1

theorem bodyMapInsert_of_passing (hm : mapArg c s = .ok m) (hcount : inR 1 (fld c.pay 0 4) 4194304 = true)
    (hzero : zeroIn c.pay 4 12 = true) (hres : resCheck (8 * fld c.pay 0 4) c.q = .ok ())
    (hanchor : prm c 12 1 ≠ 1 ∨ m.anchorBad = false) (hcut : (insertBatch c).2 = none)
    (hrange : ((insertBatch c).1.zipIdx.all fun (x, i) => recRange (insertBatch c).1 i x) = true)
    (hstruct : (insertBatch c).1.all (recStructure (insertBatch c).1 (mapAhead m s)) = true)
    (hheld : (appliedAhead c m s).shards.any (shardLost m) = false) (hbelow : (appliedAhead c m s).above = none)
    (hfits : mapShort (mapAhead m s) (appliedAhead c m s) = (0, 0)) :
    bodyMapInsert c s = .ok (admitCtx c m.slot true s, .wait) := by
  obtain ⟨hof, hquorum⟩ := mapArg_eq_ok hm
  have header : (inR 1 (fld c.pay 0 4) 4194304 && zeroIn c.pay 4 12) = true := by
    rw [hcount, hzero]
    rfl
  have inRange : recCheck stRange (firstFalse ((insertBatch c).1.zipIdx.map fun (r, i) => recRange (insertBatch c).1 i r))
      = .ok () := by
    rw [firstFalse_map_of_all hrange]
    rfl
  have structured : recCheck stStructure (earlier (insertBatch c).2
      (firstFalse ((insertBatch c).1.map (recStructure (insertBatch c).1 (mapAhead m s))))) = .ok () := by
    rw [hcut, firstFalse_map_of_all hstruct]
    rfl
  have held : (!(appliedAhead c m s).shards.any (shardLost m)) = true := by
    rw [hheld]
    rfl
  have below : recCheck stLimit (appliedAhead c m s).above = .ok () := by
    rw [hbelow]
    rfl
  refine (need_bind header).trans ((bind_of_ok hres).trans ((bind_of_ok hof).trans ?_))
  refine (bind_of_ok (anchorCheck_of_good hanchor)).trans ((bind_of_ok inRange).trans ((bind_of_ok hquorum).trans ?_))
  refine (bind_of_ok structured).trans ((need_bind held).trans ((bind_of_ok below).trans (need_bind ?_)))
  exact congrArg (fun x : Nat × Nat => x.1 == 0 && x.2 == 0) hfits

/-! ### MAP_DELETE, MAP_READ, MAP_TRAVERSE, MAP_DEADHEAD_SET (R374, R376, R379) -/

theorem bodyMapDelete_of_held (hm : mapArg c s = .ok m)
    (hheld : (shardsOf m (cmdIds c.q c.pay 8 (prm c 0 4))).any (shardLost m) = false) :
    bodyMapDelete c s = .ok (admitCtx c m.slot true s, .wait) :=
  (bind_of_ok hm).trans (need_bind (by rw [hheld]; rfl))

theorem bodyMapRead_of_held (hm : mapArg c s = .ok m) (hanchor : prm c 16 1 ≠ 1 ∨ m.anchorBad = false)
    (hheld : (shardsOf m (cmdIds c.q c.pay 24 (prm c 12 4))).any (shardLost m) = false) :
    bodyMapRead c s = .ok (admitCtx c m.slot false s, .wait) := by
  obtain ⟨hof, hquorum⟩ := mapArg_eq_ok hm
  exact (bind_of_ok hof).trans ((bind_of_ok (anchorCheck_of_good hanchor)).trans
    ((bind_of_ok hquorum).trans (need_bind (by rw [hheld]; rfl))))

theorem bodyMapTraverse_of_usable (hm : mapArg c s = .ok m) :
    bodyMapTraverse c s = .ok (admitCtx c m.slot false s, .wait) := bind_of_ok hm

/-- A map whose deadheading a command sets (R379). -/
def setDeadhead (c : Ctx) (s : State) (m : MapO) : MapO :=
  { m with rate := if prm c 0 4 = 0xFFFFFFFF then m.rate else prm c 0 4, indexes := prm c 4 1 == 1, dhAt := s.time.mono }

theorem bodyMapDeadheadSet_of_usable (hm : mapArg c s = .ok m) :
    bodyMapDeadheadSet c s = .ok (updMap m.slot (setDeadhead c s) s, okR m.removed 0) := bind_of_ok hm

/-! ### MAP_REPOT (R380, R448, R452) -/

theorem targetFits_of_room : targetFits 0 s = .ok (draw s).2 := need_bind rfl

theorem bodyMapRepot_of_room {s' : State} (hm : mapArg c s = .ok m) (hnone : m.repot = none)
    (hextents : prm c 1 1 = 1 ∨ roundUp (shardBytes m (prm c 0 1)) (2 ^ 20) ≤ heapFree m / 2 ^ 20 * 2 ^ 20)
    (htarget : prm c 1 1 = 0 ∨ (memberHere (prm c 2 1) s = true ∧ keepsQuorum s = true ∧
      ((m.ens[prm c 0 1]?).all fun e => e.understudy != some (prm c 2 1)) = true))
    (hheld : shardLost m (prm c 0 1) = false) (hfew : repottings s < 4) (hjournal : journalRoom s = .ok ())
    (hroom : (if prm c 1 1 = 1 then targetShort (prm c 2 1) (shardBytes m (prm c 0 1)) s else (0, s)) = (0, s')) :
    bodyMapRepot c s = .ok (startRepot m.slot (prm c 0 1) (prm c 1 1) (prm c 2 1)
      (if prm c 4 4 = 0 then 5000 else prm c 4 4) c.q (draw s').2, .wait) := by
  have extents : (prm c 1 1 == 1 || decide (roundUp (shardBytes m (prm c 0 1)) (2 ^ 20)
      ≤ heapFree m / 2 ^ 20 * 2 ^ 20)) = true := by
    simpa only [Bool.or_eq_true, beq_iff_eq, decide_eq_true_eq] using hextents
  have target : (prm c 1 1 == 0 || (memberHere (prm c 2 1) s && keepsQuorum s &&
      (m.ens[prm c 0 1]?).all fun e => e.understudy != some (prm c 2 1))) = true := by
    simpa only [Bool.or_eq_true, Bool.and_eq_true, beq_iff_eq, and_assoc] using htarget
  refine (bind_of_ok hm).trans ((need_bind (by rw [hnone]; rfl)).trans ((need_bind extents).trans ?_))
  refine (need_bind target).trans ((need_bind (by rw [hheld]; rfl)).trans ((need_bind (decide_eq_true hfew)).trans ?_))
  refine (bind_of_ok hjournal).trans ?_
  simp only [hroom]
  exact bind_of_ok targetFits_of_room

/-! ### MAP_CHECKPOINT (R385) -/

theorem fits_bind {α : Type} {code short : Nat} {k : Unit → Except Fail α} (h : short = 0) : (fits code short >>= k) = k () :=
  need_bind (beq_iff_eq.mpr h)

/-- The bytes of an image after its header, with the state that gave them (log entry 100). -/
def imageBody (m : MapO) (s : State) : List Byte × State := drawBytes (256 + liveBytes m - 256) s

/-- The image of a map: its header with the digest of the whole, and its body (R385, Table 11.7). -/
def checkpointImage (m : MapO) (s : State) : List Byte :=
  let d := imageBody m s
  let len := 256 + liveBytes m
  imageHeader m len (Config.sha3 (imageHeader m len (zeros 64) d.2 ++ d.1)) d.2 ++ d.1

/-- An image stands in an allocation, and is known again as this map's (R385, R386). -/
def storeImage (m : MapO) (slot off : Nat) (s : State) : State :=
  let image := checkpointImage m s
  let s1 := updAlloc slot (Alloc.write off image) (imageBody m s).2
  { s1 with map.ckpts := { image, slots := m.slots, tombs := m.tombs, retired := m.retired } :: s1.map.ckpts }

theorem bodyMapCheckpoint_of_good {a : Alloc} (hm : mapArg c s = .ok m) (ha : ckptAlloc c s = .ok a)
    (hheld : m.ens.any (·.lost) = false) (hgood : m.poison = []) (hroom : 256 + liveBytes m ≤ a.size - prm c 8 8) :
    bodyMapCheckpoint c s = .ok (storeImage m a.slot (prm c 8 8) s, okR (ceilDiv (256 + liveBytes m) 4096) 0) := by
  refine (bind_of_ok hm).trans ((bind_of_ok ha).trans ((need_bind (by rw [hheld]; rfl)).trans ?_))
  refine (need_bind (by rw [hgood]; rfl)).trans ((fits_bind (Nat.sub_eq_zero_of_le hroom)).trans ?_)
  dsimp only [storeImage, checkpointImage, imageBody]

/-! ### MAP_DESTROY (R77, R78, R384) -/

theorem bodyMapDestroy_of_noDependants {o : Obj} (ho : c.obj = some o) (hdeps : dependants o.ty o.slot s = []) :
    bodyMapDestroy c s = .ok (rollBack (objSlot c) stAborted
      (updObj o.ty o.slot (fun y => { y with st := .closing (some (reqRef c.q)) }) s), .wait) :=
  bind_of_ok (releaseBody_of_noDependants ho hdeps)

end MapCommands

/-- Settles O32, by the command. -/
theorem mapCommandsComplete : Obligations.MapCommandsComplete := by
  intro r io s q c
  refine ⟨fun ready hdesc hfit => serve_reply ready (bodyMapCreate_of_fitting hdesc hfit), fun m hm =>
    ⟨?_, fun ready hheld => serve_wait ready (bodyMapDelete_of_held hm hheld),
      fun ready hanchor hheld => serve_wait ready (bodyMapRead_of_held hm hanchor hheld),
      fun ready => serve_wait ready (bodyMapTraverse_of_usable hm),
      fun ready => serve_reply ready (bodyMapDeadheadSet_of_usable hm),
      fun s' ready hnone hextents htarget hheld hfew hjournal hroom => serve_wait ready
        (bodyMapRepot_of_room hm hnone hextents htarget hheld hfew hjournal hroom),
      fun a ready ha hheld hgood hroom => serve_reply ready (bodyMapCheckpoint_of_good hm ha hheld hgood hroom)⟩,
    fun a b ready ha hb himg hdesc hfit => serve_reply ready (bodyMapRestore_of_image ha hb himg hdesc hfit),
    fun o ready ho hdeps => serve_wait ready (bodyMapDestroy_of_noDependants ho hdeps)⟩
  intro n p ahead a ready hcount hzero hres hanchor hcut hrange hstruct hheld hbelow hfits
  exact serve_wait ready (bodyMapInsert_of_passing hm hcount hzero hres hanchor hcut hrange hstruct hheld hbelow hfits)

end Sys2Proof.Machine

/-! ### Map store: commands in their contexts, deadheading and repotting -/
namespace Sys2Proof.Machine

section MapEvents
variable {s : State}

/-! ### Map commands in a context (R374 to R377, R402) -/

section InContext
variable {x : CtxCmd} {q : Req} {m : MapO}

/-- The batch of an insert, applied to its map (R375). -/
def insertApplied (x : CtxCmd) (q : Req) (m : MapO) (s : State) : MApply :=
  applyRecs (insertFrame q) s.fresh m (insertRecs x.pay)

/-- An insert takes a free value for each of its records. -/
def insertDrawn (x : CtxCmd) (s : State) : State := { s with fresh := s.fresh + (insertRecs x.pay).length }

section Insert
variable (hanchor : insertFrame q ≠ 1 ∨ m.anchorBad = false)
  (hread : (batchReads (insertRecs x.pay)).any m.poison.contains = false)
include hanchor hread

theorem doneInsert_of_read :
    let a := insertApplied x q m s
    let s1 := insertDrawn x s
    doneInsert x q m s = if heldWrite m x a.shards then s1
      else if (mapShort m a).1 ≠ 0 ∨ (mapShort m a).2 ≠ 0 then
        endCtx x stMapFull (ceilDiv (mapShort m a).1 1024) (sat16 (mapShort m a).2) none s1
      else finishWrite x a.shards a.applied (sat16 ((insertRecs x.pay).length - a.applied))
        (a.results.flatMap fun i => leBytes 8 i.toNat) (updMap m.slot (fun _ => a.m) s1) := by
  have noAnchor : ¬(decide (insertFrame q = 1) && m.anchorBad) = true := by
    simpa only [Bool.and_eq_true, decide_eq_true_eq, Classical.not_and_iff_not_or_not, Bool.not_eq_true] using hanchor
  simp only [doneInsert, if_neg noAnchor, hread, Bool.false_eq_true, if_false]
  rfl

theorem doneInsert_of_held (hheld : heldWrite m x (insertApplied x q m s).shards = true) :
    doneInsert x q m s = insertDrawn x s := (doneInsert_of_read hanchor hread).trans (if_pos hheld)

variable (hfree : heldWrite m x (insertApplied x q m s).shards = false)
include hfree

theorem doneInsert_of_full (hfull : mapShort m (insertApplied x q m s) ≠ (0, 0)) :
    doneInsert x q m s = endCtx x stMapFull (ceilDiv (mapShort m (insertApplied x q m s)).1 1024)
      (sat16 (mapShort m (insertApplied x q m s)).2) none (insertDrawn x s) := by
  have short : (mapShort m (insertApplied x q m s)).1 ≠ 0 ∨ (mapShort m (insertApplied x q m s)).2 ≠ 0 := by
    rwa [ne_eq, Prod.ext_iff, Classical.not_and_iff_not_or_not] at hfull
  rw [doneInsert_of_read hanchor hread, hfree]
  exact if_pos short

theorem doneInsert_of_room (hroom : mapShort m (insertApplied x q m s) = (0, 0)) :
    let a := insertApplied x q m s
    doneInsert x q m s = finishWrite x a.shards a.applied (sat16 ((insertRecs x.pay).length - a.applied))
      (a.results.flatMap fun i => leBytes 8 i.toNat) (updMap m.slot (fun _ => a.m) (insertDrawn x s)) := by
  rw [doneInsert_of_read hanchor hread, hfree, hroom]
  exact if_neg (by decide)

end Insert

theorem doneDelete_of_held (hheld : heldWrite m x (shardsOf m (cmdIds q x.pay 8 (fld q.param 0 4))) = true) :
    doneDelete x q m s = s := if_pos hheld

theorem doneDelete_of_free (hfree : heldWrite m x (shardsOf m (cmdIds q x.pay 8 (fld q.param 0 4))) = false) :
    let is := cmdIds q x.pay 8 (fld q.param 0 4)
    let d := deleteObjs m is
    doneDelete x q m s = finishWrite x (shardsOf m is) d.2.1 (sat16 d.2.2) []
      (raiseRetired m.slot (d.1.retired - m.retired) (updMap m.slot (fun _ => d.1) s)) := by
  simp only [doneDelete, hfree, Bool.false_eq_true, if_false]

theorem doneRead_of_good (hanchor : readFrame q ≠ 1 ∨ m.anchorBad = false)
    (hheld : (shardsOf m (cmdIds q x.pay 24 (fld q.param 12 4))).any (shardLost m) = false)
    (hclean : ((cmdIds q x.pay 24 (fld q.param 12 4)).any fun i => isLive m i && m.poison.contains (idSlot i)) = false) :
    let is := cmdIds q x.pay 24 (fld q.param 12 4)
    doneRead x q m s = endCtx x stOk (is.filter (isLive m)).length 0 (some (is.flatMap (readCell m (readFrame q)))) s := by
  have noAnchor : ¬(decide (readFrame q = 1) && m.anchorBad) = true := by
    simpa only [Bool.and_eq_true, decide_eq_true_eq, Classical.not_and_iff_not_or_not, Bool.not_eq_true] using hanchor
  simp only [doneRead, if_neg noAnchor, hheld, hclean, Bool.false_eq_true, if_false]

/-- The walk of a traversal in a context (R376). -/
def walked (x : CtxCmd) (q : Req) (m : MapO) (s : State) : List Node × Nat × Bool :=
  traverse m ((List.range (x.pay.length / 8)).map fun i => idAt x.pay (8 * i))
    (fld q.param 16 1) (fld q.param 17 1) (fld q.param 18 4) (fld q.param 12 4) s.fresh

theorem doneTraverse_of_good (hheld : (shardsOf m ((walked x q m s).1.map (·.id))).any (shardLost m) = false)
    (hclean : (((walked x q m s).1.map (·.id)).any fun i => isLive m i && m.poison.contains (idSlot i)) = false) :
    let w := walked x q m s
    doneTraverse x q m s = endCtx x (if w.2.2 then stPartial else stOk) w.1.length (sat16 w.2.1)
      (some (w.1.flatMap nodeBytes)) { s with fresh := s.fresh + 1 } := by
  refine (if_neg ?_).trans (if_neg ?_)
  · exact fun h => absurd (hheld.symm.trans h) Bool.false_ne_true
  · exact fun h => absurd (hclean.symm.trans h) Bool.false_ne_true

/-- What a map command in a context does, by its opcode (R374 to R377, R402). -/
def doneInContext (x : CtxCmd) (q : Req) (m : MapO) (s : State) : State :=
  match q.opcode with
  | 0x0702 => doneInsert x q m s
  | 0x0703 => doneDelete x q m s
  | 0x0704 => doneRead x q m s
  | _ => doneTraverse x q m s

theorem doneInContext_of_insert (h : q.opcode = 0x0702) : doneInContext x q m s = doneInsert x q m s := by
  simp only [doneInContext, h]

theorem doneInContext_of_delete (h : q.opcode = 0x0703) : doneInContext x q m s = doneDelete x q m s := by
  simp only [doneInContext, h]

theorem doneInContext_of_read (h : q.opcode = 0x0704) : doneInContext x q m s = doneRead x q m s := by
  simp only [doneInContext, h]

theorem doneInContext_of_traverse (h : q.opcode = 0x0705) : doneInContext x q m s = doneTraverse x q m s := by
  simp only [doneInContext, h]

section Done
variable {r : ReqRef} (hx : (s.map.ctx.find? fun x => x.req == r && x.engine.isSome && x.result.isNone) = some x)
  (hturn : x.write = false ∨ writeBefore x s = false) (hq : findReq r s = some q) (hm : getMap x.map s = some m)
include hx hturn hq hm

/-- A command that waits for no earlier write ends, unless the context memory cannot be corrected (R374, log entry 273). -/
theorem exec_mapCommandDone_of_turn (bad : Option (Nat × Nat)) : exec (.mapCommandDone r bad) s = .next (if bad.isSome then
    settle (endCtx x stMedia 0 0 none (contextMet (x.engine.getD 0) bad s)) else settle (doneInContext x q m s)) := by
  have turn : ¬(x.write && writeBefore x s) = true := by
    simpa only [Bool.and_eq_true, Classical.not_and_iff_not_or_not, Bool.not_eq_true] using hturn
  simp only [exec_mapCommandDone, execMapCommandDone, hx, if_neg turn, hq, hm]
  rfl

theorem exec_mapCommandDone_of_media (b : Nat × Nat) : exec (.mapCommandDone r (some b)) s
    = .next (settle (endCtx x stMedia 0 0 none (contextMet (x.engine.getD 0) (some b) s))) :=
  exec_mapCommandDone_of_turn hx hturn hq hm (some b)

theorem exec_mapCommandDone_of_good {t : State} (h : doneInContext x q m s = t) :
    exec (.mapCommandDone r none) s = .next (settle t) := h ▸ exec_mapCommandDone_of_turn hx hturn hq hm none

end Done

end InContext

section OnMap
variable {slot : Nat} {m : MapO} (hm : getMap slot s = some m)
include hm

/-! ### DEADHEAD_PASS (R379) -/

section Deadheading
variable (hready : ready s = true) (hrate : m.rate ≠ 0) (husable : m.broken = false)
include hready hrate husable

omit hm in
theorem passRuns : ¬(!ready s || m.rate == 0 || m.broken) = true := by
  rw [hready, beq_eq_false_iff_ne.mpr hrate, husable]
  exact Bool.false_ne_true

/-- Past the shards the pass is at the indexes (log entry 97). -/
theorem exec_deadheadPass_of_indexes (hpos : 64 ≤ m.pos.1) : exec (.deadheadPass slot) s = .next (settle (dhIndex m s)) := by
  simp only [exec_deadheadPass, execDeadheadPass, ended, hm, if_neg (passRuns hready hrate husable), if_pos hpos]

variable (hpos : m.pos.1 < 64)
include hpos

theorem exec_deadheadPass_of_end (hnext : dhNext m (ownMember s) = none) : exec (.deadheadPass slot) s
    = .next (settle (updMap slot (fun m => { m with pos := if m.indexes then (64, 0) else (0, 0) }) s)) := by
  simp only [exec_deadheadPass, execDeadheadPass, ended, hm, if_neg (passRuns hready hrate husable),
    if_neg (Nat.not_le.mpr hpos), hnext]

/-- The pass over the object in slot `n` of shard `sh`, with cell `c`, of the map `m`: dead halves dropped and counted. -/
def passObject (m : MapO) (sh n : Nat) (c : MCell) (now : Nat) (m' : MapO) : MapO :=
  { m' with
    slots := updIf (fun x => x.n == n) (fun x => { x with cell := x.cell.map (dropHalves (deadHalf m)) }) m'.slots
    pos := (sh, n + 1), removed := m'.removed + (c.edges.filter (deadHalf m)).length, dhAt := now }

theorem exec_deadheadPass_of_object {sh n : Nat} {c : MCell} (hnext : dhNext m (ownMember s) = some (sh, n, c))
    (hmay : dhMay m c.edges.length s = true) :
    exec (.deadheadPass slot) s = .next (settle (updMap slot (passObject m sh n c s.time.mono) s)) := by
  simp only [exec_deadheadPass, execDeadheadPass, ended, hm, if_neg (passRuns hready hrate husable),
    if_neg (Nat.not_le.mpr hpos), hnext, hmay, Bool.not_true, Bool.false_eq_true, if_false]
  rfl

end Deadheading

/-! ### Repotting (R381, R382) -/

section Repotting
variable {p : Repot} (hp : m.repot = some p)
include hp

theorem repotting_of_found : (getMap slot s).bind (·.repot) = some p := by
  rw [hm, Option.bind_some, hp]

/-- The writes to a map that are in flight in contexts (R381). -/
def writesInFlight (slot : Nat) (s : State) : List Nat :=
  (s.map.ctx.filter fun x => x.map == slot && x.write && x.engine.isSome && x.result.isNone).map (·.order)

/-- A drain begins (R381). -/
def beginDrain (slot : Nat) (s : State) (p : Repot) : Repot :=
  { p with step := 3, drainAt := s.time.mono, flight := writesInFlight slot s }

theorem exec_repotCopyDone_of_copying (hstep : p.step = 2) :
    let s1 := journalProgress p.op 65536 m.slots.length s
    exec (.repotCopyDone slot) s
      = .next (settle (updMap slot (fun m => { m with repot := m.repot.map (beginDrain slot s1) }) s1)) := by
  simp only [exec_repotCopyDone, execRepotCopyDone, ended, hm, hp, hstep, ne_eq, not_true_eq_false, if_false]
  rfl

theorem exec_repotCommit_of_committed (hstep : p.step = 5) : exec (.repotCommit slot) s
    = .next (settle (releaseRepot slot p (if replayed slot p s then 1 else 0) s)) := by
  simp only [exec_repotCommit, execRepotCommit, repotting_of_found hm hp, if_pos hstep]

variable (hstep : p.step = 3)
include hstep

theorem exec_repotCommit_of_drained (hearly : s.time.mono ≤ p.drainAt + p.pauseUs * usT)
    (hdrained : (s.map.ctx.any fun x => p.flight.contains x.order && x.result.isNone) = false) :
    let s1 := commitRepot slot p (draw s).2
    exec (.repotCommit slot) s = .next (settle (if (draw s).1 % 2 = 0 then releaseRepot slot p 0 s1 else s1)) := by
  have uncommitted : ¬p.step = 5 := by
    rw [hstep]
    decide
  have within : ¬(p.step ≠ 3 ∨ s.time.mono > p.drainAt + p.pauseUs * usT) :=
    not_or.mpr ⟨not_not_intro hstep, Nat.not_lt.mpr hearly⟩
  simp only [exec_repotCommit, execRepotCommit, repotting_of_found hm hp, if_neg uncommitted, if_neg within, hdrained,
    Bool.false_eq_true, if_false]

variable (hlate : p.drainAt + p.pauseUs * usT ≤ s.time.mono)
include hlate

omit hm hp in
theorem pauseOver : ¬(p.step ≠ 3 ∨ s.time.mono < p.drainAt + p.pauseUs * usT) :=
  not_or.mpr ⟨not_not_intro hstep, Nat.not_lt.mpr hlate⟩

theorem exec_repotPauseExpiry_of_retry (hfew : p.attempts < 7) : exec (.repotPauseExpiry slot) s
    = .next (updMap slot (fun m => { m with repot := m.repot.map fun p =>
        { p with step := 2, attempts := p.attempts + 1, flight := [] } }) s) := by
  simp only [exec_repotPauseExpiry, execRepotPauseExpiry, repotting_of_found hm hp, if_neg (pauseOver hstep hlate),
    if_neg (show ¬8 ≤ p.attempts + 1 by omega)]

theorem exec_repotPauseExpiry_of_eighth (hmany : 7 ≤ p.attempts) :
    exec (.repotPauseExpiry slot) s = .next (settle (rollBack slot stTimeout s)) := by
  simp only [exec_repotPauseExpiry, execRepotPauseExpiry, repotting_of_found hm hp, if_neg (pauseOver hstep hlate),
    if_pos (Nat.succ_le_succ hmany)]

end Repotting

end OnMap

end MapEvents

/-- Settles O33, by the event: a command in its context by its opcode, a deadheading pass by its place, and a repotting by
its step. -/
theorem mapEventsComplete : Obligations.MapEventsComplete := by
  refine ⟨fun r s x q m hx hturn hq hm => ?_, fun slot s m hm => ⟨fun hready hrate husable =>
      ⟨exec_deadheadPass_of_indexes hm hready hrate husable, exec_deadheadPass_of_end hm hready hrate husable,
        fun _ _ _ hpos => exec_deadheadPass_of_object hm hready hrate husable hpos⟩, fun p hp =>
      ⟨exec_repotCopyDone_of_copying hm hp, exec_repotCommit_of_committed hm hp, exec_repotCommit_of_drained hm hp,
        fun hstep hlate => ⟨exec_repotPauseExpiry_of_retry hm hp hstep hlate,
          exec_repotPauseExpiry_of_eighth hm hp hstep hlate⟩⟩⟩⟩
  have done {t : State} : doneInContext x q m s = t → exec (.mapCommandDone r none) s = .next (settle t) :=
    exec_mapCommandDone_of_good hx hturn hq hm
  refine ⟨exec_mapCommandDone_of_media hx hturn hq hm, ?_, ?_, ?_, ?_⟩
  · intro hop hanchor rs a s1 hread
    have insert := doneInContext_of_insert (x := x) (m := m) (s := s) hop
    exact ⟨fun hheld => done (insert.trans (doneInsert_of_held hanchor hread hheld)),
      fun hfree hfull => done (insert.trans (doneInsert_of_full hanchor hread hfree hfull)),
      fun hfree hroom => done (insert.trans (doneInsert_of_room hanchor hread hfree hroom))⟩
  · intro hop is d
    exact ⟨fun hheld => done ((doneInContext_of_delete hop).trans (doneDelete_of_held hheld)),
      fun hfree => done ((doneInContext_of_delete hop).trans (doneDelete_of_free hfree))⟩
  · intro hop hanchor is hheld hclean
    exact done ((doneInContext_of_read hop).trans (doneRead_of_good hanchor hheld hclean))
  · intro hop starts w hheld hclean
    exact done ((doneInContext_of_traverse hop).trans (doneTraverse_of_good hheld hclean))

end Sys2Proof.Machine

/-! ### Place search: commands of indexes and query batches -/
namespace Sys2Proof.Machine

section SearchCommands
variable {s : State} {c : Ctx} {x : IdxO} {m : MapO}

/-! ### IDX_CREATE (R387 to R389) -/

/-- The stacked bytes that a descriptor's index needs (R389). -/
def descBytes (b : List Byte) : Nat := idxBytes (fld b 8 1) (fld b 10 1) (fld b 12 4) (fld b 9 1)

/-- The index of a descriptor over a map, without entries (R387, R388). -/
def emptyIdx (b : List Byte) (slot map : Nat) : IdxO :=
  { slot, map, tables := fld b 8 1, kind := fld b 9 1, keyBits := fld b 10 1, pages := fld b 12 4
    sels := selsAt b 64 (fld b 8 1) (fld b 10 1)
    dist := if fld b 9 1 = 1 then b.drop (64 + 32 * fld b 8 1) else [], buckets := [], removed := 0, queries := 0, stale := 0
    rebuild := none, broken := false, poison := [] }

/-- The object of a new index, which depends on its map: its slot, its generation, and the state with it. -/
def madeIdx (c : Ctx) (map : Nat) (s : State) : Nat × Nat × State :=
  newObj 10 (2 ^ 32) c.fn c.sess [(9, map)] false 0 (descBytes c.pay) s

theorem bodyIdxCreate_of_fitting {o : Obj} (hdesc : idxDescOk c.pay c.plen = true)
    (ho : lookupHandle [9] c.fn false (fld c.pay 0 8) s = .ok o) (hmap : (getMap o.slot s).any (!·.broken) = true)
    (hpair : quotaPair c.fn 1 (descBytes c.pay) s = .ok ()) (hcount : countType 10 s < 64)
    (hquota : quotaOver c.fn 1 (descBytes c.pay) s = 0) (hfree : descBytes c.pay ≤ stackedFree s) :
    let w := madeIdx c o.slot s
    bodyIdxCreate c s = .ok ({ charge c.fn 1 (descBytes c.pay) w.2.2 with
      map.idxs := w.2.2.map.idxs ++ [emptyIdx c.pay w.1 o.slot] }, okR w.1 w.2.1) := by
  refine (need_bind hdesc).trans ((bind_of_ok ho).trans ((need_bind hmap).trans ?_))
  exact stackedChecks_bind hpair hcount hquota hfree

/-! ### The index of a command (R389 to R391, R403) -/

theorem getIdx_of_idxArgOf {slot : Nat} (h : idxArgOf slot s = .ok (x, m)) : getIdx slot s = some x := by
  unfold idxArgOf at h
  split at h
  · cases h
  next hx =>
    repeat' split at h
    all_goals cases h
    exact hx

section OnIdx
variable (hx : idxArgOf (objSlot c) s = .ok (x, m))
include hx

theorem bodyIdxInsert_of_room {good : List IEntry} (hgood : (itemsOf c.pay).filter (fun e => isLive m e.id) = good)
    (hall : allEntries s + good.length * x.tables ≤ 2147483648) (hread : meetsPoison x good = false)
    (hpages : pagesUsed (good.foldl insertItem x) ≤ x.pages) :
    bodyIdxInsert c s = .ok (updIdx x.slot (fun _ => good.foldl insertItem x) s,
      okR good.length (sat16 ((itemsOf c.pay).length - good.length))) := by
  subst hgood
  refine (bind_of_ok hx).trans ((need_bind (decide_eq_true hall)).trans ((need_bind (by rw [hread]; rfl)).trans ?_))
  exact need_bind (decide_eq_true hpages)

theorem bodyIdxDelete_of_read (hread : meetsPoison x (itemsOf c.pay) = false) :
    bodyIdxDelete c s = .ok (updIdx x.slot (fun _ => (itemsOf c.pay).foldl deleteItem x) s,
      okR (entriesOf x - entriesOf ((itemsOf c.pay).foldl deleteItem x)) 0) :=
  (bind_of_ok hx).trans (need_bind (by rw [hread]; rfl))

theorem bodyIdxQuery_of_usable : bodyIdxQuery c s = .ok (s, okD 0 0 (idxRecord x m s)) := by
  refine (bind_of_ok hx).trans ?_
  dsimp only

end OnIdx

/-! ### IDX_REBUILD (R401, R505) -/

/-- The rebuild that a command opens, as operation `op` of the journal (R401). -/
def newRebuild (c : Ctx) (x : IdxO) (op : Nat) : Rebuild :=
  { req := some (reqRef c.q), sels := if newKeys c then selsAt c.pay 0 x.tables x.keyBits else x.sels, op, committed := false }

/-- A rebuild of an index is opened: journalled, and charged with a second pool (R401, R505). -/
def openRebuild (c : Ctx) (x : IdxO) (s : State) : State :=
  let w := journalBegin 2 (reqRef c.q) c.q.opcode (handleOf 10 x.slot s) 0 s
  recharge 10 x.slot 0 (idxBytes x.tables x.keyBits x.pages x.kind + 4096 * x.pages)
    (updIdx x.slot (fun y => { y with rebuild := some (newRebuild c x w.1) }) w.2)

theorem bodyIdxRebuild_of_room (hx : idxArgOf (objSlot c) s = .ok (x, m))
    (hsels : newKeys c = true → selsOk c.pay 0 x.tables x.keyBits = true) (hnone : x.rebuild = none)
    (hpair : quotaPair c.fn 1 (4096 * x.pages) s = .ok ()) (hjournal : journalRoom s = .ok ())
    (hquota : quotaOver c.fn 1 (4096 * x.pages) s = 0) (hfree : 4096 * x.pages ≤ stackedFree s) :
    bodyIdxRebuild c s = .ok (openRebuild c x s, .wait) := by
  have keys : ((getIdx (objSlot c) s).all fun x => !newKeys c || selsOk c.pay 0 x.tables x.keyBits) = true := by
    rw [getIdx_of_idxArgOf hx, Option.all_some, Bool.or_eq_true, Bool.not_eq_true', Classical.or_iff_not_imp_left,
      Bool.not_eq_false]
    exact hsels
  refine (need_bind keys).trans ((bind_of_ok hx).trans ((need_bind (by rw [hnone]; rfl)).trans ?_))
  refine (bind_of_ok hpair).trans ((bind_of_ok hjournal).trans ((need_bind (beq_iff_eq.mpr hquota)).trans ?_))
  exact fits_bind (Nat.sub_eq_zero_of_le hfree)

/-! ### SRCH_BATCH (R397, R403, R454) -/

/-- The query records of a batch (Table 11.10). -/
def batchRecords (c : Ctx) : List (List Byte) := (List.range (prm c 12 4)).map fun i => slice c.pay (16 + 128 * i) 128

/-- The batch of a command, as admitted in a state (R397, R403). -/
def newBatch (c : Ctx) (idx slot : Nat) (s : State) : BatchO :=
  { slot, req := reqRef c.q, idx, k := fld c.pay 0 2, dl := c.q.dl.getD s.time.mono, order := s.map.nextOrder
    at' := s.time.mono, queries := (batchRecords c).map parseQuery }

/-- A batch object is made and holds its batch, which has its place in the order of admission (R397, R403). -/
def admitBatch (c : Ctx) (idx : Nat) (s : State) : State :=
  let w := newObj 11 (2 ^ 32) c.fn c.sess [(10, idx)] false 0 0 s
  { w.2.2 with map := { w.2.2.map with
      batches := w.2.2.map.batches ++ [newBatch c idx w.1 w.2.2], nextOrder := w.2.2.map.nextOrder + 1 } }

theorem bodySrchBatch_of_inRange (hx : idxArgOf (prm c 16 8 % 2 ^ 32) s = .ok (x, m)) (hk : inR 1 (fld c.pay 0 2) 256 = true)
    (hzero : zeroIn c.pay 2 14 = true) (hres : resCheck (64 + prm c 12 4 * (16 + 16 * fld c.pay 0 2)) c.q = .ok ())
    (hrecords : (batchRecords c).all queryOk = true) (hcount : countType 11 s < 16384) :
    bodySrchBatch c s = .ok ((shardHolders m (admitBatch c x.slot s)).foldl
      (fun s k => if k = ownMember s then s else sendTo k "QUERY" s) (admitBatch c x.slot s), .wait) := by
  have header : (inR 1 (fld c.pay 0 2) 256 && zeroIn c.pay 2 14) = true := by
    rw [hk, hzero]
    rfl
  refine (need_bind header).trans ((bind_of_ok hres).trans ((need_bind hrecords).trans ((bind_of_ok hx).trans ?_)))
  exact need_bind (decide_eq_true hcount)

/-! ### IDX_DESTROY (R77, R78, R403) -/

theorem bodyIdxDestroy_of_noDependants {o : Obj} (ho : c.obj = some o) (hdeps : dependants o.ty o.slot s = []) :
    bodyIdxDestroy c s = .ok (endRebuild (objSlot c) stAborted 0 2
      (updObj o.ty o.slot (fun y => { y with st := .closing (some (reqRef c.q)) }) s), .wait) :=
  bind_of_ok (releaseBody_of_noDependants ho hdeps)

end SearchCommands

/-- Settles O35, by the command. -/
theorem searchCommandsComplete : Obligations.SearchCommandsComplete := by
  intro r io s q c
  refine ⟨?_, fun x m hx => ⟨?_, fun ready hread => serve_reply ready (bodyIdxDelete_of_read hx hread), ?_,
      fun ready => serve_reply ready (bodyIdxQuery_of_usable hx)⟩, ?_,
    fun o ready ho hdeps => serve_wait ready (bodyIdxDestroy_of_noDependants ho hdeps)⟩
  · intro o ready hdesc ho hmap kind n hpair hcount hquota hfree
    exact serve_reply ready (bodyIdxCreate_of_fitting hdesc ho hmap hpair hcount hquota hfree)
  · intro es good ready hall hread hpages
    exact serve_reply ready (bodyIdxInsert_of_room hx rfl hall hread hpages)
  · intro ready hsels hnone n hpair hjournal hquota hfree
    exact serve_wait ready (bodyIdxRebuild_of_room hx hsels hnone hpair hjournal hquota hfree)
  · intro x m ready hx n k rs hk hzero hres hrecords hcount
    exact serve_wait ready (bodySrchBatch_of_inRange hx hk hzero hres hrecords hcount)

end Sys2Proof.Machine

/-! ### Place search: contexts, queries, batches and rebuilds -/
namespace Sys2Proof.Machine

section SearchEvents
variable {s : State}

/-! ### QUERY_START (R397) -/

section Start
variable {e : Nat} (hready : ready s = true) (hup : engineUp e s = true) (hfree : contextsUsed e s < 256)
include hready hup hfree

theorem engineTakes : ¬(!ready s || !engineUp e s || decide (256 ≤ contextsUsed e s)) = true := by
  rw [hready, hup, decide_eq_false (Nat.not_le.mpr hfree)]
  exact Bool.false_ne_true

theorem exec_queryStart_of_noneWaiting (hw : firstWaiting s = none) : exec (.queryStart e) s = .next s := by
  simp only [exec_queryStart, execQueryStart, if_neg (engineTakes hready hup hfree), hw]

/-- A map command takes the context. -/
theorem exec_queryStart_of_command {dl order : Nat} (hw : firstWaiting s = some ((dl, order), none)) :
    exec (.queryStart e) s = .next { s with
      map.ctx := updIf (fun x => x.order == order) (fun (x : CtxCmd) => { x with engine := some e }) s.map.ctx } := by
  simp only [exec_queryStart, execQueryStart, if_neg (engineTakes hready hup hfree), hw]

/-- A query of a batch takes the context. -/
theorem exec_queryStart_of_query {w : Nat × Nat} {slot i : Nat} (hw : firstWaiting s = some (w, some (slot, i))) :
    exec (.queryStart e) s = .next (updQuery slot i (fun q => { q with engine := some e }) s) := by
  simp only [exec_queryStart, execQueryStart, if_neg (engineTakes hready hup hfree), hw]

end Start

/-! ### QUERY_COMPLETE (R392 to R395) -/

section OnBatch
variable {batch i : Nat} {b : BatchO} (hb : getBatch batch s = some b)

/-- What this device's probes of a query have kept, the first k, before the check of R395. -/
def keptHere (x : IdxO) (m : MapO) (k : Nat) (q : Query) (s : State) : List (Nat × W64) :=
  (scan x m (ownMember s) k q).kept.take k

/-- The kept results whose identifiers are still live (R395). -/
def liveHere (x : IdxO) (m : MapO) (k : Nat) (q : Query) (s : State) : List (Nat × W64) :=
  (keptHere x m k q s).filter fun c => isLive m c.2

/-- This device's answer to a query, `bad` for a context memory that could not be corrected (R395, log entry 273). -/
def answerHere (x : IdxO) (m : MapO) (k : Nat) (q : Query) (bad : Option (Nat × Nat)) (s : State) : Scan :=
  let a := scan x m (ownMember s) k q
  { a with kept := liveHere x m k q s, bad := a.bad || bad.isSome }

/-- What a query's bad data leave: a poisoned page's record, or else that of the context memory (log entry 273). -/
def queryMet (x : IdxO) (m : MapO) (k : Nat) (q : Query) (bad : Option (Nat × Nat)) (s : State) : State :=
  if (scan x m (ownMember s) k q).bad then idxPoisonMet x.slot s else contextMet (q.engine.getD 0) bad s

include hb

theorem exec_queryComplete_of_started {q : Query} {x : IdxO} {m : MapO} (bad : Option (Nat × Nat)) (hq : b.queries[i]? = some q)
    (hx : getIdx b.idx s = some x) (hm : getMap x.map s = some m) (hengine : q.engine.isSome = true) (hdone : q.done = false)
    (hfirst : q.answers.contains (ownMember s) = false) :
    exec (.queryComplete batch i bad) s = .next (settle (answer batch i (ownMember s) (answerHere x m b.k q bad s)
      ((keptHere x m b.k q s).length - (liveHere x m b.k q s).length) (queryMet x m b.k q bad s))) := by
  have unanswered : ¬(q.engine.isNone || q.done || q.answers.contains (ownMember s)) = true := by
    rw [← Option.not_isSome, hengine, hdone, hfirst]
    exact Bool.false_ne_true
  simp only [exec_queryComplete, execQueryComplete, hb, hq, hx, Option.bind_some, hm, if_neg unanswered]
  rfl

/-- A query without a context, delivered, or answered by this device already is left alone. -/
theorem exec_queryComplete_of_settled {q : Query} (bad : Option (Nat × Nat)) (hq : b.queries[i]? = some q)
    (h : q.engine = none ∨ q.done = true ∨ q.answers.contains (ownMember s) = true) :
    exec (.queryComplete batch i bad) s = .next s := by
  have settled : (q.engine.isNone || q.done || q.answers.contains (ownMember s)) = true := by
    rwa [Bool.or_eq_true, Bool.or_eq_true, Option.isNone_iff_eq_none, or_assoc]
  simp only [exec_queryComplete, execQueryComplete, hb, hq]
  cases getIdx b.idx s with
  | none => rfl
  | some x =>
    cases hm : getMap x.map s with
    | none => simp only [Option.bind_some, hm]
    | some m => simp only [Option.bind_some, hm, if_pos settled]

/-! ### SRCH_BATCH_DEADLINE (R399) -/

theorem exec_srchBatchDeadline_of_late (hlate : b.dl ≤ s.time.mono) :
    exec (.srchBatchDeadline batch) s = .next (settle (cutBatch batch stTimeout s)) := by
  simp only [exec_srchBatchDeadline, execSrchBatchDeadline, hb, due_of_le hlate, if_true]

theorem exec_srchBatchDeadline_of_early (hearly : s.time.mono < b.dl) : exec (.srchBatchDeadline batch) s = .next s := by
  simp only [exec_srchBatchDeadline, execSrchBatchDeadline, hb, due_of_lt hearly, Bool.false_eq_true, if_false]

end OnBatch

/-! ### IDX_REBUILD_DONE (R401) -/

section Rebuilding
variable {slot : Nat} {x : IdxO} {m : MapO} {p : Rebuild} (hx : idxArgOf slot s = .ok (x, m)) (hp : x.rebuild = some p)

/-- The index's progress through a rebuild is journalled (R401, R505). -/
def rebuildProgress (x : IdxO) (p : Rebuild) (s : State) : State := journalProgress p.op 1048576 (itemCount x) s

/-- A rebuild's `COMMIT`: the new layout serves (R401). -/
def commitRebuild (slot : Nat) (x : IdxO) (m : MapO) (p : Rebuild) (s : State) : State :=
  updIdx slot (fun _ => { rebuilt m p.sels x with rebuild := some { p with committed := true } })
    (journalStep p.op 3 (itemCount x) (rebuildProgress x p s))

include hx hp

theorem exec_idxRebuildDone_of_committed (hcommitted : p.committed = true) : exec (.idxRebuildDone slot) s
    = .next (settle (endRebuild slot stOk (itemCount x % 2 ^ 32) (if p.req.isNone then 1 else 0) s)) := by
  simp only [exec_idxRebuildDone, execIdxRebuildDone, hx, hp, hcommitted, if_true]

section Uncommitted
variable (hcommitted : p.committed = false)
include hcommitted

theorem exec_idxRebuildDone_of_poisoned (hbad : x.poison ≠ []) :
    exec (.idxRebuildDone slot) s = .next (settle (endRebuild slot stMedia 0 2 (idxPoisonMet slot s))) := by
  have poisoned : (!x.poison.isEmpty) = true := by rwa [Bool.not_eq_true', List.isEmpty_eq_false_iff]
  simp only [exec_idxRebuildDone, execIdxRebuildDone, hx, hp, hcommitted, poisoned, Bool.false_eq_true, if_false, if_true]

theorem exec_idxRebuildDone_of_short (hgood : x.poison = []) (hshort : x.pages < pagesUsed (rebuilt m p.sels x)) :
    exec (.idxRebuildDone slot) s = .next (settle (endRebuild slot stIndexFull (pagesUsed (rebuilt m p.sels x) - x.pages) 2
      (rebuildProgress x p s))) := by
  simp only [exec_idxRebuildDone, execIdxRebuildDone, hx, hp, hcommitted, hgood, List.isEmpty_nil, Bool.not_true,
    Bool.false_eq_true, if_false, if_pos hshort]
  rfl

theorem exec_idxRebuildDone_of_room (hgood : x.poison = []) (hroom : pagesUsed (rebuilt m p.sels x) ≤ x.pages) :
    let d := draw (commitRebuild slot x m p s)
    exec (.idxRebuildDone slot) s = .next (settle (if d.1 % 2 = 0 then
      endRebuild slot stOk (itemCount (rebuilt m p.sels x) % 2 ^ 32) 0 d.2 else d.2)) := by
  simp only [exec_idxRebuildDone, execIdxRebuildDone, hx, hp, hcommitted, hgood, List.isEmpty_nil, Bool.not_true,
    Bool.false_eq_true, if_false, if_neg (Nat.not_lt.mpr hroom)]
  rfl

end Uncommitted
end Rebuilding

end SearchEvents

/-- Settles O36, by the event: by what waits first, by whether a query is still to be answered here, by the deadline, and
by how far a rebuild has come. -/
theorem searchEventsComplete : Obligations.SearchEventsComplete := by
  refine ⟨fun e s hready hup hfree => ⟨exec_queryStart_of_noneWaiting hready hup hfree,
      fun _ _ => exec_queryStart_of_command hready hup hfree, fun _ _ _ => exec_queryStart_of_query hready hup hfree⟩,
    fun batch i bad s b hb => ⟨fun q x m hq hx hm hengine hdone hfirst =>
        exec_queryComplete_of_started hb bad hq hx hm hengine hdone hfirst,
      fun q hq h => exec_queryComplete_of_settled hb bad hq h, exec_srchBatchDeadline_of_late hb,
      exec_srchBatchDeadline_of_early hb⟩,
    fun slot s x m p hx hp => ⟨exec_idxRebuildDone_of_committed hx hp, exec_idxRebuildDone_of_poisoned hx hp,
      fun hcommitted hgood => ⟨exec_idxRebuildDone_of_short hx hp hcommitted hgood,
        exec_idxRebuildDone_of_room hx hp hcommitted hgood⟩⟩⟩

end Sys2Proof.Machine

/-! ### The canonical form of the memories (R61, R102, R404), and what a cold reset leaves (R492) -/
namespace Sys2Proof.Machine

/-- By the command: each meaning has its own lemma under Laws. -/
theorem exec_kept {Q : List Instr} {s : State} (c : Instr) (h : Kept Q s) : KeptR Q (exec c s) := by
  cases c with
  | admIdentify => exact execAdmIdentify_kept h
  | admSessionOpen => exact execAdmSessionOpen_kept h
  | admSessionClose => exact execAdmSessionClose_kept h
  | admSessionAdopt => exact execAdmSessionAdopt_kept h
  | admQueueCreate => exact execAdmQueueCreate_kept h
  | admQueueDelete => exact execAdmQueueDelete_kept h
  | admQueueModify => exact execAdmQueueModify_kept h
  | admQueueQuery => exact execAdmQueueQuery_kept h
  | admQueueGrant => exact execAdmQueueGrant_kept h
  | admHandleQuery => exact execAdmHandleQuery_kept h
  | admLimitsRead => exact execAdmLimitsRead_kept h
  | admAbort => exact execAdmAbort_kept h
  | admResetWarm => exact execAdmResetWarm_kept h
  | admResetDomain => exact execAdmResetDomain_kept h
  | admEventWait => exact execAdmEventWait_kept h
  | streamOpen => exact execStreamOpen_kept h
  | streamClose => exact execStreamClose_kept h
  | streamStart => exact execStreamStart_kept h
  | streamStop => exact execStreamStop_kept h
  | streamQuery => exact execStreamQuery_kept h
  | streamSetWindow => exact execStreamSetWindow_kept h
  | streamFrameRelease => exact execStreamFrameRelease_kept h
  | filtOpen => exact execFiltOpen_kept h
  | filtClose => exact execFiltClose_kept h
  | filtLoadBank => exact execFiltLoadBank_kept h
  | filtSwap => exact execFiltSwap_kept h
  | filtCrossfade => exact execFiltCrossfade_kept h
  | filtSetPhase => exact execFiltSetPhase_kept h
  | filtDcFreeze => exact execFiltDcFreeze_kept h
  | filtDelayQuery => exact execFiltDelayQuery_kept h
  | cueLoad => exact execCueLoad_kept h
  | cueUnload => exact execCueUnload_kept h
  | cueStart => exact execCueStart_kept h
  | cueStop => exact execCueStop_kept h
  | cueQuery => exact execCueQuery_kept h
  | cueFlagRead => exact execCueFlagRead_kept h
  | pkgLoad => exact execPkgLoad_kept h
  | pkgUnload => exact execPkgUnload_kept h
  | instCreate => exact execInstCreate_kept h
  | instDestroy => exact execInstDestroy_kept h
  | inferRun => exact execInferRun_kept h
  | instQuery => exact execInstQuery_kept h
  | pkgQuery => exact execPkgQuery_kept h
  | gridCreate => exact execGridCreate_kept h
  | gridDestroy => exact execGridDestroy_kept h
  | calCreate => exact execCalCreate_kept h
  | calDestroy => exact execCalDestroy_kept h
  | gridRead => exact execGridRead_kept h
  | gridClear => exact execGridClear_kept h
  | gridVoteSet => exact execGridVoteSet_kept h
  | gridPoseSubmit => exact execGridPoseSubmit_kept h
  | gridStatus => exact execGridStatus_kept h
  | solvLoad => exact execSolvLoad_kept h
  | solvUnload => exact execSolvUnload_kept h
  | solvDelta => exact execSolvDelta_kept h
  | solvRun => exact execSolvRun_kept h
  | solvResult => exact execSolvResult_kept h
  | solvQuery => exact execSolvQuery_kept h
  | mapCreate => exact execMapCreate_kept h
  | mapDestroy => exact execMapDestroy_kept h
  | mapInsert => exact execMapInsert_kept h
  | mapDelete => exact execMapDelete_kept h
  | mapRead => exact execMapRead_kept h
  | mapTraverse => exact execMapTraverse_kept h
  | mapDeadheadSet => exact execMapDeadheadSet_kept h
  | mapRepot => exact execMapRepot_kept h
  | mapCheckpoint => exact execMapCheckpoint_kept h
  | mapRestore => exact execMapRestore_kept h
  | idxCreate => exact execIdxCreate_kept h
  | idxDestroy => exact execIdxDestroy_kept h
  | idxInsert => exact execIdxInsert_kept h
  | idxDelete => exact execIdxDelete_kept h
  | idxRebuild => exact execIdxRebuild_kept h
  | srchBatch => exact execSrchBatch_kept h
  | idxQuery => exact execIdxQuery_kept h
  | memAlloc => exact execMemAlloc_kept h
  | memFree => exact execMemFree_kept h
  | memCopy => exact execMemCopy_kept h
  | memSeal => exact execMemSeal_kept h
  | memMapBar4 => exact execMemMapBar4_kept h
  | memUnmapBar4 => exact execMemUnmapBar4_kept h
  | memQuotaSet => exact execMemQuotaSet_kept h
  | memQuotaQuery => exact execMemQuotaQuery_kept h
  | memStats => exact execMemStats_kept h
  | ensForm => exact execEnsForm_kept h
  | ensJoin => exact execEnsJoin_kept h
  | ensLeave => exact execEnsLeave_kept h
  | ensRemove => exact execEnsRemove_kept h
  | ensReshard => exact execEnsReshard_kept h
  | ensStatus => exact execEnsStatus_kept h
  | pwrCapSet => exact execPwrCapSet_kept h
  | pwrLevelSet => exact execPwrLevelSet_kept h
  | pwrStateEnter => exact execPwrStateEnter_kept h
  | pwrDomainPark => exact execPwrDomainPark_kept h
  | pwrPadRelease => exact execPwrPadRelease_kept h
  | pwrStatus => exact execPwrStatus_kept h
  | pwrCounters => exact execPwrCounters_kept h
  | timeRead => exact execTimeRead_kept h
  | timeSet => exact execTimeSet_kept h
  | timeAdjust => exact execTimeAdjust_kept h
  | timePtpConfig => exact execTimePtpConfig_kept h
  | timeAlarmSet => exact execTimeAlarmSet_kept h
  | timeStatus => exact execTimeStatus_kept h
  | secQuote => exact execSecQuote_kept h
  | secLifecycle => exact execSecLifecycle_kept h
  | secUnlockChallenge => exact execSecUnlockChallenge_kept h
  | secUnlock => exact execSecUnlock_kept h
  | secAlarmPolicy => exact execSecAlarmPolicy_kept h
  | secIdentityRead => exact execSecIdentityRead_kept h
  | diagLogRead => exact execDiagLogRead_kept h
  | diagCounters => exact execDiagCounters_kept h
  | diagSelftestRecord => exact execDiagSelftestRecord_kept h
  | recastImageLoad => exact execRecastImageLoad_kept h
  | recastCommit => exact execRecastCommit_kept h
  | recastFallback => exact execRecastFallback_kept h
  | diagJournalRead => exact execDiagJournalRead_kept h
  | registerWrite => exact execRegisterWrite_kept h
  | qzBaseWrite => exact execQzBaseWrite_kept h
  | qzEnable => exact execQzEnable_kept h
  | qzDisable => exact execQzDisable_kept h
  | qzCtrlUpdate => exact execQzCtrlUpdate_kept h
  | sqTailDoorbell => exact execSqTailDoorbell_kept h
  | cqHeadDoorbell => exact execCqHeadDoorbell_kept h
  | qzDbRefusedRead => exact execQzDbRefusedRead_kept h
  | bar4MissRead => exact execBar4MissRead_kept h
  | bar4Access => exact execBar4Access_kept h
  | cbRing => exact execCbRing_kept h
  | cbAck => exact execCbAck_kept h
  | cbRefusedRead => exact execCbRefusedRead_kept h
  | cbHwTimeout => exact execCbHwTimeout_kept h
  | tbWord0Read => exact execTbWord0Read_kept h
  | glWakeClear => exact execGlWakeClear_kept h
  | slkNegSeenClear => exact execSlkNegSeenClear_kept h
  | slkMinRead => exact execSlkMinRead_kept h
  | fenceCounterRead => exact execFenceCounterRead_kept h
  | msixUnmask => exact execMsixUnmask_kept h
  | busMasterEnable => exact execBusMasterEnable_kept h
  | vfEnableSet => exact execVfEnableSet_kept h
  | vfEnableClear => exact execVfEnableClear_kept h
  | functionLevelReset => exact execFunctionLevelReset_kept h
  | linkDown => exact execLinkDown_kept h
  | sqFetch => exact execSqFetch_kept h
  | coalTimer => exact execCoalTimer_kept h
  | commandDeadline => exact execCommandDeadline_kept h
  | releaseDeadline => exact execReleaseDeadline_kept h
  | orphanHoldExpiry => exact execOrphanHoldExpiry_kept h
  | csiFrameStart => exact execCsiFrameStart_kept h
  | csiPacket => exact execCsiPacket_kept h
  | csiFrameEnd => exact execCsiFrameEnd_kept h
  | ethFrameReceived => exact execEthFrameReceived_kept h
  | ptpMasterTimeout => exact execPtpMasterTimeout_kept h
  | timeAlarmFire => exact execTimeAlarmFire_kept h
  | spiCnvStrobe => exact execSpiCnvStrobe_kept h
  | spiDrdyEdge => exact execSpiDrdyEdge_kept h
  | spiTransactionDone => exact execSpiTransactionDone_kept h
  | spiDrdyGap => exact execSpiDrdyGap_kept h
  | filtHeldInput => exact execFiltHeldInput_kept h
  | encEdge => exact execEncEdge_kept h
  | encIndex => exact execEncIndex_kept h
  | encSample => exact execEncSample_kept h
  | cueSlotMissing => exact execCueSlotMissing_kept h
  | cueSetDeadline => exact execCueSetDeadline_kept h
  | visionBandDone => exact execVisionBandDone_kept h
  | visionNodeDone => exact execVisionNodeDone_kept h
  | cueExternalWaitMet => exact execCueExternalWaitMet_kept h
  | tileFlagWrite => exact execTileFlagWrite_kept h
  | taskComplete => exact execTaskComplete_kept h
  | taskWatchdog => exact execTaskWatchdog_kept h
  | tileSteal => exact execTileSteal_kept h
  | weightLanded => exact execWeightLanded_kept h
  | lateWeightExpiry => exact execLateWeightExpiry_kept h
  | weightTimeout => exact execWeightTimeout_kept h
  | flagWaitMet => exact execFlagWaitMet_kept h
  | flagWaitExpiry => exact execFlagWaitExpiry_kept h
  | scatterBatch => exact execScatterBatch_kept h
  | epochLimit => exact execEpochLimit_kept h
  | epochClose => exact execEpochClose_kept h
  | solveStart => exact execSolveStart_kept h
  | solveComplete => exact execSolveComplete_kept h
  | solveDeadline => exact execSolveDeadline_kept h
  | queryStart => exact execQueryStart_kept h
  | queryComplete => exact execQueryComplete_kept h
  | srchBatchDeadline => exact execSrchBatchDeadline_kept h
  | deadheadPass => exact execDeadheadPass_kept h
  | repotCopyDone => exact execRepotCopyDone_kept h
  | repotCommit => exact execRepotCommit_kept h
  | repotPauseExpiry => exact execRepotPauseExpiry_kept h
  | idxRebuildDone => exact execIdxRebuildDone_kept h
  | scrubRead => exact execScrubRead_kept h
  | granuleRetireDone => exact execGranuleRetireDone_kept h
  | refetchPassEnd => exact execRefetchPassEnd_kept h
  | refetchRetry => exact execRefetchRetry_kept h
  | allocMove => exact execAllocMove_kept h
  | trellisLinkTrained => exact execTrellisLinkTrained_kept h
  | trellisHandshakeMessage => exact execTrellisHandshakeMessage_kept h
  | trellisRefusalRetry => exact execTrellisRefusalRetry_kept h
  | trellisRekey => exact execTrellisRekey_kept h
  | trellisFrameReceived => exact execTrellisFrameReceived_kept h
  | trellisLinkLost => exact execTrellisLinkLost_kept h
  | memberLoss => exact execMemberLoss_kept h
  | ensTimeSync => exact execEnsTimeSync_kept h
  | replicaCommit => exact execReplicaCommit_kept h
  | levelChoiceTick => exact execLevelChoiceTick_kept h
  | powerBackstopTick => exact execPowerBackstopTick_kept h
  | thermalTrip => exact execThermalTrip_kept h
  | domainIdlePark => exact execDomainIdlePark_kept h
  | selftestSliceDone => exact execSelftestSliceDone_kept h
  | domainReturnDone => exact execDomainReturnDone_kept h
  | pmeTurnOff => exact execPmeTurnOff_kept h
  | entryLinkTimeout => exact execEntryLinkTimeout_kept h
  | domainGateTimeout => exact execDomainGateTimeout_kept h
  | wakeNEdge => exact execWakeNEdge_kept h
  | gpioWakeEdge => exact execGpioWakeEdge_kept h
  | returnComplete => exact execReturnComplete_kept h
  | brownOut => exact execBrownOut_kept h
  | powerLoss => exact execPowerLoss_kept h
  | vauxRise => exact execVauxRise_kept h
  | mainPgRise => exact execMainPgRise_kept h
  | mainPgFall => exact execMainPgFall_kept h
  | mainPgTimeout => exact execMainPgTimeout_kept h
  | mainPgReturnTimeout => exact execMainPgReturnTimeout_kept h
  | resetNAssert => exact execResetNAssert_kept h
  | resetNRelease => exact execResetNRelease_kept h
  | perstNAssert => exact execPerstNAssert_kept h
  | perstNRelease => exact execPerstNRelease_kept h
  | clkRefLoss => exact execClkRefLoss_kept h
  | clkRefReturn => exact execClkRefReturn_kept h
  | pcieRefclkLoss => exact execPcieRefclkLoss_kept h
  | phyRefclkLoss => exact execPhyRefclkLoss_kept h
  | coldStartReady => exact execColdStartReady_kept h
  | bootWatchdog => exact execBootWatchdog_kept h
  | fscClear => exact execFscClear_kept h
  | smWatchdog => exact execSmWatchdog_kept h
  | lockstepMismatch => exact execLockstepMismatch_kept h
  | warmResetComplete => exact execWarmResetComplete_kept h
  | recastHandover => exact execRecastHandover_kept h
  | probationEnd => exact execProbationEnd_kept h
  | tamperAlarm => exact execTamperAlarm_kept h
  | throttleRelease => exact execThrottleRelease_kept h
  | challengeExpiry => exact execChallengeExpiry_kept h
  | debugPortExpiry => exact execDebugPortExpiry_kept h
  | slackMeasure => exact execSlackMeasure_kept h
  | sbRegisterWrite => exact execSbRegisterWrite_kept h
  | sbSetIndex => exact execSbSetIndex_kept h
  | sbDynamicAddress => exact execSbDynamicAddress_kept h
  | sbWakeTransaction => exact execSbWakeTransaction_kept h
  | sbSclTimeout => exact execSbSclTimeout_kept h
  | sbRefusedRead => exact execSbRefusedRead_kept h
  | sbMirrorTick => exact execSbMirrorTick_kept h
  | sleepEntryGated => exact execSleepEntryGated_kept h
  | pcieLinkTrained => exact execPcieLinkTrained_kept h
  | wakeNDriveExpiry => exact execWakeNDriveExpiry_kept h
  | phyRefclkReturn => exact execPhyRefclkReturn_kept h
  | startAttemptFailure => exact execStartAttemptFailure_kept h
  | mapCommandDone => exact execMapCommandDone_kept h
  | slewAbsorbed => exact execSlewAbsorbed_kept h
  | ptpTransmitInterval => exact execPtpTransmitInterval_kept h

/-- A step takes the front command away, or lets a nanosecond pass, and keeps the memories canonical. -/
theorem step_kept {s : State} (h : s.memsOk = true) : KeptR s.pending.tail (step s) := by
  unfold step
  split
  next c rest hpending =>
    rw [hpending]
    exact exec_kept c (kept_iff.mpr ⟨rfl, h⟩)
  next hpending =>
    rw [hpending]
    exact tick_kept (markBusy_kept (dueReset_kept (kept_iff.mpr ⟨hpending, h⟩)))

/-- Settles O4, from what each meaning keeps. -/
theorem stepKeepsMemoriesCanonical : Obligations.StepKeepsMemoriesCanonical := by
  intro s t hs ht
  have kept := step_kept hs
  rw [ht] at kept
  exact (kept_iff.mp kept).2

/-- Settles O5: no memory lists a byte at reset. -/
theorem resetMemoriesCanonical : Obligations.ResetMemoriesCanonical := ⟨rfl, rfl, rfl, rfl, rfl⟩

/-- Settles O48: each field is at its reset value or is carried over by `coldPower`, `coldBoot` and `coldSec`. -/
theorem coldResetLeavesItsValues : Obligations.ColdResetLeavesItsValues := fun _ =>
  ⟨rfl, rfl, rfl, rfl, rfl, rfl, rfl, rfl, rfl, rfl, rfl, rfl, rfl, rfl, rfl, rfl, rfl, rfl, rfl, rfl, rfl, rfl, rfl⟩

end Sys2Proof.Machine

/-! ### Ensembles: their commands -/
namespace Sys2Proof.Machine

section EnsembleCommands
variable {s : State} {c : Ctx} {e : Ens}

/-! ### ENS_FORM and ENS_JOIN (R433, R437) -/

theorem bodyEnsForm_of_passing (hcheck : ensCheck c s = .ok ()) :
    let w := newObj 12 (2 ^ 32) 0 c.sess [] false 0 0 s
    bodyEnsForm c s = .ok ({ w.2.2 with
      ens.ens := some { newEns c.pay 1 (2 ^ ownMember s) (ownMember s) none with slot := w.1 } }, okR w.1 w.2.1) :=
  bind_of_ok hcheck

theorem bodyEnsJoin_of_passing (hpads : (getDom 95 s).pads = false) (hcheck : ensCheck c s = .ok ()) :
    bodyEnsJoin c s
      = .ok ({ s with ens.ens := some (newEns c.pay 0 0 (ownMember s) (some (reqRef c.q))) }, .wait) :=
  (need_bind (by rw [hpads]; rfl)).trans (bind_of_ok hcheck)

/-! ### The ensemble of a command (R456, R457, R458) -/

theorem ensArg_of_whole (he : s.ens.ens = some e) (hwhole : e.broken = false) : ensArg s = .ok e := by
  simp only [ensArg, he, hwhole, Bool.false_eq_true, if_false]

/-- The leave of a member with its shards to move, as an operation of the journal (R456, R505). -/
def openLeave (c : Ctx) (e : Ens) (moves : List (Nat × Nat × Nat)) (s : State) : State :=
  let j := journalBegin 4 (reqRef c.q) c.q.opcode (handleOf 12 e.slot s) 0 s
  let s1 := updEns (fun e => { e with state := 3, leave := some (reqRef c.q, j.1) }) j.2
  { s1 with ens.replicas := s1.ens.replicas ++ moves.map fun m => (m.1, m.2.1, m.2.2, j.1) }

/-- The most that a member taking shards of a leaving one lacks, with the state after the last was asked (R452, R456). -/
def leaveShort (s : State) : Nat × State :=
  ((leaveMoves s).filter fun m => m.2.2 != ownMember s).foldl (fun (x : Nat × State) (m : Nat × Nat × Nat) =>
    let d := targetShort m.2.2 ((getMap m.1 x.2).elim 0 fun y => shardBytes y m.2.1) x.2
    (max x.1 d.1, d.2)) (0, s)

section Whole
variable (he : s.ens.ens = some e) (hwhole : e.broken = false)
include he hwhole

theorem bodyEnsLeave_of_room (hstays : e.leave = none) (hjournal : journalRoom s = .ok ()) (hroom : (leaveShort s).1 = 0) :
    bodyEnsLeave c s = .ok (openLeave c e (leaveMoves s) (draw (leaveShort s).2).2, .wait) := by
  refine (bind_of_ok (ensArg_of_whole he hwhole)).trans ((need_bind (by rw [hstays]; rfl)).trans ((bind_of_ok hjournal).trans ?_))
  change (targetFits (leaveShort s).1 (leaveShort s).2 >>= _) = _
  rw [hroom]
  exact bind_of_ok targetFits_of_room

theorem bodyEnsRemove_of_quorum (hquorum : e.state ≠ 2) (hother : prm c 0 1 ≠ ownMember s)
    (hpresent : e.present.testBit (prm c 0 1) = true) :
    bodyEnsRemove c s = .ok (loseMember (prm c 0 1)
      ((bitsIn e.present).foldl (fun s j => if j = ownMember s then s else sendTo j "PRESENT" s) s), okR 0 0) := by
  refine (bind_of_ok (ensArg_of_whole he hwhole)).trans ((need_bind (bne_iff_ne.mpr hquorum)).trans (need_bind ?_))
  rw [hpresent, bne_iff_ne.mpr hother]
  rfl

theorem bodyEnsStatus_of_whole : bodyEnsStatus c s = .ok (s, okD 0 0 (ensRecord e s)) :=
  bind_of_ok (ensArg_of_whole he hwhole)

/-- The members that a re-sharding gives copies to, each with the bytes of its shard (R458). -/
def reshardGains (m : MapO) (plan : List (Nat × Nat)) (s : State) : List (Nat × Nat) :=
  ((localShards m (ownMember s)).zip plan).zipIdx.flatMap fun ((x, p), sh) =>
    ([p.1, p.2].filter fun k => x.primary != some k && x.understudy != some k).map fun k => (k, shardBytes m sh)

/-- The most that one of those members lacks, with the state after the last was asked (R452). -/
def reshardShort (m : MapO) (plan : List (Nat × Nat)) (s : State) : Nat × State :=
  (reshardGains m plan s).foldl (fun (x : Nat × State) (g : Nat × Nat) =>
    let d := targetShort g.1 g.2 x.2
    (max x.1 d.1, d.2)) (0, s)

/-- A map with the plan of a re-sharding stored, no shard of it moved yet (R458). -/
def planned (c : Ctx) (s : State) (m : MapO) : MapO → MapO :=
  fun x => { x with ens := localShards m (ownMember s), resharding := some (reqRef c.q, planOf c.pay, 0, 0) }

theorem bodyEnsReshard_of_room {m : MapO} (hm : getMap (prm c 0 8 % 2 ^ 32) s = some m) (hhome : m.homeAt = ownMember s)
    (husable : m.broken = false)
    (hplan : ((planOf c.pay).zipIdx.all fun (p, i) => pairOk (shardCount m) e.present i p) = true)
    (hrepot : m.repot = none) (hreshard : m.resharding = none) (hquorum : e.state ≠ 2) (hfew : repottings s < 4)
    (hjournal : journalRoom s = .ok ()) (hroom : (reshardShort m (planOf c.pay) s).1 = 0) :
    bodyEnsReshard c s
      = .ok (updMap m.slot (planned c s m) (draw (reshardShort m (planOf c.pay) s).2).2, .wait) := by
  have fitting : recCheck stRange (firstFalse ((planOf c.pay).zipIdx.map fun (p, i) => pairOk (shardCount m) e.present i p))
      = .ok () := by
    rw [firstFalse_map_of_all hplan]
    rfl
  refine (bind_of_ok (ensArg_of_whole he hwhole)).trans ?_
  simp only [hm]
  refine (need_bind (beq_iff_eq.mpr hhome)).trans ((bind_of_ok fitting).trans ((need_bind (by rw [husable]; rfl)).trans ?_))
  refine (need_bind (by rw [hrepot, hreshard]; rfl)).trans ((need_bind (bne_iff_ne.mpr hquorum)).trans ?_)
  refine (need_bind (decide_eq_true hfew)).trans ((bind_of_ok hjournal).trans ?_)
  change (targetFits (reshardShort m (planOf c.pay) s).1 (reshardShort m (planOf c.pay) s).2 >>= _) = _
  rw [hroom]
  exact bind_of_ok targetFits_of_room

end Whole

section Waiting
variable {r : ReqRef} {io : Io} {q : Req} {t : State}

/-- A leave that waits completes at once when nothing is left to move (R456). -/
theorem exec_ensLeave_of_wait (ready : IsReady iEnsLeave r io s q c) (hbody : bodyEnsLeave c s = .ok (t, .wait)) :
    exec (.ensLeave r io) s = .next (settle (finishLeave (settle (markRunning q t)))) := by
  rw [exec_ensLeave, execEnsLeave, serve_wait ready hbody, goesOn]

/-- A re-sharding that waits begins to move its first changed shard (R458). -/
theorem exec_ensReshard_of_wait (ready : IsReady iEnsReshard r io s q c) (hbody : bodyEnsReshard c s = .ok (t, .wait)) :
    let u := settle (markRunning q t)
    exec (.ensReshard r io) s
      = .next (settle ((u.map.maps.filter fun m => m.repot.isNone).foldl (fun s (m : MapO) => advanceReshard m.slot s) u)) := by
  rw [exec_ensReshard, execEnsReshard, serve_wait ready hbody, goesOn]

end Waiting
end EnsembleCommands

/-- Settles O41, by the command. -/
theorem ensembleCommandsComplete : Obligations.EnsembleCommandsComplete := by
  intro r io s q c
  refine ⟨fun ready hcheck => serve_reply ready (bodyEnsForm_of_passing hcheck),
    fun ready hpads hcheck => serve_wait ready (bodyEnsJoin_of_passing hpads hcheck), fun e he hwhole => ⟨?_, ?_, ?_, ?_⟩⟩
  · intro ready hstays hjournal moves w hroom
    exact exec_ensLeave_of_wait ready (bodyEnsLeave_of_room he hwhole hstays hjournal hroom)
  · intro ready hquorum hother hpresent
    exact serve_reply ready (bodyEnsRemove_of_quorum he hwhole hquorum hother hpresent)
  · intro m ready hm hhome husable plan hplan hrepot hreshard hquorum hfew hjournal ens gains w hroom
    exact exec_ensReshard_of_wait ready
      (bodyEnsReshard_of_room he hwhole hm hhome husable hplan hrepot hreshard hquorum hfew hjournal hroom)
  · exact fun ready => serve_reply ready (bodyEnsStatus_of_whole he hwhole)
end Sys2Proof.Machine

/-! ### Power: the commands of group 0x0B -/
namespace Sys2Proof.Machine

/-- A ready command whose own steps refuse it is answered with the refusal, after what the refusal counts. -/
theorem serve_refuse {ci : CmdInfo} {body : Body} {r : ReqRef} {io : Io} {s : State} {q : Req} {c : Ctx} {f : Fail}
    (ready : IsReady ci r io s q c) (hb : body c s = .error f) :
    serve ci body r io s = answered q f.st f.r0 f.r1 none (f.fx s) := serve_of_refused ready hb

/-- A check that fails ends the steps with its refusal. -/
theorem need_bind_of_false {α : Type} {b : Bool} {f : Fail} {k : Unit → Except Fail α} (h : b = false) :
    (need b f >>= k) = .error f := by
  rw [h]
  rfl

section PowerCommands
variable {s : State} {c : Ctx}

/-! ### Limits and levels (R459, R460, R491) -/

theorem bodyPwrCapSet_eq : bodyPwrCapSet c s = .ok ({ s with pwr := { s.pwr with
    cap := if prm c 0 2 = 0xFFFF then s.pwr.cap else Comp.of (prm c 0 2)
    capDefault := if prm c 0 2 = 0xFFFF then s.pwr.capDefault else false
    tj := if prm c 2 1 = 0xFF then s.pwr.tj else Comp.of (prm c 2 1)
    tjDefault := if prm c 2 1 = 0xFF then s.pwr.tjDefault else false } }, okR 0 0) := by
  unfold bodyPwrCapSet
  by_cases hcap : prm c 0 2 = 0xFFFF <;> by_cases htj : prm c 2 1 = 0xFF <;> simp only [hcap, htj, if_true, if_false]

/-- The state with the level range of a PWR_LEVEL_SET (R491). -/
def rangeSet (c : Ctx) (s : State) : State :=
  { s with pwr := { s.pwr with fastest := (newRange c s).1, slowest := (newRange c s).2 } }

/-- The present level moved into that range (R491). -/
def levelMoved (c : Ctx) (s : State) : State :=
  setLevel (max (newRange c s).1 (min (newRange c s).2 s.pwr.level)) (rangeSet c s)

/-- The state after a PWR_LEVEL_SET: the level moves unless the hardware holds it (log entry 126). -/
def levelSet (c : Ctx) (s : State) : State :=
  if levelForced (rangeSet c s) then rangeSet c s
  else { levelMoved c s with pwr := { (levelMoved c s).pwr with belowFloor := false } }

theorem bodyPwrLevelSet_eq : bodyPwrLevelSet c s = .ok (levelSet c s, okR (levelSet c s).pwr.level 0) := rfl

theorem levelSet_of_held (h : levelForced s = true) : levelSet c s = rangeSet c s := if_pos h

theorem levelSet_of_free (h : levelForced s = false) :
    levelSet c s = { levelMoved c s with pwr := { (levelMoved c s).pwr with belowFloor := false } } :=
  if_neg (ne_true_of_eq_false h)

theorem bodyPwrLevelSet_of_held (h : levelForced s = true) : bodyPwrLevelSet c s = .ok (rangeSet c s, okR s.pwr.level 0) := by
  rw [bodyPwrLevelSet_eq, levelSet_of_held h]
  rfl

theorem bodyPwrLevelSet_of_free (h : levelForced s = false) :
    bodyPwrLevelSet c s = .ok ({ levelMoved c s with pwr := { (levelMoved c s).pwr with belowFloor := false } },
      okR (levelMoved c s).pwr.level 0) := by
  rw [bodyPwrLevelSet_eq, levelSet_of_free h]

/-! ### Parking (R467, R468) -/

/-- The domain of a PWR_DOMAIN_PARK with mode `m` and the other settings of the command (R467). -/
def parkNamed (c : Ctx) (m : Nat) (s : State) : State :=
  updDom (prm c 0 1) (fun x => { x with
    mode := m, hold := (prm c 2 1).testBit 0, idleMs := if prm c 4 4 = 0 then 100 else prm c 4 4
    idleAt := if x.mode = 0 then x.idleAt else s.time.mono }) s

theorem bodyPwrDomainPark_zero (h : prm c 1 1 = 0) : bodyPwrDomainPark c s = .ok (parkNamed c 0 s, okR 0 0) := by
  simp only [bodyPwrDomainPark, h]
  rfl

theorem bodyPwrDomainPark_one (h : prm c 1 1 = 1) :
    bodyPwrDomainPark c s = .ok (if !(getDom (prm c 0 1) s).on && !domBarred (prm c 0 1) (parkNamed c 1 s)
      then startReturn [prm c 0 1] (parkNamed c 1 s) else parkNamed c 1 s, okR 0 0) := by
  simp only [bodyPwrDomainPark, h]
  rfl

section Parks
variable (hmode : 2 ≤ prm c 1 1)
include hmode

theorem bodyPwrDomainPark_of_idle (hidle : domWork (prm c 0 1) s = none) :
    let s1 := parkNamed c (if prm c 1 1 = 2 then 0 else 3) s
    bodyPwrDomainPark c s = .ok (if !(getDom (prm c 0 1) s).on then updDom (prm c 0 1) (fun x => { x with returning := false }) s1
      else parkDom (prm c 0 1) none s1, okR 0 0) := by
  simp only [bodyPwrDomainPark, if_neg (Nat.not_lt.mpr hmode), hidle]
  rfl

theorem bodyPwrDomainPark_of_work {w : Nat} (hwork : domWork (prm c 0 1) s = some w) :
    bodyPwrDomainPark c s = .error { st := stPwrRefused, r0 := w, r1 := 0, fx := refusePark (prm c 0 1) w } := by
  simp only [bodyPwrDomainPark, if_neg (Nat.not_lt.mpr hmode), hwork]

end Parks

/-! ### Pads (R473, R491) -/

/-- The domains that a PWR_PAD_RELEASE names, with their bits. -/
def padsNamed (c : Ctx) : List (Nat × Nat) := padDoms.zipIdx.filter fun (_, i) => (prm c 0 1).testBit i

theorem bodyPwrPadRelease_of_on (h : ((padsNamed c).all fun (d, _) => domOn d s) = true) :
    bodyPwrPadRelease c s = .ok ((padsNamed c).foldl (fun s (x : Nat × Nat) => releasePads x.1 s) s,
      okR (((padsNamed c).filter fun (d, _) => (getDom d s).pads).map fun (_, i) => 2 ^ i).sum 0) := need_bind h

theorem bodyPwrPadRelease_of_off (h : ((padsNamed c).all fun (d, _) => domOn d s) = false) :
    bodyPwrPadRelease c s = .error (err stState) := need_bind_of_false h

/-- A condition on the named domains as one on all of them. -/
theorem padsNamed_all (p : Nat × Nat → Bool) :
    (padsNamed c).all p = padDoms.zipIdx.all fun x => !(prm c 0 1).testBit x.2 || p x := by
  simp only [padsNamed, List.all_filter]

/-! ### Entries into a sleep state (R475, R476) -/

theorem bodyPwrStateEnter_of_noCrystal (hst : prm c 0 1 = 3) (hc : s.boot.straps.crystal = false) :
    bodyPwrStateEnter c s = .error (err stState) := need_bind_of_false (by rw [hst, hc]; rfl)

section Enters
variable (h : prm c 0 1 ≠ 3 ∨ s.boot.straps.crystal = true)
include h

theorem crystalFits : (prm c 0 1 != 3 || s.boot.straps.crystal) = true := by
  simpa only [Bool.or_eq_true, bne_iff_ne] using h

theorem bodyPwrStateEnter_of_free (hfree : entryRefuser (prm c 0 1) s = none) :
    bodyPwrStateEnter c s = .ok (beginEntry (prm c 0 1) (prm c 1 1) (prm c 2 1)
      (if prm c 4 2 = 0 then 100 else prm c 4 2) (reqRef c.q) s, .wait) := by
  refine (need_bind (crystalFits h)).trans ?_
  simp only [hfree]

theorem bodyPwrStateEnter_of_refuser {w : Nat} (hw : entryRefuser (prm c 0 1) s = some w) :
    bodyPwrStateEnter c s
      = .error { st := stPwrRefused, r0 := w, r1 := 0, fx := refuseEntry (prm c 0 1) w } := by
  refine (need_bind (crystalFits h)).trans ?_
  simp only [hw]

end Enters
end PowerCommands

/-- Settles O43, by the command, and by its mode, its work or its refuser. -/
theorem powerCommandsComplete : Obligations.PowerCommandsComplete := by
  intro r io s q c
  refine ⟨fun ready => serve_reply ready bodyPwrCapSet_eq,
    fun ready => ⟨fun hheld => serve_reply ready (bodyPwrLevelSet_of_held hheld),
      fun hfree => serve_reply ready (bodyPwrLevelSet_of_free hfree)⟩,
    fun ready => ⟨fun hmode => serve_reply ready (bodyPwrDomainPark_zero hmode),
      fun hmode => serve_reply ready (bodyPwrDomainPark_one hmode),
      fun hmode hidle => serve_reply ready (bodyPwrDomainPark_of_idle hmode hidle),
      fun w hmode hwork => (serve_refuse ready (bodyPwrDomainPark_of_work hmode hwork)).trans rfl⟩,
    fun ready hon => serve_reply ready (bodyPwrPadRelease_of_on hon),
    fun ready hoff => (serve_refuse ready (bodyPwrPadRelease_of_off ((padsNamed_all _).trans hoff))).trans rfl,
    fun ready hst hcrystal => (serve_refuse ready (bodyPwrStateEnter_of_noCrystal hst hcrystal)).trans rfl,
    fun ready => serve_reply ready rfl, fun ready => serve_reply ready rfl,
    fun ready hcrystal => ⟨fun hfree => serve_wait ready (bodyPwrStateEnter_of_free hcrystal hfree),
      fun w hw => (serve_refuse ready (bodyPwrStateEnter_of_refuser hcrystal hw)).trans rfl⟩⟩

end Sys2Proof.Machine

/-! ### Power: level choices, the backstop, the trip, parking, returns and self-tests -/
namespace Sys2Proof.Machine

section PowerEvents
variable {s : State}

/-! ### LEVEL_CHOICE_TICK (R461, R464) -/

/-- The readings of a level choice taken, the limits usable (R459, R461). -/
def choiceReadings (powerMw : Nat) (tj : Int) (s : State) : State :=
  let f := limFix s
  { f with pwr := { f.pwr with power := powerMw, temp := tj, choiceAt := f.time.mono } }

section Choice
variable {powerMw : Nat} {tj : Int}

theorem exec_levelChoiceTick_of_idle (h : ready s = false ∨ s.time.mono < s.pwr.choiceAt + 10 * msT) :
    exec (.levelChoiceTick powerMw tj) s = .next (settle s) := by
  have idle : (!ready s || decide (s.time.mono < s.pwr.choiceAt + 10 * msT)) = true := by
    simpa only [Bool.or_eq_true, Bool.not_eq_true', decide_eq_true_eq] using h
  rw [exec_levelChoiceTick, execLevelChoiceTick, if_pos idle, ended]

section Due
variable (hready : ready s = true) (hdue : s.pwr.choiceAt + 10 * msT ≤ s.time.mono)
include hready hdue

theorem choiceDue : ¬(!ready s || decide (s.time.mono < s.pwr.choiceAt + 10 * msT)) = true := by
  rw [hready, decide_eq_false (Nat.not_lt.mpr hdue)]
  exact Bool.false_ne_true

theorem exec_levelChoiceTick_of_held (hheld : levelForced (choiceReadings powerMw tj s) = true) :
    exec (.levelChoiceTick powerMw tj) s = .next (settle (choiceReadings powerMw tj s)) := by
  rw [exec_levelChoiceTick, execLevelChoiceTick, if_neg (choiceDue hready hdue)]
  exact congrArg ended (if_pos hheld)

section Free
variable (hfree : levelForced (choiceReadings powerMw tj s) = false)
include hfree

theorem exec_levelChoiceTick_of_hot (hhot : ((choiceReadings powerMw tj s).pwr.tj.n : Int) * 10 ≤ tj) :
    exec (.levelChoiceTick powerMw tj) s = .next (settle (setLevel
      (max (min 7 ((choiceReadings powerMw tj s).pwr.level + 1)) (chooseLevel (choiceReadings powerMw tj s)))
      (choiceReadings powerMw tj s))) := by
  rw [exec_levelChoiceTick, execLevelChoiceTick, if_neg (choiceDue hready hdue)]
  exact congrArg ended ((if_neg (ne_true_of_eq_false hfree)).trans (if_pos hhot))

/-- Below the junction limit the level is the one that fits; one past the slowest is news once (R461). -/
theorem exec_levelChoiceTick_of_cool (hcool : tj < ((choiceReadings powerMw tj s).pwr.tj.n : Int) * 10) :
    let s1 := choiceReadings powerMw tj s
    let l := chooseLevel s1
    let below := decide (s1.pwr.slowest < l)
    let s2 := setLevel l { s1 with pwr := { s1.pwr with belowFloor := below } }
    exec (.levelChoiceTick powerMw tj) s = .next (settle (if below && (!s1.pwr.belowFloor || l != s1.pwr.level)
      then raise 0x0B01 (l + sat16 (powerMw / 100) * 256) none s2 else s2)) := by
  rw [exec_levelChoiceTick, execLevelChoiceTick, if_neg (choiceDue hready hdue)]
  exact congrArg ended ((if_neg (ne_true_of_eq_false hfree)).trans (if_neg (Int.not_le.mpr hcool)))

end Free
end Due
end Choice

/-! ### What a forced step leaves (R463, R464) -/

theorem setLevel_pwr (l : Nat) (s : State) : (setLevel l s).pwr = { s.pwr with level := l } := by
  unfold setLevel
  split
  next h => rw [h]
  next => rfl

/-- What a forced step leaves of the power block: all but the level, the pace and the counts. -/
structure SameHold (p p' : Power) : Prop where
  cap : p'.cap = p.cap
  backstop : p'.backstop = p.backstop
  thermal : p'.thermal = p.thermal
  trip : p'.trip = p.trip
  overMs : p'.overMs = p.overMs
  underMs : p'.underMs = p.underMs

theorem forceSlower_sameHold (cause : Nat) (s : State) : SameHold s.pwr (forceSlower cause s).pwr := by
  unfold forceSlower
  split
  · simp only [raise_pwr]
    by_cases hlevel : s.pwr.level < 7 <;> by_cases hcause : cause = 0 <;>
      simp only [hlevel, hcause, if_true, if_false, setLevel_pwr] <;> exact ⟨rfl, rfl, rfl, rfl, rfl, rfl⟩
  · exact ⟨rfl, rfl, rfl, rfl, rfl, rfl⟩

theorem SameHold.trans {p p' p'' : Power} (h : SameHold p p') (h' : SameHold p' p'') : SameHold p p'' :=
  ⟨h'.cap.trans h.cap, h'.backstop.trans h.backstop, h'.thermal.trans h.thermal, h'.trip.trans h.trip,
    h'.overMs.trans h.overMs, h'.underMs.trans h.underMs⟩

/-! ### POWER_BACKSTOP_TICK (R463, R464) -/

section Backstop
variable {powerMw : Nat} {tj : Int}

theorem exec_powerBackstopTick_of_idle (h : backstopLive s = false ∨ s.time.mono < s.pwr.stopAt + msT) :
    exec (.powerBackstopTick powerMw tj) s = .next (settle s) := by
  have idle : (!backstopLive s || decide (s.time.mono < s.pwr.stopAt + msT)) = true := by
    simpa only [Bool.or_eq_true, Bool.not_eq_true', decide_eq_true_eq] using h
  rw [exec_powerBackstopTick, execPowerBackstopTick, if_pos idle, ended]

/-- The readings of a backstop millisecond taken, the limits usable (R459, R463). -/
def stopReadings (tj : Int) (s : State) : State :=
  limFix { s with pwr := { s.pwr with temp := tj, stopAt := s.time.mono } }

/-- The pace is whole again when nothing forces it (R463, R464). -/
def paceWhole (s : State) : State :=
  if s.pwr.backstop || s.pwr.thermal || s.pwr.trip then s else { s with pwr := { s.pwr with eighths := 0 } }

theorem exec_powerBackstopTick_of_due (hlive : backstopLive s = true) (hdue : s.pwr.stopAt + msT ≤ s.time.mono) :
    exec (.powerBackstopTick powerMw tj) s
      = .next (settle (paceWhole (backstopPower powerMw (backstopThermal tj (stopReadings tj s))))) := by
  have due : ¬(!backstopLive s || decide (s.time.mono < s.pwr.stopAt + msT)) = true := by
    rw [hlive, decide_eq_false (Nat.not_lt.mpr hdue)]
    exact Bool.false_ne_true
  rw [exec_powerBackstopTick, execPowerBackstopTick, if_neg due]
  rfl

/-- A trip ends below 100 degrees (R464). -/
def tripEnded (tj : Int) (s : State) : State :=
  if s.pwr.trip && decide (tj < 1000) then emit (.pin "THERMTRIP_N" true) { s with pwr := { s.pwr with trip := false } } else s

/-- The junction is 5 degrees above its limit, or more (log entry 124). -/
def isHot (tj : Int) (s : State) : Bool := decide (((s.pwr.tj.n : Int) + 5) * 10 ≤ tj)

/-- Whether the temperature holds the level. -/
def thermalSet (hot : Bool) (s : State) : State := { s with pwr := { s.pwr with thermal := hot } }

theorem tripEnded_pwr (tj : Int) (s : State) :
    (tripEnded tj s).pwr = { s.pwr with trip := s.pwr.trip && !decide (tj < 1000) } := by
  unfold tripEnded
  split
  next h =>
    obtain ⟨htrip, hcold⟩ := Bool.and_eq_true_iff.mp h
    rw [htrip, hcold]
    rfl
  next h =>
    have kept : (s.pwr.trip && !decide (tj < 1000)) = s.pwr.trip := by
      revert h
      cases s.pwr.trip <;> cases decide (tj < 1000) <;> decide
    rw [kept]

theorem backstopThermal_of_hot (h : isHot tj s = true) :
    backstopThermal tj s = forceSlower 1 (thermalSet true (tripEnded tj s)) := by
  have hot : ((tripEnded tj s).pwr.tj.n + 5 : Int) * 10 ≤ tj := by
    rw [tripEnded_pwr]
    exact of_decide_eq_true h
  exact if_pos hot

theorem backstopThermal_of_cool (h : isHot tj s = false) :
    backstopThermal tj s = thermalSet false (tripEnded tj s) := by
  have cool : ¬((tripEnded tj s).pwr.tj.n + 5 : Int) * 10 ≤ tj := by
    rw [tripEnded_pwr]
    exact of_decide_eq_false h
  exact if_neg cool

/-- The temperature part in one: a forced step while the junction is hot, none else. -/
theorem backstopThermal_eq (tj : Int) (s : State) :
    backstopThermal tj s = if isHot tj s
      then forceSlower 1 (thermalSet true (tripEnded tj s)) else thermalSet false (tripEnded tj s) := by
  cases h : isHot tj s with
  | false => exact backstopThermal_of_cool h
  | true => exact backstopThermal_of_hot h

/-- The temperature part leaves the power part's terms, and says what forces the pace. -/
theorem backstopThermal_sameHold (tj : Int) (s : State) :
    SameHold { s.pwr with thermal := isHot tj s, trip := (tripEnded tj s).pwr.trip } (backstopThermal tj s).pwr := by
  have ended : SameHold { s.pwr with thermal := isHot tj s, trip := (tripEnded tj s).pwr.trip }
      (thermalSet (isHot tj s) (tripEnded tj s)).pwr := by
    rw [thermalSet, tripEnded_pwr]
    exact ⟨rfl, rfl, rfl, rfl, rfl, rfl⟩
  cases h : isHot tj s with
  | false => rw [h] at ended; rwa [backstopThermal_of_cool h]
  | true =>
    rw [h] at ended
    rw [backstopThermal_of_hot h]
    exact ended.trans (forceSlower_sameHold 1 _)

/-- The milliseconds in a row above 1.10 times the cap (R463). -/
def msAbove (powerMw : Nat) (s : State) : Nat := if s.pwr.cap.n * 100 * 11 < powerMw * 10 then s.pwr.overMs + 1 else 0

/-- Those milliseconds counted, six at most. -/
def overCounted (powerMw : Nat) (s : State) : State := { s with pwr := { s.pwr with overMs := min (msAbove powerMw s) 6 } }

/-- The pace is whole unless something forces it. -/
def wholeUnless (forced : Bool) (s : State) : State := if forced then s else { s with pwr := { s.pwr with eighths := 0 } }

theorem paceWhole_of_forced (h : s.pwr.backstop = true) : paceWhole s = s := if_pos (by rw [h]; rfl)

theorem paceWhole_of_free (h : s.pwr.backstop = false) : paceWhole s = wholeUnless (s.pwr.thermal || s.pwr.trip) s := by
  rw [paceWhole, h, Bool.false_or]
  rfl

section Free
variable (hfree : s.pwr.backstop = false)
include hfree

theorem pace_of_below (h : msAbove powerMw s < 6) :
    paceWhole (backstopPower powerMw s) = wholeUnless (s.pwr.thermal || s.pwr.trip) (overCounted powerMw s) := by
  have below : backstopPower powerMw s = overCounted powerMw s :=
    (if_neg (ne_true_of_eq_false hfree)).trans (if_neg (Nat.not_le.mpr h))
  rw [below]
  exact paceWhole_of_free hfree

/-- The sixth millisecond in a row is the first that is forced (log entry 125). -/
theorem pace_of_sixth (h : 6 ≤ msAbove powerMw s) :
    paceWhole (backstopPower powerMw s) = forceSlower 0 { overCounted powerMw s with
      pwr := { (overCounted powerMw s).pwr with backstop := true, underMs := 0 } } := by
  have sixth : backstopPower powerMw s = forceSlower 0 { overCounted powerMw s with
      pwr := { (overCounted powerMw s).pwr with backstop := true, underMs := 0 } } :=
    (if_neg (ne_true_of_eq_false hfree)).trans (if_pos h)
  rw [sixth]
  exact paceWhole_of_forced (forceSlower_sameHold 0 _).backstop

end Free

section Forced
variable (hforced : s.pwr.backstop = true)
include hforced

theorem pace_of_over (h : s.pwr.cap.n * 100 ≤ powerMw) :
    paceWhole (backstopPower powerMw s)
      = forceSlower 0 { overCounted powerMw s with pwr := { (overCounted powerMw s).pwr with underMs := 0 } } := by
  have still : backstopPower powerMw s
      = forceSlower 0 { overCounted powerMw s with pwr := { (overCounted powerMw s).pwr with underMs := 0 } } :=
    (if_pos hforced).trans (if_pos h)
  rw [still]
  exact paceWhole_of_forced ((forceSlower_sameHold 0 _).backstop.trans hforced)

section Under
variable (hunder : powerMw < s.pwr.cap.n * 100)
include hunder

theorem pace_of_under (h : s.pwr.underMs < 9) :
    paceWhole (backstopPower powerMw s)
      = { overCounted powerMw s with pwr := { (overCounted powerMw s).pwr with underMs := s.pwr.underMs + 1 } } := by
  have under : backstopPower powerMw s
      = { overCounted powerMw s with pwr := { (overCounted powerMw s).pwr with underMs := s.pwr.underMs + 1 } } :=
    (if_pos hforced).trans ((if_neg (Nat.not_le.mpr hunder)).trans (if_neg (Nat.not_le.mpr (Nat.add_lt_add_right h 1))))
  rw [under]
  exact paceWhole_of_forced hforced

/-- The tenth millisecond below the cap in a row releases. -/
theorem pace_of_tenth (h : 9 ≤ s.pwr.underMs) :
    paceWhole (backstopPower powerMw s) = wholeUnless (s.pwr.thermal || s.pwr.trip) { overCounted powerMw s with
      pwr := { (overCounted powerMw s).pwr with backstop := false, underMs := 0 } } := by
  have tenth : backstopPower powerMw s = { overCounted powerMw s with
      pwr := { (overCounted powerMw s).pwr with backstop := false, underMs := 0 } } :=
    (if_pos hforced).trans ((if_neg (Nat.not_le.mpr hunder)).trans (if_pos (Nat.add_le_add_right h 1)))
  rw [tenth]
  exact paceWhole_of_free rfl

end Under
end Forced
end Backstop

/-! ### THERMAL_TRIP (R464) -/

section Trip
variable {tj : Int}

theorem exec_thermalTrip_of_hot (hlive : backstopLive s = true) (hfirst : s.pwr.trip = false) (hhot : 1150 ≤ tj) :
    exec (.thermalTrip tj) s
      = .next (settle (alarm 3 (codeOf 16 tj) (thermTrip { s with pwr := { s.pwr with temp := tj } }))) := by
  have trips : ¬(!backstopLive s || s.pwr.trip || decide (tj < 1150)) = true := by
    rw [hlive, hfirst, decide_eq_false (Int.not_lt.mpr hhot)]
    exact Bool.false_ne_true
  rw [exec_thermalTrip, execThermalTrip, if_neg trips]

theorem exec_thermalTrip_of_none (h : backstopLive s = false ∨ s.pwr.trip = true ∨ tj < 1150) :
    exec (.thermalTrip tj) s = .next s := by
  have none : (!backstopLive s || s.pwr.trip || decide (tj < 1150)) = true := by
    simpa only [Bool.or_eq_true, Bool.not_eq_true', decide_eq_true_eq, or_assoc] using h
  rw [exec_thermalTrip, execThermalTrip, if_pos none]

end Trip

/-! ### DOMAIN_IDLE_PARK (R467, R469) -/

section Domains
variable {d : Nat}

/-- What DOMAIN_IDLE_PARK asks of a domain before its idle time (R467). -/
def parksWhenIdle (d : Nat) (s : State) : Bool :=
  decide (d < 96) && ready s && domOn d s && (getDom d s).mode == 0 && (domWork d s).isNone

theorem exec_domainIdlePark_of_idle (hparks : parksWhenIdle d s = true)
    (h : (getDom d s).idleAt + (getDom d s).idleMs * msT ≤ s.time.mono) :
    exec (.domainIdlePark d) s = .next (parkDom d none s) := by
  rw [exec_domainIdlePark, execDomainIdlePark]
  exact congrArg _ (if_pos ((Bool.and_eq_true _ _).mpr ⟨hparks, decide_eq_true h⟩))

theorem exec_domainIdlePark_of_used
    (h : parksWhenIdle d s = false ∨ s.time.mono < (getDom d s).idleAt + (getDom d s).idleMs * msT) :
    exec (.domainIdlePark d) s = .next s := by
  have used : (parksWhenIdle d s && decide ((getDom d s).idleAt + (getDom d s).idleMs * msT ≤ s.time.mono)) = false := by
    rw [Bool.and_eq_false_iff, decide_eq_false_iff_not, Nat.not_le]
    exact h
  rw [exec_domainIdlePark, execDomainIdlePark]
  exact congrArg _ (if_neg (ne_true_of_eq_false used))

/-! ### DOMAIN_RETURN_DONE (R469, R470, R473) -/

/-- What keeps DOMAIN_RETURN_DONE from powering a domain (R469, R470, R513). -/
def returnsNot (d : Nat) (s : State) : Bool :=
  !decide (d < 96) || !(getDom d s).returning || decide (s.time.mono < (getDom d s).backAt) || (getDom d s).run.isSome
    || (decide (d < 64) && !domOn (64 + d / 4) s)

theorem exec_domainReturnDone_of_due (hd : d < 96) (hret : (getDom d s).returning = true)
    (hdue : (getDom d s).backAt ≤ s.time.mono) (hrun : (getDom d s).run = none) (hstage : d < 64 → domOn (64 + d / 4) s = true) :
    exec (.domainReturnDone d) s
      = .next (settle (if (getDom d s).hold then domBack d s else releasePads d (domBack d s))) := by
  have stage : (decide (d < 64) && !domOn (64 + d / 4) s) = false := by
    by_cases h : d < 64
    · rw [hstage h, Bool.not_true, Bool.and_false]
    · rw [decide_eq_false h, Bool.false_and]
  have returns : returnsNot d s = false := by
    rw [returnsNot, decide_eq_true hd, hret, decide_eq_false (Nat.not_lt.mpr hdue), hrun, stage]
    rfl
  rw [exec_domainReturnDone, execDomainReturnDone]
  exact congrArg ended (if_neg (ne_true_of_eq_false returns))

theorem exec_domainReturnDone_of_early
    (h : (getDom d s).returning = false ∨ s.time.mono < (getDom d s).backAt ∨ (getDom d s).run ≠ none) :
    exec (.domainReturnDone d) s = .next (settle s) := by
  have stays : returnsNot d s = true := by
    simp only [returnsNot, Bool.or_eq_true, Bool.not_eq_true', decide_eq_true_eq, Option.isSome_iff_ne_none]
    obtain h | h | h := h
    · exact .inl (.inl (.inl (.inr h)))
    · exact .inl (.inl (.inr h))
    · exact .inl (.inr h)
  rw [exec_domainReturnDone, execDomainReturnDone]
  exact congrArg ended (if_pos stays)

/-! ### SELFTEST_SLICE_DONE (R512 to R514) -/

section Selftest
variable {bad : Nat} {t : Test}

theorem exec_selftestSliceDone_of_none (h : (getDom d s).run = none) : exec (.selftestSliceDone d bad) s = .next s := by
  rw [exec_selftestSliceDone, execSelftestSliceDone, h]

theorem testGoesOn (hret : (getDom d s).returning = false) (hgoes : t.abandon = false) :
    ¬((getDom d s).returning || t.abandon) = true := by
  rw [hret, hgoes]
  exact Bool.false_ne_true

variable (hrun : (getDom d s).run = some t)
include hrun

theorem exec_selftestSliceDone_of_abandoned (h : (getDom d s).returning = true ∨ t.abandon = true) :
    exec (.selftestSliceDone d bad) s = .next (settle (endTestReq t.req stAborted 0 (updDom d (fun x => { x with
      run := none, test := 0, slices := t.slice + 1, abandoned := sat32 x.abandoned 1, endAt := s.time.now }) s))) := by
  rw [exec_selftestSliceDone, execSelftestSliceDone, hrun]
  exact congrArg _ (if_pos (Bool.or_eq_true_iff.mpr h))

section Goes
variable (hret : (getDom d s).returning = false) (hgoes : t.abandon = false)
include hret hgoes

theorem exec_selftestSliceDone_of_more (h : t.slice + 1 < testSlices d) :
    exec (.selftestSliceDone d bad) s
      = .next (updDom d (fun x => { x with run := some { t with slice := t.slice + 1, bad := t.bad ||| bad } }) s) := by
  rw [exec_selftestSliceDone, execSelftestSliceDone, hrun]
  exact congrArg _ ((if_neg (testGoesOn hret hgoes)).trans (if_pos h))

section Last
variable (hlast : testSlices d ≤ t.slice + 1)
include hlast

/-- A test that nothing asked for and that found nothing leaves the fence of its domain (R514, log entry 131). -/
theorem exec_selftestSliceDone_of_cleared (hfound : t.bad ||| bad = 0) (hreq : t.req = none)
    (hfenced : (getDom d s).fenced ≠ 0) :
    exec (.selftestSliceDone d bad) s
      = .next (settle (updDom d (fun x => { x with test := 1, endAt := s.time.now }) (countTest d (t.slice + 1) s))) := by
  have cleared : (decide (t.bad ||| bad = 0) && t.req.isNone && (getDom d s).fenced != 0) = true := by
    rw [decide_eq_true hfound, hreq, bne_iff_ne.mpr hfenced]
    rfl
  rw [exec_selftestSliceDone, execSelftestSliceDone, hrun]
  refine congrArg _ ((if_neg (testGoesOn hret hgoes)).trans ((if_neg (Nat.not_lt.mpr hlast)).trans (congrArg settle ?_)))
  rw [if_pos cleared, hreq]
  rfl

theorem exec_selftestSliceDone_of_judged (h : t.bad ||| bad ≠ 0 ∨ t.req ≠ none ∨ (getDom d s).fenced = 0) :
    exec (.selftestSliceDone d bad) s = .next (settle (endTestReq t.req stOk (if t.bad ||| bad = 0 then 0 else 1)
      (judgeTest d (if t.req.isSome then t.bad ||| bad else t.bad ||| bad ||| (getDom d s).fenced)
        (countTest d (t.slice + 1) s)))) := by
  have judged : ¬(decide (t.bad ||| bad = 0) && t.req.isNone && (getDom d s).fenced != 0) = true := by
    simp only [Bool.and_eq_true, decide_eq_true_eq, Option.isNone_iff_eq_none, bne_iff_ne, not_and_or, not_not, or_assoc]
    exact h
  rw [exec_selftestSliceDone, execSelftestSliceDone, hrun]
  refine congrArg _ ((if_neg (testGoesOn hret hgoes)).trans ((if_neg (Nat.not_lt.mpr hlast)).trans (congrArg settle ?_)))
  rw [if_neg judged]

end Last
end Goes
end Selftest
end Domains
end PowerEvents

/-- Settles O44, by the event: by whether it is due, by what holds the level, by what forces the pace, and by how far a
return or a self-test has come. -/
theorem powerEventsComplete : Obligations.PowerEventsComplete := by
  refine ⟨fun powerMw tj s => ⟨exec_levelChoiceTick_of_idle, fun hready hdue =>
      ⟨exec_levelChoiceTick_of_held hready hdue, exec_levelChoiceTick_of_hot hready hdue,
        exec_levelChoiceTick_of_cool hready hdue⟩⟩,
    fun powerMw tj s => ⟨exec_powerBackstopTick_of_idle, fun hlive hdue => ?_⟩,
    fun tj s => ⟨exec_thermalTrip_of_hot, exec_thermalTrip_of_none⟩,
    fun d s hd => ⟨fun hready hon hmode hidle => ?_, ?_, exec_domainReturnDone_of_due hd,
      exec_domainReturnDone_of_early, fun hrun bad => exec_selftestSliceDone_of_none hrun,
      fun bad t hrun => ⟨exec_selftestSliceDone_of_abandoned hrun, exec_selftestSliceDone_of_more hrun,
        exec_selftestSliceDone_of_cleared hrun, exec_selftestSliceDone_of_judged hrun⟩⟩⟩
  · intro f above hot s0 s1 s2 whole
    have hs1 : backstopThermal tj f = s1 := backstopThermal_eq tj f
    have hold : SameHold { f.pwr with thermal := hot, trip := s0.pwr.trip } s1.pwr := hs1 ▸ backstopThermal_sameHold tj f
    have habove : msAbove powerMw s1 = above := by rw [msAbove, hold.cap, hold.overMs]
    have hs2 : overCounted powerMw s1 = s2 := by rw [overCounted, habove]
    have hwhole (t : State) : wholeUnless (s1.pwr.thermal || s1.pwr.trip) t = whole t := by
      rw [hold.thermal, hold.trip]
      rfl
    have tick : exec (.powerBackstopTick powerMw tj) s = .next (settle (paceWhole (backstopPower powerMw s1))) :=
      hs1 ▸ exec_powerBackstopTick_of_due hlive hdue
    rw [tick]
    refine ⟨fun hfree hbelow => ?_, fun hfree hsixth => ?_, fun hforced hover => ?_, fun hforced hunder hfew => ?_,
      fun hforced hunder htenth => ?_⟩
    · rw [pace_of_below (hold.backstop.trans hfree) (habove.trans_lt hbelow), hwhole, hs2]
    · rw [pace_of_sixth (hold.backstop.trans hfree) (hsixth.trans_eq habove.symm), hs2]
    · rw [pace_of_over (hold.backstop.trans hforced) (by rwa [hold.cap]), hs2]
    · rw [pace_of_under (hold.backstop.trans hforced) (by rwa [hold.cap]) (by rwa [hold.underMs]), hs2, hold.underMs]
    · rw [pace_of_tenth (hold.backstop.trans hforced) (by rwa [hold.cap]) (by rwa [hold.underMs]), hwhole, hs2]
  · have parks : parksWhenIdle d s = true := by
      rw [parksWhenIdle, decide_eq_true hd, hready, hon, hmode, hidle]
      rfl
    exact ⟨exec_domainIdlePark_of_idle parks, fun h => exec_domainIdlePark_of_used (.inr h)⟩
  · intro h
    refine exec_domainIdlePark_of_used (.inl ?_)
    simp only [parksWhenIdle, Bool.and_eq_false_iff, beq_eq_false_iff_ne, Option.isNone_eq_false_iff, Option.isSome_iff_ne_none]
    obtain h | h | h | h := h
    · exact .inl (.inl (.inl (.inr h)))
    · exact .inl (.inl (.inr h))
    · exact .inl (.inr h)
    · exact .inr h

end Sys2Proof.Machine

/-! ### Ensembles: links, members, replicas and time -/
namespace Sys2Proof.Machine

section EnsembleEvents
variable {p : Nat} {s : State}

/-! ### Training (R431, R432) -/

section Training
variable {peer : Nat} (hlive : trellisLive p s = true) (hready : ready s = true)
  (hdown : (getPort p s).state < 2 ∨ 3 < (getPort p s).state)
include hlive hready hdown

theorem exec_trellisLinkTrained_of_down :
    let s1 := updPort p (fun x => { x with state := 2, step := 1, peer }) s
    exec (.trellisLinkTrained p peer) s = .next (settle (if peer ≠ (ownMember s1 + p + 1) % 8 then refusePort p 1 s1
      else if s1.ens.ens.isSome then emit (.trellis p "ENSEMBLE_ID") s1 else s1)) := by
  have trains : ¬(!trellisLive p s || decide (2 ≤ (getPort p s).state && (getPort p s).state ≤ 3) || !ready s) = true := by
    simp only [hlive, hready, Bool.not_true, Bool.false_or, Bool.or_false, Bool.and_eq_true, decide_eq_true_eq]
    omega
  rw [exec_trellisLinkTrained, execTrellisLinkTrained, if_neg trains]
  rfl

theorem exec_trellisLinkTrained_of_stranger (hpeer : peer ≠ (ownMember s + p + 1) % 8) :
    exec (.trellisLinkTrained p peer) s
      = .next (settle (refusePort p 1 (updPort p (fun x => { x with state := 2, step := 1, peer }) s))) :=
  (exec_trellisLinkTrained_of_down hlive hready hdown).trans (congrArg ended (if_pos hpeer))

theorem exec_trellisLinkTrained_of_peer (hpeer : peer = (ownMember s + p + 1) % 8) :
    let s1 := updPort p (fun x => { x with state := 2, step := 1, peer }) s
    exec (.trellisLinkTrained p peer) s
      = .next (settle (if s1.ens.ens.isSome then emit (.trellis p "ENSEMBLE_ID") s1 else s1)) :=
  (exec_trellisLinkTrained_of_down hlive hready hdown).trans (congrArg ended (if_neg (not_not.mpr hpeer)))

end Training

/-! ### The handshake (R433 to R435) -/

section Handshake

theorem identifies (hstate : (getPort p s).state = 2) (hstep : (getPort p s).step = 1) :
    ¬((getPort p s).state ≠ 2 ∨ (getPort p s).step ≠ 1) := not_or.mpr ⟨not_not.mpr hstate, not_not.mpr hstep⟩

variable {e : Ens} (he : s.ens.ens = some e)
include he

section Identify
variable (hstate : (getPort p s).state = 2) (hstep : (getPort p s).step = 1)
include hstate hstep

theorem exec_ensembleId_of_other {id : W64} (hid : id ≠ e.id) :
    exec (.trellisHandshakeMessage p (.ensembleId id)) s = .next (settle (dropJoin stEnsMismatch (refusePort p 2 s))) := by
  rw [exec_trellisHandshakeMessage, execTrellisHandshakeMessage, he]
  exact congrArg ended ((if_neg (identifies hstate hstep)).trans (if_neg hid))

theorem exec_ensembleId_of_same :
    let s1 := updPort p (fun x => { x with step := 2 }) s
    exec (.trellisHandshakeMessage p (.ensembleId e.id)) s
      = .next (settle (if ownMember s1 < (getPort p s).peer then emit (.trellis p "KEY_EXCHANGE") s1 else s1)) := by
  rw [exec_trellisHandshakeMessage, execTrellisHandshakeMessage, he]
  exact congrArg ended ((if_neg (identifies hstate hstep)).trans (if_pos rfl))

end Identify

section Exchange
variable {identity secret : List Byte} {sigOk : Bool} {life : Nat}
  (hstate : (getPort p s).state = 2 ∨ (getPort p s).state = 3) (hstep : (getPort p s).step = 2)
include hstate hstep

theorem exec_keyExchange_of_fault {reason : Nat} (h : handshakeFault e (getPort p s).peer identity sigOk life = some reason) :
    exec (.trellisHandshakeMessage p (.keyExchange identity sigOk life secret)) s = .next (settle (refusePort p reason s)) := by
  simp only [exec_trellisHandshakeMessage, execTrellisHandshakeMessage, he,
    if_pos (And.intro hstate hstep), h]

theorem exec_keyExchange_of_good (h : handshakeFault e (getPort p s).peer identity sigOk life = none) :
    let s1 := if (getPort p s).peer < ownMember s then emit (.trellis p "KEY_REPLY") s else s
    exec (.trellisHandshakeMessage p (.keyExchange identity sigOk life secret)) s
      = .next (settle (if (getPort p s).state = 2 then portUp p secret s1 else rekeyed p secret s1)) := by
  simp only [exec_trellisHandshakeMessage, execTrellisHandshakeMessage, he,
    if_pos (And.intro hstate hstep), h]

end Exchange

theorem exec_presentSet_of_up {mask : Nat} (hup : (getPort p s).state = 3) :
    exec (.trellisHandshakeMessage p (.present mask)) s = .next (settle (agree mask s)) := by
  simp only [exec_trellisHandshakeMessage, execTrellisHandshakeMessage, he, if_pos hup]

theorem exec_trellisRekey_of_due (hup : (getPort p s).state = 3) (hkeyed : (getPort p s).step = 5)
    (hdue : (getPort p s).keyed + ensRekeyS e * secT ≤ s.time.mono ∨ 2 ^ 40 ≤ (getPort p s).keyFrames) :
    let s1 := updPort p (fun x => { x with step := 2 }) s
    exec (.trellisRekey p) s
      = .next (settle (if ownMember s1 < (getPort p s).peer then emit (.trellis p "KEY_EXCHANGE") s1 else s1)) := by
  simp only [exec_trellisRekey, execTrellisRekey, he, if_pos (And.intro hup (And.intro hkeyed hdue)), ended]

/-! ### Members lost (R438 to R440) -/

theorem exec_memberLoss_of_unreached {k : Nat} (hstate : e.state = 1 ∨ e.state = 3) (hother : k ≠ ownMember s)
    (hpresent : e.present.testBit k = true) (hout : reached k s = false)
    (hdue : (getPort (portTo k s) s).downAt + ensLossUs e * usT ≤ s.time.mono) :
    exec (.memberLoss k) s = .next (settle (if hasQuorum e s then loseMember k s else loseQuorum s)) := by
  have joined : (e.state ≠ 1 && e.state ≠ 3) = false := by
    obtain h | h := hstate <;> rw [h] <;> rfl
  have lost : ¬(e.state ≠ 1 && e.state ≠ 3 || k == ownMember s || !e.present.testBit k || reached k s
      || decide (s.time.mono < (getPort (portTo k s) s).downAt + ensLossUs e * usT)) = true := by
    rw [joined, beq_eq_false_iff_ne.mpr hother, hpresent, hout, decide_eq_false (Nat.not_lt.mpr hdue)]
    exact Bool.false_ne_true
  rw [exec_memberLoss, execMemberLoss, he]
  exact congrArg _ (if_neg lost)

/-! ### Time (R444, R445) -/

theorem exec_ensTimeSync_of_follower {offset : Int} (hfollows : followsMember s = true) (hstate : e.state = 1)
    (href : reached e.timeRef s = true) :
    let good := if offset.natAbs ≤ 10 then s.time.good + 1 else 0
    let s1 := updPort (portTo e.timeRef s) (fun x => { x with offset }) s
    let s1 := if s.time.servo = 3 then leaveHoldover 1 s1 else s1
    exec (.ensTimeSync offset) s = .next (settle (
      let s2 := { s1 with time := { s1.time with offset, good, servo := if s1.time.servo = 2 then 2 else 1 } }
      let s2 := if e.stepped then addSlew (-offset) s2
        else updEns (fun e => { e with stepped := true }) (stepTime (-(offset * 65536)) s2)
      if s2.time.servo = 1 ∧ 16 ≤ good then
        raise 0x0C01 (codeOf 48 offset) none { s2 with time := { s2.time with servo := 2, ensLocked := true } } else s2)) := by
  have follows : ¬(!followsMember s || decide (e.state ≠ 1) || !reached e.timeRef s) = true := by
    rw [hfollows, href, decide_eq_false (not_not.mpr hstate)]
    exact Bool.false_ne_true
  rw [exec_ensTimeSync, execEnsTimeSync, he]
  exact congrArg _ (if_neg follows)

end Handshake

/-! ### Refused ports, frames and lost links (R432, R434, R436, R439) -/

theorem exec_trellisRefusalRetry_of_due (hrefused : (getPort p s).state = 4) (hlive : trellisLive p s = true)
    (hdue : (getPort p s).downAt + secT ≤ s.time.mono) :
    exec (.trellisRefusalRetry p) s = .next (settle (emit (.trellis p "TRAIN")
      (updPort p (fun x => { x with state := 1, step := 0, refusals := x.refusals + 1 }) s))) := by
  have again : ¬(decide ((getPort p s).state ≠ 4) || !trellisLive p s || decide (s.time.mono < (getPort p s).downAt + secT)) = true := by
    rw [hlive, decide_eq_false (not_not.mpr hrefused), decide_eq_false (Nat.not_lt.mpr hdue)]
    exact Bool.false_ne_true
  rw [exec_trellisRefusalRetry, execTrellisRefusalRetry, if_neg again, ended]

section Up
variable (hup : (getPort p s).state = 3)
include hup

section Frames
variable {tag : FrameTag} {m : TrellisMsg}

theorem exec_trellisFrameReceived_of_taken (htag : tagTaken tag (getPort p s) s = true) :
    exec (.trellisFrameReceived p tag m) s = .next (settle (frameIn p m s)) := by
  rw [exec_trellisFrameReceived, execTrellisFrameReceived]
  exact congrArg _ ((if_neg (not_not.mpr hup)).trans (if_pos htag))

/-- The bad tags of the last second, the present one first (R436). -/
def recentBad (p : Nat) (s : State) : List Nat :=
  s.time.mono :: (getPort p s).recent.filter fun t => decide (s.time.mono < t + secT)

/-- A bad tag counted on its port. -/
def badCounted (p : Nat) (s : State) : State :=
  updPort p (fun x => { x with tagFails := x.tagFails + 1, recent := recentBad p s }) s

variable (htag : tagTaken tag (getPort p s) s = false)
include htag

theorem exec_trellisFrameReceived_of_bad (hfew : (recentBad p s).length < 16) :
    exec (.trellisFrameReceived p tag m) s = .next (badCounted p s) := by
  rw [exec_trellisFrameReceived, execTrellisFrameReceived]
  exact congrArg _ ((if_neg (not_not.mpr hup)).trans ((if_neg (ne_true_of_eq_false htag)).trans (if_pos hfew)))

/-- The sixteenth bad tag in a second takes the link back to authentication. -/
theorem exec_trellisFrameReceived_of_sixteenth (hmany : 16 ≤ (recentBad p s).length) :
    exec (.trellisFrameReceived p tag m) s = .next (settle (emit (.trellis p "ENSEMBLE_ID")
      (raiseEns 0x0A02 (p + (getPort p s).peer * 256 + 6 * 65536) (updPort p (fun x => { x with
        state := 2, step := 1, reason := 6, recent := [], keys := [], oldUntil := none, downAt := (badCounted p s).time.mono })
        (badCounted p s))))) := by
  rw [exec_trellisFrameReceived, execTrellisFrameReceived]
  exact congrArg _ ((if_neg (not_not.mpr hup)).trans
    ((if_neg (ne_true_of_eq_false htag)).trans (if_neg (Nat.not_lt.mpr hmany))))

end Frames

theorem exec_trellisLinkLost_of_up :
    let x := getPort p s
    let s2 := updPort p (fun x => { x with state := 0, step := 0, keys := [], downAt := s.time.mono }) s
    let relays := (List.range 8).filter fun k => k != x.peer && memberHere k s2 && linkUp k s2
    let d := draw s2
    exec (.trellisLinkLost p) s = .next (settle (raiseEns 0x0A02 (p + x.peer * 256)
      (if memberHere x.peer d.2 && !relays.isEmpty && d.1 % 2 == 0 then updPort p (fun x => { x with state := 5 }) d.2 else d.2))) := by
  rw [exec_trellisLinkLost, execTrellisLinkLost]
  exact congrArg ended (if_neg (not_not.mpr hup))

end Up

/-! ### Replicas (R449, R456) -/

theorem exec_replicaCommit_of_building {map sh k op k0 s0 : Nat}
    (h : (s.ens.replicas.find? fun r => r.1 == map && r.2.1 == sh) = some (k0, s0, k, op)) :
    exec (.replicaCommit map sh) s = .next (settle (finishLeave (commitReplica map sh k op s))) := by
  rw [exec_replicaCommit, execReplicaCommit, h]

end EnsembleEvents

/-- Settles O42, by the event, and by the state of the port or of the member that it meets. -/
theorem ensembleEventsComplete : Obligations.EnsembleEventsComplete := by
  refine ⟨fun p peer s hlive hready hdown => ⟨exec_trellisLinkTrained_of_stranger hlive hready hdown,
      exec_trellisLinkTrained_of_peer hlive hready hdown⟩, fun p s e he => ?_,
    fun p s => exec_trellisRefusalRetry_of_due,
    fun p s hup => ⟨fun tag m => ⟨exec_trellisFrameReceived_of_taken hup, exec_trellisFrameReceived_of_bad hup,
      exec_trellisFrameReceived_of_sixteenth hup⟩, rfl, rfl, exec_trellisLinkLost_of_up hup⟩,
    fun map sh k op k0 s0 s => exec_replicaCommit_of_building⟩
  refine ⟨fun hstate hstep => ⟨fun id => exec_ensembleId_of_other he hstate hstep, exec_ensembleId_of_same he hstate hstep⟩,
    fun identity sigOk life secret hstate hstep => ⟨fun reason => exec_keyExchange_of_fault he hstate hstep,
      exec_keyExchange_of_good he hstate hstep⟩,
    fun mask => exec_presentSet_of_up he, exec_trellisRekey_of_due he, fun k => exec_memberLoss_of_unreached he,
    fun offset => exec_ensTimeSync_of_follower he⟩

end Sys2Proof.Machine

/-! ### Starts, failed starts and warm resets -/
namespace Sys2Proof.Machine

section Starts
variable {s : State}

/-! ### A start that serves (R495 to R497, R512) -/

theorem exec_coldStartReady_of_accepted {failed : List (Nat × Nat)} {img : Image} {t : Nat} (hphase : s.boot.phase = .starting)
    (hat : s.boot.imageAt = some t) (himg : bankImage s.boot.bank s = some img) :
    let s1 := applyUcal (measure 1 (Config.sha3 (img.bytes.take 7347)) s)
    let s2 := (List.range 96).foldl (startTest8 failed) { s1 with boot := { s1.boot with
      active := some img, shadow := none, shadowLoaded := false, sramImage := none, lastReason := 0, keptStacked := true } }
    let off : State := { s2 with pwr := { s2.pwr with doms := s2.pwr.doms.map fencedOff } }
    let s3 := emit (.vid (vidCode s2.pwr.level off)) off
    let s4 := if s3.sec.erased then raise 0x0D05 (eraseCause s3) none s3 else s3
    exec (.coldStartReady failed) s
      = .next (settle (serveAgain s4.boot.cause (if s4.boot.cause = 2 then s4.boot.warmCause else 0) s4)) := by
  rw [exec_coldStartReady, execColdStartReady, hphase, hat, himg]

/-! ### Starts that fail (R499) -/

theorem exec_startAttemptFailure_of_failing {reason : Nat} (h : canFail reason s = true) :
    exec (.startAttemptFailure reason) s = .next (failStart reason s) := by
  rw [exec_startAttemptFailure, execStartAttemptFailure, if_pos h]

section Accepted
variable {t : Nat} (hphase : s.boot.phase = .starting) (hat : s.boot.imageAt = some t)
include hphase hat

theorem exec_bootWatchdog_of_late (h : t + 2 * secT ≤ s.time.mono) : exec .bootWatchdog s = .next (failStart 7 s) := by
  have late : (s.boot.phase == .starting && past s.boot.imageAt (2 * secT) s) = true := by
    rw [hphase, hat, past, decide_eq_true h]
    rfl
  rw [exec_bootWatchdog, execBootWatchdog, if_pos late]

theorem exec_lockstepMismatch_of_starting {mp : Nat} (hmp : mp < 2) : exec (.lockstepMismatch mp) s = .next (failStart 9 s) := by
  have starting : (s.boot.phase == .starting && s.boot.imageAt.isSome) = true := by
    rw [hphase, hat]
    rfl
  rw [exec_lockstepMismatch, execLockstepMismatch, if_neg (Nat.not_lt.mpr (Nat.le_of_lt_succ hmp)), if_pos starting]

end Accepted

/-! ### FSC_CLEAR (R498, R524) -/

section Clear

/-- The failed-start counter at zero, with a good complement. -/
def fscCleared (s : State) : State := { s with boot := { s.boot with fsc := Comp.of 0, fscBad := false } }

/-- The floor rises to the running image's version when the image came from flash (R524). -/
def imageProved (s : State) : State :=
  match s.boot.active with
  | some i => if s.boot.bank ≤ 1 ∧ bankImage s.boot.bank s = some i then raiseFloor i.bytes s else s
  | none => s

variable {t : Nat} (hdue : t + 10 * secT ≤ s.time.mono) (hcounts : s.boot.fsc ≠ Comp.of 0 ∨ s.boot.fscBad = true)
include hdue hcounts

theorem fscClearDue : ¬(s.time.mono < t + 10 * secT ∨ (s.boot.fsc == Comp.of 0 && !s.boot.fscBad) = true) := by
  refine not_or.mpr ⟨Nat.not_lt.mpr hdue, ?_⟩
  obtain h | h := hcounts
  · rw [beq_eq_false_iff_ne.mpr h, Bool.false_and]
    exact Bool.false_ne_true
  · rw [h, Bool.not_true, Bool.and_false]
    exact Bool.false_ne_true

variable (hready : s.boot.readyAt = some t)
include hready

theorem exec_fscClear_of_due : exec .fscClear s = .next (imageProved (fscCleared s)) := by
  rw [exec_fscClear, execFscClear, hready]
  exact congrArg _ (if_neg (fscClearDue hdue hcounts))

theorem exec_fscClear_of_active {i : Image} (hactive : s.boot.active = some i) :
    exec .fscClear s = .next (if s.boot.bank ≤ 1 ∧ bankImage s.boot.bank s = some i
      then raiseFloor i.bytes (fscCleared s) else fscCleared s) := by
  have active : (fscCleared s).boot.active = some i := hactive
  rw [exec_fscClear_of_due hdue hcounts hready, imageProved, active]
  rfl

theorem exec_fscClear_of_noImage (hactive : s.boot.active = none) : exec .fscClear s = .next (fscCleared s) := by
  have active : (fscCleared s).boot.active = none := hactive
  rw [exec_fscClear_of_due hdue hcounts hready, imageProved, active]

end Clear

/-! ### Warm resets (R494, R510) -/

section Service
variable (hphase : s.boot.phase = .running) (hstate : s.pwr.state < 3)
include hphase hstate

theorem serviceReset_of_running (cause : Nat) : serviceReset cause s = warmReset cause s := by
  refine if_pos ?_
  rw [hphase, decide_eq_true hstate]
  rfl

theorem exec_smWatchdog_of_running : exec .smWatchdog s = .next (warmReset 1 s) := by
  rw [exec_smWatchdog, execSmWatchdog, serviceReset_of_running hphase hstate]

theorem exec_lockstepMismatch_of_running {mp : Nat} (hmp : mp < 2) : exec (.lockstepMismatch mp) s = .next (warmReset 2 s) := by
  have running : ¬(s.boot.phase == .starting && s.boot.imageAt.isSome) = true := by
    rw [hphase]
    exact Bool.false_ne_true
  rw [exec_lockstepMismatch, execLockstepMismatch, if_neg (Nat.not_lt.mpr (Nat.le_of_lt_succ hmp)), if_neg running,
    serviceReset_of_running hphase hstate]

end Service

theorem exec_warmResetComplete_of_warm {img : Image} (hphase : s.boot.phase = .warm)
    (hactive : (replayRecast s).boot.active = some img) :
    let t := replay (measure 1 (Config.sha3 (img.bytes.take 7347)) (replayRecast s))
    exec .warmResetComplete s = .next (if checkImage img.bytes (replayRecast s) = 0 then settle (serveAgain 2 t.boot.warmCause
      { t with obj := { t.obj with objs := t.obj.objs.map (restartHold t.time.mono) } }) else s) := by
  have warm : ¬(s.boot.phase != .warm) = true := by
    rw [hphase]
    exact Bool.false_ne_true
  rw [exec_warmResetComplete, execWarmResetComplete, if_neg warm]
  dsimp only
  rw [hactive]
  exact congrArg _ (ite_not ..)

end Starts

/-- Settles O47, by the event, and by the phase of the start or of the service that it meets. -/
theorem startsAndWarmResetsComplete : Obligations.StartsAndWarmResetsComplete := by
  refine ⟨fun failed img t s => exec_coldStartReady_of_accepted, fun s => ⟨fun reason => exec_startAttemptFailure_of_failing,
    fun t hphase hat => ⟨exec_bootWatchdog_of_late hphase hat, fun mp => exec_lockstepMismatch_of_starting hphase hat⟩,
    fun t hready hdue hcounts => ⟨fun i => exec_fscClear_of_active hdue hcounts hready,
      exec_fscClear_of_noImage hdue hcounts hready⟩,
    fun hphase hstate => ⟨exec_smWatchdog_of_running hphase hstate, fun mp => exec_lockstepMismatch_of_running hphase hstate⟩,
    fun cause => ⟨rfl, rfl, rfl, rfl, rfl, rfl, rfl, rfl⟩, fun img => exec_warmResetComplete_of_warm⟩⟩

end Sys2Proof.Machine

/-! ### Recasting and diagnostics -/
namespace Sys2Proof.Machine

section RecastCommands
variable {r : ReqRef} {io : Io} {s : State} {q : Req} {c : Ctx}

/-! ### RECAST_IMAGE_LOAD (R497, R502, R508) -/

/-- The image that a payload carries from the host. -/
def loadedImage (c : Ctx) : Image := { bytes := c.pay, fromHost := true, persist := (prm c 1 1).testBit 0 }

/-- The shadow bank emptied. -/
def shadowEmptied (s : State) : State := { s with boot := { s.boot with shadow := none, shadowLoaded := false } }

section Image
variable (himage : prm c 0 1 = 0)
include himage

/-- In service the image is for the shadow bank. -/
theorem bodyRecastImageLoad_running (hphase : s.boot.phase = .running) (hrecast : s.boot.recast = none) :
    bodyRecastImageLoad c s =
      if checkImage c.pay s ≠ 0 then .ok (shadowEmptied s, .reply (imageStatus (checkImage c.pay s)) 0 0 none)
      else if !formatFits c.pay s then .ok (shadowEmptied s, .reply stStateFormat 0 0 none)
      else .ok ({ s with boot := { s.boot with shadow := some (loadedImage c), shadowLoaded := true } },
        okR (imgRelease c.pay) 0) := by
  unfold bodyRecastImageLoad
  rw [if_neg (by rw [himage]; decide)]
  dsimp only
  split
  next h => cases hphase.symm.trans h
  next => exact need_bind (by rw [hrecast]; rfl)
  next h => exact absurd hphase h

/-- In Understudy mode the image is for the next start. -/
theorem bodyRecastImageLoad_understudy (hphase : s.boot.phase = .understudy) :
    bodyRecastImageLoad c s =
      if checkImage c.pay s ≠ 0 then .ok (s, .reply (imageStatus (checkImage c.pay s)) 0 0 none)
      else .ok (loadUnderstudy (loadedImage c) s, okR (imgRelease c.pay) 0) := by
  unfold bodyRecastImageLoad
  rw [if_neg (by rw [himage]; decide)]
  dsimp only
  split
  next => rfl
  next h => cases hphase.symm.trans h
  next h _ => exact absurd hphase h

/-- A host boot that waits for its image is given it. -/
theorem bodyRecastImageLoad_hostBoot (hphase : s.boot.phase = .starting) (hbank : s.boot.bank = 2)
    (hwaits : s.boot.imageAt = none) :
    bodyRecastImageLoad c s =
      if checkImage c.pay s ≠ 0 then .ok (s, .reply (imageStatus (checkImage c.pay s)) 0 0 none)
      else .ok ({ s with boot := { s.boot with sramImage := some (loadedImage c), imageAt := some s.time.mono } },
        okR (imgRelease c.pay) 0) := by
  unfold bodyRecastImageLoad
  rw [if_neg (by rw [himage]; decide)]
  dsimp only
  split
  next h => cases hphase.symm.trans h
  next h => cases hphase.symm.trans h
  next => exact need_bind (by rw [hphase, hbank, hwaits]; rfl)

end Image

theorem bodyRecastImageLoad_of_calibration (hset : prm c 0 1 = 1) (hok : ucalOk c.pay = true)
    (hparams : ((records 16 (c.pay.drop 128)).all fun e => ucalParam (fld e 0 2)) = true) :
    bodyRecastImageLoad c s = .ok ({ (draw s).2 with boot := { (draw s).2.boot with qspiUcal := some (c.pay, false) } },
      okR ((draw s).1 % 2 ^ 32) 0) :=
  (if_pos hset).trans ((need_bind hok).trans (need_bind hparams))

/-! ### RECAST_COMMIT and RECAST_FALLBACK (R509, R511) -/

theorem bodyRecastCommit_of_none (h : s.boot.recast ≠ none ∨ s.boot.shadow = none) :
    bodyRecastCommit c s = .error (err stState) := by
  cases hrecast : s.boot.recast with
  | some x => exact need_bind_of_false (by rw [hrecast]; rfl)
  | none =>
    obtain h | h := h
    · exact absurd hrecast h
    · refine (need_bind (by rw [hrecast]; rfl)).trans ?_
      simp only [h]

/-- A recasting journalled and opened (R505, R509, R511). -/
def recastOpened (opcode : Nat) (c : Ctx) (x : Nat → Recast) (s : State) : State :=
  let j := journalBegin 5 (reqRef c.q) opcode 0 0 s
  { j.2 with boot := { j.2.boot with recast := some (x j.1) } }

section Opens
variable {i : Image} (hshadow : s.boot.shadow = some i) (hfloor : s.sec.floor ≤ imgSecVersion i.bytes)
  (hjournal : journalRoom s = .ok ())
include hshadow hfloor hjournal

theorem bodyRecastCommit_of_shadow (hrecast : s.boot.recast = none) :
    bodyRecastCommit c s = .ok (recastOpened 0x0E04 c (fun op =>
      { req := some (reqRef c.q), fallback := false, probationS := if prm c 0 4 = 0 then 600 else prm c 0 4
        windowUs := windowUs c 4, op, took := none, prior := none }) s, .wait) := by
  refine (need_bind (by rw [hrecast]; rfl)).trans ?_
  simp only [hshadow]
  exact (need_bind (decide_eq_true hfloor)).trans (bind_of_ok hjournal)

theorem bodyRecastFallback_of_held (htook : (s.boot.recast.all fun x => x.took.isSome) = true)
    (hheld : s.boot.shadowLoaded = false) :
    bodyRecastFallback c s = .ok (recastOpened 0x0E05 c (fun op =>
      { req := some (reqRef c.q), fallback := true, probationS := 0, windowUs := windowUs c 0, op, took := none
        prior := s.boot.recast.bind fun x => x.took.map fun t => (x.op, t, x.probationS) }) s, .wait) := by
  have held : (s.boot.shadow.filter fun _ => !s.boot.shadowLoaded) = some i := by rw [hshadow, hheld]; rfl
  refine (need_bind htook).trans ?_
  simp only [held]
  exact (need_bind (decide_eq_true hfloor)).trans (bind_of_ok hjournal)

end Opens

/-! ### Diagnostics (R428, R515) -/

theorem bodyDiagLogRead_of_faults (hlog : prm c 12 1 = 0) (hkept : s.boot.phase ≠ .understudy ∨ s.boot.keptStacked = true) :
    let l := (s.mem.faults.drop (prm c 16 4)).take (prm c 20 4)
    bodyDiagLogRead c s = .ok (s, okD l.length (sat16 s.mem.faultsLost) (l.flatMap faultBytes)) := by
  have kept : (s.boot.phase != .understudy || s.boot.keptStacked) = true := by
    simpa only [Bool.or_eq_true, bne_iff_ne] using hkept
  exact (if_pos hlog).trans (need_bind kept)

theorem bodyDiagLogRead_of_boot (hlog : prm c 12 1 = 1) :
    let l := (s.boot.bootLog.drop (prm c 16 4)).take (prm c 20 4)
    bodyDiagLogRead c s = .ok (s, okD l.length (sat16 s.boot.bootLost) (l.flatMap bootBytes)) :=
  if_neg (by rw [hlog]; exact Nat.one_ne_zero)

theorem bodyDiagSelftestRecord_of_read (hread : prm c 12 1 = 0) :
    bodyDiagSelftestRecord c s = .ok (s, okD 0 0 (testBytes s)) := if_pos hread

section Tests
variable (htest : prm c 12 1 ≠ 0)
include htest

theorem bodyDiagSelftestRecord_of_idle (hrun : (getDom (prm c 13 1) s).run = none) (hidle : domWork (prm c 13 1) s = none) :
    bodyDiagSelftestRecord c s = .ok (parkDom (prm c 13 1) (some (reqRef c.q))
      (if prm c 12 1 = 2 then updDom (prm c 13 1) (fun x => { x with fenced := 0, test := 0 }) s else s), .wait) :=
  (if_neg htest).trans (need_bind (by rw [hrun, hidle]; rfl))

theorem bodyDiagSelftestRecord_of_work (hwork : domWork (prm c 13 1) s ≠ none) :
    bodyDiagSelftestRecord c s = .error (err stState) := by
  refine (if_neg htest).trans (need_bind_of_false ?_)
  rw [Option.isNone_eq_false_iff.mpr (Option.isSome_iff_ne_none.mpr hwork), Bool.and_false]

end Tests
end RecastCommands

/-! ### The handover and the end of a probation (R509 to R511, R524) -/

section Handover
variable {s : State} {x : Recast}

section Waits
variable {rr : ReqRef}

theorem handoverPoint (htook : x.took = none) (hreq : x.req = some rr) (hready : ready s = true)
    (hset : setWithin x.windowUs s = false) :
    ¬(x.took.isSome || x.req.isNone || !ready s || setWithin x.windowUs s) = true := by
  rw [htook, hreq, hready, hset]
  exact Bool.false_ne_true

variable (hx : s.boot.recast = some x) (hphase : s.boot.phase = .running)
include hx hphase

theorem exec_recastHandover_of_set (hset : setWithin x.windowUs s = true) : exec .recastHandover s = .next s := by
  have waits : (x.took.isSome || x.req.isNone || !ready s || setWithin x.windowUs s) = true := by
    rw [hset, Bool.or_true]
  rw [exec_recastHandover, execRecastHandover, hx, hphase]
  exact congrArg _ (if_pos waits)

section Point
variable (htook : x.took = none) (hreq : x.req = some rr) (hready : ready s = true) (hset : setWithin x.windowUs s = false)
include htook hreq hready hset

theorem exec_recastHandover_of_commit (hcommit : x.fallback = false) :
    let w := draw s
    let us := w.1 % (x.windowUs + 1)
    let s1 := journalStep x.op 3 0 w.2
    let s2 : State := { s1 with boot := { s1.boot with
      active := s1.boot.shadow, shadow := s1.boot.active, shadowLoaded := false, cntRecasts := s1.boot.cntRecasts + 1
      recast := some { x with req := none, took := some s1.time.mono } } }
    exec .recastHandover s = .next (settle (postRef rr stOk us 0 none (measureImage
      (raise 0x0E04 (s2.boot.active.elim 0 (fun i => imgRelease i.bytes) + us * 2 ^ 32) none s2)))) := by
  rw [exec_recastHandover, execRecastHandover, hx, hphase]
  refine congrArg _ ((if_neg (handoverPoint htook hreq hready hset)).trans ?_)
  simp only [hcommit, hreq]
  rfl

theorem exec_recastHandover_of_fallback (hfallback : x.fallback = true) :
    let w := draw s
    let s1 := journalStep x.op 3 0 w.2
    exec .recastHandover s = .next (settle (postRef rr stOk (w.1 % (x.windowUs + 1)) 0 none (measureImage (takeFallback
      (match x.prior with
        | some y => journalStep y.1 4 0 (endRecast x.op s1)
        | none => endRecast x.op s1))))) := by
  rw [exec_recastHandover, execRecastHandover, hx, hphase]
  refine congrArg _ ((if_neg (handoverPoint htook hreq hready hset)).trans ?_)
  simp only [hfallback, hreq]
  cases x.prior <;> rfl

end Point
end Waits

theorem exec_probationEnd_of_late {i : Image} {t : Nat} (hx : s.boot.recast = some x) (hactive : s.boot.active = some i)
    (htook : x.took = some t) (h : t + x.probationS * secT ≤ s.time.mono) :
    let s1 := raise 0x0E03 (imgRelease i.bytes) none (endRecast x.op s)
    exec .probationEnd s = .next (settle (if i.persist
      then raiseFloor i.bytes { s1 with boot := { s1.boot with qspiBoot := some i, qspiFallback := s1.boot.qspiBoot } }
      else s1)) := by
  have late : ¬(!past x.took (x.probationS * secT) s) = true := by
    rw [htook, past, decide_eq_true h]
    exact Bool.false_ne_true
  rw [exec_probationEnd, execProbationEnd, hx, hactive]
  exact congrArg _ (if_neg late)

end Handover

/-- Settles O49: the commands by what the device is doing and what the payload holds, the handover by whether a set opens
in its window, the probation by its end. -/
theorem recastingAndDiagnosticsComplete : Obligations.RecastingAndDiagnosticsComplete := by
  refine ⟨fun r io s q c => ⟨?_, fun ready himage => ⟨?_, ?_⟩,
      fun ready hset hok hparams => serve_reply ready (bodyRecastImageLoad_of_calibration hset hok hparams),
      fun ready hnone => (serve_refuse ready (bodyRecastCommit_of_none hnone)).trans rfl,
      fun i ready hrecast hshadow hfloor hjournal =>
        serve_wait ready (bodyRecastCommit_of_shadow hshadow hfloor hjournal hrecast),
      fun i ready htook hshadow hheld hfloor hjournal =>
        serve_wait ready (bodyRecastFallback_of_held hshadow hfloor hjournal htook hheld),
      fun ready => ⟨fun hlog hkept => serve_reply ready (bodyDiagLogRead_of_faults hlog hkept),
        fun hlog => serve_reply ready (bodyDiagLogRead_of_boot hlog)⟩,
      fun ready => serve_reply ready rfl,
      fun ready => ⟨fun hread => serve_reply ready (bodyDiagSelftestRecord_of_read hread),
        fun htest hrun hidle => serve_wait ready (bodyDiagSelftestRecord_of_idle htest hrun hidle),
        fun htest hwork => (serve_refuse ready (bodyDiagSelftestRecord_of_work htest hwork)).trans rfl⟩,
      fun ready => serve_reply ready rfl⟩,
    fun x rr s hx hphase htook hreq hready => ⟨exec_recastHandover_of_set hx hphase, fun hset =>
      ⟨Nat.le_of_lt_succ (Nat.mod_lt _ (Nat.succ_pos _)), exec_recastHandover_of_commit hx hphase htook hreq hready hset,
        exec_recastHandover_of_fallback hx hphase htook hreq hready hset⟩⟩,
    fun x i t s => exec_probationEnd_of_late⟩
  · intro ready himage hphase hrecast bad empty i
    have body := bodyRecastImageLoad_running himage hphase hrecast
    split
    next hbad => exact serve_reply ready (body.trans (if_pos hbad))
    next hgood =>
      split
      next hformat => exact serve_reply ready (body.trans ((if_neg hgood).trans (if_pos (by rw [hformat]; rfl))))
      next hformat =>
        refine serve_reply ready (body.trans ((if_neg hgood).trans (if_neg ?_)))
        rw [eq_true_of_ne_false hformat]
        exact Bool.false_ne_true
  · intro hphase
    have body := bodyRecastImageLoad_understudy himage hphase
    split
    next hbad => exact serve_reply ready (body.trans (if_pos hbad))
    next hgood => exact serve_reply ready (body.trans (if_neg hgood))
  · intro hphase hbank hwaits
    have body := bodyRecastImageLoad_hostBoot himage hphase hbank hwaits
    split
    next hbad => exact serve_reply ready (body.trans (if_pos hbad))
    next hgood => exact serve_reply ready (body.trans (if_neg hgood))

end Sys2Proof.Machine

/-! ### Security: the commands of group 0x0D -/
namespace Sys2Proof.Machine

/-- Steps that fail first end with that refusal. -/
theorem bind_of_error {α β : Type} {m : Except Fail α} {f : Fail} {k : α → Except Fail β} (h : m = .error f) :
    (m >>= k) = .error f := by
  rw [h]
  rfl

section SecurityCommands
variable {s : State} {c : Ctx}

/-! ### SEC_QUOTE (R526) -/

theorem bodySecQuote_of_noKeys (h : s.sec.erased = true ∨ (s.sec.identity = false ∧ prm c 12 1 ≠ 1)) :
    bodySecQuote c s = .error (err stKeysErased) := by
  refine need_bind_of_false ?_
  obtain herased | ⟨hnone, hmode⟩ := h
  · rw [herased]
    rfl
  · rw [hnone, beq_eq_false_iff_ne.mpr hmode, Bool.or_false, Bool.and_false]

section Keys
variable (hkeys : s.sec.erased = false)
include hkeys

theorem bodySecQuote_of_extend (hmode : prm c 12 1 = 1) :
    bodySecQuote c s = .ok (measure (prm c 13 1) c.pay s, okR 0 0) := by
  refine (need_bind ?_).trans (if_pos hmode)
  rw [hkeys, hmode, Bool.or_comm]
  rfl

theorem bodySecQuote_of_quote (hmode : prm c 12 1 = 0) (hident : s.sec.identity = true) :
    let b := quoteBody (prm c 14 2) (slice c.q.param 16 8 ++ c.pay) s
    bodySecQuote c s = .ok (s, okD 0 0 (b ++ Config.mldsaSign s.sec.pubKey (Config.sha3 b))) := by
  refine (need_bind ?_).trans (if_neg ?_)
  · rw [hkeys, hident]
    rfl
  · rw [hmode]
    decide

end Keys

/-! ### SEC_LIFECYCLE (R518 to R520) -/

/-- No operation is open that stops a transition (R520, log entry 162). -/
def transitionFree (s : State) : Bool :=
  (openOps s).isEmpty && s.boot.recast.isNone && !(s.link.reqs.any fun q => q.opcode / 256 == 0x0A)

theorem transitionFree_eq_true (hops : openOps s = []) (hrecast : s.boot.recast = none)
    (hens : (s.link.reqs.any fun x => x.opcode / 256 == 0x0A) = false) : transitionFree s = true := by
  rw [transitionFree, hops, hrecast, hens]
  rfl

theorem transitionFree_eq_false (h : openOps s ≠ [] ∨ s.boot.recast ≠ none ∨
    (s.link.reqs.any fun x => x.opcode / 256 == 0x0A) = true) : transitionFree s = false := by
  simp only [transitionFree, Bool.and_eq_false_iff, List.isEmpty_eq_false_iff, Option.isNone_eq_false_iff,
    Option.isSome_iff_ne_none, Bool.not_eq_false', or_assoc]
  exact h

theorem bodySecLifecycle_of_read (h : prm c 0 1 = 0xFF) : bodySecLifecycle c s = .ok (s, okR (lifeWord s) 0) := if_pos h

section Moves
variable (hnew : prm c 0 1 ≠ 0xFF)
include hnew

theorem bodySecLifecycle_of_stopped (hstop : transitionFree s = false) : bodySecLifecycle c s = .error (err stState) :=
  (if_neg hnew).trans (need_bind_of_false hstop)

section Free
variable (hfree : transitionFree s = true)
include hfree

theorem bodySecLifecycle_of_noTransition (hneed : lifeNeed (lifecycle s) (prm c 0 1) s.sec.erased = none) :
    bodySecLifecycle c s = .error (err stTransition) := by
  refine (if_neg hnew).trans ((need_bind hfree).trans ?_)
  simp only [hneed]

theorem bodySecLifecycle_of_free (hneed : lifeNeed (lifecycle s) (prm c 0 1) s.sec.erased = some .nothing ∨
      lifeNeed (lifecycle s) (prm c 0 1) s.sec.erased = some .authority) :
    let t := lifeMove (lifecycle s) (prm c 0 1) c.pay s
    bodySecLifecycle c s = .ok (t, okR (lifeWord t) 0) := by
  refine (if_neg hnew).trans ((need_bind hfree).trans ?_)
  obtain hneed | hneed := hneed <;> simp only [hneed]

section Token
variable {bit : Nat} (hneed : lifeNeed (lifecycle s) (prm c 0 1) s.sec.erased = some (.token bit))
include hneed

theorem bodySecLifecycle_of_noToken (hpref : c.q.pref = false) (hdata : c.q.cbdata = false) :
    bodySecLifecycle c s = .error (err stAuth) := by
  refine (if_neg hnew).trans ((need_bind hfree).trans ?_)
  simp only [hneed]
  exact need_bind_of_false (by rw [hasPay, hpref, hdata]; rfl)

section Carried
variable (hpay : c.q.pref = true ∨ c.q.cbdata = true)
include hpay

theorem bodySecLifecycle_of_badToken {f : Fail} (htoken : tokenCheck c.pay bit s = .error f) :
    bodySecLifecycle c s = .error f := by
  refine (if_neg hnew).trans ((need_bind hfree).trans ?_)
  simp only [hneed]
  exact (need_bind (Bool.or_eq_true_iff.mpr hpay)).trans (bind_of_error htoken)

theorem bodySecLifecycle_of_token (htoken : tokenCheck c.pay bit s = .ok ()) :
    let t := lifeMove (lifecycle s) (prm c 0 1) [] (acceptToken c.pay s)
    bodySecLifecycle c s = .ok (t, okR (lifeWord t) 0) := by
  refine (if_neg hnew).trans ((need_bind hfree).trans ?_)
  simp only [hneed]
  exact (need_bind (Bool.or_eq_true_iff.mpr hpay)).trans (bind_of_ok htoken)

end Carried
end Token
end Free
end Moves

/-! ### SEC_UNLOCK and SEC_IDENTITY_READ (R522, R528 to R530) -/

theorem bodySecUnlock_of_close (h : prm c 0 1 = 1) :
    bodySecUnlock c s = .ok (if s.sec.portUntil.isSome then closePort 1 s else s, okR 0 0) := if_pos h

section Open
variable (hopen : prm c 0 1 = 0)
include hopen

theorem opens : prm c 0 1 ≠ 1 := by
  rw [hopen]
  decide

theorem bodySecUnlock_of_badToken {f : Fail} (htoken : tokenCheck c.pay 0 s = .error f) : bodySecUnlock c s = .error f :=
  (if_neg (opens hopen)).trans (bind_of_error htoken)

/-- A good token opens the port for its duration, unless the state holds it open (log entry 165). -/
theorem bodySecUnlock_of_token (htoken : tokenCheck c.pay 0 s = .ok ()) :
    let n := fld c.pay 72 4
    let t := acceptToken c.pay s
    bodySecUnlock c s = .ok (if [0, 1, 4, 5].contains (lifecycle t) then t
      else raise 0x0D03 n none { t with sec := { t.sec with port := true, portUntil := some (t.time.mono + n * secT) } },
      okR n 0) := by
  intro n t
  refine (if_neg (opens hopen)).trans ((bind_of_ok htoken).trans ?_)
  change (if [0, 1, 4, 5].contains (lifecycle t) then _ else _) = _
  split <;> rfl

end Open

theorem bodySecIdentityRead_of_keys (hident : s.sec.identity = true) (hkeys : s.sec.erased = false) :
    bodySecIdentityRead c s = .ok (s, okD 0 0
      (s.sec.serial ++ leBytes 1 (lifecycle s) ++ zeros 47 ++ Config.sha3 s.sec.pubKey ++ s.sec.pubKey)) :=
  need_bind (by rw [hident, hkeys]; rfl)

end SecurityCommands

/-- Settles O50, by the command: by whether keys are there, by what the transition needs, and by the token. -/
theorem securityCommandsComplete : Obligations.SecurityCommandsComplete := by
  intro r io s q c
  refine ⟨fun ready hnone => (serve_refuse ready (bodySecQuote_of_noKeys hnone)).trans rfl,
    fun ready hkeys => ⟨fun hmode => serve_reply ready (bodySecQuote_of_extend hkeys hmode),
      fun hmode hident => serve_reply ready (bodySecQuote_of_quote hkeys hmode hident)⟩,
    fun ready => ⟨fun hread => serve_reply ready (bodySecLifecycle_of_read hread), fun hnew hops hrecast hens => ?_,
      fun hnew hstop => (serve_refuse ready (bodySecLifecycle_of_stopped hnew (transitionFree_eq_false hstop))).trans rfl⟩,
    fun ready => serve_reply ready rfl,
    fun ready => ⟨fun hclose => serve_reply ready (bodySecUnlock_of_close hclose), fun hopen =>
      ⟨fun f htoken => serve_refuse ready (bodySecUnlock_of_badToken hopen htoken),
        fun htoken => serve_reply ready (bodySecUnlock_of_token hopen htoken)⟩⟩,
    fun ready => serve_reply ready rfl,
    fun ready hident hkeys => serve_reply ready (bodySecIdentityRead_of_keys hident hkeys)⟩
  have hfree := transitionFree_eq_true hops hrecast hens
  exact ⟨fun hneed => (serve_refuse ready (bodySecLifecycle_of_noTransition hnew hfree hneed)).trans rfl,
    fun hneed => serve_reply ready (bodySecLifecycle_of_free hnew hfree hneed),
    fun bit hneed => ⟨fun hpref hdata => (serve_refuse ready (bodySecLifecycle_of_noToken hnew hfree hneed hpref hdata)).trans rfl,
      fun hpay => ⟨fun f htoken => serve_refuse ready (bodySecLifecycle_of_badToken hnew hfree hneed hpay htoken),
        fun htoken => serve_reply ready (bodySecLifecycle_of_token hnew hfree hneed hpay htoken)⟩⟩⟩

end Sys2Proof.Machine

/-! ### Security: alarms, throttles, challenges and the debug port -/
namespace Sys2Proof.Machine

section SecurityEvents
variable {s : State}

/-! ### What an alarm does (R532 to R534) -/

/-- The action of a sensor is its three bits of the policy word (R534). -/
theorem policyAction_eq (w sensor : Nat) : policyAction w sensor = w / 8 ^ sensor % 8 := by
  have width : 3 * sensor + 2 + 1 - 3 * sensor = 3 := by omega
  rw [policyAction, bitsOf, width, Nat.pow_mul]
  rfl

/-- The action that a policy asks of a recorded alarm (R533). -/
def alarmAct (action sensor : Nat) (s : State) : State :=
  match action with
  | 0 => s
  | 1 => throttleAct sensor s
  | 2 => haltAct s
  | _ => haltAct (eraseKeys s)

theorem alarmAct_of_erase {action sensor : Nat} (h : 3 ≤ action) : alarmAct action sensor s = haltAct (eraseKeys s) := by
  obtain ⟨n, rfl⟩ := Nat.exists_eq_add_of_le' h
  rfl

/-- An alarm is recorded under the policy in force, and acts. -/
theorem alarm_eq (sensor detail : Nat) (s : State) :
    let f := policyFix s
    let a := f.sec.policy.n / 8 ^ sensor % 8
    alarm sensor detail s = alarmAct a sensor (recordAlarm sensor a detail f) := by
  dsimp only
  rw [← policyAction_eq]
  rfl

section Tamper
variable {sensor detail : Nat}

theorem exec_tamperAlarm_of_none (h : secLive s = false ∨ 4 < sensor) : exec (.tamperAlarm sensor detail) s = .next s := by
  have none : (!secLive s || decide (4 < sensor)) = true := by
    simpa only [Bool.or_eq_true, Bool.not_eq_true', decide_eq_true_eq] using h
  rw [exec_tamperAlarm, execTamperAlarm, if_pos none]

variable (hlive : secLive s = true) (hsensor : sensor ≤ 4)
include hlive hsensor

theorem tamperSensed : ¬(!secLive s || decide (4 < sensor)) = true := by
  rw [hlive, decide_eq_false (Nat.not_lt.mpr hsensor)]
  exact Bool.false_ne_true

theorem exec_tamperAlarm_of_asleep (hstate : s.pwr.state = 3) :
    exec (.tamperAlarm sensor detail) s = .next (if sensor = 0 ∨ sensor = 2 ∨ sensor = 4
      then { s with sec := { s.sec with latched := s.sec.latched ++ [(sensor, detail)] } } else s) := by
  have sensed : (sensedInS3 sensor = true) = (sensor = 0 ∨ sensor = 2 ∨ sensor = 4) := by simp [sensedInS3]
  rw [exec_tamperAlarm, execTamperAlarm, if_neg (tamperSensed hlive hsensor), if_pos hstate]
  simp only [sensed]

theorem exec_tamperAlarm_of_awake (hstate : s.pwr.state ≠ 3) :
    exec (.tamperAlarm sensor detail) s = .next (settle (alarm sensor detail s)) := by
  rw [exec_tamperAlarm, execTamperAlarm, if_neg (tamperSensed hlive hsensor), if_neg hstate]

end Tamper

/-! ### Challenges and the debug port (R529, R530) -/

section Challenges
variable {x : Challenge} (hx : s.sec.challenge = some x)
include hx

theorem exec_challengeExpiry_of_late (h : x.at' + 300 * secT ≤ s.time.mono) :
    exec .challengeExpiry s = .next { s with sec := { s.sec with challenge := none } } := by
  have late : past (s.sec.challenge.map (·.at')) (300 * secT) s = true := by
    rw [hx]
    exact decide_eq_true h
  rw [exec_challengeExpiry, execChallengeExpiry, if_pos late]

theorem exec_challengeExpiry_of_early (h : s.time.mono < x.at' + 300 * secT) : exec .challengeExpiry s = .next s := by
  have early : past (s.sec.challenge.map (·.at')) (300 * secT) s = false := by
    rw [hx]
    exact decide_eq_false (Nat.not_le.mpr h)
  rw [exec_challengeExpiry, execChallengeExpiry, if_neg (ne_true_of_eq_false early)]

end Challenges

theorem exec_debugPortExpiry_of_open (h : s.sec.port = false ∨ ∀ t, s.sec.portUntil = some t → s.time.mono < t) :
    exec .debugPortExpiry s = .next s := by
  have stays : (s.sec.port && dueOpt s.sec.portUntil s && s.sec.portUntil.isSome) = false := by
    obtain h | h := h
    · rw [h, Bool.false_and, Bool.false_and]
    · cases hu : s.sec.portUntil with
      | none => rw [Option.isSome_none, Bool.and_false]
      | some t =>
        have early : dueOpt (some t) s = false := decide_eq_false (Nat.not_le.mpr (h t hu))
        rw [early, Bool.and_false, Bool.false_and]
  rw [exec_debugPortExpiry, execDebugPortExpiry, if_neg (ne_true_of_eq_false stays)]

theorem exec_debugPortExpiry_of_late {t : Nat} (hport : s.sec.port = true) (huntil : s.sec.portUntil = some t)
    (h : t ≤ s.time.mono) :
    exec .debugPortExpiry s
      = .next (settle (raise 0x0D04 0 none { s with sec := { s.sec with port := false, portUntil := none } })) := by
  have ends : (s.sec.port && dueOpt s.sec.portUntil s && s.sec.portUntil.isSome) = true := by
    have late : dueOpt (some t) s = true := decide_eq_true h
    rw [huntil, hport, late]
    rfl
  have opened : ¬(!s.sec.port) = true := by
    rw [hport]
    exact Bool.false_ne_true
  rw [exec_debugPortExpiry, execDebugPortExpiry, if_pos ends, closePort, if_neg opened]

end SecurityEvents

/-- Settles O51: an alarm by the sleep state and by the policy's action, an expiry by whether its time is past. -/
theorem securityEventsComplete : Obligations.SecurityEventsComplete := by
  refine ⟨fun sensor detail s hlive hsensor => ⟨exec_tamperAlarm_of_asleep hlive hsensor, fun hawake => ?_⟩, fun s => rfl,
    fun x s hx => ⟨exec_challengeExpiry_of_late hx, exec_challengeExpiry_of_early hx⟩, fun s => exec_debugPortExpiry_of_open,
    fun sensor detail s => exec_tamperAlarm_of_none, fun t s => exec_debugPortExpiry_of_late⟩
  intro f a t
  have acts : exec (.tamperAlarm sensor detail) s = .next (settle (alarmAct a sensor t)) :=
    (exec_tamperAlarm_of_awake hlive hsensor hawake).trans (congrArg ended (alarm_eq sensor detail s))
  have byAction {n : Nat} (h : a = n) : alarmAct a sensor t = alarmAct n sensor t := congrArg (alarmAct · sensor t) h
  exact ⟨fun h => acts.trans (congrArg ended (byAction h)), fun h => acts.trans (congrArg ended (byAction h)),
    fun h => acts.trans (congrArg ended (byAction h)), fun h => acts.trans (congrArg ended (alarmAct_of_erase h))⟩

end Sys2Proof.Machine

/-! ### What a command leaves of the waiting commands -/
namespace Sys2Proof.Machine
set_option Elab.async false

section Checks
variable {α β : Type} {P : α → Prop} {R : β → Prop}

/-- What a refusal leaves behind keeps the queue of waiting commands. -/
structure KeepsPending (f : State → State) : Prop where
  pending : ∀ s, (f s).pending = s.pending

/-- A check whose value satisfies `P`, and whose refusal keeps the queue of waiting commands. -/
def ChecksTo (P : α → Prop) : Except Fail α → Prop
  | .ok a => P a
  | .error f => KeepsPending f.fx

/-- A check whose refusal keeps the queue of waiting commands. -/
abbrev Checked (e : Except Fail α) : Prop := ChecksTo (fun _ => True) e

/-- A body whose end state has the waiting commands of `s`, as what its refusal leaves behind has. -/
abbrev EndsWaitingAs (s : State) (e : Except Fail (State × α)) : Prop := ChecksTo (fun x => x.1.pending = s.pending) e

@[simp] theorem keepsPending_id : KeepsPending id := ⟨fun _ => rfl⟩
@[simp] theorem keepsPending_err {st : Nat} : KeepsPending (err st).fx := keepsPending_id
@[simp] theorem keepsPending_fitFail {c n : Nat} : KeepsPending (fitFail c n).fx := keepsPending_id

@[simp] theorem checksTo_ok {a : α} : ChecksTo P (.ok a) ↔ P a := Iff.rfl
@[simp] theorem checksTo_pure {a : α} : ChecksTo P (pure a : Except Fail α) ↔ P a := Iff.rfl
@[simp] theorem checksTo_error {f : Fail} : ChecksTo P (.error f) ↔ KeepsPending f.fx := Iff.rfl
@[simp] theorem checksTo_throw {f : Fail} : ChecksTo P (throw f : Except Fail α) ↔ KeepsPending f.fx := Iff.rfl

theorem ChecksTo.bind {e : Except Fail β} {k : β → Except Fail α} (he : ChecksTo R e) (hk : ∀ b, R b → ChecksTo P (k b)) :
    ChecksTo P (e >>= k) := by
  cases e with
  | error f => exact he
  | ok b => exact hk b he

theorem checked_bind {e : Except Fail β} {k : β → Except Fail α} (he : Checked e) (hk : ∀ b, ChecksTo P (k b)) :
    ChecksTo P (e >>= k) := he.bind fun b _ => hk b

@[simp] theorem checked_need {b : Bool} {f : Fail} (h : KeepsPending f.fx) : Checked (need b f) := by
  cases b <;> simp [need, h]

@[simp] theorem checked_map {e : Except Fail β} {k : β → α} (he : Checked e) : Checked (e.map k) := by
  cases e with
  | error f => exact he
  | ok b => trivial

theorem checked_mapM {f : α → Except Fail β} (hf : ∀ a, Checked (f a)) (l : List α) : Checked (l.mapM f) := by
  induction l with
  | nil => simp
  | cons a l ih =>
    rw [List.mapM_cons]
    exact checked_bind (hf a) fun _ => checked_bind ih fun _ => trivial

@[simp] theorem checked_both {a : Except Fail α} {b : Except Fail β} (ha : Checked a) (hb : Checked b) : Checked (both a b) := by
  cases a <;> cases b
  case error.error f g =>
    simp only [both]
    split
    · exact hb
    · exact ha
  case error.ok f y => exact ha
  case ok.error x g => exact hb
  case ok.ok x y => trivial
end Checks

/-- An answer whose next state has the waiting commands of `s`. -/
def AnswersWaitingAs (s : State) : Result → Prop
  | .next t => t.pending = s.pending
  | _ => True

section
variable {s t : State}

@[simp] theorem answersWaitingAs_next : AnswersWaitingAs s (.next t) ↔ t.pending = s.pending := Iff.rfl

theorem AnswersWaitingAs.trans {r : Result} (h : t.pending = s.pending) (hr : AnswersWaitingAs t r) : AnswersWaitingAs s r := by
  cases r
  case next u => exact Eq.trans hr h
  all_goals trivial

@[simp] theorem ite_pending {c : Prop} [Decidable c] : (if c then s else t).pending = if c then s.pending else t.pending :=
  apply_ite State.pending c s t

@[simp] theorem elim_pending {α : Type} {o : Option α} {f : α → State} (hf : ∀ a, (f a).pending = s.pending) :
    (o.elim s f).pending = s.pending := by
  cases o with
  | none => rfl
  | some a => exact hf a

@[simp] theorem foldl_pending {α : Type} {f : State → α → State} (hf : ∀ s x, (f s x).pending = s.pending) (l : List α) (s : State) :
    (l.foldl f s).pending = s.pending := by
  induction l generalizing s with
  | nil => rfl
  | cons x l ih => exact (ih _).trans (hf s x)

@[simp] theorem foldl_snd_pending {α β : Type} {f : β × State → α → β × State} (hf : ∀ p x, (f p x).2.pending = p.2.pending)
    (l : List α) (p : β × State) : (l.foldl f p).2.pending = p.2.pending := by
  induction l generalizing p with
  | nil => rfl
  | cons x l ih => exact (ih _).trans (hf p x)

theorem pinPulse_pending {lo hi ns : Nat} {f : State → Result} (hf : ∀ t, AnswersWaitingAs t (f t)) :
    AnswersWaitingAs s (pinPulse lo hi ns f s) := by
  unfold pinPulse
  split
  · rfl
  · split
    · exact hf s
    · show AnswersWaitingAs s (if (draw s).1 % 2 = 0 then .next (draw s).2 else f (draw s).2)
      split
      · rfl
      · exact (hf _).trans rfl

@[simp] theorem lookupHandle_checked {tys fn closing h} : Checked (lookupHandle tys fn closing h s) := by
  simp only [lookupHandle]
  (repeat' first | with_reducible refine checked_bind ?_ fun _ => ?_ | split) <;> simp
@[simp] theorem limitCheck_checked {ty} : Checked (limitCheck ty s) := by
  simp [limitCheck]
@[simp] theorem pickSlotS_pending {a1 a2} : (pickSlotS a1 a2 s).pending = s.pending := by
  simp [pickSlotS]
@[simp] theorem pickGenS_pending {a1 a2} : (pickGenS a1 a2 s).pending = s.pending := by
  simp [pickGenS]
@[simp] theorem addObjS_pending {a1 a2 a3 a4 a5 a6 a7 a8} : (addObjS a1 a2 a3 a4 a5 a6 a7 a8 s).pending = s.pending := by
  simp [addObjS]
@[simp] theorem newObjS_pending {a1 a2 a3 a4 a5 a6 a7 a8} : (newObjS a1 a2 a3 a4 a5 a6 a7 a8 s).pending = s.pending := by
  simp [newObjS]
@[simp] theorem keepsPending_mismatch {unit index addr src ended} : KeepsPending (mismatch unit index addr src ended) := ⟨fun _ => by simp⟩
@[simp] theorem setServer_pending {n} : (setServer n s).pending = s.pending := by
  simp [setServer]
@[simp] theorem keepsPending_quotaRefused {fn tier} : KeepsPending (quotaRefused fn tier) := ⟨fun _ => by simp⟩
@[simp] theorem quotaPair_checked {fn tier n} : Checked (quotaPair fn tier n s) := by
  simp [quotaPair]
@[simp] theorem fits_checked {code short} : Checked (fits code short) := by
  simp [fits]
@[simp] theorem fitsQuota_checked {fn tier n} : Checked (fitsQuota fn tier n s) := by
  simp [fitsQuota]

/-! ### Release -/

@[simp] theorem freeCsi_pending : (freeCsi s).pending = s.pending := by
  simp [freeCsi]
@[simp] theorem dropStream_pending {slot} : (dropStream slot s).pending = s.pending := by
  simp [dropStream]
@[simp] theorem dropChan_pending {slot} : (dropChan slot s).pending = s.pending := by
  simp [dropChan]
@[simp] theorem withdrawTasks_pending {p} : (withdrawTasks p s).pending = s.pending := by
  simp [withdrawTasks]
@[simp] theorem dropInst_pending {slot} : (dropInst slot s).pending = s.pending := by
  simp [dropInst]
@[simp] theorem dropProblem_pending {slot} : (dropProblem slot s).pending = s.pending := by
  unfold dropProblem
  (repeat' split) <;> simp
@[simp] theorem dropRecord_pending {ty slot} : (dropRecord ty slot s).pending = s.pending := by
  unfold dropRecord
  split <;> simp
@[simp] theorem releaseObj_pending {o} : (releaseObj o s).pending = s.pending := by
  simp [releaseObj]

@[simp] theorem releaseAll_pending {os : List Obj} : (releaseAll os s).pending = s.pending := by
  induction os generalizing s with
  | nil => rfl
  | cons o os ih => exact ih.trans releaseObj_pending

theorem finishRelease_pending {q : Req} (e : finishRelease q s = some t) : t.pending = s.pending := by
  simp only [finishRelease] at e
  (repeat' split at e) <;> cases e <;> simp

theorem finishWait_pending {q : Req} (e : finishWait q s = some t) : t.pending = s.pending := by
  simp only [finishWait] at e
  (repeat' split at e) <;> cases e
  simp

theorem settleOne_pending {l : List Req} (e : settleOne l s = some t) : t.pending = s.pending := by
  induction l with
  | nil => cases e
  | cons q l ih =>
    simp only [settleOne] at e
    split at e
    · next hf => cases e; exact finishRelease_pending hf
    · split at e
      · next hf => cases e; exact finishWait_pending hf
      · exact ih e

@[simp] theorem settleN_pending {n : Nat} : (settleN n s).pending = s.pending := by
  induction n generalizing s with
  | zero => rfl
  | succ n ih =>
    simp only [settleN]
    split
    · rfl
    · next e => exact ih.trans (settleOne_pending e)

@[simp] theorem sweepCals_pending : (sweepCals s).pending = s.pending := by
  simp [sweepCals]
@[simp] theorem settle_pending : (settle s).pending = s.pending := by
  simp [settle]
@[simp] theorem answersWaitingAs_ended : AnswersWaitingAs s (ended t) ↔ t.pending = s.pending := by
  simp [ended]

/-! ### Serve -/

@[simp] theorem inlineCheck_checked {need' q} : Checked (inlineCheck need' q) := by
  simp [inlineCheck]
@[simp] theorem resCheck_checked {largest q} : Checked (resCheck largest q) := by
  simp [resCheck]
@[simp] theorem handleCheck_checked {h q} : Checked (handleCheck h q s) := by
  simp only [handleCheck]
  (repeat' first | with_reducible refine checked_bind ?_ fun _ => ?_ | split) <;> simp
@[simp] theorem adminCheck_checked {h q o} : Checked (adminCheck h q o s) := by
  simp only [adminCheck]
  split <;> simp
@[simp] theorem readPayload_checked {q io} : Checked (readPayload q io s) := by
  simp only [readPayload]
  (repeat' first | with_reducible refine checked_bind ?_ fun _ => ?_ | split) <;> simp
@[simp] theorem cbBus_checked {q} : Checked (cbBus q s) := by
  simp [cbBus]
@[simp] theorem sramMet_pending {b} : (sramMet b s).pending = s.pending := by
  simp [sramMet]
@[simp] theorem keepsPending_sramMet {b} : KeepsPending (sramMet b) := ⟨fun _ => by simp⟩
@[simp] theorem sramCheck_checked {io} : Checked (sramCheck io) := by
  simp only [sramCheck]
  split <;> simp
theorem validate_checked {ci : CmdInfo} {q : Req} {io : Io} (hh : ∀ c, Checked (ci.hands c s)) : Checked (validate ci q io s) := by
  unfold validate
  (repeat' (first | refine checked_bind ?_ (fun _ => ?_) | split)) <;> simp [hh]
@[simp] theorem updDom_pending {d f} : (updDom d f s).pending = s.pending := by
  simp [updDom]
@[simp] theorem startReturn_pending {ds : List Nat} : (startReturn ds s).pending = s.pending := by
  simp [startReturn]
@[simp] theorem markRunning_pending {q} : (markRunning q s).pending = s.pending := by
  simp [markRunning]
@[simp] theorem endServe_pending {q d} : (endServe q d s).pending = s.pending := by
  unfold endServe
  split <;> simp

theorem runBody_pending {ci : CmdInfo} {body : Body} {q : Req} {c : Ctx} (hb : EndsWaitingAs s (body c s)) :
    (runBody ci body q c s).pending = s.pending := by
  unfold runBody
  split
  · next f e =>
    rw [e] at hb
    simp [hb.pending s]
  · next s' d e =>
    rw [e] at hb
    have hs : s'.pending = s.pending := hb
    simp [hs]

theorem serve_pending {ci : CmdInfo} {body : Body} {r : ReqRef} {io : Io} (hh : ∀ c, Checked (ci.hands c s))
    (hb : ∀ c, EndsWaitingAs s (body c s)) : AnswersWaitingAs s (serve ci body r io s) := by
  simp only [serve, answersWaitingAs_next]
  split
  · rfl
  · next q _ =>
    have hv := validate_checked (q := q) (io := io) hh
    rw [show ∀ t, (settle t).pending = t.pending from fun _ => settle_pending]
    split
    · next f e =>
      rw [e] at hv
      simp [hv.pending s]
    · exact runBody_pending (hb _)

@[simp] theorem releaseBody_pending {c} : EndsWaitingAs s (releaseBody c s) := by
  simp only [releaseBody]
  (repeat' first | with_reducible refine checked_bind ?_ fun _ => ?_ | split) <;> simp

/-! ### TimeBase -/

@[simp] theorem stepTime_pending {delta} : (stepTime delta s).pending = s.pending := by
  simp [stepTime]
@[simp] theorem addSlew_pending {ns} : (addSlew ns s).pending = s.pending := by
  simp [addSlew]
@[simp] theorem enterHoldover_pending : (enterHoldover s).pending = s.pending := by
  simp [enterHoldover]
@[simp] theorem leaveHoldover_pending {servo} : (leaveHoldover servo s).pending = s.pending := by
  simp [leaveHoldover]
@[simp] theorem ptpAnnounce_pending {port master best interval} : (ptpAnnounce port master best interval s).pending = s.pending := by
  simp [ptpAnnounce]
@[simp] theorem ptpSync_pending {offset rate interval} : (ptpSync offset rate interval s).pending = s.pending := by
  simp [ptpSync]
@[simp] theorem ptpMessage_pending {port m} : (ptpMessage port m s).pending = s.pending := by
  unfold ptpMessage
  split <;> simp
theorem execPtpMasterTimeout_pending : AnswersWaitingAs s (execPtpMasterTimeout s) := by
  simp [execPtpMasterTimeout]
theorem execSlewAbsorbed_pending : AnswersWaitingAs s (execSlewAbsorbed s) := by
  simp [execSlewAbsorbed]
theorem bodyTimeRead_pending {c} : EndsWaitingAs s (bodyTimeRead c s) := by
  simp [bodyTimeRead]
theorem bodyTimeSet_pending {c} : EndsWaitingAs s (bodyTimeSet c s) := by
  simp only [bodyTimeSet]
  exact checked_bind (by simp) fun _ => by simp
theorem bodyTimeAdjust_pending {c} : EndsWaitingAs s (bodyTimeAdjust c s) := by
  simp only [bodyTimeAdjust]
  (repeat' first | with_reducible refine checked_bind ?_ fun _ => ?_ | split) <;> simp
@[simp] theorem setPtp_pending {p} : (setPtp p s).pending = s.pending := by
  simp [setPtp]
theorem bodyTimePtpConfig_pending {c} : EndsWaitingAs s (bodyTimePtpConfig c s) := by
  simp only [bodyTimePtpConfig]
  (repeat' first | with_reducible refine checked_bind ?_ fun _ => ?_ | split) <;> simp -implicitDefEqProofs
theorem bodyTimeAlarmSet_pending {c} : EndsWaitingAs s (bodyTimeAlarmSet c s) := by
  simp only [bodyTimeAlarmSet]
  split <;> simp
theorem bodyTimeStatus_pending {c} : EndsWaitingAs s (bodyTimeStatus c s) := by
  simp [bodyTimeStatus]
@[simp] theorem alarmFall_pending {a} : (alarmFall a s).pending = s.pending := by
  simp [alarmFall]
theorem execPtpTransmitInterval_pending {port m} : AnswersWaitingAs s (execPtpTransmitInterval port m s) := by
  unfold execPtpTransmitInterval
  (repeat' split) <;> simp

/-! ### Streams -/

@[simp] theorem rateCheck_checked {rs port} : Checked (rateCheck rs port) := by
  simp only [rateCheck]
  (repeat' first | with_reducible refine checked_bind ?_ fun _ => ?_ | split) <;> simp
@[simp] theorem openLow_pending {a c} : EndsWaitingAs s (openLow a c s) := by
  simp only [openLow, draw]
  exact checked_bind (by simp) fun _ => by simp
@[simp] theorem openStream_pending {a c} : EndsWaitingAs s (openStream a c s) := by
  simp only [openStream, newObj_pair]
  (repeat' first | with_reducible refine checked_bind ?_ fun _ => ?_ | split) <;> simp
theorem bodyStreamOpen_pending {c} : EndsWaitingAs s (bodyStreamOpen c s) := by
  simp only [bodyStreamOpen]
  (repeat' first | with_reducible refine checked_bind ?_ fun _ => ?_ | split) <;> simp
@[simp] theorem updStream_pending {slot f} : (updStream slot f s).pending = s.pending := by
  simp [updStream]
@[simp] theorem takeCal_pending {slot} : (takeCal slot s).pending = s.pending := by
  unfold takeCal
  split <;> simp
@[simp] theorem updLow_pending {ch f} : (updLow ch f s).pending = s.pending := by
  simp [updLow]
@[simp] theorem target_checked {c} : Checked (target c s) := by
  simp only [target]
  (repeat' first | with_reducible refine checked_bind ?_ fun _ => ?_ | split) <;> simp
theorem bodyStreamClose_pending {c} : EndsWaitingAs s (bodyStreamClose c s) := by
  simp only [bodyStreamClose]
  (repeat' first | with_reducible refine checked_bind ?_ fun _ => ?_ | split) <;> simp
theorem bodyStreamStart_pending {c} : EndsWaitingAs s (bodyStreamStart c s) := by
  simp only [bodyStreamStart]
  (repeat' first | with_reducible refine checked_bind ?_ fun _ => ?_ | split) <;> simp
@[simp] theorem stopStream_pending {slot} : (stopStream slot s).pending = s.pending := by
  simp [stopStream]
theorem bodyStreamStop_pending {c} : EndsWaitingAs s (bodyStreamStop c s) := by
  simp only [bodyStreamStop]
  (repeat' first | with_reducible refine checked_bind ?_ fun _ => ?_ | split) <;> simp
theorem bodyStreamQuery_pending {c} : EndsWaitingAs s (bodyStreamQuery c s) := by
  simp only [bodyStreamQuery]
  exact checked_bind (by simp) fun _ => by simp
theorem bodyStreamSetWindow_pending {c} : EndsWaitingAs s (bodyStreamSetWindow c s) := by
  simp only [bodyStreamSetWindow]
  (repeat' first | with_reducible refine checked_bind ?_ fun _ => ?_ | split) <;> simp
@[simp] theorem freeBuf_pending {slot buf} : (freeBuf slot buf s).pending = s.pending := by
  simp [freeBuf]
theorem bodyStreamFrameRelease_pending {c} : EndsWaitingAs s (bodyStreamFrameRelease c s) := by
  simp only [bodyStreamFrameRelease]
  (repeat' first | with_reducible refine checked_bind ?_ fun _ => ?_ | split) <;> simp
@[simp] theorem countPort_pending {reason port} : (countPort reason port s).pending = s.pending := by
  simp [countPort]
@[simp] theorem lowBlock_pending {x port sensor periodNs samples seqNo vals} : (lowBlock x port sensor periodNs samples seqNo vals s).pending = s.pending := by
  simp only [lowBlock]
  split <;> simp
@[simp] theorem updEnc_pending {n f} : (updEnc n f s).pending = s.pending := by
  simp [updEnc]

theorem execEncEdge_pending {n a b ns} : AnswersWaitingAs s (execEncEdge n a b s ns) := by
  unfold execEncEdge
  exact pinPulse_pending fun s => by
    (repeat' split) <;> simp

theorem execEncIndex_pending {n ns} : AnswersWaitingAs s (execEncIndex n s ns) := by
  unfold execEncIndex
  exact pinPulse_pending fun s => by
    (repeat' split) <;> simp

@[simp] theorem encSample_pending {x e} : (encSample x e s).pending = s.pending := rfl
theorem execEncSample_pending {n} : AnswersWaitingAs s (execEncSample n s) := by
  unfold execEncSample
  split <;> simp

/-! ### Filters -/

@[simp] theorem updChan_pending {slot f} : (updChan slot f s).pending = s.pending := by
  simp [updChan]
@[simp] theorem feed_pending {slot x stamp heldIn} : (feed slot x stamp heldIn s).pending = s.pending := by
  simp only [feed]
  (repeat' split) <;> simp
@[simp] theorem resume_pending {slot} : (resume slot s).pending = s.pending := by
  unfold resume
  split <;> simp
@[simp] theorem heldInput_pending {slot} : (heldInput slot s).pending = s.pending := by
  unfold heldInput
  split <;> simp
@[simp] theorem updSel_pending {ctrl cs f} : (updSel ctrl cs f s).pending = s.pending := by
  simp [updSel]
@[simp] theorem spiStart_pending {ctrl cs strobe} : (spiStart ctrl cs strobe s).pending = s.pending := by
  simp [spiStart]
@[simp] theorem strobe_pending {ctrl cs} : (strobe ctrl cs s).pending = s.pending := by
  simp [strobe]
theorem execSpiCnvStrobe_pending {ctrl cs} : AnswersWaitingAs s (execSpiCnvStrobe ctrl cs s) := by
  unfold execSpiCnvStrobe
  split <;> simp

theorem execSpiDrdyEdge_pending {ctrl cs ns} : AnswersWaitingAs s (execSpiDrdyEdge ctrl cs s ns) := by
  unfold execSpiDrdyEdge
  exact pinPulse_pending fun s => by
    (repeat' split) <;> simp

theorem execSpiTransactionDone_pending {ctrl words} : AnswersWaitingAs s (execSpiTransactionDone ctrl words s) := by
  simp only [execSpiTransactionDone, answersWaitingAs_next]
  split
  · rfl
  · simp only [settle_pending]
    split
    · exact foldl_pending (fun s c => by split <;> simp) _ _
    · simp only [spiStart_pending, updSel_pending]
      exact foldl_pending (fun s c => by split <;> simp) _ _

theorem execSpiDrdyGap_pending {ctrl cs} : AnswersWaitingAs s (execSpiDrdyGap ctrl cs s) := by
  unfold execSpiDrdyGap
  split <;> simp
theorem execFiltHeldInput_pending {ctrl cs} : AnswersWaitingAs s (execFiltHeldInput ctrl cs s) := by
  unfold execFiltHeldInput
  split <;> simp
theorem bodyFiltOpen_pending {c} : EndsWaitingAs s (bodyFiltOpen c s) := by
  simp only [bodyFiltOpen, addObj_pair]
  (repeat' first | with_reducible refine checked_bind ?_ fun _ => ?_ | split) <;> simp
@[simp] theorem chanOf_checked {c} : Checked (chanOf c s) := by
  simp only [chanOf]
  split <;> simp
theorem bodyFiltLoadBank_pending {c} : EndsWaitingAs s (bodyFiltLoadBank c s) := by
  simp only [bodyFiltLoadBank]
  (repeat' first | with_reducible refine checked_bind ?_ fun _ => ?_ | split) <;> simp
@[simp] theorem macCheck_checked {x n} : Checked (macCheck x n s) := by
  simp [macCheck]
theorem bodyFiltSwap_pending {c} : EndsWaitingAs s (bodyFiltSwap c s) := by
  simp only [bodyFiltSwap]
  (repeat' first | with_reducible refine checked_bind ?_ fun _ => ?_ | split) <;> simp
theorem bodyFiltCrossfade_pending {c} : EndsWaitingAs s (bodyFiltCrossfade c s) := by
  simp only [bodyFiltCrossfade]
  (repeat' first | with_reducible refine checked_bind ?_ fun _ => ?_ | split) <;> simp
theorem bodyFiltSetPhase_pending {c} : EndsWaitingAs s (bodyFiltSetPhase c s) := by
  simp [bodyFiltSetPhase]
theorem bodyFiltDcFreeze_pending {c} : EndsWaitingAs s (bodyFiltDcFreeze c s) := by
  simp only [bodyFiltDcFreeze]
  (repeat' first | with_reducible refine checked_bind ?_ fun _ => ?_ | split) <;> simp
theorem bodyFiltDelayQuery_pending {c} : EndsWaitingAs s (bodyFiltDelayQuery c s) := by
  simp only [bodyFiltDelayQuery]
  exact checked_bind (by simp) fun _ => by simp

/-! ### Cue -/

@[simp] theorem sheetFit_checked {fn m} : Checked (sheetFit fn m s) := by
  simp only [sheetFit]
  (repeat' first | with_reducible refine checked_bind ?_ fun _ => ?_ | split) <;> simp
@[simp] theorem checkSheet_checked {b} : Checked (checkSheet b) := by
  simp only [checkSheet]
  (repeat' first | with_reducible refine checked_bind ?_ fun _ => ?_ | split) <;> simp
theorem bodyCueLoad_pending {c} : EndsWaitingAs s (bodyCueLoad c s) := by
  simp only [bodyCueLoad, newObj_pair]
  (repeat' first | with_reducible refine checked_bind ?_ fun _ => ?_ | split) <;> simp

/-! ### CueRun -/

@[simp] theorem updSheet_pending {slot f} : (updSheet slot f s).pending = s.pending := by
  simp [updSheet]
@[simp] theorem freeUnit_pending {slot n i} : (freeUnit slot n i s).pending = s.pending := by
  simp [freeUnit]

@[simp] theorem spreadErrors_pending {slot} : (spreadErrors slot s).pending = s.pending := by
  unfold spreadErrors
  split
  · rfl
  · refine foldl_pending (fun s x => ?_) _ _
    (repeat' split) <;> simp

@[simp] theorem releaseFrame_pending {stream buf} : (releaseFrame stream buf s).pending = s.pending := by
  unfold releaseFrame
  split <;> simp

@[simp] theorem releaseSetFrames_pending {slot} : (releaseSetFrames slot s).pending = s.pending := by
  unfold releaseSetFrames
  split
  · rfl
  · refine foldl_pending (fun s x => ?_) _ _
    (repeat' split) <;> simp

@[simp] theorem sweepFrame_pending {slot stream buf} : (sweepFrame slot stream buf s).pending = s.pending := by
  unfold sweepFrame
  split <;> simp
@[simp] theorem sweepFrames_pending {slot} : (sweepFrames slot s).pending = s.pending := by
  unfold sweepFrames
  split <;> simp
@[simp] theorem finishSets_pending {slot} : (finishSets slot s).pending = s.pending := by
  simp [finishSets]
@[simp] theorem unbind_pending {slot} : (unbind slot s).pending = s.pending := by
  simp [unbind]
@[simp] theorem finishStop_pending {slot} : (finishStop slot s).pending = s.pending := by
  unfold finishStop
  (repeat' split) <;> simp
@[simp] theorem runOn_pending {group kind no r} : (runOn group kind no r s).pending = s.pending := by
  simp [runOn]

@[simp] theorem giveUnits_pending {group kind n : Nat} : (giveUnits group kind n s).pending = s.pending := by
  induction n generalizing s with
  | zero => rfl
  | succ n ih =>
    simp only [giveUnits]
    repeat' split
    · rfl
    · rfl
    · simp [ih]

@[simp] theorem giveWork_pending {group} : (giveWork group s).pending = s.pending := by
  simp [giveWork]
@[simp] theorem advanceSheet_pending {slot} : (advanceSheet slot s).pending = s.pending := by
  simp only [advanceSheet]
  split <;> simp
@[simp] theorem triggerFrame_pending {sh stream buf stamp number} : (triggerFrame sh stream buf stamp number s).pending = s.pending := by
  simp [triggerFrame]
@[simp] theorem slotFrame_pending {sh i buf stamp} : (slotFrame sh i buf stamp s).pending = s.pending := by
  unfold slotFrame
  split <;> simp

@[simp] theorem cueFrameStart_pending {stream buf stamp number} :
    (cueFrameStart stream buf stamp number s).pending = s.pending := by
  unfold cueFrameStart
  split
  · rfl
  · simp only [advanceSheet_pending]
    refine foldl_pending (fun s i => ?_) _ _
    (repeat' split) <;> simp

@[simp] theorem cueFrameMoved_pending {stream} : (cueFrameMoved stream s).pending = s.pending := by
  simp [cueFrameMoved]
@[simp] theorem abandon_pending {slot n st} : (abandon slot n st s).pending = s.pending := by
  simp [abandon]
theorem execCueSlotMissing_pending {slot n i} : AnswersWaitingAs s (execCueSlotMissing slot n i s) := by
  unfold execCueSlotMissing
  (repeat' split) <;> simp
theorem execCueSetDeadline_pending {slot n} : AnswersWaitingAs s (execCueSetDeadline slot n s) := by
  unfold execCueSetDeadline
  (repeat' split) <;> simp
theorem execVisionBandDone_pending {group u} : AnswersWaitingAs s (execVisionBandDone group u s) := by
  unfold execVisionBandDone
  split <;> simp
theorem execVisionNodeDone_pending {slot n i media} : AnswersWaitingAs s (execVisionNodeDone slot n i media s) := by
  unfold execVisionNodeDone
  (repeat' split) <;> simp
theorem execCueExternalWaitMet_pending {slot n i} : AnswersWaitingAs s (execCueExternalWaitMet slot n i s) := by
  unfold execCueExternalWaitMet
  (repeat' split) <;> simp
@[simp] theorem writeFlag_pending {slot fi at' bs} : (writeFlag slot fi at' bs s).pending = s.pending := by
  unfold writeFlag
  (repeat' split) <;> simp
@[simp] theorem sheetArg_checked {c} : Checked (sheetArg c s) := by
  simp only [sheetArg]
  split <;> simp
theorem bodyCueUnload_pending {c} : EndsWaitingAs s (bodyCueUnload c s) := by
  simp only [bodyCueUnload]
  (repeat' first | with_reducible refine checked_bind ?_ fun _ => ?_ | split) <;> simp

theorem bodyCueStart_pending {c} : EndsWaitingAs s (bodyCueStart c s) := by
  simp only [bodyCueStart]
  refine checked_bind (by simp) fun _ => checked_bind (checked_mapM (fun _ => by simp) _) fun _ => checked_bind (by simp) fun _ => ?_
  (repeat' first | with_reducible refine checked_bind ?_ fun _ => ?_ | split) <;> simp

theorem bodyCueStop_pending {c} : EndsWaitingAs s (bodyCueStop c s) := by
  simp only [bodyCueStop]
  (repeat' first | with_reducible refine checked_bind ?_ fun _ => ?_ | split) <;> simp
@[simp] theorem stopDeadline_pending {q} : (stopDeadline q s).pending = s.pending := by
  unfold stopDeadline
  split <;> simp
theorem bodyCueQuery_pending {c} : EndsWaitingAs s (bodyCueQuery c s) := by
  simp only [bodyCueQuery]
  exact checked_bind (by simp) fun _ => by simp
theorem bodyCueFlagRead_pending {c} : EndsWaitingAs s (bodyCueFlagRead c s) := by
  simp only [bodyCueFlagRead]
  exact checked_bind (by simp) fun _ => by simp

/-! ### Frames -/

@[simp] theorem judgeEvent_pending {slot j k} : (judgeEvent slot j k s).pending = s.pending := by
  unfold judgeEvent
  split <;> simp
@[simp] theorem startFrame_pending {x tag k sensor gvsp rows} : (startFrame x tag k sensor gvsp rows s).pending = s.pending := by
  unfold startFrame
  split <;> simp
@[simp] theorem updFrame_pending {slot f} : (updFrame slot f s).pending = s.pending := by
  simp [updFrame]
@[simp] theorem endFrame_pending {slot incomplete} : (endFrame slot incomplete s).pending = s.pending := by
  unfold endFrame
  split <;> simp
theorem execCsiFrameStart_pending {port vc n} : AnswersWaitingAs s (execCsiFrameStart port vc n s) := by
  simp only [execCsiFrameStart]
  (repeat' split) <;> simp
theorem execCsiPacket_pending {port vc p} : AnswersWaitingAs s (execCsiPacket port vc p s) := by
  simp only [execCsiPacket]
  (repeat' split) <;> simp
theorem execCsiFrameEnd_pending {port vc} : AnswersWaitingAs s (execCsiFrameEnd port vc s) := by
  unfold execCsiFrameEnd
  (repeat' split) <;> simp
@[simp] theorem putData_pending {x off bs} : (putData x off bs s).pending = s.pending := by
  simp [putData]
@[simp] theorem endData_pending {x lost} : (endData x lost s).pending = s.pending := by
  simp [endData]
@[simp] theorem beginData_pending {port k x sensor gvsp lost} : (beginData port k x sensor gvsp lost s).pending = s.pending := by
  simp only [beginData]
  split <;> simp
@[simp] theorem ethDrop_pending {reason port} : (ethDrop reason port s).pending = s.pending := by
  simp [ethDrop]
@[simp] theorem gvspNoLeader_pending {port k x} : (gvspNoLeader port k x s).pending = s.pending := by
  simp [gvspNoLeader, draw]
@[simp] theorem gvspPacket_pending {port x p} : (gvspPacket port x p s).pending = s.pending := by
  unfold gvspPacket
  split <;> simp
@[simp] theorem ssfImage_pending {port x b} : (ssfImage port x b s).pending = s.pending := by
  simp [ssfImage]
@[simp] theorem ssfLow_pending {port udp b} : (ssfLow port udp b s).pending = s.pending := by
  simp [ssfLow]
@[simp] theorem ssfDatagram_pending {port udp b} : (ssfDatagram port udp b s).pending = s.pending := by
  simp only [ssfDatagram]
  (repeat' split) <;> simp
@[simp] theorem netReply_pending {port q} : (netReply port q s).pending = s.pending := by
  unfold netReply
  split <;> simp
@[simp] theorem udpDatagram_pending {port dst bs g} : (udpDatagram port dst bs g s).pending = s.pending := by
  unfold udpDatagram
  split <;> simp
theorem execEthFrameReceived_pending {port f} : AnswersWaitingAs s (execEthFrameReceived port f s) := by
  unfold execEthFrameReceived
  (repeat' split) <;> simp

/-! ### Memory -/

@[simp] theorem updAlloc_pending {n : Nat} {f : Alloc → Alloc} : (updAlloc n f s).pending = s.pending := rfl
@[simp] theorem poisonMet_pending {slot ended} : (poisonMet slot ended s).pending = s.pending := by
  simp [poisonMet]
@[simp] theorem keepsPending_poisonMet {slot ended} : KeepsPending (poisonMet slot ended) := ⟨fun _ => by simp⟩
@[simp] theorem objectPoison_pending {ty slot ended} : (objectPoison ty slot ended s).pending = s.pending := by
  simp [objectPoison]
@[simp] theorem keepsPending_objectPoison {ty slot ended} : KeepsPending (objectPoison ty slot ended) := ⟨fun _ => by simp⟩
@[simp] theorem pairMet_pending {slot ended} : (pairMet slot ended s).pending = s.pending := by
  simp [pairMet]
@[simp] theorem keepsPending_pairMet {slot ended} : KeepsPending (pairMet slot ended) := ⟨fun _ => by simp⟩
@[simp] theorem allocRead_checked {slot off len} : Checked (allocRead slot off len s) := by
  simp only [allocRead]
  (repeat' first | with_reducible refine checked_bind ?_ fun _ => ?_ | split) <;> simp
@[simp] theorem placeAlloc_pending {fn a} : (placeAlloc fn a s).2.2.pending = s.pending := by
  simp only [placeAlloc, draw]
  (repeat' split) <;> simp
@[simp] theorem placeAllocS_pending {a1 a2} : (placeAllocS a1 a2 s).pending = s.pending := by
  simp [placeAllocS]
theorem bodyMemAlloc_pending {c} : EndsWaitingAs s (bodyMemAlloc c s) := by
  simp only [bodyMemAlloc, newObj_pair, placeAlloc_pair]
  (repeat' first | with_reducible refine checked_bind ?_ fun _ => ?_ | split) <;> simp
@[simp] theorem allocArg_checked {c} : Checked (allocArg c s) := by
  simp only [allocArg]
  split <;> simp
theorem bodyMemFree_pending {c} : EndsWaitingAs s (bodyMemFree c s) := by
  simp only [bodyMemFree]
  (repeat' first | with_reducible refine checked_bind ?_ fun _ => ?_ | split) <;> simp
@[simp] theorem copyIn_pending {c a} : (copyIn c a s).1.pending = s.pending := by
  unfold copyIn
  split <;> simp
@[simp] theorem copyInS_pending {a1 a2} : (copyInS a1 a2 s).pending = s.pending := by
  simp [copyInS]
@[simp] theorem copyOut_pending {c a} : (copyOut c a s).1.pending = s.pending := by
  simp only [copyOut]
  split <;> simp
@[simp] theorem copyOutS_pending {a1 a2} : (copyOutS a1 a2 s).pending = s.pending := by
  simp [copyOutS]
theorem bodyMemCopy_pending {c} : EndsWaitingAs s (bodyMemCopy c s) := by
  simp only [bodyMemCopy, copyIn_pair, copyOut_pair]
  (repeat' first | with_reducible refine checked_bind ?_ fun _ => ?_ | split) <;> simp
theorem bodyMemSeal_pending {c} : EndsWaitingAs s (bodyMemSeal c s) := by
  simp only [bodyMemSeal, draw]
  (repeat' first | with_reducible refine checked_bind ?_ fun _ => ?_ | split) <;> simp
@[simp] theorem windowChoice_pending {n} : (windowChoice n s).2.pending = s.pending := by
  simp [windowChoice]
@[simp] theorem windowChoiceS_pending {a1} : (windowChoiceS a1 s).pending = s.pending := by
  simp [windowChoiceS]

theorem bodyMemMapBar4_pending {c} : EndsWaitingAs s (bodyMemMapBar4 c s) := by
  simp only [bodyMemMapBar4]
  refine checked_bind (by simp) fun a => checked_bind (by simp) fun _ => ?_
  split
  · split
    · next p s' e =>
      have hs : s'.pending = s.pending := by
        have := windowChoice_pending (n := pagesOf a) (s := s)
        rwa [e] at this
      simp [hs]
    · simp
  · exact checked_bind (by simp) fun _ => by simp

theorem bodyMemUnmapBar4_pending {c} : EndsWaitingAs s (bodyMemUnmapBar4 c s) := by
  simp only [bodyMemUnmapBar4]
  (repeat' first | with_reducible refine checked_bind ?_ fun _ => ?_ | split) <;> simp
@[simp] theorem bar4Miss_pending : (bar4Miss s).pending = s.pending := by
  simp [bar4Miss]
theorem execBar4Access_pending {off acc} : AnswersWaitingAs s (execBar4Access off acc s) := by
  unfold execBar4Access
  (repeat' split) <;> simp
theorem execBar4MissRead_pending : AnswersWaitingAs s (execBar4MissRead s) := by
  simp [execBar4MissRead]
theorem bodyMemQuotaSet_pending {c} : EndsWaitingAs s (bodyMemQuotaSet c s) := by
  simp [bodyMemQuotaSet]
theorem bodyMemQuotaQuery_pending {c} : EndsWaitingAs s (bodyMemQuotaQuery c s) := by
  simp only [bodyMemQuotaQuery]
  exact checked_bind (by simp) fun _ => by simp
theorem bodyMemStats_pending {c} : EndsWaitingAs s (bodyMemStats c s) := by
  simp [bodyMemStats]
@[simp] theorem moveAlloc_pending {a fn} : (moveAlloc a fn s).pending = s.pending := by
  simp [moveAlloc]
theorem execAllocMove_pending {slot} : AnswersWaitingAs s (execAllocMove slot s) := by
  unfold execAllocMove
  split <;> simp

/-! ### Sched -/

@[simp] theorem checkSched_checked {b} : Checked (checkSched b) := by
  simp only [checkSched]
  (repeat' first | with_reducible refine checked_bind ?_ fun _ => ?_ | split) <;> simp

/-! ### Blocks -/

@[simp] theorem quarantineBytes_pending {n} : (quarantineBytes n s).pending = s.pending := by
  simp [quarantineBytes]
@[simp] theorem refillPool_pending : (refillPool s).pending = s.pending := by
  simp [refillPool]
theorem takeGranule_pending (e : takeGranule s = some t) : t.pending = s.pending := by
  simp only [takeGranule] at e
  (repeat' split at e) <;> cases e <;> simp
@[simp] theorem updPkg_pending {slot f} : (updPkg slot f s).pending = s.pending := by
  simp [updPkg]
@[simp] theorem startRefetch_pending {slot} : (startRefetch slot s).pending = s.pending := by
  simp [startRefetch]
@[simp] theorem quarantine_pending {slot i} : (quarantine slot i s).pending = s.pending := by
  unfold quarantine
  split <;> simp

/-! ### Package -/

@[simp] theorem checkPkg_checked {b} : Checked (checkPkg b) := by
  simp only [checkPkg]
  (repeat' first | with_reducible refine checked_bind ?_ fun _ => ?_ | split) <;> simp
@[simp] theorem pkgFit_checked {fn p} : Checked (pkgFit fn p s) := by
  simp only [pkgFit]
  (repeat' first | with_reducible refine checked_bind ?_ fun _ => ?_ | split) <;> simp
theorem bodyPkgLoad_pending {c} : EndsWaitingAs s (bodyPkgLoad c s) := by
  simp only [bodyPkgLoad, newObj_pair]
  (repeat' first | with_reducible refine checked_bind ?_ fun _ => ?_ | split) <;> simp
@[simp] theorem pkgArg_checked {c} : Checked (pkgArg c s) := by
  simp only [pkgArg]
  split <;> simp
theorem bodyPkgUnload_pending {c} : EndsWaitingAs s (bodyPkgUnload c s) := by
  simp [bodyPkgUnload]
theorem bodyPkgQuery_pending {c} : EndsWaitingAs s (bodyPkgQuery c s) := by
  simp only [bodyPkgQuery]
  exact checked_bind (by simp) fun _ => by simp

/-! ### Tile -/

@[simp] theorem updInst_pending {n : Nat} {f : Inst → Inst} : (updInst n f s).pending = s.pending := rfl
@[simp] theorem updHead_pending {slot f} : (updHead slot f s).pending = s.pending := by
  simp [updHead]
@[simp] theorem updRun_pending {slot serial f} : (updRun slot serial f s).pending = s.pending := by
  simp [updRun]
@[simp] theorem putTile_pending {t1} : (putTile t1 s).pending = s.pending := by
  simp [putTile]
@[simp] theorem putPool_pending {c ts} : (putPool c ts s).pending = s.pending := by
  simp [putPool]

@[simp] theorem placeTasks_pending {c n : Nat} : (placeTasks c n s).pending = s.pending := by
  induction n generalizing s with
  | zero => rfl
  | succ n ih =>
    simp only [placeTasks]
    split
    · simp [ih]
    · rfl

@[simp] theorem startTask_pending {id t1} : (startTask id t1 s).pending = s.pending := by
  simp [startTask]
@[simp] theorem takeTask_pending {id} : (takeTask id s).pending = s.pending := by
  simp only [takeTask]
  (repeat' split) <;> simp
@[simp] theorem pump_pending {c} : (pump c s).pending = s.pending := by
  simp [pump]
@[simp] theorem releaseTasks_pending {inst} : (releaseTasks inst s).pending = s.pending := by
  unfold releaseTasks
  (repeat' split) <;> simp
@[simp] theorem releaseAllTasks_pending : (releaseAllTasks s).pending = s.pending := by
  simp [releaseAllTasks]
@[simp] theorem pumpAll_pending : (pumpAll s).pending = s.pending := by
  simp [pumpAll]
@[simp] theorem signalPort_pending {x r port st moved} : (signalPort x r port st moved s).pending = s.pending := by
  unfold signalPort
  (repeat' split) <;> simp
@[simp] theorem signalRest_pending {x r st} : (signalRest x r st s).pending = s.pending := by
  unfold signalRest
  simp
@[simp] theorem releaseInputs_pending {x r} : (releaseInputs x r s).pending = s.pending := by
  unfold releaseInputs
  exact foldl_pending (fun _ _ => by split <;> simp) _ _
@[simp] theorem fillSlots_pending {inst} : (fillSlots inst s).pending = s.pending := by
  unfold fillSlots
  (repeat' split) <;> simp
@[simp] theorem stopStalled_pending {r} : (stopStalled r s).pending = s.pending := by
  simp [stopStalled]
@[simp] theorem endRun_pending {inst r st} : (endRun inst r st s).pending = s.pending := by
  unfold endRun
  split <;> simp
@[simp] theorem endHead_pending {inst st} : (endHead inst st s).pending = s.pending := by
  unfold endHead
  split <;> simp
@[simp] theorem toTasks_pending {inst} : (toTasks inst s).pending = s.pending := by
  simp only [toTasks, draw]
  (repeat' split) <;> simp
@[simp] theorem trySlot_pending {inst} : (trySlot inst s).pending = s.pending := by
  unfold trySlot
  (repeat' split) <;> simp
@[simp] theorem tryFlag_pending {inst} : (tryFlag inst s).pending = s.pending := by
  simp only [tryFlag]
  (repeat' split) <;> simp
@[simp] theorem startRun_pending {inst} : (startRun inst s).pending = s.pending := by
  unfold startRun
  (repeat' split) <;> simp

@[simp] theorem kick_pending {inst n : Nat} : (kick inst n s).pending = s.pending := by
  induction n generalizing s with
  | zero => rfl
  | succ n ih =>
    simp only [kick]
    (repeat' split) <;> simp [ih]

@[simp] theorem advanceInst_pending {inst} : (advanceInst inst s).pending = s.pending := by
  simp [advanceInst]
@[simp] theorem layerDone_pending {inst} : (layerDone inst s).pending = s.pending := by
  simp only [layerDone]
  (repeat' split) <;> simp
@[simp] theorem taskWrite_pending {t1 w} : (taskWrite t1 w s).2.pending = s.pending := by
  simp only [taskWrite]
  (repeat' split) <;> simp
@[simp] theorem taskWriteS_pending {a1 a2} : (taskWriteS a1 a2 s).pending = s.pending := by
  simp [taskWriteS]
@[simp] theorem taskWrites_pending {t : Task} {ws : List TileWrite} : (taskWrites t ws s).2.pending = s.pending :=
  foldl_snd_pending (f := fun (p : Nat × State) w => ((if p.1 = stOk then (taskWrite t w p.2).1 else p.1), (taskWrite t w p.2).2))
    (fun _ _ => taskWrite_pending) _ _
@[simp] theorem taskWritesS_pending {a1 a2} : (taskWritesS a1 a2 s).pending = s.pending := by
  simp [taskWritesS]
@[simp] theorem tileMediaError_pending {id t1 addr syndrome} : (tileMediaError id t1 addr syndrome s).pending = s.pending := by
  unfold tileMediaError
  split <;> simp
@[simp] theorem endTaskRun_pending {t1 st} : (endTaskRun t1 st s).pending = s.pending := by
  unfold endTaskRun
  split <;> simp
@[simp] theorem freeTile_pending {id} : (freeTile id s).pending = s.pending := by
  simp [freeTile]
@[simp] theorem endLayer_pending {inst serial} : (endLayer inst serial s).pending = s.pending := by
  simp [endLayer]
theorem execTaskComplete_pending {id o} : AnswersWaitingAs s (execTaskComplete id o s) := by
  unfold execTaskComplete
  split <;> simp
theorem execTileFlagWrite_pending {slot fi at' bs tile writes} : AnswersWaitingAs s (execTileFlagWrite slot fi at' bs s tile writes) := by
  unfold execTileFlagWrite
  split <;> simp
theorem execTaskWatchdog_pending {id} : AnswersWaitingAs s (execTaskWatchdog id s) := by
  unfold execTaskWatchdog
  split <;> simp
theorem execTileSteal_pending {id} : AnswersWaitingAs s (execTileSteal id s) := by
  unfold execTileSteal
  split <;> simp
@[simp] theorem unstall_pending {run layer} : (unstall run layer s).pending = s.pending := by
  simp [unstall]
@[simp] theorem quarantineRead_pending {pkg i} : (quarantineRead pkg i s).pending = s.pending := by
  simp [quarantineRead]
@[simp] theorem blockFault_pending {pkg i} : (blockFault pkg i s).pending = s.pending := by
  simp [blockFault]
theorem execWeightLanded_pending {inst k run} : AnswersWaitingAs s (execWeightLanded inst k s run) := by
  unfold execWeightLanded
  (repeat' split) <;> simp
@[simp] theorem stopLate_pending {pkg i} : (stopLate pkg i s).pending = s.pending := by
  unfold stopLate
  split <;> simp
theorem execLateWeightExpiry_pending {inst} : AnswersWaitingAs s (execLateWeightExpiry inst s) := by
  unfold execLateWeightExpiry
  (repeat' split) <;> simp
theorem execWeightTimeout_pending {inst} : AnswersWaitingAs s (execWeightTimeout inst s) := by
  unfold execWeightTimeout
  (repeat' split) <;> simp
theorem execFlagWaitMet_pending {inst} : AnswersWaitingAs s (execFlagWaitMet inst s) := by
  unfold execFlagWaitMet
  (repeat' split) <;> simp
theorem execFlagWaitExpiry_pending {inst} : AnswersWaitingAs s (execFlagWaitExpiry inst s) := by
  unfold execFlagWaitExpiry
  (repeat' split) <;> simp

@[simp] theorem checkBinds_checked {c : Ctx} {l : List (PortRec × (Nat × Nat × Bool))} {i : Nat} : Checked (checkBinds c s l i) := by
  induction l generalizing i with
  | nil => trivial
  | cons p rest ih =>
    simp only [checkBinds]
    refine checked_bind (by simp) fun _ => checked_bind (by simp) fun _ => checked_bind (by simp) fun _ =>
      checked_bind (by simp) fun _ => ?_
    split
    · exact keepsPending_id
    · exact checked_bind ih fun _ => trivial

theorem bodyInstCreate_pending {c} : EndsWaitingAs s (bodyInstCreate c s) := by
  simp only [bodyInstCreate, newObj_pair]
  (repeat' first | with_reducible refine checked_bind ?_ fun _ => ?_ | split) <;> simp
@[simp] theorem instArg_checked {c} : Checked (instArg c s) := by
  simp only [instArg]
  split <;> simp
@[simp] theorem abortQueued_pending {inst} : (abortQueued inst s).2.pending = s.pending := by
  simp [abortQueued]
@[simp] theorem abortQueuedS_pending {a1} : (abortQueuedS a1 s).pending = s.pending := by
  simp [abortQueuedS]
theorem bodyInstDestroy_pending {c} : EndsWaitingAs s (bodyInstDestroy c s) := by
  simp only [bodyInstDestroy, abortQueued_pair]
  exact checked_bind (by simp) fun x => releaseBody_pending.bind fun p hp => by simp [hp]
theorem bodyInferRun_pending {c} : EndsWaitingAs s (bodyInferRun c s) := by
  simp only [bodyInferRun]
  (repeat' first | with_reducible refine checked_bind ?_ fun _ => ?_ | split) <;> simp
theorem bodyInstQuery_pending {c} : EndsWaitingAs s (bodyInstQuery c s) := by
  simp only [bodyInstQuery]
  exact checked_bind (by simp) fun _ => by simp
@[simp] theorem cancelRun_pending {q st} : (cancelRun q st s).pending = s.pending := by
  unfold cancelRun
  (repeat' split) <;> simp

/-! ### Solver -/

@[simp] theorem updProb_pending {slot f} : (updProb slot f s).pending = s.pending := by
  simp [updProb]
@[simp] theorem placeGsus_checked {m} : Checked (placeGsus m s) := by
  simp only [placeGsus]
  exact checked_bind (by simp) fun _ => by simp
@[simp] theorem holdClaim_pending {p sec} : (holdClaim p sec s).pending = s.pending := by
  simp [holdClaim]
theorem bodySolvLoad_pending {c} : EndsWaitingAs s (bodySolvLoad c s) := by
  simp only [bodySolvLoad, draw, newObj_pair]
  (repeat' first | with_reducible refine checked_bind ?_ fun _ => ?_ | split) <;> simp
@[simp] theorem probArg_checked {c} : Checked (probArg c s) := by
  simp only [probArg]
  split <;> simp
@[simp] theorem allocBatch_checked {c} : Checked (allocBatch c s) := by
  simp only [allocBatch]
  (repeat' first | with_reducible refine checked_bind ?_ fun _ => ?_ | split) <;> simp
theorem bodySolvDelta_pending {c} : EndsWaitingAs s (bodySolvDelta c s) := by
  simp only [bodySolvDelta]
  (repeat' first | with_reducible refine checked_bind ?_ fun _ => ?_ | split) <;> simp
theorem bodySolvRun_pending {c} : EndsWaitingAs s (bodySolvRun c s) := by
  simp only [bodySolvRun]
  (repeat' first | with_reducible refine checked_bind ?_ fun _ => ?_ | split) <;> simp
@[simp] theorem dropRun_pending {slot st} : (dropRun slot st s).pending = s.pending := by
  unfold dropRun
  split <;> simp
theorem execSolveStart_pending {slot} : AnswersWaitingAs s (execSolveStart slot s) := by
  unfold execSolveStart
  (repeat' split) <;> simp
@[simp] theorem publishPoses_pending {grid sol st} : (publishPoses grid sol st s).pending = s.pending := by
  simp [publishPoses]
@[simp] theorem deliver_pending {slot sol st} : (deliver slot sol st s).pending = s.pending := by
  simp [deliver]
@[simp] theorem completeSolve_pending {p r} : (completeSolve p r s).pending = s.pending := by
  simp [completeSolve]
@[simp] theorem badProblem_pending {p syndrome slot action ended f} : (badProblem p syndrome slot action ended f s).pending = s.pending := by
  unfold badProblem
  split <;> simp
theorem execSolveComplete_pending {slot e} : AnswersWaitingAs s (execSolveComplete slot e s) := by
  unfold execSolveComplete
  (repeat' split) <;> simp
@[simp] theorem staleRun_pending {p r} : (staleRun p r s).pending = s.pending := by
  simp [staleRun, draw, drawBytes]
@[simp] theorem pastDeadline_pending {p r} : (pastDeadline p r s).pending = s.pending := by
  simp [pastDeadline]
theorem execSolveDeadline_pending {slot} : AnswersWaitingAs s (execSolveDeadline slot s) := by
  unfold execSolveDeadline
  (repeat' split) <;> simp
@[simp] theorem solveTimeout_pending {q} : (solveTimeout q s).pending = s.pending := by
  unfold solveTimeout
  split <;> simp
@[simp] theorem cancelSolve_pending {q st} : (cancelSolve q st s).pending = s.pending := by
  unfold cancelSolve
  split <;> simp
@[simp] theorem abortGroup_pending {grp} : (abortGroup grp s).pending = s.pending := by
  simp [abortGroup]
theorem bodySolvUnload_pending {c} : EndsWaitingAs s (bodySolvUnload c s) := by
  simp only [bodySolvUnload]
  exact checked_bind (by simp) fun x => releaseBody_pending.bind fun p hp => by simp [hp]
theorem bodySolvResult_pending {c} : EndsWaitingAs s (bodySolvResult c s) := by
  simp only [bodySolvResult]
  (repeat' first | with_reducible refine checked_bind ?_ fun _ => ?_ | split) <;> simp
theorem bodySolvQuery_pending {c} : EndsWaitingAs s (bodySolvQuery c s) := by
  simp only [bodySolvQuery]
  exact checked_bind (by simp) fun _ => by simp

/-! ### Fusion -/

@[simp] theorem replaceCal_pending {old new} : (replaceCal old new s).pending = s.pending := by
  simp [replaceCal]
theorem bodyCalCreate_pending {c} : EndsWaitingAs s (bodyCalCreate c s) := by
  simp only [bodyCalCreate, newObj_pair]
  (repeat' first | with_reducible refine checked_bind ?_ fun _ => ?_ | split) <;> simp
theorem bodyCalDestroy_pending {c} : EndsWaitingAs s (bodyCalDestroy c s) := by
  simp [bodyCalDestroy]
@[simp] theorem updGrid_pending {slot f} : (updGrid slot f s).pending = s.pending := by
  simp [updGrid]
@[simp] theorem egoPkgOf_checked {c} : Checked (egoPkgOf c s) := by
  simp only [egoPkgOf]
  split <;> simp
theorem bodyGridCreate_pending {c} : EndsWaitingAs s (bodyGridCreate c s) := by
  simp only [bodyGridCreate, draw, newObj_pair]
  (repeat' first | with_reducible refine checked_bind ?_ fun _ => ?_ | split) <;> simp
@[simp] theorem gridArg_checked {c} : Checked (gridArg c s) := by
  simp only [gridArg]
  split <;> simp
theorem bodyGridDestroy_pending {c} : EndsWaitingAs s (bodyGridDestroy c s) := by
  simp only [bodyGridDestroy]
  exact releaseBody_pending.bind fun p hp => by simp [hp]
theorem bodyGridRead_pending {c} : EndsWaitingAs s (bodyGridRead c s) := by
  simp only [bodyGridRead]
  (repeat' first | with_reducible refine checked_bind ?_ fun _ => ?_ | split) <;> simp

@[simp] theorem applyPend_pending {slot} : (applyPend slot s).pending = s.pending := by
  unfold applyPend
  split
  · rfl
  · exact foldl_pending (fun s x => by cases x <;> simp) _ _

@[simp] theorem pendChange_pending {slot p} : (pendChange slot p s).pending = s.pending := by
  simp [pendChange]
@[simp] theorem dropPend_pending {r} : (dropPend r s).pending = s.pending := by
  simp [dropPend]
theorem bodyGridClear_pending {c} : EndsWaitingAs s (bodyGridClear c s) := by
  simp only [bodyGridClear]
  exact checked_bind (by simp) fun _ => by simp
theorem bodyGridVoteSet_pending {c} : EndsWaitingAs s (bodyGridVoteSet c s) := by
  simp only [bodyGridVoteSet]
  exact checked_bind (by simp) fun _ => by simp
@[simp] theorem adoptCals_pending {slot} : (adoptCals slot s).pending = s.pending := by
  unfold adoptCals
  split <;> simp
@[simp] theorem updEpoch_pending {slot no f} : (updEpoch slot no f s).pending = s.pending := by
  simp [updEpoch]
@[simp] theorem dropBatch_pending {slot} : (dropBatch slot s).pending = s.pending := by
  simp [dropBatch]
@[simp] theorem liftPose_pending {y cal t1} : (liftPose y cal t1 s).2.pending = s.pending := by
  unfold liftPose
  split <;> simp
@[simp] theorem liftPoseS_pending {a1 a2 a3} : (liftPoseS a1 a2 a3 s).pending = s.pending := by
  simp [liftPoseS]
@[simp] theorem takeBatch_pending {g y cal b x r} : (takeBatch g y cal b x r s).2.pending = s.pending := by
  simp only [takeBatch, draw, liftPose_pair]
  split <;> simp
@[simp] theorem takeBatchS_pending {a1 a2 a3 a4 a5 a6} : (takeBatchS a1 a2 a3 a4 a5 a6 s).pending = s.pending := by
  simp [takeBatchS]
@[simp] theorem enterBatch_pending {slot b x r e} : (enterBatch slot b x r e s).pending = s.pending := by
  simp only [enterBatch, takeBatch_pair]
  (repeat' split) <;> simp
@[simp] theorem openEpoch_pending {slot t1} : (openEpoch slot t1 s).pending = s.pending := by
  simp [openEpoch]
theorem execScatterBatch_pending {slot b tile} : AnswersWaitingAs s (execScatterBatch slot b s tile) := by
  simp only [execScatterBatch]
  (repeat' split) <;> simp
theorem execEpochLimit_pending {slot} : AnswersWaitingAs s (execEpochLimit slot s) := by
  unfold execEpochLimit
  (repeat' split) <;> simp

@[simp] theorem judgeSensors_pending {slot judged} : (judgeSensors slot judged s).pending = s.pending := by
  unfold judgeSensors
  split
  · rfl
  · exact foldl_pending (fun s x => by dsimp only; split <;> simp) _ _

@[simp] theorem gateReject_pending {slot i source} : (gateReject slot i source s).pending = s.pending := by
  simp [gateReject]
@[simp] theorem addMeas_pending {slot ms} : (addMeas slot ms s).pending = s.pending := by
  simp [addMeas]
@[simp] theorem gatePose_pending {m y source no t1 pose cov} : (gatePose m y source no t1 pose cov s).pending = s.pending := by
  simp [gatePose]
@[simp] theorem measureJoints_pending {m y} : (measureJoints m y s).pending = s.pending := by
  simp [measureJoints]
@[simp] theorem measureHost_pending {m y scale no t1 b} : (measureHost m y scale no t1 b s).pending = s.pending := by
  simp [measureHost]
@[simp] theorem measureRest_pending {m y} : (measureRest m y s).pending = s.pending := by
  simp [measureRest]
@[simp] theorem measureSensor_pending {slot e i} : (measureSensor slot e i s).pending = s.pending := by
  unfold measureSensor
  (repeat' split) <;> simp
@[simp] theorem loadWindow_pending {slot tu} : (loadWindow slot tu s).pending = s.pending := by
  unfold loadWindow
  split <;> simp
@[simp] theorem egoRun_pending {slot tu} : (egoRun slot tu s).pending = s.pending := by
  unfold egoRun
  split <;> simp

@[simp] theorem liftBatches_pending {g e} : (liftBatches g e s).2.pending = s.pending := by
  unfold liftBatches
  refine foldl_snd_pending (fun p b => ?_) _ _
  simp only [liftPose_pair]
  (repeat' split) <;> simp

@[simp] theorem liftBatchesS_pending {a1 a2} : (liftBatchesS a1 a2 s).pending = s.pending := by
  simp [liftBatchesS]

@[simp] theorem closeLifts_pending {slot e} : (closeLifts slot e s).pending = s.pending := by
  unfold closeLifts
  split
  · rfl
  · refine foldl_pending (fun s x => ?_) _ _
    (repeat' split) <;> simp

@[simp] theorem closeEpoch_pending {g e} : (closeEpoch g e s).pending = s.pending := by
  simp [closeEpoch, liftBatches_pair]
theorem execEpochClose_pending {slot} : AnswersWaitingAs s (execEpochClose slot s) := by
  unfold execEpochClose
  (repeat' split) <;> simp
theorem bodyGridPoseSubmit_pending {c} : EndsWaitingAs s (bodyGridPoseSubmit c s) := by
  simp only [bodyGridPoseSubmit]
  (repeat' first | with_reducible refine checked_bind ?_ fun _ => ?_ | split) <;> simp
theorem bodyGridStatus_pending {c} : EndsWaitingAs s (bodyGridStatus c s) := by
  simp only [bodyGridStatus]
  exact checked_bind (by simp) fun _ => by simp

/-! ### Journal -/

@[simp] theorem journalRoom_checked : Checked (journalRoom s) := by
  simp [journalRoom]
@[simp] theorem journalPut_pending {r} : (journalPut r s).pending = s.pending := rfl
@[simp] theorem journalBegin_pending {op src opcode handle detail} : (journalBegin op src opcode handle detail s).2.pending = s.pending := by
  simp [journalBegin]
@[simp] theorem journalBeginS_pending {a1 a2 a3 a4 a5} : (journalBeginS a1 a2 a3 a4 a5 s).pending = s.pending := by
  simp [journalBeginS]
@[simp] theorem journalStep_pending {n step progress} : (journalStep n step progress s).pending = s.pending := by
  unfold journalStep
  split <;> simp
@[simp] theorem repost_pending {n st r0 outcome} : (repost n st r0 outcome s).pending = s.pending := by
  unfold repost
  (repeat' split) <;> simp
@[simp] theorem journalProgress_pending {n per total} : (journalProgress n per total s).pending = s.pending := by
  simp [journalProgress]

/-! ### MapStore -/

@[simp] theorem updMap_pending {slot f} : (updMap slot f s).pending = s.pending := by
  simp [updMap]

/-! ### Map -/

@[simp] theorem updPort_pending {p f} : (updPort p f s).pending = s.pending := by
  simp [updPort]
@[simp] theorem contextMet_pending {engine bad} : (contextMet engine bad s).pending = s.pending := by
  unfold contextMet
  split <;> simp
@[simp] theorem sendTo_pending {k what} : (sendTo k what s).pending = s.pending := by
  simp [sendTo]
@[simp] theorem mapOf_checked {c} : Checked (mapOf c s) := by
  simp only [mapOf]
  (repeat' first | with_reducible refine checked_bind ?_ fun _ => ?_ | split) <;> simp
@[simp] theorem mapQuorum_checked {m} : Checked (mapQuorum m s) := by
  simp [mapQuorum]
@[simp] theorem mapArg_checked {c} : Checked (mapArg c s) := by
  simp only [mapArg]
  (repeat' first | with_reducible refine checked_bind ?_ fun _ => ?_ | split) <;> simp
@[simp] theorem anchorMet_pending {slot} : (anchorMet slot s).pending = s.pending := by
  simp [anchorMet]
@[simp] theorem keepsPending_anchorMet {slot} : KeepsPending (anchorMet slot) := ⟨fun _ => by simp⟩
@[simp] theorem anchorCheck_checked {m frame} : Checked (anchorCheck m frame) := by
  simp [anchorCheck]
@[simp] theorem addMap_pending {c m n} : (addMap c m n s).1.pending = s.pending := by
  simp [addMap]
@[simp] theorem addMapS_pending {a1 a2 a3} : (addMapS a1 a2 a3 s).pending = s.pending := by
  simp [addMapS]
@[simp] theorem mapFit_checked {fn n} : Checked (mapFit fn n s) := by
  simp only [mapFit]
  (repeat' first | with_reducible refine checked_bind ?_ fun _ => ?_ | split) <;> simp
theorem bodyMapCreate_pending {c} : EndsWaitingAs s (bodyMapCreate c s) := by
  simp only [bodyMapCreate, addMap_pair]
  (repeat' first | with_reducible refine checked_bind ?_ fun _ => ?_ | split) <;> simp
@[simp] theorem startMove_pending {slot sh} : (startMove slot sh s).pending = s.pending := by
  unfold startMove
  (repeat' split) <;> simp
@[simp] theorem advanceReshard_pending {slot} : (advanceReshard slot s).pending = s.pending := by
  unfold advanceReshard
  (repeat' split) <;> simp
@[simp] theorem stopReshard_pending {slot st} : (stopReshard slot st s).pending = s.pending := by
  unfold stopReshard
  split <;> simp
@[simp] theorem endRepot_pending {slot st r0 outcome} : (endRepot slot st r0 outcome s).pending = s.pending := by
  unfold endRepot
  (repeat' split) <;> simp
@[simp] theorem rollBack_pending {slot st} : (rollBack slot st s).pending = s.pending := by
  unfold rollBack
  split <;> simp
@[simp] theorem stopRepot_pending {slot st} : (stopRepot slot st s).pending = s.pending := by
  unfold stopRepot
  split <;> simp
theorem bodyMapDestroy_pending {c} : EndsWaitingAs s (bodyMapDestroy c s) := by
  simp only [bodyMapDestroy]
  exact releaseBody_pending.bind fun p hp => by simp [hp]
@[simp] theorem admitCtx_pending {c map write} : (admitCtx c map write s).pending = s.pending := rfl
@[simp] theorem dropCtx_pending {r} : (dropCtx r s).pending = s.pending := by
  simp [dropCtx]
@[simp] theorem recCheck_checked {st i} : Checked (recCheck st i) := by
  simp only [recCheck]
  split <;> simp
theorem bodyMapInsert_pending {c} : EndsWaitingAs s (bodyMapInsert c s) := by
  simp only [bodyMapInsert]
  (repeat' first | with_reducible refine checked_bind ?_ fun _ => ?_ | split) <;> simp
theorem bodyMapDelete_pending {c} : EndsWaitingAs s (bodyMapDelete c s) := by
  simp only [bodyMapDelete]
  (repeat' first | with_reducible refine checked_bind ?_ fun _ => ?_ | split) <;> simp
theorem bodyMapRead_pending {c} : EndsWaitingAs s (bodyMapRead c s) := by
  simp only [bodyMapRead]
  (repeat' first | with_reducible refine checked_bind ?_ fun _ => ?_ | split) <;> simp
theorem bodyMapTraverse_pending {c} : EndsWaitingAs s (bodyMapTraverse c s) := by
  simp only [bodyMapTraverse]
  exact checked_bind (by simp) fun _ => by simp
@[simp] theorem endCtx_pending {x st r0 r1 data} : (endCtx x st r0 r1 data s).pending = s.pending := by
  simp [endCtx]
@[simp] theorem raiseRetired_pending {slot n} : (raiseRetired slot n s).pending = s.pending := by
  simp [raiseRetired]

@[simp] theorem sendShard_pending {m n : Nat} {b : State × List (Nat × Nat × Nat)} : (sendShard m b n).1.pending = b.1.pending := by
  unfold sendShard
  split
  split <;> simp

@[simp] theorem sendShards_pending {m : Nat} {l : List Nat} {b : State × List (Nat × Nat × Nat)} :
    (l.foldl (sendShard m) b).1.pending = b.1.pending := by
  induction l generalizing b with
  | nil => rfl
  | cons n l ih => exact ih.trans sendShard_pending

@[simp] theorem finishWrite_pending {x shards r0 r1 data} : (finishWrite x shards r0 r1 data s).pending = s.pending := by
  unfold finishWrite
  split
  next t acks e =>
    have ht : t.pending = s.pending := by
      simpa [e] using sendShards_pending (m := x.map) (l := shards.eraseDups) (b := (s, []))
    simp [ht]

@[simp] theorem mapPoisonMet_pending {slot} : (mapPoisonMet slot s).pending = s.pending := by
  simp [mapPoisonMet]
@[simp] theorem keepsPending_mapPoisonMet {slot} : KeepsPending (mapPoisonMet slot) := ⟨fun _ => by simp⟩
@[simp] theorem doneInsert_pending {x q m} : (doneInsert x q m s).pending = s.pending := by
  simp [doneInsert]
@[simp] theorem doneDelete_pending {x q m} : (doneDelete x q m s).pending = s.pending := by
  simp [doneDelete]
@[simp] theorem doneRead_pending {x q m} : (doneRead x q m s).pending = s.pending := by
  simp [doneRead]
@[simp] theorem doneTraverse_pending {x q m} : (doneTraverse x q m s).pending = s.pending := by
  simp [doneTraverse]
theorem execMapCommandDone_pending {r bad} : AnswersWaitingAs s (execMapCommandDone r s bad) := by
  unfold execMapCommandDone
  (repeat' split) <;> simp
@[simp] theorem shardAcked_pending {map sh member n} : (shardAcked map sh member n s).pending = s.pending := by
  simp [shardAcked]
theorem bodyMapDeadheadSet_pending {c} : EndsWaitingAs s (bodyMapDeadheadSet c s) := by
  simp only [bodyMapDeadheadSet]
  exact checked_bind (by simp) fun _ => by simp
@[simp] theorem dhIndex_pending {m} : (dhIndex m s).pending = s.pending := by
  unfold dhIndex
  (repeat' split) <;> simp
theorem execDeadheadPass_pending {slot} : AnswersWaitingAs s (execDeadheadPass slot s) := by
  unfold execDeadheadPass
  (repeat' split) <;> simp
@[simp] theorem targetShort_pending {target n} : (targetShort target n s).2.pending = s.pending := by
  unfold targetShort
  split <;> simp
@[simp] theorem targetShortS_pending {a1 a2} : (targetShortS a1 a2 s).pending = s.pending := by
  simp [targetShortS]
theorem targetFits_yields {short : Nat} : ChecksTo (fun t => t.pending = s.pending) (targetFits short s) :=
  checked_bind (by simp) fun _ => rfl
@[simp] theorem startRepot_pending {slot shard mode target pauseUs q} : (startRepot slot shard mode target pauseUs q s).pending = s.pending := by
  unfold startRepot
  split <;> simp

theorem bodyMapRepot_pending {c} : EndsWaitingAs s (bodyMapRepot c s) := by
  simp only [bodyMapRepot]
  refine checked_bind (by simp) fun _ => checked_bind (by simp) fun _ => checked_bind (by simp) fun _ =>
    checked_bind (by simp) fun _ => checked_bind (by simp) fun _ => checked_bind (by simp) fun _ => checked_bind (by simp) fun _ => ?_
  generalize hp : (if prm c 1 1 = 1 then _ else _ : Nat × State) = p
  have hs : p.2.pending = s.pending := by
    subst hp
    split
    · exact targetShort_pending
    · rfl
  exact targetFits_yields.bind fun t ht => by simp [ht.trans hs]

theorem execRepotCopyDone_pending {slot} : AnswersWaitingAs s (execRepotCopyDone slot s) := by
  unfold execRepotCopyDone
  (repeat' split) <;> simp
@[simp] theorem commitRepot_pending {slot p} : (commitRepot slot p s).pending = s.pending := by
  simp only [commitRepot]
  (repeat' split) <;> simp
@[simp] theorem releaseRepot_pending {slot p outcome} : (releaseRepot slot p outcome s).pending = s.pending := by
  simp [releaseRepot]
theorem execRepotCommit_pending {order} : AnswersWaitingAs s (execRepotCommit order s) := by
  simp only [execRepotCommit, answersWaitingAs_next]
  (repeat' split) <;> simp
theorem execRepotPauseExpiry_pending {slot} : AnswersWaitingAs s (execRepotPauseExpiry slot s) := by
  unfold execRepotPauseExpiry
  split <;> simp
@[simp] theorem ckptHands_checked {c} : Checked (ckptHands c s) := by
  simp [ckptHands]
@[simp] theorem ckptAlloc_checked {c} : Checked (ckptAlloc c s) := by
  simp only [ckptAlloc]
  (repeat' first | with_reducible refine checked_bind ?_ fun _ => ?_ | split) <;> simp
theorem bodyMapCheckpoint_pending {c} : EndsWaitingAs s (bodyMapCheckpoint c s) := by
  simp only [bodyMapCheckpoint, drawBytes]
  (repeat' first | with_reducible refine checked_bind ?_ fun _ => ?_ | split) <;> simp
theorem bodyMapRestore_pending {c} : EndsWaitingAs s (bodyMapRestore c s) := by
  simp only [bodyMapRestore, addMap_pair]
  (repeat' first | with_reducible refine checked_bind ?_ fun _ => ?_ | split) <;> simp

/-! ### Search -/

@[simp] theorem updIdx_pending {slot f} : (updIdx slot f s).pending = s.pending := by
  simp [updIdx]
theorem bodyIdxCreate_pending {c} : EndsWaitingAs s (bodyIdxCreate c s) := by
  simp only [bodyIdxCreate, newObj_pair]
  (repeat' first | with_reducible refine checked_bind ?_ fun _ => ?_ | split) <;> simp
@[simp] theorem idxArgOf_checked {slot} : Checked (idxArgOf slot s) := by
  simp only [idxArgOf]
  (repeat' first | with_reducible refine checked_bind ?_ fun _ => ?_ | split) <;> simp
@[simp] theorem endRebuild_pending {slot st r0 outcome} : (endRebuild slot st r0 outcome s).pending = s.pending := by
  unfold endRebuild
  (repeat' split) <;> simp
@[simp] theorem stopRebuild_pending {x st} : (stopRebuild x st s).pending = s.pending := by
  simp [stopRebuild]
theorem bodyIdxDestroy_pending {c} : EndsWaitingAs s (bodyIdxDestroy c s) := by
  simp only [bodyIdxDestroy]
  exact releaseBody_pending.bind fun p hp => by simp [hp]
@[simp] theorem idxPoisonMet_pending {slot} : (idxPoisonMet slot s).pending = s.pending := by
  simp [idxPoisonMet]
@[simp] theorem keepsPending_idxPoisonMet {slot} : KeepsPending (idxPoisonMet slot) := ⟨fun _ => by simp⟩
@[simp] theorem itemsRead_checked {x es} : Checked (itemsRead x es) := by
  simp [itemsRead]
theorem bodyIdxInsert_pending {c} : EndsWaitingAs s (bodyIdxInsert c s) := by
  simp only [bodyIdxInsert]
  (repeat' first | with_reducible refine checked_bind ?_ fun _ => ?_ | split) <;> simp
theorem bodyIdxDelete_pending {c} : EndsWaitingAs s (bodyIdxDelete c s) := by
  simp only [bodyIdxDelete]
  (repeat' first | with_reducible refine checked_bind ?_ fun _ => ?_ | split) <;> simp
theorem bodyIdxRebuild_pending {c} : EndsWaitingAs s (bodyIdxRebuild c s) := by
  simp only [bodyIdxRebuild, journalBegin_pair]
  (repeat' first | with_reducible refine checked_bind ?_ fun _ => ?_ | split) <;> simp
theorem execIdxRebuildDone_pending {slot} : AnswersWaitingAs s (execIdxRebuildDone slot s) := by
  simp only [execIdxRebuildDone]
  (repeat' split) <;> simp
theorem bodySrchBatch_pending {c} : EndsWaitingAs s (bodySrchBatch c s) := by
  simp only [bodySrchBatch, newObj_pair]
  (repeat' first | with_reducible refine checked_bind ?_ fun _ => ?_ | split) <;> simp
@[simp] theorem updBatch_pending {slot f} : (updBatch slot f s).pending = s.pending := by
  simp [updBatch]
@[simp] theorem updQuery_pending {slot i f} : (updQuery slot i f s).pending = s.pending := by
  simp [updQuery]
theorem execQueryStart_pending {engine} : AnswersWaitingAs s (execQueryStart engine s) := by
  unfold execQueryStart
  (repeat' split) <;> simp
@[simp] theorem endBatch_pending {slot} : (endBatch slot s).pending = s.pending := by
  unfold endBatch
  (repeat' split) <;> simp
@[simp] theorem deliverQuery_pending {slot i} : (deliverQuery slot i s).pending = s.pending := by
  unfold deliverQuery
  (repeat' split) <;> simp
@[simp] theorem answer_pending {slot i member a stale} : (answer slot i member a stale s).pending = s.pending := by
  unfold answer
  (repeat' split) <;> simp
theorem execQueryComplete_pending {batch query bad} : AnswersWaitingAs s (execQueryComplete batch query s bad) := by
  unfold execQueryComplete
  (repeat' split) <;> simp
@[simp] theorem cutBatch_pending {slot st} : (cutBatch slot st s).pending = s.pending := by
  simp [cutBatch]
theorem execSrchBatchDeadline_pending {batch} : AnswersWaitingAs s (execSrchBatchDeadline batch s) := by
  unfold execSrchBatchDeadline
  split <;> simp
theorem bodyIdxQuery_pending {c} : EndsWaitingAs s (bodyIdxQuery c s) := by
  simp only [bodyIdxQuery]
  exact checked_bind (by simp) fun _ => by simp
@[simp] theorem cancelMap_pending {q st} : (cancelMap q st s).pending = s.pending := by
  simp only [cancelMap]
  (repeat' split) <;> simp

/-! ### Ensembles -/

@[simp] theorem updEns_pending {f} : (updEns f s).pending = s.pending := by
  simp [updEns]
@[simp] theorem raiseEns_pending {ev detail} : (raiseEns ev detail s).pending = s.pending := by
  simp [raiseEns]
@[simp] theorem changeRef_pending {new} : (changeRef new s).pending = s.pending := by
  unfold changeRef
  split <;> simp
@[simp] theorem dropHeld_pending {p} : (dropHeld p s).pending = s.pending := by
  simp [dropHeld]
@[simp] theorem ensCheck_checked {c} : Checked (ensCheck c s) := by
  simp only [ensCheck]
  (repeat' first | with_reducible refine checked_bind ?_ fun _ => ?_ | split) <;> simp
theorem bodyEnsForm_pending {c} : EndsWaitingAs s (bodyEnsForm c s) := by
  simp only [bodyEnsForm, newObj_pair]
  exact checked_bind (by simp) fun _ => by simp
theorem bodyEnsJoin_pending {c} : EndsWaitingAs s (bodyEnsJoin c s) := by
  simp only [bodyEnsJoin]
  (repeat' first | with_reducible refine checked_bind ?_ fun _ => ?_ | split) <;> simp
@[simp] theorem finishJoin_pending : (finishJoin s).pending = s.pending := by
  simp only [finishJoin, newObj_pair]
  (repeat' split) <;> simp
@[simp] theorem dropJoin_pending {st} : (dropJoin st s).pending = s.pending := by
  unfold dropJoin
  split <;> simp
@[simp] theorem startReplica_pending {map sh} : (startReplica map sh s).pending = s.pending := by
  simp only [startReplica, journalBegin_pair]
  (repeat' split) <;> simp
@[simp] theorem unwait_pending {m m' k} : (unwait m m' k s).pending = s.pending := by
  simp [unwait]
@[simp] theorem mapAfter_pending {k m} : (mapAfter k s m).pending = s.pending := by
  simp [mapAfter]
@[simp] theorem rehome_pending {k m} : (rehome k s m).pending = s.pending := by
  unfold rehome
  split <;> simp
@[simp] theorem loseMember_pending {k} : (loseMember k s).pending = s.pending := by
  unfold loseMember
  split <;> simp
@[simp] theorem loseQuorum_pending : (loseQuorum s).pending = s.pending := by
  unfold loseQuorum
  split <;> simp
@[simp] theorem rejoin_pending {mask} : (rejoin mask s).pending = s.pending := by
  simp [rejoin]
@[simp] theorem agree_pending {mask} : (agree mask s).pending = s.pending := by
  unfold agree
  split <;> simp
theorem execMemberLoss_pending {k} : AnswersWaitingAs s (execMemberLoss k s) := by
  unfold execMemberLoss
  split <;> simp
@[simp] theorem commitReplica_pending {map sh k op} : (commitReplica map sh k op s).pending = s.pending := by
  simp [commitReplica]
@[simp] theorem linksDown_pending : (linksDown s).pending = s.pending := by
  simp [linksDown]
@[simp] theorem finishLeave_pending : (finishLeave s).pending = s.pending := by
  simp only [finishLeave]
  (repeat' split) <;> simp
theorem execReplicaCommit_pending {map sh} : AnswersWaitingAs s (execReplicaCommit map sh s) := by
  unfold execReplicaCommit
  split <;> simp
@[simp] theorem ensArg_checked : Checked (ensArg s) := by
  simp only [ensArg]
  (repeat' first | with_reducible refine checked_bind ?_ fun _ => ?_ | split) <;> simp

theorem bodyEnsLeave_pending {c} : EndsWaitingAs s (bodyEnsLeave c s) := by
  simp only [bodyEnsLeave, journalBegin_pair]
  refine checked_bind (by simp) fun e => checked_bind (by simp) fun _ => checked_bind (by simp) fun _ => ?_
  refine targetFits_yields.bind fun t ht => ?_
  have hs : t.pending = s.pending := ht.trans (foldl_snd_pending (fun _ _ => by exact targetShort_pending) _ _)
  simp [hs]

theorem execEnsLeave_pending {r io} : AnswersWaitingAs s (execEnsLeave r io s) := by
  have hs : AnswersWaitingAs s (serve iEnsLeave bodyEnsLeave r io s) :=
    serve_pending (fun _ => trivial) fun _ => bodyEnsLeave_pending
  unfold execEnsLeave
  split
  · next t e =>
    rw [e] at hs
    simpa using hs
  · exact hs

@[simp] theorem dropLeave_pending {st} : (dropLeave st s).pending = s.pending := by
  unfold dropLeave
  split <;> simp
theorem bodyEnsRemove_pending {c} : EndsWaitingAs s (bodyEnsRemove c s) := by
  simp only [bodyEnsRemove]
  (repeat' first | with_reducible refine checked_bind ?_ fun _ => ?_ | split) <;> simp

theorem bodyEnsReshard_pending {c} : EndsWaitingAs s (bodyEnsReshard c s) := by
  simp only [bodyEnsReshard]
  refine checked_bind (by simp) fun e => ?_
  split
  · refine checked_bind (by simp) fun _ => checked_bind (by simp) fun _ => checked_bind (by simp) fun _ =>
      checked_bind (by simp) fun _ => checked_bind (by simp) fun _ => checked_bind (by simp) fun _ => checked_bind (by simp) fun _ => ?_
    exact targetFits_yields.bind fun t ht => ht.trans (foldl_snd_pending (fun _ _ => by exact targetShort_pending) _ _)
  · simp

theorem execEnsReshard_pending {r io} : AnswersWaitingAs s (execEnsReshard r io s) := by
  have hs : AnswersWaitingAs s (serve iEnsReshard bodyEnsReshard r io s) :=
    serve_pending (fun _ => by simp [iEnsReshard]) fun _ => bodyEnsReshard_pending
  unfold execEnsReshard
  split
  · next t e =>
    rw [e] at hs
    have ht : t.pending = s.pending := hs
    simp [ht]
  · exact hs

theorem bodyEnsStatus_pending {c} : EndsWaitingAs s (bodyEnsStatus c s) := by
  simp only [bodyEnsStatus]
  exact checked_bind (by simp) fun _ => by simp
@[simp] theorem refusePort_pending {p reason} : (refusePort p reason s).pending = s.pending := by
  simp [refusePort]
theorem execTrellisLinkTrained_pending {p peer} : AnswersWaitingAs s (execTrellisLinkTrained p peer s) := by
  simp [execTrellisLinkTrained]
@[simp] theorem portUp_pending {p secret} : (portUp p secret s).pending = s.pending := by
  simp [portUp]
@[simp] theorem rekeyed_pending {p secret} : (rekeyed p secret s).pending = s.pending := by
  simp [rekeyed]
theorem execTrellisHandshakeMessage_pending {p m} : AnswersWaitingAs s (execTrellisHandshakeMessage p m s) := by
  simp only [execTrellisHandshakeMessage]
  (repeat' split) <;> simp
theorem execTrellisRefusalRetry_pending {p} : AnswersWaitingAs s (execTrellisRefusalRetry p s) := by
  simp [execTrellisRefusalRetry]
theorem execTrellisRekey_pending {p} : AnswersWaitingAs s (execTrellisRekey p s) := by
  unfold execTrellisRekey
  split <;> simp
@[simp] theorem foreignMap_pending {key home} : (foreignMap key home s).pending = s.pending := by
  simp [foreignMap, drawBytes]
@[simp] theorem holdShard_pending {key sh} : (holdShard key sh s).pending = s.pending := by
  unfold holdShard
  split <;> simp
@[simp] theorem frameIn_pending {p m} : (frameIn p m s).pending = s.pending := by
  unfold frameIn
  split <;> simp
theorem execTrellisFrameReceived_pending {p tag m} : AnswersWaitingAs s (execTrellisFrameReceived p tag m s) := by
  simp [execTrellisFrameReceived]
theorem execTrellisLinkLost_pending {p} : AnswersWaitingAs s (execTrellisLinkLost p s) := by
  simp [execTrellisLinkLost]
theorem execEnsTimeSync_pending {offset} : AnswersWaitingAs s (execEnsTimeSync offset s) := by
  unfold execEnsTimeSync
  split <;> simp
@[simp] theorem cancelEns_pending {q st} : (cancelEns q st s).pending = s.pending := by
  simp only [cancelEns]
  (repeat' split) <;> simp

/-! ### Power -/

@[simp] theorem limitFault_pending {addr} : (limitFault addr s).pending = s.pending := by
  simp [limitFault]
@[simp] theorem limFix_pending : (limFix s).pending = s.pending := by
  simp [limFix]
@[simp] theorem setLevel_pending {l} : (setLevel l s).pending = s.pending := by
  simp [setLevel]
theorem execLevelChoiceTick_pending {powerMw tj} : AnswersWaitingAs s (execLevelChoiceTick powerMw tj s) := by
  simp [execLevelChoiceTick]
@[simp] theorem forceSlower_pending {cause} : (forceSlower cause s).pending = s.pending := by
  simp [forceSlower]
@[simp] theorem thermTrip_pending : (thermTrip s).pending = s.pending := by
  simp [thermTrip]
@[simp] theorem backstopPower_pending {powerMw} : (backstopPower powerMw s).pending = s.pending := by
  simp [backstopPower]
@[simp] theorem backstopThermal_pending {tj} : (backstopThermal tj s).pending = s.pending := by
  simp [backstopThermal]
theorem execPowerBackstopTick_pending {powerMw tj} : AnswersWaitingAs s (execPowerBackstopTick powerMw tj s) := by
  simp [execPowerBackstopTick]
@[simp] theorem gateDom_pending {d} : (gateDom d s).pending = s.pending := by
  simp [gateDom]
@[simp] theorem startTest_pending {d req} : (startTest d req s).pending = s.pending := by
  simp [startTest]
@[simp] theorem parkDom_pending {d req} : (parkDom d req s).pending = s.pending := by
  simp [parkDom]
@[simp] theorem releasePads_pending {d} : (releasePads d s).pending = s.pending := by
  simp [releasePads]
@[simp] theorem domBack_pending {d} : (domBack d s).pending = s.pending := by
  simp [domBack]
theorem execDomainReturnDone_pending {d} : AnswersWaitingAs s (execDomainReturnDone d s) := by
  simp [execDomainReturnDone]
@[simp] theorem markBusy_pending : (markBusy s).pending = s.pending := by
  simp [markBusy]
theorem execDomainIdlePark_pending {d} : AnswersWaitingAs s (execDomainIdlePark d s) := by
  simp [execDomainIdlePark]
@[simp] theorem fence_pending {d mask whole} : (fence d mask whole s).pending = s.pending := by
  simp [fence]
@[simp] theorem belowMin_pending {c} : (belowMin c s).pending = s.pending := by
  simp [belowMin]
@[simp] theorem judgeTest_pending {d bad} : (judgeTest d bad s).pending = s.pending := by
  simp [judgeTest]
@[simp] theorem countTest_pending {d n} : (countTest d n s).pending = s.pending := by
  simp [countTest]
@[simp] theorem endTestReq_pending {req st r0} : (endTestReq req st r0 s).pending = s.pending := by
  unfold endTestReq
  split <;> simp
theorem execSelftestSliceDone_pending {d bad} : AnswersWaitingAs s (execSelftestSliceDone d bad s) := by
  unfold execSelftestSliceDone
  split <;> simp
theorem bodyPwrCapSet_pending {c} : EndsWaitingAs s (bodyPwrCapSet c s) := by
  simp [bodyPwrCapSet]
theorem bodyPwrLevelSet_pending {c} : EndsWaitingAs s (bodyPwrLevelSet c s) := by
  simp [bodyPwrLevelSet]
@[simp] theorem logPower_pending {kind target refuser step} : (logPower kind target refuser step s).pending = s.pending := by
  simp [logPower]
@[simp] theorem refusePark_pending {d refuser} : (refusePark d refuser s).pending = s.pending := by
  simp [refusePark]
@[simp] theorem keepsPending_refusePark {d refuser} : KeepsPending (refusePark d refuser) := ⟨fun _ => by simp⟩
theorem bodyPwrDomainPark_pending {c} : EndsWaitingAs s (bodyPwrDomainPark c s) := by
  simp only [bodyPwrDomainPark]
  (repeat' first | with_reducible refine checked_bind ?_ fun _ => ?_ | split) <;> simp
theorem bodyPwrPadRelease_pending {c} : EndsWaitingAs s (bodyPwrPadRelease c s) := by
  simp only [bodyPwrPadRelease]
  exact checked_bind (by simp) fun _ => by simp
theorem bodyPwrStatus_pending {c} : EndsWaitingAs s (bodyPwrStatus c s) := by
  simp [bodyPwrStatus]
theorem bodyPwrCounters_pending {c} : EndsWaitingAs s (bodyPwrCounters c s) := by
  simp [bodyPwrCounters]
@[simp] theorem raiseReady_pending : (raiseReady s).pending = s.pending := by
  simp [raiseReady]
@[simp] theorem restoreDoms_pending : (restoreDoms s).pending = s.pending := by
  simp [restoreDoms]
@[simp] theorem beginReturn_pending {left src flags} : (beginReturn left src flags s).pending = s.pending := by
  simp [beginReturn]
@[simp] theorem countAbort_pending {target refuser step} : (countAbort target refuser step s).pending = s.pending := by
  simp [countAbort]
@[simp] theorem abortEntry_pending {st refuser} : (abortEntry st refuser s).pending = s.pending := by
  unfold abortEntry
  (repeat' split) <;> simp

/-! ### Cancel -/

@[simp] theorem reopen_pending {r} : (reopen r s).pending = s.pending := rfl
@[simp] theorem dropRecast_pending {r} : (dropRecast r s).pending = s.pending := by
  unfold dropRecast
  split <;> simp
@[simp] theorem cancelRunning_pending {q st} : (cancelRunning q st s).pending = s.pending := by
  unfold cancelRunning
  split <;> simp
@[simp] theorem cancel_pending {q st} : (cancel q st s).pending = s.pending := by
  simp [cancel]
@[simp] theorem hidePair_pending {fn qid dest} : (hidePair fn qid dest s).pending = s.pending := by
  simp [hidePair]
@[simp] theorem cancelSilent_pending {q} : (cancelSilent q s).pending = s.pending := by
  unfold cancelSilent
  split <;> simp
@[simp] theorem cancelAll_pending {p} : (cancelAll p s).pending = s.pending := by
  simp [cancelAll]
@[simp] theorem timeOut_pending {q} : (timeOut q s).pending = s.pending := by
  unfold timeOut
  (repeat' split) <;> simp
theorem execCommandDeadline_pending {r} : AnswersWaitingAs s (execCommandDeadline r s) := by
  unfold execCommandDeadline
  split <;> simp
theorem execReleaseDeadline_pending {r} : AnswersWaitingAs s (execReleaseDeadline r s) := by
  unfold execReleaseDeadline
  split <;> simp
theorem execOrphanHoldExpiry_pending {ty slot} : AnswersWaitingAs s (execOrphanHoldExpiry ty slot s) := by
  unfold execOrphanHoldExpiry
  split <;> simp

/-! ### Sessions -/

theorem bodyAdmSessionOpen_pending {c} : EndsWaitingAs s (bodyAdmSessionOpen c s) := by
  simp only [bodyAdmSessionOpen, newObj_pair]
  (repeat' first | with_reducible refine checked_bind ?_ fun _ => ?_ | split) <;> simp
@[simp] theorem stopSheet_pending {slot} : (stopSheet slot s).pending = s.pending := by
  unfold stopSheet
  (repeat' split) <;> simp
@[simp] theorem stopInput_pending {o} : (stopInput o s).pending = s.pending := by
  unfold stopInput
  split <;> simp
@[simp] theorem orphan_pending {holdS o} : (orphan holdS o s).pending = s.pending := by
  simp [orphan]
@[simp] theorem endWork_pending {o} : (endWork o s).pending = s.pending := by
  unfold endWork
  split <;> simp
@[simp] theorem beginClose_pending {x mode} : (beginClose x mode s).2.2.pending = s.pending := by
  simp [beginClose]
@[simp] theorem beginCloseS_pending {a1 a2} : (beginCloseS a1 a2 s).pending = s.pending := by
  simp [beginCloseS]
@[simp] theorem closeNow_pending {mode x} : (closeNow mode x s).pending = s.pending := by
  simp only [closeNow, beginClose_pair]
  split <;> simp
@[simp] theorem closeSessions_pending {p} : (closeSessions p s).pending = s.pending := by
  simp [closeSessions]
theorem bodyAdmSessionClose_pending {c} : EndsWaitingAs s (bodyAdmSessionClose c s) := by
  simp only [bodyAdmSessionClose, beginClose_pair]
  split <;> simp
@[simp] theorem adoptArg_checked {c} : Checked (adoptArg c s) := by
  simp [adoptArg]
theorem bodyAdmSessionAdopt_pending {c} : EndsWaitingAs s (bodyAdmSessionAdopt c s) := by
  simp only [bodyAdmSessionAdopt]
  (repeat' first | with_reducible refine checked_bind ?_ fun _ => ?_ | split) <;> simp
theorem bodyAdmHandleQuery_pending {c} : EndsWaitingAs s (bodyAdmHandleQuery c s) := by
  simp only [bodyAdmHandleQuery]
  split <;> simp
theorem bodyAdmEventWait_pending {c} : EndsWaitingAs s (bodyAdmEventWait c s) := by
  simp only [bodyAdmEventWait]
  exact checked_bind (by simp) fun _ => by simp

/-! ### Security -/

@[simp] theorem pushBoot_pending {kind reason detail} : (pushBoot kind reason detail s).pending = s.pending := by
  simp [pushBoot]
@[simp] theorem policyReset_pending : (policyReset s).pending = s.pending := by
  simp [policyReset]
@[simp] theorem policyFix_pending : (policyFix s).pending = s.pending := by
  simp [policyFix]
@[simp] theorem eraseKeys_pending : (eraseKeys s).pending = s.pending := by
  simp [eraseKeys]
@[simp] theorem haltAct_pending : (haltAct s).pending = s.pending := by
  simp [haltAct]
@[simp] theorem throttleAct_pending {sensor} : (throttleAct sensor s).pending = s.pending := by
  simp [throttleAct]
@[simp] theorem recordAlarm_pending {sensor action detail} : (recordAlarm sensor action detail s).pending = s.pending := by
  simp [recordAlarm]
@[simp] theorem alarm_pending {sensor detail} : (alarm sensor detail s).pending = s.pending := by
  simp only [alarm]
  split <;> simp
theorem execTamperAlarm_pending {sensor detail} : AnswersWaitingAs s (execTamperAlarm sensor detail s) := by
  simp [execTamperAlarm]
@[simp] theorem actLatched_pending : (actLatched s).pending = s.pending := by
  simp [actLatched]
theorem execThrottleRelease_pending : AnswersWaitingAs s (execThrottleRelease s) := by
  simp [execThrottleRelease]
theorem execThermalTrip_pending {tj} : AnswersWaitingAs s (execThermalTrip tj s) := by
  simp [execThermalTrip]
@[simp] theorem closePort_pending {cause} : (closePort cause s).pending = s.pending := by
  simp [closePort]
theorem execChallengeExpiry_pending : AnswersWaitingAs s (execChallengeExpiry s) := by
  simp [execChallengeExpiry]
theorem execDebugPortExpiry_pending : AnswersWaitingAs s (execDebugPortExpiry s) := by
  simp [execDebugPortExpiry]
@[simp] theorem useChallenge_pending : (useChallenge s).pending = s.pending := by
  simp [useChallenge]
@[simp] theorem keepsPending_useChallenge : KeepsPending (useChallenge) := ⟨fun _ => by simp⟩
@[simp] theorem tokenCheck_checked {b bit} : Checked (tokenCheck b bit s) := by
  simp only [tokenCheck]
  (repeat' first | with_reducible refine checked_bind ?_ fun _ => ?_ | split) <;> simp
@[simp] theorem acceptToken_pending {b} : (acceptToken b s).pending = s.pending := by
  simp [acceptToken]
theorem bodySecQuote_pending {c} : EndsWaitingAs s (bodySecQuote c s) := by
  simp only [bodySecQuote]
  (repeat' first | with_reducible refine checked_bind ?_ fun _ => ?_ | split) <;> simp
@[simp] theorem lifeBurn_pending {old new pay} : (lifeBurn old new pay s).pending = s.pending := by
  unfold lifeBurn
  split <;> simp
@[simp] theorem measureLife_pending : (measureLife s).pending = s.pending := by
  simp [measureLife]
@[simp] theorem lifeMove_pending {old new pay} : (lifeMove old new pay s).pending = s.pending := by
  simp [lifeMove]
theorem bodySecLifecycle_pending {c} : EndsWaitingAs s (bodySecLifecycle c s) := by
  simp only [bodySecLifecycle]
  (repeat' first | with_reducible refine checked_bind ?_ fun _ => ?_ | split) <;> simp
theorem bodySecUnlockChallenge_pending {c} : EndsWaitingAs s (bodySecUnlockChallenge c s) := by
  simp [bodySecUnlockChallenge, drawBytes]
theorem bodySecUnlock_pending {c} : EndsWaitingAs s (bodySecUnlock c s) := by
  simp only [bodySecUnlock]
  (repeat' first | with_reducible refine checked_bind ?_ fun _ => ?_ | split) <;> simp
theorem bodySecAlarmPolicy_pending {c} : EndsWaitingAs s (bodySecAlarmPolicy c s) := by
  simp [bodySecAlarmPolicy]
theorem bodySecIdentityRead_pending {c} : EndsWaitingAs s (bodySecIdentityRead c s) := by
  simp only [bodySecIdentityRead]
  exact checked_bind (by simp) fun _ => by simp

/-! ### Boot -/

@[simp] theorem countReset_pending {ty} : (countReset ty s).pending = s.pending := by
  simp [countReset]
@[simp] theorem powerReset_pending : (powerReset s).pending = s.pending := by
  simp [powerReset]
@[simp] theorem coldReset_pending : (coldReset s).pending = s.pending := by
  simp [coldReset]
@[simp] theorem hold_pending : (hold s).pending = s.pending := by
  simp [hold]
@[simp] theorem enterUnderstudy_pending {reason} : (enterUnderstudy reason s).pending = s.pending := by
  simp [enterUnderstudy]
@[simp] theorem serviceFix_pending : (serviceFix s).pending = s.pending := by
  simp [serviceFix]
@[simp] theorem latchedAtStart_pending : (latchedAtStart s).pending = s.pending := by
  simp [latchedAtStart]

@[simp] theorem startStep2_pending : (startStep2 s).pending = s.pending := by
  unfold startStep2
  dsimp only
  generalize ht : latchedAtStart _ = t
  have hs : t.pending = s.pending := by
    rw [← ht]
    simp
  (repeat' split) <;> simp [hs]

@[simp] theorem startCold_pending : (startCold s).pending = s.pending := by
  simp [startCold]
@[simp] theorem tryStart_pending : (tryStart s).pending = s.pending := by
  simp [tryStart]
@[simp] theorem failStart_pending {reason} : (failStart reason s).pending = s.pending := by
  simp [failStart]
@[simp] theorem raiseMain_pending : (raiseMain s).pending = s.pending := by
  simp [raiseMain]
@[simp] theorem powerLost_pending : (powerLost s).pending = s.pending := by
  simp [powerLost]
theorem execVauxRise_pending {straps} : AnswersWaitingAs s (execVauxRise straps s) := by
  simp [execVauxRise]
theorem execPowerLoss_pending {vaux} : AnswersWaitingAs s (execPowerLoss vaux s) := by
  simp [execPowerLoss]

theorem execMainPgRise_pending {ns} : AnswersWaitingAs s (execMainPgRise s ns) := by
  unfold execMainPgRise
  exact pinPulse_pending fun s => by
    (repeat' split) <;> simp

theorem execMainPgFall_pending {ns} : AnswersWaitingAs s (execMainPgFall s ns) := by
  unfold execMainPgFall
  exact pinPulse_pending fun s => by
    (repeat' split) <;> simp

theorem execMainPgTimeout_pending : AnswersWaitingAs s (execMainPgTimeout s) := by
  simp [execMainPgTimeout]
theorem execMainPgReturnTimeout_pending : AnswersWaitingAs s (execMainPgReturnTimeout s) := by
  simp [execMainPgReturnTimeout]
@[simp] theorem pinReset_pending : (pinReset s).pending = s.pending := by
  simp [pinReset]

theorem execResetNAssert_pending {ns} : AnswersWaitingAs s (execResetNAssert s ns) := by
  unfold execResetNAssert
  exact pinPulse_pending fun s => by
    (repeat' split) <;> simp

theorem execResetNRelease_pending {straps ns} : AnswersWaitingAs s (execResetNRelease straps s ns) := by
  unfold execResetNRelease
  exact pinPulse_pending fun s => by
    (repeat' split) <;> simp

theorem execPerstNAssert_pending {ns} : AnswersWaitingAs s (execPerstNAssert s ns) := by
  unfold execPerstNAssert
  exact pinPulse_pending fun s => by
    (repeat' split) <;> simp

theorem execClkRefLoss_pending : AnswersWaitingAs s (execClkRefLoss s) := by
  simp [execClkRefLoss]
theorem execClkRefReturn_pending {straps} : AnswersWaitingAs s (execClkRefReturn straps s) := by
  simp [execClkRefReturn]
@[simp] theorem applyUcal_pending : (applyUcal s).pending = s.pending := by
  unfold applyUcal
  split <;> simp
@[simp] theorem startTest8_pending {failed d} : (startTest8 failed s d).pending = s.pending := by
  simp [startTest8]
@[simp] theorem serveAgain_pending {ty code} : (serveAgain ty code s).pending = s.pending := by
  simp [serveAgain]
theorem execColdStartReady_pending {failed} : AnswersWaitingAs s (execColdStartReady failed s) := by
  unfold execColdStartReady
  split <;> simp
theorem execBootWatchdog_pending : AnswersWaitingAs s (execBootWatchdog s) := by
  simp [execBootWatchdog]
@[simp] theorem raiseFloor_pending {b} : (raiseFloor b s).pending = s.pending := by
  simp [raiseFloor]
theorem execFscClear_pending : AnswersWaitingAs s (execFscClear s) := by
  simp only [execFscClear]
  (repeat' split) <;> simp
@[simp] theorem dropJournalled_pending : (dropJournalled s).pending = s.pending := rfl
@[simp] theorem warmReset_pending {cause} : (warmReset cause s).pending = s.pending := by
  simp [warmReset]
@[simp] theorem dueReset_pending : (dueReset s).pending = s.pending := by
  simp [dueReset]
@[simp] theorem leaveUnderstudy_pending : (leaveUnderstudy s).pending = s.pending := by
  simp [leaveUnderstudy]
@[simp] theorem serviceReset_pending {cause} : (serviceReset cause s).pending = s.pending := by
  simp [serviceReset]
theorem execSmWatchdog_pending : AnswersWaitingAs s (execSmWatchdog s) := by
  simp [execSmWatchdog]
theorem execLockstepMismatch_pending {mp} : AnswersWaitingAs s (execLockstepMismatch mp s) := by
  simp [execLockstepMismatch]

theorem execAdmResetWarm_pending {r io} : AnswersWaitingAs s (execAdmResetWarm r io s) := by
  simp only [execAdmResetWarm, answersWaitingAs_next]
  split
  · rfl
  · next q _ =>
    split
    · next f e =>
      have hv := validate_checked (s := s) (q := q) (io := io) (ci := iAdmResetWarm) fun _ => trivial
      rw [e] at hv
      simp [KeepsPending.pending hv s]
    · split <;> simp

@[simp] theorem countForward_pending : (countForward s).pending = s.pending := by
  simp [countForward]
@[simp] theorem countBack_pending : (countBack s).pending = s.pending := by
  simp [countBack]
@[simp] theorem replayMap_pending {m} : (replayMap s m).pending = s.pending := by
  unfold replayMap
  split <;> simp
@[simp] theorem replayIdx_pending {x} : (replayIdx s x).pending = s.pending := by
  unfold replayIdx
  split <;> simp
@[simp] theorem replayReplicas_pending : (replayReplicas s).pending = s.pending := by
  simp [replayReplicas]
@[simp] theorem replayLeave_pending : (replayLeave s).pending = s.pending := by
  unfold replayLeave
  split <;> simp
@[simp] theorem endRecast_pending {op} : (endRecast op s).pending = s.pending := by
  simp [endRecast]
@[simp] theorem takeFallback_pending : (takeFallback s).pending = s.pending := by
  simp [takeFallback]
@[simp] theorem replayRecast_pending : (replayRecast s).pending = s.pending := by
  unfold replayRecast
  (repeat' split) <;> simp
@[simp] theorem replay_pending : (replay s).pending = s.pending := by
  simp [replay]
theorem execWarmResetComplete_pending : AnswersWaitingAs s (execWarmResetComplete s) := by
  simp only [execWarmResetComplete]
  (repeat' split) <;> simp
theorem execStartAttemptFailure_pending {reason} : AnswersWaitingAs s (execStartAttemptFailure reason s) := by
  simp [execStartAttemptFailure]

/-! ### Recast -/

@[simp] theorem loadUcal_pending {b} : EndsWaitingAs s (loadUcal b s) := by
  simp only [loadUcal, draw]
  (repeat' first | with_reducible refine checked_bind ?_ fun _ => ?_ | split) <;> simp
@[simp] theorem loadUnderstudy_pending {i} : (loadUnderstudy i s).pending = s.pending := by
  simp [loadUnderstudy]
theorem bodyRecastImageLoad_pending {c} : EndsWaitingAs s (bodyRecastImageLoad c s) := by
  simp only [bodyRecastImageLoad]
  (repeat' first | with_reducible refine checked_bind ?_ fun _ => ?_ | split) <;> simp
@[simp] theorem floorOk_checked {i} : Checked (floorOk i s) := by
  simp [floorOk]
theorem bodyRecastCommit_pending {c} : EndsWaitingAs s (bodyRecastCommit c s) := by
  simp only [bodyRecastCommit, journalBegin_pair]
  (repeat' first | with_reducible refine checked_bind ?_ fun _ => ?_ | split) <;> simp
theorem bodyRecastFallback_pending {c} : EndsWaitingAs s (bodyRecastFallback c s) := by
  simp only [bodyRecastFallback, journalBegin_pair]
  (repeat' first | with_reducible refine checked_bind ?_ fun _ => ?_ | split) <;> simp
@[simp] theorem measureImage_pending : (measureImage s).pending = s.pending := by
  unfold measureImage
  split <;> simp
theorem execRecastHandover_pending : AnswersWaitingAs s (execRecastHandover s) := by
  simp only [execRecastHandover, draw]
  (repeat' split) <;> simp
theorem execProbationEnd_pending : AnswersWaitingAs s (execProbationEnd s) := by
  unfold execProbationEnd
  split <;> simp
theorem bodyDiagLogRead_pending {c} : EndsWaitingAs s (bodyDiagLogRead c s) := by
  simp only [bodyDiagLogRead]
  (repeat' first | with_reducible refine checked_bind ?_ fun _ => ?_ | split) <;> simp
@[simp] theorem diagClear_pending {n} : (diagClear n s).pending = s.pending := by
  unfold diagClear
  split <;> simp
theorem bodyDiagCounters_pending {c} : EndsWaitingAs s (bodyDiagCounters c s) := by
  simp [bodyDiagCounters]
theorem bodyDiagSelftestRecord_pending {c} : EndsWaitingAs s (bodyDiagSelftestRecord c s) := by
  simp only [bodyDiagSelftestRecord]
  (repeat' first | with_reducible refine checked_bind ?_ fun _ => ?_ | split) <;> simp
theorem bodyDiagJournalRead_pending {c} : EndsWaitingAs s (bodyDiagJournalRead c s) := by
  simp [bodyDiagJournalRead]
@[simp] theorem abortRuns_pending {p} : (abortRuns p s).pending = s.pending := by
  simp [abortRuns]
@[simp] theorem stopQuad_pending {d} : (stopQuad d s).pending = s.pending := by
  simp [stopQuad]
@[simp] theorem abortSets_pending {g} : (abortSets g s).pending = s.pending := by
  simp [abortSets]
@[simp] theorem abortSearch_pending {g} : (abortSearch g s).pending = s.pending := by
  simp [abortSearch]
@[simp] theorem restartChain_pending : (restartChain s).pending = s.pending := by
  simp [restartChain]
@[simp] theorem cutFrames_pending {d} : (cutFrames d s).pending = s.pending := by
  simp [cutFrames]
@[simp] theorem abortDomain_pending {d} : (abortDomain d s).pending = s.pending := by
  unfold abortDomain
  split <;> simp
@[simp] theorem resetCommon_pending : (resetCommon s).pending = s.pending := by
  simp [resetCommon]
theorem bodyAdmResetDomain_pending {c} : EndsWaitingAs s (bodyAdmResetDomain c s) := by
  simp only [bodyAdmResetDomain]
  (repeat' first | with_reducible refine checked_bind ?_ fun _ => ?_ | split) <;> simp

/-! ### Sleep -/

@[simp] theorem refuseEntry_pending {st refuser} : (refuseEntry st refuser s).pending = s.pending := by
  simp [refuseEntry]
@[simp] theorem keepsPending_refuseEntry {st refuser} : KeepsPending (refuseEntry st refuser) := ⟨fun _ => by simp⟩
@[simp] theorem gateEntry_pending {all d} : (gateEntry all s d).pending = s.pending := by
  simp [gateEntry]
@[simp] theorem beginEntry_pending {st wake edge waitMs r} : (beginEntry st wake edge waitMs r s).pending = s.pending := by
  simp [beginEntry]
theorem bodyPwrStateEnter_pending {c} : EndsWaitingAs s (bodyPwrStateEnter c s) := by
  simp only [bodyPwrStateEnter]
  (repeat' first | with_reducible refine checked_bind ?_ fun _ => ?_ | split) <;> simp
@[simp] theorem countWake_pending {src} : (countWake src s).pending = s.pending := by
  simp [countWake]
@[simp] theorem startWake_pending {src flags} : (startWake src flags s).pending = s.pending := by
  simp [startWake]
@[simp] theorem replayLatch_pending : (replayLatch s).pending = s.pending := by
  unfold replayLatch
  split <;> simp
@[simp] theorem wake_pending {src perst} : (wake src perst s).pending = s.pending := by
  simp [wake, draw]
@[simp] theorem inBand_pending : (inBand s).pending = s.pending := by
  simp [inBand]

theorem execWakeNEdge_pending {ns} : AnswersWaitingAs s (execWakeNEdge s ns) := by
  unfold execWakeNEdge
  exact pinPulse_pending fun s => by
    (repeat' split) <;> simp

theorem execGpioWakeEdge_pending {n rising ns} : AnswersWaitingAs s (execGpioWakeEdge n rising s ns) := by
  unfold execGpioWakeEdge
  exact pinPulse_pending fun s => by
    (repeat' split) <;> simp

theorem execSbWakeTransaction_pending {read} : AnswersWaitingAs s (execSbWakeTransaction read s) := by
  simp [execSbWakeTransaction]
theorem execTimeAlarmFire_pending {n} : AnswersWaitingAs s (execTimeAlarmFire n s) := by
  unfold execTimeAlarmFire
  split <;> simp
@[simp] theorem reachState_pending {st step} : (reachState st step s).pending = s.pending := rfl
@[simp] theorem entryDone_pending {e} : (entryDone e s).pending = s.pending := by
  simp [entryDone]
@[simp] theorem gatePorts_pending : (gatePorts s).pending = s.pending := by
  simp only [gatePorts]
  split <;> simp
@[simp] theorem enterS4_pending : (enterS4 s).pending = s.pending := by
  simp [enterS4]
theorem execSleepEntryGated_pending : AnswersWaitingAs s (execSleepEntryGated s) := by
  unfold execSleepEntryGated
  split <;> simp
@[simp] theorem abortLate_pending {refuser} : (abortLate refuser s).pending = s.pending := by
  unfold abortLate
  split <;> simp
theorem execEntryLinkTimeout_pending : AnswersWaitingAs s (execEntryLinkTimeout s) := by
  unfold execEntryLinkTimeout
  split <;> simp
theorem execDomainGateTimeout_pending {d} : AnswersWaitingAs s (execDomainGateTimeout d s) := by
  unfold execDomainGateTimeout
  split <;> simp
@[simp] theorem linkToL2_pending : (linkToL2 s).pending = s.pending := by
  simp [linkToL2]
@[simp] theorem enterS3_pending : (enterS3 s).pending = s.pending := by
  simp [enterS3]
theorem execPmeTurnOff_pending : AnswersWaitingAs s (execPmeTurnOff s) := by
  unfold execPmeTurnOff
  split <;> simp
@[simp] theorem restoreM_pending : (restoreM s).2.pending = s.pending := by
  unfold restoreM
  split <;> simp
@[simp] theorem restoreMS_pending : (restoreMS s).pending = s.pending := by
  simp [restoreMS]
@[simp] theorem haltedDoms_pending : (haltedDoms s).pending = s.pending := by
  simp [haltedDoms]
@[simp] theorem endReturn_pending {left src flags} : (endReturn left src flags s).pending = s.pending := by
  simp [endReturn]
theorem execReturnComplete_pending : AnswersWaitingAs s (execReturnComplete s) := by
  unfold execReturnComplete
  split <;> simp
theorem execBrownOut_pending : AnswersWaitingAs s (execBrownOut s) := by
  simp [execBrownOut]
@[simp] theorem releaseWakeN_pending : (releaseWakeN s).pending = s.pending := by
  simp [releaseWakeN]
theorem execPcieLinkTrained_pending {gen width} : AnswersWaitingAs s (execPcieLinkTrained gen width s) := by
  simp [execPcieLinkTrained]
theorem execWakeNDriveExpiry_pending : AnswersWaitingAs s (execWakeNDriveExpiry s) := by
  simp [execWakeNDriveExpiry]

theorem execPerstNRelease_pending {straps ns} : AnswersWaitingAs s (execPerstNRelease straps s ns) := by
  unfold execPerstNRelease
  exact pinPulse_pending fun s => by
    (repeat' split) <;> simp

/-! ### Admin -/

theorem bodyAdmIdentify_pending {c} : EndsWaitingAs s (bodyAdmIdentify c s) := by
  simp [bodyAdmIdentify]
@[simp] theorem deletePair_pending {fn qid} : (deletePair fn qid s).pending = s.pending := by
  simp [deletePair]
@[simp] theorem giveUp_pending {fn n} : (giveUp fn n s).pending = s.pending := by
  simp [giveUp]
theorem bodyAdmQueueCreate_pending {c} : EndsWaitingAs s (bodyAdmQueueCreate c s) := by
  simp only [bodyAdmQueueCreate]
  (repeat' first | with_reducible refine checked_bind ?_ fun _ => ?_ | split) <;> simp
theorem bodyAdmQueueDelete_pending {c} : EndsWaitingAs s (bodyAdmQueueDelete c s) := by
  simp only [bodyAdmQueueDelete]
  exact checked_bind (by simp) fun _ => by simp
theorem bodyAdmQueueModify_pending {c} : EndsWaitingAs s (bodyAdmQueueModify c s) := by
  simp only [bodyAdmQueueModify]
  exact checked_bind (by simp) fun _ => by simp
theorem bodyAdmQueueQuery_pending {c} : EndsWaitingAs s (bodyAdmQueueQuery c s) := by
  simp [bodyAdmQueueQuery]
theorem bodyAdmQueueGrant_pending {c} : EndsWaitingAs s (bodyAdmQueueGrant c s) := by
  simp only [bodyAdmQueueGrant]
  (repeat' first | with_reducible refine checked_bind ?_ fun _ => ?_ | split) <;> simp
theorem bodyAdmLimitsRead_pending {c} : EndsWaitingAs s (bodyAdmLimitsRead c s) := by
  simp [bodyAdmLimitsRead]
theorem bodyAdmAbort_pending {c} : EndsWaitingAs s (bodyAdmAbort c s) := by
  simp only [bodyAdmAbort]
  (repeat' first | with_reducible refine checked_bind ?_ fun _ => ?_ | split) <;> simp

/-! ### Link -/

@[simp] theorem hostWrite_pending {fn : Nat} {f : State → State} (hf : (f s).pending = s.pending) :
    AnswersWaitingAs s (hostWrite fn f s) := by
  simp [hostWrite, hf]
@[simp] theorem hostRead_pending {fn : Nat} {f : State → State} (hf : (f s).pending = s.pending) :
    AnswersWaitingAs s (hostRead fn f s) := by
  simp [hostRead, hf]
@[simp] theorem refuseQz_pending {fn} : (refuseQz fn s).pending = s.pending := by
  simp [refuseQz]
@[simp] theorem breakLow_pending {fn} : (breakLow fn s).pending = s.pending := by
  simp [breakLow]
@[simp] theorem breakHold_pending {fn} : (breakHold fn s).pending = s.pending := by
  simp [breakHold]
@[simp] theorem refuseCommit_pending {fn cq} : (refuseCommit fn cq s).pending = s.pending := by
  simp [refuseCommit]
@[simp] theorem writeHalf_pending {fn cq comp v} : (writeHalf fn cq comp v s).pending = s.pending := by
  unfold writeHalf
  (repeat' split) <;> simp
@[simp] theorem refuseShape_pending {fn} : (refuseShape fn s).pending = s.pending := by
  simp [refuseShape]
@[simp] theorem writeBase_pending {fn off size v} : (writeBase fn off size v s).pending = s.pending := by
  simp only [writeBase]
  (repeat' split) <;> simp
theorem execQzBaseWrite_pending {fn off size v} : AnswersWaitingAs s (execQzBaseWrite fn off size v s) := by
  simp [execQzBaseWrite]
@[simp] theorem writeDepth_pending {fn v} : (writeDepth fn v s).pending = s.pending := by
  simp [writeDepth]
@[simp] theorem enableZero_pending {fn vector intEn} : (enableZero fn vector intEn s).pending = s.pending := by
  simp [enableZero]
@[simp] theorem writeCtrl_pending {fn v} : (writeCtrl fn v s).pending = s.pending := by
  simp [writeCtrl]
@[simp] theorem hostCtrl_pending {fn v} : AnswersWaitingAs s (hostCtrl fn v s) := by
  simp [hostCtrl]
theorem execQzEnable_pending {fn v} : AnswersWaitingAs s (execQzEnable fn v s) := by
  simp [execQzEnable]
theorem execQzDisable_pending {fn v} : AnswersWaitingAs s (execQzDisable fn v s) := by
  simp [execQzDisable]
theorem execQzCtrlUpdate_pending {fn v} : AnswersWaitingAs s (execQzCtrlUpdate fn v s) := by
  simp [execQzCtrlUpdate]
theorem execQzDbRefusedRead_pending {fn} : AnswersWaitingAs s (execQzDbRefusedRead fn s) := by
  simp [execQzDbRefusedRead]
@[simp] theorem refuseDb_pending {fn qid reason} : (refuseDb fn qid reason s).pending = s.pending := by
  simp [refuseDb]
@[simp] theorem ringTail_pending {fn qid size v} : (ringTail fn qid size v s).pending = s.pending := by
  unfold ringTail
  split <;> simp
@[simp] theorem ringHead_pending {fn qid size v} : (ringHead fn qid size v s).pending = s.pending := by
  unfold ringHead
  split <;> simp
@[simp] theorem doorbell_pending {fn off size v} : (doorbell fn off size v s).pending = s.pending := by
  simp [doorbell, draw]
theorem execSqTailDoorbell_pending {fn off size v} : AnswersWaitingAs s (execSqTailDoorbell fn off size v s) := by
  unfold execSqTailDoorbell
  simp
theorem execCqHeadDoorbell_pending {fn off size v} : AnswersWaitingAs s (execCqHeadDoorbell fn off size v s) := by
  unfold execCqHeadDoorbell
  simp
theorem execCoalTimer_pending {fn qid} : AnswersWaitingAs s (execCoalTimer fn qid s) := by
  unfold execCoalTimer
  split <;> simp
@[simp] theorem sendPending_pending {fn e} : (sendPending fn s e).pending = s.pending := by
  simp [sendPending]
@[simp] theorem flushPending_pending {fn} : (flushPending fn s).pending = s.pending := by
  simp [flushPending]
theorem execMsixUnmask_pending {fn u} : AnswersWaitingAs s (execMsixUnmask fn u s) := by
  simp [execMsixUnmask]
theorem execBusMasterEnable_pending {fn} : AnswersWaitingAs s (execBusMasterEnable fn s) := by
  unfold execBusMasterEnable
  (repeat' split) <;> simp -implicitDefEqProofs
theorem execVfEnableSet_pending {n} : AnswersWaitingAs s (execVfEnableSet n s) := by
  simp [execVfEnableSet]
@[simp] theorem resetFn_pending {fn} : (resetFn fn s).pending = s.pending := by
  simp [resetFn]
@[simp] theorem clearVfs_pending : (clearVfs s).pending = s.pending := by
  simp [clearVfs]
theorem execVfEnableClear_pending : AnswersWaitingAs s (execVfEnableClear s) := by
  simp [execVfEnableClear]
@[simp] theorem resetPf_pending : (resetPf s).pending = s.pending := by
  simp [resetPf]
theorem execFunctionLevelReset_pending {fn} : AnswersWaitingAs s (execFunctionLevelReset fn s) := by
  simp [execFunctionLevelReset]
@[simp] theorem linkFalls_pending : (linkFalls s).pending = s.pending := by
  simp [linkFalls]
theorem execLinkDown_pending : AnswersWaitingAs s (execLinkDown s) := by
  simp [execLinkDown]
theorem execPcieRefclkLoss_pending : AnswersWaitingAs s (execPcieRefclkLoss s) := by
  simp [execPcieRefclkLoss]
@[simp] theorem freeParams_pending {ci q} : (freeParams ci q s).2.pending = s.pending := by
  unfold freeParams
  split <;> simp
@[simp] theorem freeParamsS_pending {a1 a2} : (freeParamsS a1 a2 s).pending = s.pending := by
  simp [freeParamsS]
@[simp] theorem openReq_pending {src e} : (openReq src e s).pending = s.pending := by
  simp only [openReq, freeParams_pair]
  (repeat' split) <;> simp

theorem arbitrate_pending {p : QPair} (e : arbitrate s = some (p, t)) : t.pending = s.pending := by
  simp only [arbitrate] at e
  split at e
  · cases e; rfl
  · split at e
    · split at e <;> cases e <;> rfl
    · obtain ⟨y, -, hy⟩ := Option.map_eq_some_iff.mp e
      cases hy
      rfl

theorem execSqFetch_pending {got : Fetched} : AnswersWaitingAs s (execSqFetch got s) := by
  simp only [execSqFetch, answersWaitingAs_next]
  split
  · rfl
  · split
    · rfl
    · next p t e =>
      have ht := arbitrate_pending e
      (repeat' split) <;> simp [ht]

@[simp] theorem refuseCb_pending {reason} : (refuseCb reason s).pending = s.pending := by
  simp [refuseCb]
@[simp] theorem ring_pending {v} : (ring v s).pending = s.pending := by
  simp [ring]
@[simp] theorem ack_pending {v} : (ack v s).pending = s.pending := by
  simp [ack]
theorem execCbRing_pending {v} : AnswersWaitingAs s (execCbRing v s) := by
  simp [execCbRing]
theorem execCbAck_pending {v} : AnswersWaitingAs s (execCbAck v s) := by
  simp [execCbAck]
theorem execCbRefusedRead_pending : AnswersWaitingAs s (execCbRefusedRead s) := by
  unfold execCbRefusedRead
  simp -implicitDefEqProofs
theorem execCbHwTimeout_pending : AnswersWaitingAs s (execCbHwTimeout s) := by
  simp [execCbHwTimeout]

/-! ### Registers -/

@[simp] theorem updSlack_pending {n f} : (updSlack n f s).pending = s.pending := by
  simp [updSlack]
theorem execSlackMeasure_pending {n num den} : AnswersWaitingAs s (execSlackMeasure n num den s) := by
  simp [execSlackMeasure]
@[simp] theorem countFence_pending {wr d} : (countFence wr d s).pending = s.pending := by
  unfold countFence
  split <;> simp
theorem execSlkMinRead_pending {n} : AnswersWaitingAs s (execSlkMinRead n s) := by
  simp [execSlkMinRead]
@[simp] theorem clearSeen_pending {n v} : (clearSeen n v s).pending = s.pending := by
  simp [clearSeen]
theorem execSlkNegSeenClear_pending {n v} : AnswersWaitingAs s (execSlkNegSeenClear n v s) := by
  simp [execSlkNegSeenClear]
@[simp] theorem clearWake_pending {v} : (clearWake v s).pending = s.pending := by
  simp [clearWake]
theorem execGlWakeClear_pending {v} : AnswersWaitingAs s (execGlWakeClear v s) := by
  simp [execGlWakeClear]
theorem execTbWord0Read_pending {size} : AnswersWaitingAs s (execTbWord0Read size s) := by
  simp [execTbWord0Read]
theorem execFenceCounterRead_pending {d wr} : AnswersWaitingAs s (execFenceCounterRead d wr s) := by
  simp [execFenceCounterRead]
@[simp] theorem writeMsix_pending {fn rel v} : (writeMsix fn rel v s).pending = s.pending := by
  simp [writeMsix]
@[simp] theorem writeCb_pending {off v} : (writeCb off v s).pending = s.pending := by
  simp [writeCb]
@[simp] theorem writeSlack_pending {off v} : (writeSlack off v s).pending = s.pending := by
  simp [writeSlack]
@[simp] theorem write4_pending {fn off v} : (write4 fn off v s).pending = s.pending := by
  simp only [write4]
  (repeat' split) <;> simp
theorem execRegisterWrite_pending {fn off size v} : AnswersWaitingAs s (execRegisterWrite fn off size v s) := by
  simp [execRegisterWrite]
@[simp] theorem refuseSb_pending {reason} : (refuseSb reason s).pending = s.pending := by
  simp [refuseSb]
theorem execSbRegisterWrite_pending {w} : AnswersWaitingAs s (execSbRegisterWrite w s) := by
  simp [execSbRegisterWrite]
theorem execSbSetIndex_pending {i} : AnswersWaitingAs s (execSbSetIndex i s) := by
  simp [execSbSetIndex]
theorem execSbDynamicAddress_pending {addr} : AnswersWaitingAs s (execSbDynamicAddress addr s) := by
  simp [execSbDynamicAddress]
theorem execSbSclTimeout_pending : AnswersWaitingAs s (execSbSclTimeout s) := by
  simp [execSbSclTimeout]
theorem execSbRefusedRead_pending : AnswersWaitingAs s (execSbRefusedRead s) := by
  simp [execSbRefusedRead]
theorem execSbMirrorTick_pending : AnswersWaitingAs s (execSbMirrorTick s) := by
  simp [execSbMirrorTick]
theorem execPhyRefclkLoss_pending {trellis} : AnswersWaitingAs s (execPhyRefclkLoss trellis s) := by
  simp [execPhyRefclkLoss]
theorem execPhyRefclkReturn_pending {trellis} : AnswersWaitingAs s (execPhyRefclkReturn trellis s) := by
  simp [execPhyRefclkReturn]

/-! ### Scrub -/

@[simp] theorem putLog_pending {h} : (putLog h s).pending = s.pending := by
  simp [putLog]

@[simp] theorem retire_pending {p syndrome} : (retire p syndrome s).pending = s.pending := by
  unfold retire
  dsimp only
  split
  · simp
  · next t e =>
    have ht := takeGranule_pending e
    simp [ht]

@[simp] theorem correctedAt_pending {p word syndrome} : (correctedAt p word syndrome s).pending = s.pending := by
  simp [correctedAt]
@[simp] theorem ueRecord_pending {p syndrome action h} : (ueRecord p syndrome action h s).pending = s.pending := by
  simp [ueRecord]
@[simp] theorem ueObject_pending {p syndrome ty slot} : (ueObject p syndrome ty slot s).pending = s.pending := by
  simp [ueObject]
@[simp] theorem uePair_pending {p syndrome src} : (uePair p syndrome src s).pending = s.pending := by
  simp [uePair]
@[simp] theorem poisonAlloc_pending {p syndrome slot word} : (poisonAlloc p syndrome slot word s).pending = s.pending := by
  unfold poisonAlloc
  split <;> simp
@[simp] theorem badBlock_pending {p syndrome pkg block} : (badBlock p syndrome pkg block s).pending = s.pending := by
  simp [badBlock]
@[simp] theorem badImage_pending {p syndrome pkg} : (badImage p syndrome pkg s).pending = s.pending := by
  simp [badImage]
@[simp] theorem badStored_pending {p c syndrome} : (badStored p c syndrome s).pending = s.pending := by
  unfold badStored
  split <;> simp
@[simp] theorem uncorrectable_pending {p c syndrome} : (uncorrectable p c syndrome s).pending = s.pending := by
  unfold uncorrectable
  split <;> simp
theorem execScrubRead_pending {f} : AnswersWaitingAs s (execScrubRead f s) := by
  unfold execScrubRead
  (repeat' split) <;> simp
theorem execGranuleRetireDone_pending {granule} : AnswersWaitingAs s (execGranuleRetireDone granule s) := by
  simp [execGranuleRetireDone]
@[simp] theorem endDeadRuns_pending {slot} : (endDeadRuns slot s).pending = s.pending := by
  simp [endDeadRuns]
@[simp] theorem giveUpBlocks_pending {slot is} : (giveUpBlocks slot is s).pending = s.pending := by
  simp [giveUpBlocks]
@[simp] theorem restoreBlock_pending {slot i} : (restoreBlock slot s i).pending = s.pending := by
  simp [restoreBlock]

theorem takeGranules_pending {n : Nat} (e : takeGranules n s = some t) : t.pending = s.pending := by
  induction n generalizing s with
  | zero => cases e; rfl
  | succ n ih =>
    obtain ⟨u, hu, he⟩ := Option.bind_eq_some_iff.mp e
    exact (ih he).trans (takeGranule_pending hu)

@[simp] theorem passFailed_pending {p r is} : (passFailed p r is s).pending = s.pending := by
  simp [passFailed]
@[simp] theorem undecoded_pending {slot} : (undecoded slot s).pending = s.pending := by
  simp [undecoded]

theorem execRefetchPassEnd_pending {pkg got} : AnswersWaitingAs s (execRefetchPassEnd pkg got s) := by
  simp only [execRefetchPassEnd, answersWaitingAs_next]
  split
  · rfl
  · split
    · rfl
    · next p _ r _ =>
      split
      · rfl
      · split
        · simp
        · split
          · simp
          · split
            · simp
            · split
              · simp
              · next t e =>
                have ht := takeGranules_pending e
                simp [ht]

theorem execRefetchRetry_pending {pkg} : AnswersWaitingAs s (execRefetchRetry pkg s) := by
  unfold execRefetchRetry
  split <;> simp
end

section
/-! ### Every command -/

variable {s : State}

theorem iAdmSessionAdopt_hands_checked {c : Ctx} : Checked (iAdmSessionAdopt.hands c s) := by
  simp [iAdmSessionAdopt]

theorem iStreamOpen_hands_checked {c : Ctx} : Checked (iStreamOpen.hands c s) := by
  simp only [iStreamOpen]
  (repeat' first | with_reducible refine checked_bind ?_ fun _ => ?_ | split) <;> simp

theorem iFiltOpen_hands_checked {c : Ctx} : Checked (iFiltOpen.hands c s) := by
  simp only [iFiltOpen]
  (repeat' first | with_reducible refine checked_bind ?_ fun _ => ?_ | split) <;> simp

theorem iInstCreate_hands_checked {c : Ctx} : Checked (iInstCreate.hands c s) := by
  simp [iInstCreate]

theorem iCalCreate_hands_checked {c : Ctx} : Checked (iCalCreate.hands c s) := by
  simp only [iCalCreate]
  (repeat' first | with_reducible refine checked_bind ?_ fun _ => ?_ | split) <;> simp

theorem iSolvLoad_hands_checked {c : Ctx} : Checked (iSolvLoad.hands c s) := by
  simp only [iSolvLoad]
  (repeat' first | with_reducible refine checked_bind ?_ fun _ => ?_ | split) <;> simp

theorem iSolvDelta_hands_checked {c : Ctx} : Checked (iSolvDelta.hands c s) := by
  simp only [iSolvDelta]
  (repeat' first | with_reducible refine checked_bind ?_ fun _ => ?_ | split) <;> simp

theorem iSolvRun_hands_checked {c : Ctx} : Checked (iSolvRun.hands c s) := by
  simp only [iSolvRun]
  (repeat' first | with_reducible refine checked_bind ?_ fun _ => ?_ | split) <;> simp

theorem iMapCheckpoint_hands_checked {c : Ctx} : Checked (iMapCheckpoint.hands c s) := by
  simp [iMapCheckpoint]

theorem iMapRestore_hands_checked {c : Ctx} : Checked (iMapRestore.hands c s) := by
  simp [iMapRestore]

theorem iSrchBatch_hands_checked {c : Ctx} : Checked (iSrchBatch.hands c s) := by
  simp [iSrchBatch]

/-- What `exec` answers waits on the commands that waited before. -/
theorem exec_pending (c : Instr) (s : State) : AnswersWaitingAs s (exec c s) := by
  cases c with
  | admIdentify => exact serve_pending (fun _ => trivial) fun _ => bodyAdmIdentify_pending
  | admSessionOpen => exact serve_pending (fun _ => trivial) fun _ => bodyAdmSessionOpen_pending
  | admSessionClose => exact serve_pending (fun _ => trivial) fun _ => bodyAdmSessionClose_pending
  | admSessionAdopt => exact serve_pending (fun _ => iAdmSessionAdopt_hands_checked) fun _ => bodyAdmSessionAdopt_pending
  | admQueueCreate => exact serve_pending (fun _ => trivial) fun _ => bodyAdmQueueCreate_pending
  | admQueueDelete => exact serve_pending (fun _ => trivial) fun _ => bodyAdmQueueDelete_pending
  | admQueueModify => exact serve_pending (fun _ => trivial) fun _ => bodyAdmQueueModify_pending
  | admQueueQuery => exact serve_pending (fun _ => trivial) fun _ => bodyAdmQueueQuery_pending
  | admQueueGrant => exact serve_pending (fun _ => trivial) fun _ => bodyAdmQueueGrant_pending
  | admHandleQuery => exact serve_pending (fun _ => trivial) fun _ => bodyAdmHandleQuery_pending
  | admLimitsRead => exact serve_pending (fun _ => trivial) fun _ => bodyAdmLimitsRead_pending
  | admAbort => exact serve_pending (fun _ => trivial) fun _ => bodyAdmAbort_pending
  | admResetWarm => exact execAdmResetWarm_pending
  | admResetDomain => exact serve_pending (fun _ => trivial) fun _ => bodyAdmResetDomain_pending
  | admEventWait => exact serve_pending (fun _ => trivial) fun _ => bodyAdmEventWait_pending
  | streamOpen => exact serve_pending (fun _ => iStreamOpen_hands_checked) fun _ => bodyStreamOpen_pending
  | streamClose => exact serve_pending (fun _ => trivial) fun _ => bodyStreamClose_pending
  | streamStart => exact serve_pending (fun _ => trivial) fun _ => bodyStreamStart_pending
  | streamStop => exact serve_pending (fun _ => trivial) fun _ => bodyStreamStop_pending
  | streamQuery => exact serve_pending (fun _ => trivial) fun _ => bodyStreamQuery_pending
  | streamSetWindow => exact serve_pending (fun _ => trivial) fun _ => bodyStreamSetWindow_pending
  | streamFrameRelease => exact serve_pending (fun _ => trivial) fun _ => bodyStreamFrameRelease_pending
  | filtOpen => exact serve_pending (fun _ => iFiltOpen_hands_checked) fun _ => bodyFiltOpen_pending
  | filtClose => exact serve_pending (fun _ => trivial) fun _ => releaseBody_pending
  | filtLoadBank => exact serve_pending (fun _ => trivial) fun _ => bodyFiltLoadBank_pending
  | filtSwap => exact serve_pending (fun _ => trivial) fun _ => bodyFiltSwap_pending
  | filtCrossfade => exact serve_pending (fun _ => trivial) fun _ => bodyFiltCrossfade_pending
  | filtSetPhase => exact serve_pending (fun _ => trivial) fun _ => bodyFiltSetPhase_pending
  | filtDcFreeze => exact serve_pending (fun _ => trivial) fun _ => bodyFiltDcFreeze_pending
  | filtDelayQuery => exact serve_pending (fun _ => trivial) fun _ => bodyFiltDelayQuery_pending
  | cueLoad => exact serve_pending (fun _ => trivial) fun _ => bodyCueLoad_pending
  | cueUnload => exact serve_pending (fun _ => trivial) fun _ => bodyCueUnload_pending
  | cueStart => exact serve_pending (fun _ => trivial) fun _ => bodyCueStart_pending
  | cueStop => exact serve_pending (fun _ => trivial) fun _ => bodyCueStop_pending
  | cueQuery => exact serve_pending (fun _ => trivial) fun _ => bodyCueQuery_pending
  | cueFlagRead => exact serve_pending (fun _ => trivial) fun _ => bodyCueFlagRead_pending
  | pkgLoad => exact serve_pending (fun _ => trivial) fun _ => bodyPkgLoad_pending
  | pkgUnload => exact serve_pending (fun _ => trivial) fun _ => bodyPkgUnload_pending
  | instCreate => exact serve_pending (fun _ => iInstCreate_hands_checked) fun _ => bodyInstCreate_pending
  | instDestroy => exact serve_pending (fun _ => trivial) fun _ => bodyInstDestroy_pending
  | inferRun => exact serve_pending (fun _ => trivial) fun _ => bodyInferRun_pending
  | instQuery => exact serve_pending (fun _ => trivial) fun _ => bodyInstQuery_pending
  | pkgQuery => exact serve_pending (fun _ => trivial) fun _ => bodyPkgQuery_pending
  | gridCreate => exact serve_pending (fun _ => trivial) fun _ => bodyGridCreate_pending
  | gridDestroy => exact serve_pending (fun _ => trivial) fun _ => bodyGridDestroy_pending
  | calCreate => exact serve_pending (fun _ => iCalCreate_hands_checked) fun _ => bodyCalCreate_pending
  | calDestroy => exact serve_pending (fun _ => trivial) fun _ => bodyCalDestroy_pending
  | gridRead => exact serve_pending (fun _ => trivial) fun _ => bodyGridRead_pending
  | gridClear => exact serve_pending (fun _ => trivial) fun _ => bodyGridClear_pending
  | gridVoteSet => exact serve_pending (fun _ => trivial) fun _ => bodyGridVoteSet_pending
  | gridPoseSubmit => exact serve_pending (fun _ => trivial) fun _ => bodyGridPoseSubmit_pending
  | gridStatus => exact serve_pending (fun _ => trivial) fun _ => bodyGridStatus_pending
  | solvLoad => exact serve_pending (fun _ => iSolvLoad_hands_checked) fun _ => bodySolvLoad_pending
  | solvUnload => exact serve_pending (fun _ => trivial) fun _ => bodySolvUnload_pending
  | solvDelta => exact serve_pending (fun _ => iSolvDelta_hands_checked) fun _ => bodySolvDelta_pending
  | solvRun => exact serve_pending (fun _ => iSolvRun_hands_checked) fun _ => bodySolvRun_pending
  | solvResult => exact serve_pending (fun _ => trivial) fun _ => bodySolvResult_pending
  | solvQuery => exact serve_pending (fun _ => trivial) fun _ => bodySolvQuery_pending
  | mapCreate => exact serve_pending (fun _ => trivial) fun _ => bodyMapCreate_pending
  | mapDestroy => exact serve_pending (fun _ => trivial) fun _ => bodyMapDestroy_pending
  | mapInsert => exact serve_pending (fun _ => trivial) fun _ => bodyMapInsert_pending
  | mapDelete => exact serve_pending (fun _ => trivial) fun _ => bodyMapDelete_pending
  | mapRead => exact serve_pending (fun _ => trivial) fun _ => bodyMapRead_pending
  | mapTraverse => exact serve_pending (fun _ => trivial) fun _ => bodyMapTraverse_pending
  | mapDeadheadSet => exact serve_pending (fun _ => trivial) fun _ => bodyMapDeadheadSet_pending
  | mapRepot => exact serve_pending (fun _ => trivial) fun _ => bodyMapRepot_pending
  | mapCheckpoint => exact serve_pending (fun _ => iMapCheckpoint_hands_checked) fun _ => bodyMapCheckpoint_pending
  | mapRestore => exact serve_pending (fun _ => iMapRestore_hands_checked) fun _ => bodyMapRestore_pending
  | idxCreate => exact serve_pending (fun _ => trivial) fun _ => bodyIdxCreate_pending
  | idxDestroy => exact serve_pending (fun _ => trivial) fun _ => bodyIdxDestroy_pending
  | idxInsert => exact serve_pending (fun _ => trivial) fun _ => bodyIdxInsert_pending
  | idxDelete => exact serve_pending (fun _ => trivial) fun _ => bodyIdxDelete_pending
  | idxRebuild => exact serve_pending (fun _ => trivial) fun _ => bodyIdxRebuild_pending
  | srchBatch => exact serve_pending (fun _ => iSrchBatch_hands_checked) fun _ => bodySrchBatch_pending
  | idxQuery => exact serve_pending (fun _ => trivial) fun _ => bodyIdxQuery_pending
  | memAlloc => exact serve_pending (fun _ => trivial) fun _ => bodyMemAlloc_pending
  | memFree => exact serve_pending (fun _ => trivial) fun _ => bodyMemFree_pending
  | memCopy => exact serve_pending (fun _ => trivial) fun _ => bodyMemCopy_pending
  | memSeal => exact serve_pending (fun _ => trivial) fun _ => bodyMemSeal_pending
  | memMapBar4 => exact serve_pending (fun _ => trivial) fun _ => bodyMemMapBar4_pending
  | memUnmapBar4 => exact serve_pending (fun _ => trivial) fun _ => bodyMemUnmapBar4_pending
  | memQuotaSet => exact serve_pending (fun _ => trivial) fun _ => bodyMemQuotaSet_pending
  | memQuotaQuery => exact serve_pending (fun _ => trivial) fun _ => bodyMemQuotaQuery_pending
  | memStats => exact serve_pending (fun _ => trivial) fun _ => bodyMemStats_pending
  | ensForm => exact serve_pending (fun _ => trivial) fun _ => bodyEnsForm_pending
  | ensJoin => exact serve_pending (fun _ => trivial) fun _ => bodyEnsJoin_pending
  | ensLeave => exact execEnsLeave_pending
  | ensRemove => exact serve_pending (fun _ => trivial) fun _ => bodyEnsRemove_pending
  | ensReshard => exact execEnsReshard_pending
  | ensStatus => exact serve_pending (fun _ => trivial) fun _ => bodyEnsStatus_pending
  | pwrCapSet => exact serve_pending (fun _ => trivial) fun _ => bodyPwrCapSet_pending
  | pwrLevelSet => exact serve_pending (fun _ => trivial) fun _ => bodyPwrLevelSet_pending
  | pwrStateEnter => exact serve_pending (fun _ => trivial) fun _ => bodyPwrStateEnter_pending
  | pwrDomainPark => exact serve_pending (fun _ => trivial) fun _ => bodyPwrDomainPark_pending
  | pwrPadRelease => exact serve_pending (fun _ => trivial) fun _ => bodyPwrPadRelease_pending
  | pwrStatus => exact serve_pending (fun _ => trivial) fun _ => bodyPwrStatus_pending
  | pwrCounters => exact serve_pending (fun _ => trivial) fun _ => bodyPwrCounters_pending
  | timeRead => exact serve_pending (fun _ => trivial) fun _ => bodyTimeRead_pending
  | timeSet => exact serve_pending (fun _ => trivial) fun _ => bodyTimeSet_pending
  | timeAdjust => exact serve_pending (fun _ => trivial) fun _ => bodyTimeAdjust_pending
  | timePtpConfig => exact serve_pending (fun _ => trivial) fun _ => bodyTimePtpConfig_pending
  | timeAlarmSet => exact serve_pending (fun _ => trivial) fun _ => bodyTimeAlarmSet_pending
  | timeStatus => exact serve_pending (fun _ => trivial) fun _ => bodyTimeStatus_pending
  | secQuote => exact serve_pending (fun _ => trivial) fun _ => bodySecQuote_pending
  | secLifecycle => exact serve_pending (fun _ => trivial) fun _ => bodySecLifecycle_pending
  | secUnlockChallenge => exact serve_pending (fun _ => trivial) fun _ => bodySecUnlockChallenge_pending
  | secUnlock => exact serve_pending (fun _ => trivial) fun _ => bodySecUnlock_pending
  | secAlarmPolicy => exact serve_pending (fun _ => trivial) fun _ => bodySecAlarmPolicy_pending
  | secIdentityRead => exact serve_pending (fun _ => trivial) fun _ => bodySecIdentityRead_pending
  | diagLogRead => exact serve_pending (fun _ => trivial) fun _ => bodyDiagLogRead_pending
  | diagCounters => exact serve_pending (fun _ => trivial) fun _ => bodyDiagCounters_pending
  | diagSelftestRecord => exact serve_pending (fun _ => trivial) fun _ => bodyDiagSelftestRecord_pending
  | recastImageLoad => exact serve_pending (fun _ => trivial) fun _ => bodyRecastImageLoad_pending
  | recastCommit => exact serve_pending (fun _ => trivial) fun _ => bodyRecastCommit_pending
  | recastFallback => exact serve_pending (fun _ => trivial) fun _ => bodyRecastFallback_pending
  | diagJournalRead => exact serve_pending (fun _ => trivial) fun _ => bodyDiagJournalRead_pending
  | registerWrite => exact execRegisterWrite_pending
  | qzBaseWrite => exact execQzBaseWrite_pending
  | qzEnable => exact execQzEnable_pending
  | qzDisable => exact execQzDisable_pending
  | qzCtrlUpdate => exact execQzCtrlUpdate_pending
  | sqTailDoorbell => exact execSqTailDoorbell_pending
  | cqHeadDoorbell => exact execCqHeadDoorbell_pending
  | qzDbRefusedRead => exact execQzDbRefusedRead_pending
  | bar4MissRead => exact execBar4MissRead_pending
  | bar4Access => exact execBar4Access_pending
  | cbRing => exact execCbRing_pending
  | cbAck => exact execCbAck_pending
  | cbRefusedRead => exact execCbRefusedRead_pending
  | cbHwTimeout => exact execCbHwTimeout_pending
  | tbWord0Read => exact execTbWord0Read_pending
  | glWakeClear => exact execGlWakeClear_pending
  | slkNegSeenClear => exact execSlkNegSeenClear_pending
  | slkMinRead => exact execSlkMinRead_pending
  | fenceCounterRead => exact execFenceCounterRead_pending
  | msixUnmask => exact execMsixUnmask_pending
  | busMasterEnable => exact execBusMasterEnable_pending
  | vfEnableSet => exact execVfEnableSet_pending
  | vfEnableClear => exact execVfEnableClear_pending
  | functionLevelReset => exact execFunctionLevelReset_pending
  | linkDown => exact execLinkDown_pending
  | sqFetch => exact execSqFetch_pending
  | coalTimer => exact execCoalTimer_pending
  | commandDeadline => exact execCommandDeadline_pending
  | releaseDeadline => exact execReleaseDeadline_pending
  | orphanHoldExpiry => exact execOrphanHoldExpiry_pending
  | csiFrameStart => exact execCsiFrameStart_pending
  | csiPacket => exact execCsiPacket_pending
  | csiFrameEnd => exact execCsiFrameEnd_pending
  | ethFrameReceived => exact execEthFrameReceived_pending
  | ptpMasterTimeout => exact execPtpMasterTimeout_pending
  | timeAlarmFire => exact execTimeAlarmFire_pending
  | spiCnvStrobe => exact execSpiCnvStrobe_pending
  | spiDrdyEdge => exact execSpiDrdyEdge_pending
  | spiTransactionDone => exact execSpiTransactionDone_pending
  | spiDrdyGap => exact execSpiDrdyGap_pending
  | filtHeldInput => exact execFiltHeldInput_pending
  | encEdge => exact execEncEdge_pending
  | encIndex => exact execEncIndex_pending
  | encSample => exact execEncSample_pending
  | cueSlotMissing => exact execCueSlotMissing_pending
  | cueSetDeadline => exact execCueSetDeadline_pending
  | visionBandDone => exact execVisionBandDone_pending
  | visionNodeDone => exact execVisionNodeDone_pending
  | cueExternalWaitMet => exact execCueExternalWaitMet_pending
  | tileFlagWrite => exact execTileFlagWrite_pending
  | taskComplete => exact execTaskComplete_pending
  | taskWatchdog => exact execTaskWatchdog_pending
  | tileSteal => exact execTileSteal_pending
  | weightLanded => exact execWeightLanded_pending
  | lateWeightExpiry => exact execLateWeightExpiry_pending
  | weightTimeout => exact execWeightTimeout_pending
  | flagWaitMet => exact execFlagWaitMet_pending
  | flagWaitExpiry => exact execFlagWaitExpiry_pending
  | scatterBatch => exact execScatterBatch_pending
  | epochLimit => exact execEpochLimit_pending
  | epochClose => exact execEpochClose_pending
  | solveStart => exact execSolveStart_pending
  | solveComplete => exact execSolveComplete_pending
  | solveDeadline => exact execSolveDeadline_pending
  | queryStart => exact execQueryStart_pending
  | queryComplete => exact execQueryComplete_pending
  | srchBatchDeadline => exact execSrchBatchDeadline_pending
  | deadheadPass => exact execDeadheadPass_pending
  | repotCopyDone => exact execRepotCopyDone_pending
  | repotCommit => exact execRepotCommit_pending
  | repotPauseExpiry => exact execRepotPauseExpiry_pending
  | idxRebuildDone => exact execIdxRebuildDone_pending
  | scrubRead => exact execScrubRead_pending
  | granuleRetireDone => exact execGranuleRetireDone_pending
  | refetchPassEnd => exact execRefetchPassEnd_pending
  | refetchRetry => exact execRefetchRetry_pending
  | allocMove => exact execAllocMove_pending
  | trellisLinkTrained => exact execTrellisLinkTrained_pending
  | trellisHandshakeMessage => exact execTrellisHandshakeMessage_pending
  | trellisRefusalRetry => exact execTrellisRefusalRetry_pending
  | trellisRekey => exact execTrellisRekey_pending
  | trellisFrameReceived => exact execTrellisFrameReceived_pending
  | trellisLinkLost => exact execTrellisLinkLost_pending
  | memberLoss => exact execMemberLoss_pending
  | ensTimeSync => exact execEnsTimeSync_pending
  | replicaCommit => exact execReplicaCommit_pending
  | levelChoiceTick => exact execLevelChoiceTick_pending
  | powerBackstopTick => exact execPowerBackstopTick_pending
  | thermalTrip => exact execThermalTrip_pending
  | domainIdlePark => exact execDomainIdlePark_pending
  | selftestSliceDone => exact execSelftestSliceDone_pending
  | domainReturnDone => exact execDomainReturnDone_pending
  | pmeTurnOff => exact execPmeTurnOff_pending
  | entryLinkTimeout => exact execEntryLinkTimeout_pending
  | domainGateTimeout => exact execDomainGateTimeout_pending
  | wakeNEdge => exact execWakeNEdge_pending
  | gpioWakeEdge => exact execGpioWakeEdge_pending
  | returnComplete => exact execReturnComplete_pending
  | brownOut => exact execBrownOut_pending
  | powerLoss => exact execPowerLoss_pending
  | vauxRise => exact execVauxRise_pending
  | mainPgRise => exact execMainPgRise_pending
  | mainPgFall => exact execMainPgFall_pending
  | mainPgTimeout => exact execMainPgTimeout_pending
  | mainPgReturnTimeout => exact execMainPgReturnTimeout_pending
  | resetNAssert => exact execResetNAssert_pending
  | resetNRelease => exact execResetNRelease_pending
  | perstNAssert => exact execPerstNAssert_pending
  | perstNRelease => exact execPerstNRelease_pending
  | clkRefLoss => exact execClkRefLoss_pending
  | clkRefReturn => exact execClkRefReturn_pending
  | pcieRefclkLoss => exact execPcieRefclkLoss_pending
  | phyRefclkLoss => exact execPhyRefclkLoss_pending
  | coldStartReady => exact execColdStartReady_pending
  | bootWatchdog => exact execBootWatchdog_pending
  | fscClear => exact execFscClear_pending
  | smWatchdog => exact execSmWatchdog_pending
  | lockstepMismatch => exact execLockstepMismatch_pending
  | warmResetComplete => exact execWarmResetComplete_pending
  | recastHandover => exact execRecastHandover_pending
  | probationEnd => exact execProbationEnd_pending
  | tamperAlarm => exact execTamperAlarm_pending
  | throttleRelease => exact execThrottleRelease_pending
  | challengeExpiry => exact execChallengeExpiry_pending
  | debugPortExpiry => exact execDebugPortExpiry_pending
  | slackMeasure => exact execSlackMeasure_pending
  | sbRegisterWrite => exact execSbRegisterWrite_pending
  | sbSetIndex => exact execSbSetIndex_pending
  | sbDynamicAddress => exact execSbDynamicAddress_pending
  | sbWakeTransaction => exact execSbWakeTransaction_pending
  | sbSclTimeout => exact execSbSclTimeout_pending
  | sbRefusedRead => exact execSbRefusedRead_pending
  | sbMirrorTick => exact execSbMirrorTick_pending
  | sleepEntryGated => exact execSleepEntryGated_pending
  | pcieLinkTrained => exact execPcieLinkTrained_pending
  | wakeNDriveExpiry => exact execWakeNDriveExpiry_pending
  | phyRefclkReturn => exact execPhyRefclkReturn_pending
  | startAttemptFailure => exact execStartAttemptFailure_pending
  | mapCommandDone => exact execMapCommandDone_pending
  | slewAbsorbed => exact execSlewAbsorbed_pending
  | ptpTransmitInterval => exact execPtpTransmitInterval_pending

/-- Settles O3: `exec_pending` on an answer that is a next state. -/
theorem execKeepsTheQueue : Obligations.ExecKeepsTheQueue := by
  intro c s t h
  have hp := exec_pending c s
  rw [h] at hp
  exact hp
end
end Sys2Proof.Machine
